-- ==== Sys2Proof/Word.lean ====
section
/-!
DEFINITION. Sys2Proof/Word.lean: the words of the Gokaris G5 engine and its plainest data: bytes,
32- and 64-bit words, the two dies (R1) and the twelve number formats (R26).
-/
namespace Sys2Proof

/-- A byte; memory and every structure of R9 is made of these. -/
abbrev Byte := BitVec 8
/-- A run of bytes, byte 0 first (R9). -/
abbrev Bytes := List (BitVec 8)
/-- A register word of the Tag aperture (19, R456). -/
abbrev W32 := BitVec 32
/-- A 64-bit quantity: the time base, counters, fence counters. -/
abbrev W64 := BitVec 64
/-- A sparse table by number, keys strictly rising; a number that is not listed has its default. -/
abbrev SMap (α : Type) := List (Nat × α)

/-- The two dies of the manual (R1). -/
inductive Die where
  | g5x16
  | g5x8
  deriving DecidableEq, Repr

/-- The formats of R26, in the order of their codes. -/
inductive Format where
  | int4 | int8 | fp4e2m1 | fp6e2m3 | fp6e3m2 | fp8e4m3 | fp8e5m2
  | bf16 | binary16 | gf24 | binary32 | binary64
  deriving DecidableEq, Repr

end Sys2Proof
end

