-- ==== Sys2Proof/Syntax.lean ====
section
/-!
DEFINITION. Sys2Proof/Syntax.lean: the commands of the block, one constructor per row of
spec/opcode_table.json, in the table's order, with the operands of each. A row that is a host
opcode (10_opcode_reference) carries the context and SEQ of the accepted command, whose packet
the journal entry holds; `faults` are the errors that R361 and R370 detect while the step runs, in order.
-/
namespace Sys2Proof

/-- An error met while core work runs (R361, R370). -/
inductive CoreFault where
  /-- the result that the welt lanes see in a welt check of the work, by its number in the order of the checks (R363). -/
  | welt (check : Nat) (result : BitVec 64)
  /-- an uncorrectable error of the L1 or the Hem of a core. -/
  | memory (core : Nat)
  /-- a single-bit error of the L1 or the Hem of a core, corrected. -/
  | corrected (core : Nat)
  /-- a single-bit error of the L2 or the translation cache of a sleeve, corrected. -/
  | cacheCorrected (sleeve : Nat)
  /-- an uncorrectable error of a line of the L2 of a sleeve. -/
  | lineLost (sleeve line : Nat)
  /-- an uncorrectable error of an entry of the translation cache of a sleeve: context and 64 KiB page. -/
  | entryLost (sleeve ctx page : Nat)
  deriving DecidableEq, Repr

/-- What the checksum of a Gusset sees of a matrix product (R372): its sleeve, the number of the row sum among those of the
command, and the sum that it forms of the result. -/
structure GussetFault where
  sleeve : Nat
  check : Nat
  sum : BitVec 64
  deriving DecidableEq, Repr

/-- Where a register access comes from: a Seam port with the far endpoint and whether its packet
was encrypted, or the I3C Tag port (R393, R457). -/
inductive Source where
  | seam (port endpoint : Nat) (enc : Bool)
  | i3c
  deriving DecidableEq, Repr

/-- What a stack access returns (R301). -/
inductive AccessResult where
  | ok | corrected | uncorrectable | parityError | crcError
  deriving DecidableEq, Repr

/-- A configuration frame of the far side (R424, R428). -/
structure ConfigFrame where
  die : BitVec 8
  port : BitVec 8
  groups : BitVec 8
  credits : List Nat
  deriving DecidableEq, Repr

/-- A Seam frame as received (R422, R423): whether the FEC could correct it, the frame control
word and the packet space. -/
structure Frame where
  fecOk : Bool
  fecCorrected : Bool
  control : BitVec 60
  space : List (BitVec 8)
  deriving DecidableEq, Repr

/-- The measurements that a metering interval ends with (R343, R346, R348, R350). -/
structure Metering where
  /-- raw energy of domains 0-26 in nJ (R351). -/
  raw : List Nat
  /-- the port half of each stack domain, in nJ (R343). -/
  portHalf : List Nat
  /-- sensor readings in 1/16 degree, sleeves first, uncore last (R348). -/
  sensors : List Int
  deriving DecidableEq, Repr

/-- An element of a channel key exchange (R409). -/
structure KeyxMsg where
  peerEphemeral : List (BitVec 8)
  peerIdentity : List (BitVec 8)
  peerChain : List (BitVec 8)
  sigR : Nat
  sigS : Nat
  deriving DecidableEq, Repr

/-- The SPDM 1.3 requests, by kind (R412); `vendor` is a vendor-defined one, `other` any that the
subset leaves out. -/
inductive SpdmReq where
  | getVersion
  | getCapabilities
  | negotiateAlgorithms (p384 sha384 aes256gcm : Bool)
  | getDigests
  | getCertificate (slot : Nat)
  | challenge (slot : Nat) (nonce : BitVec 256)
  | getMeasurements (index : Nat) (sign : Bool) (nonce : BitVec 256)
  | keyExchange (slot : Nat) (share : List (BitVec 8))
  | finish (session : Nat)
  | keyUpdate (session : Nat)
  | endSession (session : Nat)
  | chunk (session : Nat)
  | other (code : Nat)
  deriving DecidableEq, Repr

/-- The ready token of R191. -/
structure ReadyToken where
  lap : Nat
  digest : BitVec 64
  backups : BitVec 1024
  missing : Bool
  mismatch : Bool
  deriving DecidableEq, Repr

/-- What the stack or the handshake watchdog reported of a sleeve (R371). -/
inductive SleeveCause where
  | fabricEcc | handshakeStall
  deriving DecidableEq, Repr

/-- What starts a Collar soft reset besides FW_COMMIT (R381). -/
inductive SoftCause where
  | watchdog | memoryEcc
  deriving DecidableEq, Repr

/-- The commands. -/
inductive Instr where
  | coldReset (straps : BitVec 6)
  | powerFail
  | warmReset
  | warmResetRelease
  | timeSyncEdge (elapsed : Nat)
  | syncLost (elapsed : Nat)
  | slewWindow
  | meteringInterval (m : Metering)
  | tripEnd
  | aliveToggle
  | liningSelfTest
  | bootChunk (src : Source) (offset : Nat) (data : List (BitVec 8))
  | bundleVerify
  | selfCheck (sleeve : Nat) (coresFailed : BitVec 8) (gussetFailed fabricFailed : Bool)
  | stackTrainingDone (m : Nat) (ok : Bool) (capacity height rate lanes : Nat)
  | stackZeroed (m : Nat)
  | refreshManagementRequest (m pc bank : Nat)
  | stackAccessReturn (m pc line : Nat) (r : AccessResult)
  | seamDetect (p : Nat) (tx rx : BitVec 4)
  | seamEqualiseDone (p : Nat) (tx rx : BitVec 4)
  | configFrame (p : Nat) (f : ConfigFrame)
  | seamTrainTimeout (p : Nat)
  | frameReceive (p : Nat) (f : Frame)
  | inboundMwr (p ep addr : Nat) (data : List (BitVec 8))
  | inboundMrd (p ep addr len tag : Nat)
  | cpl (p tag status : Nat) (data : List (BitVec 8))
  | rrd (p ep offset words tag : Nat)
  | rwr (p ep : Nat) (enc : Bool) (offset : Nat) (data : List (BitVec 32)) (tag : Nat)
  | keyx (p ep : Nat) (m : KeyxMsg)
  | spdmRequest (p ep : Nat) (r : SpdmReq)
  | bounceBind (p ep session ctx base pages tags : Nat)
  | ryBlock (p ep vc : Nat) (block : List (BitVec 8)) (adderFaults : List Nat)
  | resend (p ep vc stream blockSeq : Nat)
  | readyToken (p ep vc : Nat) (t : ReadyToken)
  | backupReady (p ep vc : Nat)
  | backupRequest (p ep vc : Nat)
  | ryDeadline (group : Nat)
  | normToken (p ep vc lap tensor : Nat) (value : BitVec 64)
  | parameterHeader (p ep vc : Nat) (data : List (BitVec 8))
  | parameterData (p ep vc : Nat) (data : List (BitVec 8))
  | forecastData (p ep vc : Nat) (data : List (BitVec 8))
  | i3cPrivateWrite (data : List (BitVec 8))
  | i3cPrivateRead (count : Nat)
  | entdaa (address : BitVec 7)
  | setdasa (staticAddress address : BitVec 7)
  | setnewda (address : BitVec 7)
  | rstdaa
  | getpid
  | getbcr
  | getdcr
  | getstatus
  | getmwl
  | getmrl
  | enec (events : BitVec 8)
  | disec (events : BitVec 8)
  | bypass
  | idcode
  | samplePreload (cells : BitVec 32)
  | extest
  | clamp
  | highz
  | doorbell (src : Source) (ctx : Nat) (value : BitVec 32)
  | packetAccept (ctx : Nat)
  | commandDispatch (ctx : Nat)
  | queueGrant (core : Nat)
  | chainAdmit
  | deadlockBreak
  | commandComplete (ctx : Nat) (seq : BitVec 32)
  | nop (ctx : Nat) (seq : BitVec 32)
  | fence (ctx : Nat) (seq : BitVec 32)
  | signal (ctx : Nat) (seq : BitVec 32)
  | wait (ctx : Nat) (seq : BitVec 32)
  | chain (ctx : Nat) (seq : BitVec 32)
  | contextOpen (ctx : Nat) (seq : BitVec 32)
  | contextClose (ctx : Nat) (seq : BitVec 32)
  | preempt (ctx : Nat) (seq : BitVec 32) (cursors : List (Nat × Nat × Nat))
  | queryCaps (ctx : Nat) (seq : BitVec 32)
  | copy (ctx : Nat) (seq : BitVec 32)
  | streamDefine (ctx : Nat) (seq : BitVec 32)
  | prefetch (ctx : Nat) (seq : BitVec 32)
  | multicast (ctx : Nat) (seq : BitVec 32) (detached : List (Nat × Nat))
  | gather (ctx : Nat) (seq : BitVec 32) (faults : List CoreFault)
  | scatter (ctx : Nat) (seq : BitVec 32) (faults : List CoreFault)
  | pocketWrite (ctx : Nat) (seq : BitVec 32)
  | pocketRead (ctx : Nat) (seq : BitVec 32)
  | mmFwd (ctx : Nat) (seq : BitVec 32) (faults : List CoreFault)
  | mmDx (ctx : Nat) (seq : BitVec 32) (faults : List CoreFault)
  | mmDw (ctx : Nat) (seq : BitVec 32) (faults : List CoreFault)
  | mmConvFwd (ctx : Nat) (seq : BitVec 32) (faults : List CoreFault)
  | mmConvDx (ctx : Nat) (seq : BitVec 32) (faults : List CoreFault)
  | mmConvDw (ctx : Nat) (seq : BitVec 32) (faults : List CoreFault)
  | mmDist (ctx : Nat) (seq : BitVec 32) (faults : List CoreFault)
  | mmSafe (ctx : Nat) (seq : BitVec 32) (faults : List CoreFault)
  | vecOp (ctx : Nat) (seq : BitVec 32) (faults : List CoreFault)
  | softmaxBwd (ctx : Nat) (seq : BitVec 32) (faults : List CoreFault)
  | normBwd (ctx : Nat) (seq : BitVec 32) (faults : List CoreFault)
  | maskPack (ctx : Nat) (seq : BitVec 32) (faults : List CoreFault)
  | tieSum (ctx : Nat) (seq : BitVec 32) (faults : List CoreFault)
  | update (ctx : Nat) (seq : BitVec 32) (faults : List CoreFault) (gussetFaults : List GussetFault)
  | updateRows (ctx : Nat) (seq : BitVec 32) (faults : List CoreFault)
  | precondFactor (ctx : Nat) (seq : BitVec 32) (faults : List CoreFault) (gussetFaults : List GussetFault)
  | versionRelease (ctx : Nat) (seq : BitVec 32)
  | ryRoundOpen (ctx : Nat) (seq : BitVec 32)
  | ryContribute (ctx : Nat) (seq : BitVec 32)
  | ryHop (ctx : Nat) (seq : BitVec 32) (adderFaults : List Nat)
  | ryOwn (ctx : Nat) (seq : BitVec 32)
  | ryRoundClose (ctx : Nat) (seq : BitVec 32)
  | ryParamSend (ctx : Nat) (seq : BitVec 32)
  | ryParamRecv (ctx : Nat) (seq : BitVec 32)
  | govBounds (ctx : Nat) (seq : BitVec 32)
  | govRead (ctx : Nat) (seq : BitVec 32)
  | govStep (ctx : Nat) (seq : BitVec 32)
  | schedLoad (ctx : Nat) (seq : BitVec 32)
  | schedArm (ctx : Nat) (seq : BitVec 32)
  | energyMark (ctx : Nat) (seq : BitVec 32)
  | receiptIssue (ctx : Nat) (seq : BitVec 32)
  | powerReserve (ctx : Nat) (seq : BitVec 32)
  | sealImport (ctx : Nat) (seq : BitVec 32)
  | attest (ctx : Nat) (seq : BitVec 32)
  | roleSession (ctx : Nat) (seq : BitVec 32)
  | profileLoad (ctx : Nat) (seq : BitVec 32)
  | fwStage (ctx : Nat) (seq : BitVec 32)
  | fwCommit (ctx : Nat) (seq : BitVec 32)
  | counterSnap (ctx : Nat) (seq : BitVec 32)
  | traceCtl (ctx : Nat) (seq : BitVec 32)
  | traceTrigger (ctx : Nat) (seq : BitVec 32)
  | ctxCqHeadWrite (src : Source) (ctx : Nat) (value : BitVec 32)
  | colXlateInval (src : Source) (value : BitVec 32)
  | xlateInvalDone
  | colJrnlCtlEnable (src : Source) (value : BitVec 32)
  | colRetireReq (src : Source) (value : BitVec 32)
  | colLossClear (src : Source) (value : BitVec 32)
  | colCtx0Apply (src : Source) (value : BitVec 32)
  | linCtx0EpWrite (src : Source) (value : BitVec 32)
  | tbLoadHiWrite (src : Source) (value : BitVec 32)
  | beltPowerCapWrite (src : Source) (value : BitVec 32)
  | beltCoolantInWrite (src : Source) (value : BitVec 32)
  | beltCalWrite (src : Source) (domain : Nat) (value : BitVec 32)
  | enrol (src : Source) (value : BitVec 32)
  | enrolRemove (src : Source) (value : BitVec 32)
  | latchedPairRead (src : Source) (offset : Nat)
  | registerWrite (src : Source) (offset : Nat) (value : BitVec 32)
  | challengeExpiry (endpoint role : Nat)
  | authLockoutEnd (endpoint : Nat)
  | sleeveFault (sleeve : Nat) (cause : SleeveCause)
  | collarSoftReset (cause : SoftCause)
  | recovery
  | coldResetAssert
  | stackUnrecoverableCondition (m : Nat)
  | timeBaseSlew
  | perBankRefresh (m pc bank : Nat)
  | stackTemperatureReadOut (m : Nat) (temperature : BitVec 16)
  deriving DecidableEq, Repr

end Sys2Proof
end

