-- ==== Sys2Proof/Decode.lean ====
section
/-!
DEFINITION. Sys2Proof/Decode.lean: the words of the table. No row of spec/opcode_table.json gives a
word or a bit field: a command reaches the block as a packet, a register access, a pin or a bus event,
never as an instruction word. No word therefore spells a command.
-/
namespace Sys2Proof

/-- The command that a word of the table's bits spells: none, since no row has bits. -/
def decodeTableWord (_nbits _w : Nat) : Option Instr := none

end Sys2Proof
end

