-- ==== Sys2Proof/Machine/Crypto.lean ====
section
/-!
DEFINITION. Sys2Proof/Machine/Crypto.lean: the standard algorithms that the manual names: SHA-384,
HMAC and HKDF over it, AES-256-GCM (R400-R414), ECDSA and ECDH on P-384 with RFC 6979 nonces (R358),
CRC-32C (R375), the CRC-16 of frames (R423) and Philox4x32-10 (R53, R439).
-/
namespace Sys2Proof.Machine

/-! ## Byte order -/

/-- The value of bytes read little-endian (R9). -/
def leNat : Bytes → Nat
  | [] => 0
  | b :: bs => b.toNat + 256 * leNat bs

/-- `n` bytes of a value, little-endian (R9). -/
def leBytes : Nat → Nat → Bytes
  | 0, _ => []
  | n + 1, v => BitVec.ofNat 8 v :: leBytes n (v / 256)

/-- The value of bytes read big-endian (signatures, R358). -/
def beNat (bs : Bytes) : Nat := bs.foldl (fun a b => a * 256 + b.toNat) 0

/-- `n` bytes of a value, big-endian. -/
def beBytes (n v : Nat) : Bytes := (leBytes n v).reverse

/-- Bytewise exclusive or. -/
def xorBytes (a b : Bytes) : Bytes := List.zipWith (· ^^^ ·) a b

/-- The bytes of an ASCII label. -/
def asciiBytes (s : String) : Bytes := s.toList.map (fun c => BitVec.ofNat 8 c.toNat)

/-- `n` zero bytes. -/
def zeroBytes (n : Nat) : Bytes := List.replicate n 0

/-! ## SHA-384 -/

/-- The round constants of SHA-384. -/
def sha384K : List (BitVec 64) :=
  [0x428a2f98d728ae22, 0x7137449123ef65cd, 0xb5c0fbcfec4d3b2f, 0xe9b5dba58189dbbc] ++
  [0x3956c25bf348b538, 0x59f111f1b605d019, 0x923f82a4af194f9b, 0xab1c5ed5da6d8118] ++
  [0xd807aa98a3030242, 0x12835b0145706fbe, 0x243185be4ee4b28c, 0x550c7dc3d5ffb4e2] ++
  [0x72be5d74f27b896f, 0x80deb1fe3b1696b1, 0x9bdc06a725c71235, 0xc19bf174cf692694] ++
  [0xe49b69c19ef14ad2, 0xefbe4786384f25e3, 0x0fc19dc68b8cd5b5, 0x240ca1cc77ac9c65] ++
  [0x2de92c6f592b0275, 0x4a7484aa6ea6e483, 0x5cb0a9dcbd41fbd4, 0x76f988da831153b5] ++
  [0x983e5152ee66dfab, 0xa831c66d2db43210, 0xb00327c898fb213f, 0xbf597fc7beef0ee4] ++
  [0xc6e00bf33da88fc2, 0xd5a79147930aa725, 0x06ca6351e003826f, 0x142929670a0e6e70] ++
  [0x27b70a8546d22ffc, 0x2e1b21385c26c926, 0x4d2c6dfc5ac42aed, 0x53380d139d95b3df] ++
  [0x650a73548baf63de, 0x766a0abb3c77b2a8, 0x81c2c92e47edaee6, 0x92722c851482353b] ++
  [0xa2bfe8a14cf10364, 0xa81a664bbc423001, 0xc24b8b70d0f89791, 0xc76c51a30654be30] ++
  [0xd192e819d6ef5218, 0xd69906245565a910, 0xf40e35855771202a, 0x106aa07032bbd1b8] ++
  [0x19a4c116b8d2d0c8, 0x1e376c085141ab53, 0x2748774cdf8eeb99, 0x34b0bcb5e19b48a8] ++
  [0x391c0cb3c5c95a63, 0x4ed8aa4ae3418acb, 0x5b9cca4f7763e373, 0x682e6ff3d6b2b8a3] ++
  [0x748f82ee5defb2fc, 0x78a5636f43172f60, 0x84c87814a1f0ab72, 0x8cc702081a6439ec] ++
  [0x90befffa23631e28, 0xa4506cebde82bde9, 0xbef9a3f7b2c67915, 0xc67178f2e372532b] ++
  [0xca273eceea26619c, 0xd186b8c721c0c207, 0xeada7dd6cde0eb1e, 0xf57d4f7fee6ed178] ++
  [0x06f067aa72176fba, 0x0a637dc5a2c898a6, 0x113f9804bef90dae, 0x1b710b35131c471b] ++
  [0x28db77f523047d84, 0x32caab7b40c72493, 0x3c9ebe0a15c9bebc, 0x431d67c49c100d4c] ++
  [0x4cc5d4becb3e42b6, 0x597f299cfc657e2a, 0x5fcb6fab3ad6faec, 0x6c44198c4a475817]

/-- The initial hash value of SHA-384. -/
def sha384Init : List (BitVec 64) :=
  [0xcbbb9d5dc1059ed8, 0x629a292a367cd507, 0x9159015a3070dd17, 0x152fecd8f70e5939] ++
  [0x67332667ffc00b31, 0x8eb44a8768581511, 0xdb0c2e0d64f98fa7, 0x47b5481dbefa4fa4]

/-- One word of the message schedule from the last sixteen, newest first. -/
def sha384Next (w : List (BitVec 64)) : BitVec 64 :=
  let w2 := w.getD 1 0
  let w7 := w.getD 6 0
  let w15 := w.getD 14 0
  let w16 := w.getD 15 0
  let s1 := w2.rotateRight 19 ^^^ w2.rotateRight 61 ^^^ (w2 >>> 6)
  let s0 := w15.rotateRight 1 ^^^ w15.rotateRight 8 ^^^ (w15 >>> 7)
  s1 + w7 + s0 + w16

/-- The eight working variables. -/
structure ShaState where
  a : BitVec 64
  b : BitVec 64
  c : BitVec 64
  d : BitVec 64
  e : BitVec 64
  f : BitVec 64
  g : BitVec 64
  h : BitVec 64
  deriving DecidableEq, Repr

/-- One round. -/
def shaRound (v : ShaState) (k w : BitVec 64) : ShaState :=
  let s1 := v.e.rotateRight 14 ^^^ v.e.rotateRight 18 ^^^ v.e.rotateRight 41
  let ch := (v.e &&& v.f) ^^^ (~~~v.e &&& v.g)
  let t1 := v.h + s1 + ch + k + w
  let s0 := v.a.rotateRight 28 ^^^ v.a.rotateRight 34 ^^^ v.a.rotateRight 39
  let mj := (v.a &&& v.b) ^^^ (v.a &&& v.c) ^^^ (v.b &&& v.c)
  ShaState.mk (t1 + s0 + mj) v.a v.b v.c (v.d + t1) v.e v.f v.g

/-- The rounds with the schedule made as they go: `win` holds the next sixteen words, oldest first. -/
def shaRounds : List (BitVec 64) → List (BitVec 64) → ShaState → ShaState
  | [], _, v => v
  | k :: ks, win, v =>
    shaRounds ks (win.tail ++ [sha384Next win.reverse]) (shaRound v k (win.headD 0))

/-- The compression of one 128-byte block into the hash value. -/
def shaBlock (h : List (BitVec 64)) (block : Bytes) : List (BitVec 64) :=
  let win := (List.range 16).map (fun i => BitVec.ofNat 64 (beNat ((block.drop (8 * i)).take 8)))
  let v := shaRounds sha384K win
    (ShaState.mk (h.getD 0 0) (h.getD 1 0) (h.getD 2 0) (h.getD 3 0)
      (h.getD 4 0) (h.getD 5 0) (h.getD 6 0) (h.getD 7 0))
  List.zipWith (· + ·) h [v.a, v.b, v.c, v.d, v.e, v.f, v.g, v.h]

/-- The blocks in order. -/
def shaBlocks : Nat → List (BitVec 64) → Bytes → List (BitVec 64)
  | 0, h, _ => h
  | n + 1, h, bs => shaBlocks n (shaBlock h (bs.take 128)) (bs.drop 128)

/-- The SHA-384 hash of a byte string, 48 bytes. -/
def sha384 (m : Bytes) : Bytes :=
  let len := m.length
  let pad := (111 + 128 - len % 128) % 128
  let full := m ++ [0x80] ++ zeroBytes pad ++ beBytes 16 (8 * len)
  let h := shaBlocks ((len + 17 + pad) / 128) sha384Init full
  (h.take 6).flatMap (fun w => beBytes 8 w.toNat)

/-- A digest as one number, byte 0 in the lowest bits (R9). -/
def digest384 (m : Bytes) : BitVec 384 := BitVec.ofNat 384 (leNat (sha384 m))

/-- HMAC-SHA-384. -/
def hmac384 (key m : Bytes) : Bytes :=
  let k := if key.length > 128 then sha384 key else key
  let k := k ++ zeroBytes (128 - k.length)
  sha384 (k.map (· ^^^ 0x5C) ++ sha384 (k.map (· ^^^ 0x36) ++ m))

/-- The blocks of HKDF-Expand. -/
def hkdfBlocks (prk info : Bytes) : Nat → Nat → Bytes → Bytes
  | 0, _, _ => []
  | n + 1, i, prev =>
    let t := hmac384 prk (prev ++ info ++ [BitVec.ofNat 8 i])
    t ++ hkdfBlocks prk info n (i + 1) t

/-- HKDF-Expand with SHA-384. -/
def hkdfExpand (prk info : Bytes) (n : Nat) : Bytes :=
  (hkdfBlocks prk info ((n + 47) / 48) 1 []).take n

/-- HKDF-SHA-384 with the default salt of zeros. -/
def hkdf384 (secret info : Bytes) (n : Nat) : Bytes :=
  hkdfExpand (hmac384 (zeroBytes 48) secret) info n

/-! ## AES-256-GCM -/

/-- The S-box of AES, entry i in bits 8i to 8i + 7. -/
def aesSbox : Nat :=
  0x16bb54b00f2d99416842e6bf0d89a18cdf2855cee9871e9b948ed9691198f8e19e1dc186b95735610ef6034866b53e708a8bbd4b1f74dde8c6b4a61c2e2578ba08ae7a65eaf4566ca94ed58d6d37c8e779e4959162acd3c25c2406490a3a32e0db0b5ede14b8ee4688902a22dc4f816073195d643d7ea7c41744975fec130ccdd2f3ff1021dab6bcf5389d928f40a351a89f3c507f02f94585334d43fbaaefd0cf584c4a39becb6a5bb1fc20ed00d153842fe329b3d63b52a05a6e1b1a2c830975b227ebe28012079a059618c323c7041531d871f1e5a534ccf73f362693fdb7c072a49cafa2d4adf04759fa7dc982ca76abd7fe2b670130c56f6bf27b777c63

/-- One S-box lookup. -/
def subByte (b : Byte) : Byte := BitVec.ofNat 8 (aesSbox >>> (8 * b.toNat))

/-- Multiplication by x in the field of AES. -/
def xtime (b : Byte) : Byte := if b.msb then (b <<< 1) ^^^ 0x1B else b <<< 1

/-- The key schedule: `n` more words after the `i` words of `ws`. -/
def aesKeyWords : Nat → Nat → Byte → List Bytes → List Bytes
  | 0, _, _, ws => ws
  | n + 1, i, rc, ws =>
    let last := ws.getLastD []
    let t := if i % 8 = 0 then
        xorBytes ((last.drop 1 ++ last.take 1).map subByte) [rc, 0, 0, 0]
      else if i % 8 = 4 then last.map subByte else last
    let w := xorBytes (ws.getD (i - 8) []) t
    aesKeyWords n (i + 1) (if i % 8 = 0 then xtime rc else rc) (ws ++ [w])

/-- The round keys of AES-256. -/
def aesKeys (key : Bytes) : List Bytes :=
  let ws := aesKeyWords 52 8 1 ((List.range 8).map (fun i => (key.drop (4 * i)).take 4))
  (List.range 15).map (fun r => ((ws.drop (4 * r)).take 4).flatten)

/-- ShiftRows on the 16 bytes of the state, column by column. -/
def shiftRows (s : Bytes) : Bytes :=
  (List.range 16).map (fun i => s.getD ((i + 4 * (i % 4)) % 16) 0)

/-- MixColumns on one column. -/
def mixColumn (a b c d : Byte) : Bytes :=
  let t := a ^^^ b ^^^ c ^^^ d
  [a ^^^ t ^^^ xtime (a ^^^ b), b ^^^ t ^^^ xtime (b ^^^ c),
   c ^^^ t ^^^ xtime (c ^^^ d), d ^^^ t ^^^ xtime (d ^^^ a)]

/-- MixColumns. -/
def mixColumns (s : Bytes) : Bytes :=
  (List.range 4).flatMap (fun c =>
    mixColumn (s.getD (4 * c) 0) (s.getD (4 * c + 1) 0) (s.getD (4 * c + 2) 0) (s.getD (4 * c + 3) 0))

/-- The middle and last rounds. -/
def aesRounds : List Bytes → Bytes → Bytes
  | [], s => s
  | [k], s => xorBytes (shiftRows (s.map subByte)) k
  | k :: ks, s => aesRounds ks (xorBytes (mixColumns (shiftRows (s.map subByte))) k)

/-- AES-256 on one block. -/
def aesBlock (keys : List Bytes) (b : Bytes) : Bytes :=
  aesRounds keys.tail (xorBytes b (keys.headD []))

/-- The counter blocks of GCM from block `i` on, over the 12-byte IV. -/
def gcmStream (keys : List Bytes) (iv : Bytes) : Nat → Nat → Bytes
  | 0, _ => []
  | n + 1, i => aesBlock keys (iv ++ beBytes 4 i) ++ gcmStream keys iv n (i + 1)

/-- The bit steps of the GHASH product of `h` (bits from the left) and `v`. -/
def ghashMulAux (h : Nat) : Nat → Nat → Nat → Nat
  | 0, _, z => z
  | n + 1, v, z =>
    let z := if h.testBit n then z ^^^ v else z
    let v := if v % 2 = 1 then (v / 2) ^^^ (0xE1 * 2 ^ 120) else v / 2
    ghashMulAux h n v z

/-- The product in the field of GCM, elements as big-endian numbers. -/
def ghashMul (x h : Nat) : Nat := ghashMulAux x 128 h 0

/-- GHASH over the 16-byte blocks. -/
def ghash (h : Nat) : Nat → Bytes → Nat → Nat
  | 0, _, y => y
  | n + 1, bs, y =>
    let b := bs.take 16
    ghash h n (bs.drop 16) (ghashMul (y ^^^ beNat (b ++ zeroBytes (16 - b.length))) h)

/-- Padding of a string to whole blocks. -/
def padBlock (m : Bytes) : Bytes := m ++ zeroBytes ((16 - m.length % 16) % 16)

/-- The GCM tag of ciphertext `c` with additional data `ad`. -/
def gcmTag (keys : List Bytes) (iv ad c : Bytes) : Bytes :=
  let h := beNat (aesBlock keys (zeroBytes 16))
  let m := padBlock ad ++ padBlock c ++ beBytes 8 (8 * ad.length) ++ beBytes 8 (8 * c.length)
  let y := ghash h (m.length / 16) m 0
  xorBytes (beBytes 16 y) (aesBlock keys (iv ++ beBytes 4 1))

/-- AES-256-GCM encryption: the ciphertext and its tag. -/
def gcmEncrypt (key iv ad m : Bytes) : Bytes × Bytes :=
  let keys := aesKeys key
  let c := xorBytes m (gcmStream keys iv ((m.length + 15) / 16) 2)
  (c, gcmTag keys iv ad c)

/-- AES-256-GCM decryption: the plaintext where the tag is right. -/
def gcmDecrypt (key iv ad c tag : Bytes) : Option Bytes :=
  let keys := aesKeys key
  if gcmTag keys iv ad c = tag then
    some (xorBytes c (gcmStream keys iv ((c.length + 15) / 16) 2))
  else none

/-! ## P-384 -/

/-- The field prime of P-384. -/
def p384P : Nat := 2 ^ 384 - 2 ^ 128 - 2 ^ 96 + 2 ^ 32 - 1
/-- The order of its base point. -/
def p384N : Nat :=
  0xffffffffffffffffffffffffffffffffffffffffffffffffc7634d81f4372ddf581a0db248b0a77aecec196accc52973
/-- The coefficient b. -/
def p384B : Nat :=
  0xb3312fa7e23ee7e4988e056be3f82d19181d9c6efe8141120314088f5013875ac656398d8a2ed19d2a85c8edd3ec2aef
/-- The base point's first coordinate. -/
def p384Gx : Nat :=
  0xaa87ca22be8b05378eb1c71ef320ad746e1d3b628ba79b9859f741e082542a385502f25dbf55296c3a545e3872760ab7
/-- The base point's second coordinate. -/
def p384Gy : Nat :=
  0x3617de4a96262c6f5d9e98bf9292dc29f8f41dbd289a147ce9da3113b5f0b8c00a60b1ce1d7e819d7a431d7c90ea0e5f

/-- x to the power e modulo m, over `n` bits of e. -/
def powModAux (m : Nat) : Nat → Nat → Nat → Nat → Nat
  | 0, _, _, acc => acc
  | n + 1, x, e, acc =>
    powModAux m n (x * x % m) (e / 2) (if e % 2 = 1 then acc * x % m else acc)

/-- The inverse of x modulo a prime below 2 to the 384, by Fermat. -/
def invMod (m x : Nat) : Nat := powModAux m 384 (x % m) (m - 2) 1

/-- A point in Jacobian coordinates, z = 0 at infinity. -/
structure JPoint where
  x : Nat
  y : Nat
  z : Nat
  deriving DecidableEq, Repr

/-- Doubling, for a = -3. -/
def JPoint.dbl (p : JPoint) : JPoint :=
  let q := p384P
  let y2 := p.y * p.y % q
  let s := 4 * p.x * y2 % q
  let z2 := p.z * p.z % q
  let m := 3 * (p.x + z2) * (p.x + (q - z2)) % q
  let x := (m * m + 2 * (q - s)) % q
  let y := (m * (s + (q - x)) + (q - 8 * (y2 * y2 % q) % q)) % q
  JPoint.mk x y (2 * p.y * p.z % q)

/-- Addition. -/
def JPoint.add (a b : JPoint) : JPoint :=
  let q := p384P
  if a.z = 0 then b else if b.z = 0 then a else
  let z1 := a.z * a.z % q
  let z2 := b.z * b.z % q
  let u1 := a.x * z2 % q
  let u2 := b.x * z1 % q
  let s1 := a.y * z2 % q * b.z % q
  let s2 := b.y * z1 % q * a.z % q
  if u1 = u2 then (if s1 = s2 then a.dbl else JPoint.mk 1 1 0) else
  let h := (u2 + (q - u1)) % q
  let r := (s2 + (q - s1)) % q
  let h2 := h * h % q
  let h3 := h2 * h % q
  let v := u1 * h2 % q
  let x := (r * r + (q - h3) + 2 * (q - v)) % q
  let y := (r * (v + (q - x)) + (q - s1 * h3 % q)) % q
  JPoint.mk x y (h * a.z % q * b.z % q)

/-- k times a point, over `n` bits of k. -/
def JPoint.mulAux : Nat → Nat → JPoint → JPoint → JPoint
  | 0, _, _, acc => acc
  | n + 1, k, p, acc => JPoint.mulAux n (k / 2) p.dbl (if k % 2 = 1 then acc.add p else acc)

/-- The affine form, none at infinity. -/
def JPoint.affine (r : JPoint) : Option (Nat × Nat) :=
  if r.z = 0 then none else
  let zi := invMod p384P r.z
  let z2 := zi * zi % p384P
  some (r.x * z2 % p384P, r.y * (z2 * zi % p384P) % p384P)

/-- Scalar multiplication, not yet affine. -/
def p384MulJ (k x y : Nat) : JPoint :=
  JPoint.mulAux 384 k (JPoint.mk x y 1) (JPoint.mk 1 1 0)

/-- Scalar multiplication: the affine result, none at infinity. -/
def p384Mul (k x y : Nat) : Option (Nat × Nat) := (p384MulJ k x y).affine

/-- An uncompressed public key of 97 bytes as a point of the curve (R418), none where it is not one. -/
def p384Point (k : Bytes) : Option (Nat × Nat) :=
  let x := beNat ((k.drop 1).take 48)
  let y := beNat ((k.drop 49).take 48)
  if k.length = 97 ∧ k.headD 0 = 4 ∧ x < p384P ∧ y < p384P ∧
      (y * y) % p384P = (x * x * x + (p384P - 3) * x + p384B) % p384P then some (x, y) else none

/-- The uncompressed form of a point. -/
def p384Bytes (p : Nat × Nat) : Bytes := [4] ++ beBytes 48 p.1 ++ beBytes 48 p.2

/-- The public key of a private key. -/
def p384Public (d : Nat) : Bytes :=
  match p384Mul d p384Gx p384Gy with
  | some p => p384Bytes p
  | none => zeroBytes 97

/-- ECDSA verification over a 48-byte hash. -/
def ecdsaVerifyHash (pub hash : Bytes) (r s : Nat) : Bool :=
  match p384Point pub with
  | none => false
  | some (x, y) =>
    if r = 0 ∨ r ≥ p384N ∨ s = 0 ∨ s ≥ p384N then false else
    let e := beNat hash
    let w := invMod p384N s
    match ((p384MulJ (e * w % p384N) p384Gx p384Gy).add (p384MulJ (r * w % p384N) x y)).affine with
    | some (vx, _) => vx % p384N = r
    | none => false

/-- ECDSA verification over the SHA-384 hash of a message. -/
def ecdsaVerify (pub msg : Bytes) (r s : Nat) : Bool := ecdsaVerifyHash pub (sha384 msg) r s

/-- The candidate nonces of RFC 6979, at most `n` of them tried. -/
def rfc6979 : Nat → Bytes → Bytes → Nat
  | 0, _, _ => 1
  | n + 1, k, v =>
    let v := hmac384 k v
    let t := beNat v
    if 0 < t ∧ t < p384N then t
    else
      let k := hmac384 k (v ++ [0])
      rfc6979 n k (hmac384 k v)

/-- ECDSA with the deterministic nonce of RFC 6979 (R358): r and s. -/
def ecdsaSign (d : Nat) (msg : Bytes) : Nat × Nat :=
  let e := beNat (sha384 msg)
  let seed := beBytes 48 d ++ beBytes 48 (e % p384N)
  let v := List.replicate 48 (0x01 : Byte)
  let k := hmac384 (zeroBytes 48) (v ++ [0] ++ seed)
  let v := hmac384 k v
  let k := hmac384 k (v ++ [1] ++ seed)
  let v := hmac384 k v
  let n := rfc6979 16 k v
  let r := match p384Mul n p384Gx p384Gy with
    | some (x, _) => x % p384N
    | none => 0
  (r, invMod p384N n * (e + r * d) % p384N)

/-- A signature as the manual stores it: r then s, 48 bytes each, big-endian (R358). -/
def signBytes (d : Nat) (msg : Bytes) : Bytes :=
  let rs := ecdsaSign d msg
  beBytes 48 rs.1 ++ beBytes 48 rs.2

/-- Whether 96 signature bytes verify. -/
def verifyBytes (pub msg sig : Bytes) : Bool :=
  ecdsaVerify pub msg (beNat (sig.take 48)) (beNat ((sig.drop 48).take 48))

/-- The ECDH shared secret: the x coordinate, 48 bytes big-endian. -/
def ecdh (d : Nat) (pub : Bytes) : Option Bytes :=
  match p384Point pub with
  | none => none
  | some (x, y) => (p384Mul d x y).map (fun p => beBytes 48 p.1)

/-! ## Device keys -/

/-- A private key from the root secret and a label (R400). How the 48 derived bytes become a scalar the
manual does not say: here their big-endian value modulo n - 1, plus 1 (PRESUMED, log 66). -/
def devicePrivate (root : BitVec 384) (label : String) : Nat :=
  beNat (hkdf384 (leBytes 48 root.toNat) (asciiBytes label) 48) % (p384N - 1) + 1

/-- The device identity key (R400). -/
def dikPrivate (root : BitVec 384) : Nat := devicePrivate root "G5 DIK"
/-- The device seal key (R400). -/
def dskPrivate (root : BitVec 384) : Nat := devicePrivate root "G5 DSK"

/-- DEVICE_ID (R358): the first 16 bytes of the hash of the identity public key. -/
def deviceId (root : BitVec 384) : Bytes := (sha384 (p384Public (dikPrivate root))).take 16

/-- BOOT_HASH (R396, R415): the hash of the boot nonce. -/
def bootHash (nonce : BitVec 384) : Bytes := sha384 (leBytes 48 nonce.toNat)

/-- CAL_ID (R351): the first 8 bytes of the hash of the calibration words. -/
def calIdOf (cal : List W32) : W64 :=
  BitVec.ofNat 64 (leNat ((sha384 (cal.flatMap (fun w => leBytes 4 w.toNat))).take 8))

/-! ## Checks and counters -/

/-- Bit steps of CRC-32C, reflected. -/
def crc32cBits : Nat → Nat → Nat
  | 0, c => c
  | n + 1, c => crc32cBits n (if c % 2 = 1 then (c / 2) ^^^ 0x82F63B78 else c / 2)

/-- CRC-32C (R375). -/
def crc32c (bs : Bytes) : Nat :=
  (bs.foldl (fun c b => crc32cBits 8 (c ^^^ b.toNat)) 0xFFFFFFFF) ^^^ 0xFFFFFFFF

/-- The CRC-16 of R423 over bits in the order they travel. R423 gives the polynomial alone; the
register starts at 0 and nothing is inverted (DESIGN CHOICE, log 10). -/
def crc16 (bits : List Bool) : BitVec 16 :=
  bits.foldl (fun c b => if c.msb != b then (c <<< 1) ^^^ 0x8BB7 else c <<< 1) 0

/-- One round of Philox4x32. -/
def philoxRound (c : Nat × Nat × Nat × Nat) (k0 k1 : Nat) : Nat × Nat × Nat × Nat :=
  let p0 := 0xD2511F53 * c.1
  let p1 := 0xCD9E8D57 * c.2.2.1
  ((p1 / 2 ^ 32) ^^^ c.2.1 ^^^ k0, p1 % 2 ^ 32, (p0 / 2 ^ 32) ^^^ c.2.2.2 ^^^ k1, p0 % 2 ^ 32)

/-- The rounds of Philox4x32, the key bumped after each. -/
def philoxRounds : Nat → Nat × Nat × Nat × Nat → Nat → Nat → Nat × Nat × Nat × Nat
  | 0, c, _, _ => c
  | n + 1, c, k0, k1 =>
    philoxRounds n (philoxRound c k0 k1) ((k0 + 0x9E3779B9) % 2 ^ 32) ((k1 + 0xBB67AE85) % 2 ^ 32)

/-- Philox4x32-10: four 32-bit words of a counter under a key. -/
def philox (c0 c1 c2 c3 k0 k1 : Nat) : Nat × Nat × Nat × Nat :=
  philoxRounds 10 (c0, c1, c2, c3) k0 k1

end Sys2Proof.Machine
end

