-- ==== Sys2Proof/Config.lean ====
section
/-!
DEFINITION. Sys2Proof/Config.lean: the free values: constants without a body that stand where the
manual leaves a value open. Nothing can evaluate them, so a statement that mentions one holds for
every value of it. Each is named in a row of notes/assumptions.
-/
namespace Sys2Proof.Config

/-- Free bytes: the contents of a failed or cancelled pure-overwrite destination (R229, R232). -/
opaque freeByte : Nat → BitVec 8
/-- A cycle count whose size the manual leaves open (R71, R448), the n-th one asked for. -/
opaque freeCount : Nat → Nat
/-- Whether BELT_BUCKET reports a part of a mJ as one more (R360 gives no rounding of a count of nJ), by the count. -/
opaque roundUp : BitVec 64 → Bool
/-- The Lining's random source (R396, R399, R409): the n-th 48-byte draw. -/
opaque random384 : Nat → BitVec 384
/-- The root secret of this die, fixed at manufacture (R400). -/
opaque deviceRoot : BitVec 384
/-- The root secret that the PUF reconstructs from helper data (R400, R437). -/
opaque rootSecret : List (BitVec 8) → BitVec 384
/-- Elvom's root public key, held in the Lining's boot ROM (R437), uncompressed, 97 bytes. -/
opaque elvomRootKey : BitVec 776
/-- The DIK public key that a certificate chain to the Elvom root certifies, none where the chain
does not verify; the chain's encoding is not in the manual (R401, R409, R437). -/
opaque certifiedKey : List (BitVec 8) → Option (BitVec 776)
/-- The transcript hash of a channel key exchange, whose messages the manual does not lay out (R409). -/
opaque keyxTranscript : List (BitVec 8) → List (BitVec 8) → BitVec 384
/-- The HKDF info of a virtual channel and direction, which R409 does not give. -/
opaque keyxInfo : Nat → Bool → BitVec 64
/-- The payload of a Ryround packet whose layout the manual does not give, by its fields: the ready token
(R191), the norm token (R201) and RESEND (R199). -/
opaque ryPayload : Nat → List Nat → List (BitVec 8)
/-- The payload type of BACKUP_REQUEST, which the table of R193 leaves out (R202). -/
opaque backupRequestType : BitVec 8
/-- The payload type of an acknowledgement, which the table of R193 leaves out (R199). -/
opaque ackType : BitVec 8
/-- The engine's answer in a channel key exchange, by its ephemeral public key and the transcript hash that it signs
(R409): the manual does not lay it out. -/
opaque keyxMessage : List (BitVec 8) → BitVec 384 → List (BitVec 8)
/-- The hash over the enrolled anchor and operator key tables (R415), whose layout the manual does not give. -/
opaque tableHash : List (Option (List (BitVec 8))) → List (Option (List (BitVec 8))) → BitVec 384
/-- The export master secret of an SPDM session (R413); DSP0277 derives it. -/
opaque spdmExport : Nat → BitVec 384
/-- The word that stands for the body of an SPDM answer, whose layout is DSP0274's (R412). -/
opaque spdmBody : Nat → Nat → BitVec 64
/-- Word n of the settings that a maker profile with the given digest carries (R268 gives no layout). -/
opaque profileWord : BitVec 384 → Nat → BitVec 32
/-- Installer key i that the profile with the given digest carries, if any (R397). -/
opaque profileKey : BitVec 384 → Nat → Option (BitVec 776)
/-- Whether the profile with the given digest lists a host-die endpoint key (R409). -/
opaque profilePeer : BitVec 384 → BitVec 776 → Bool
/-- Whether a profile body is bound to the die whose identity key is given (R268). -/
opaque profileBound : List (BitVec 8) → BitVec 776 → Bool
/-- The I3C provisioned ID (R433). -/
opaque i3cPid : BitVec 48
/-- The I3C bus characteristics register (R433). -/
opaque i3cBcr : BitVec 8
/-- The I3C device characteristics register (R433). -/
opaque i3cDcr : BitVec 8
/-- The I3C status word at the n-th request (R433). -/
opaque i3cStatus : Nat → BitVec 16
/-- The I3C maximum write length (R433). -/
opaque i3cMwl : BitVec 16
/-- The I3C maximum read length (R433). -/
opaque i3cMrl : BitVec 16
/-- The rate of temperature-controlled refresh at a reported temperature, 0 to 2 (R300, R467): the manual gives no
thresholds. -/
opaque refreshRate : BitVec 16 → Fin 3
/-- The levels that the boundary cells capture at the n-th SAMPLE (R434). -/
opaque boundarySample : Nat → BitVec 32

/-- Byte i of what the governor region holds where R145 gives it no layout: the header's fields, the last 64 bytes of a
state entry, the tag of a pending slot; by the kind of the part and its values. -/
opaque govByte : List Nat → Nat → BitVec 8

end Sys2Proof.Config
end

