-- ==== Sys2Proof/Machine/State.lean ====
section
/-!
DEFINITION. Sys2Proof/Machine/State.lean: the state of the engine as plain data, its reset value, and
the reasons a step can stop. Every register, ring, queue, table and log that the manual names is here;
see INVENTORY.md for the rule that names each.
-/
namespace Sys2Proof.Machine

/-- Why a step could stop with a fault. No meaning of this model raises one: an error of the engine is
a status, a register bit or a pin (R229, R361, R389), never a stop. Safe: nothing is lost by a reason
that no step gives. -/
inductive Fault where
  /-- Raised by nobody; the type needs an element so that outcomes can be compared and shown. -/
  | none
  deriving DecidableEq, Repr

/-- Why a step could be refused. -/
inductive Refusal where
  /-- Raised by the dispatcher alone for a command whose meaning is not written. Safe: the model stops. -/
  | notModelled (mnemonic : String)
  deriving DecidableEq, Repr

/-! ## Pins, time base, identity -/

/-- Low-speed pins (R419) and the straps latched at the rising edge of COLD_RESET_N (R421). -/
structure Pins where
  pwrGood : Bool
  coldResetN : Bool
  warmResetN : Bool
  alive : Bool
  straps : BitVec 6
  deriving DecidableEq, Repr

/-- The states of R321. -/
inductive TbMode where
  | free | acquiring | locked | syncLost
  deriving DecidableEq, Repr

/-- The time base (R320-R324) and its registers (R323). -/
structure TimeBase where
  now : W64
  mode : TbMode
  loadLo : W32
  loadHi : W32
  loadPending : Bool
  loadErr : Bool
  stepped : Bool
  lastError : BitVec 16
  edges : W32
  slews : W32
  losses : W32
  /-- consecutive edges with |e| ≤ 2. -/
  good : Nat
  /-- consecutive edges with |e| > 64. -/
  bad : Nat
  /-- time since the last edge, none before the first (R321). -/
  sinceEdge : Option Nat
  /-- ticks that the slew of the last edge still has to correct, and whether the count is behind. -/
  slewLeft : Nat
  slewBehind : Bool
  /-- ticks until the next correction of the slew. -/
  slewIn : Nat
  /-- the hold marker of R324: the value that the islands keep returning and the ticks it still stands. -/
  held : Option (W64 × Nat)
  deriving DecidableEq, Repr

/-- Present bits of R440. -/
structure Caps where
  sleeves : BitVec 16
  stks : BitVec 6
  seam : BitVec 4
  dist : Bool
  cores : BitVec 128
  gusset : BitVec 16
  deriving DecidableEq, Repr

/-- Ready bits of R440. -/
structure Ready where
  tag : Bool
  lining : Bool
  collar : Bool
  stks : BitVec 6
  seam : BitVec 4
  sleeves : BitVec 16
  deriving DecidableEq, Repr

/-- BOOT_STATUS.STAGE (R440). -/
inductive BootStage where
  | waitBundle | verifying | running | measuring
  deriving DecidableEq, Repr

/-- Boot and firmware (R435-R438, R268). -/
structure Boot where
  stage : BootStage
  err : BitVec 4
  warmIgnored : Bool
  /-- the bundle received so far (R436). -/
  bundle : Bytes
  /-- the Collar has been ready since the last cold reset (R420). -/
  everReady : Bool
  makerKey : Option Bytes
  /-- body of the running firmware, loaded into Collar memory. -/
  fwRunning : Bytes
  fwRunningDigest : BitVec 384
  /-- the staged image: its body. -/
  fwStaged : Option Bytes
  /-- an FW_COMMIT whose record the new firmware writes: context and SEQ. -/
  commitBy : Option (Nat × W32)
  /-- a maker profile has been loaded since cold reset (R268), and its digest. -/
  profile : Option (BitVec 384)
  /-- sleeves whose self-check runs (R439). -/
  checking : BitVec 16
  deriving DecidableEq, Repr

/-! ## Ports -/

/-- STK_STATUS.STATE (R467). -/
inductive StackState where
  | off | training | zeroing | ready | retraining | selfRefresh | failed
  deriving DecidableEq, Repr

/-- A stack port and its stack (R300-R302, R386, R467). -/
structure StackPort where
  state : StackState
  journal : Bool
  pcFailed : BitVec 64
  trainFails : Nat
  lanes : BitVec 8
  temp : BitVec 16
  refresh : BitVec 2
  /-- GiB zeroed since training ended. -/
  zeroed : BitVec 16
  capacity : BitVec 16
  height : BitVec 4
  rate : BitVec 8
  /-- the stack has been zeroed since cold reset (R408). -/
  cleared : Bool
  /-- accesses that are being repeated once: pseudo-channel and line (R300, R301). -/
  repeats : List (Nat × Nat)
  /-- refresh management requests honoured at a bank: pseudo-channel and bank (R300). -/
  management : List (Nat × Nat)
  /-- per-bank refreshes made: count. -/
  refreshes : W32
  /-- the stack is in self-refresh, entered and left by an all-bank refresh (R300). -/
  allBank : Bool
  deriving DecidableEq, Repr

/-- The packet kinds of R426. -/
inductive PacketKind where
  | mwr | mrd | cpl | msg | rrd | rwr | rcpl | notice | keyx | spdm | boot
  deriving DecidableEq, Repr

/-- A Seam packet (R426), unencrypted form; `enc` says whether it travels under its channel's key. -/
structure Packet where
  kind : PacketKind
  vc : Nat
  enc : Bool
  endpoint : Nat
  payloadType : Nat
  status : Nat
  addr : Nat
  tag : Nat
  payload : Bytes
  deriving DecidableEq, Repr

/-- States of a Seam port (R424). -/
inductive SeamState where
  | disabled | idle | detect | equalise | config | active | retrain | failed
  deriving DecidableEq, Repr

/-- A frame that a port sent and holds for replay (R425). -/
structure SentFrame where
  fseq : BitVec 12
  space : Bytes
  deriving DecidableEq, Repr

/-- What a command did in a metering interval (R352-R354): the end of the interval, the domain (0 at a port, which stands
for its own), the command, and its units, requests, payload bytes or ticks. Context 1024 stands for traffic of no command,
1025 for that of a context whose command is named as its work ends. -/
structure WorkShare where
  stop : Nat
  unit : Nat
  ctx : Nat
  seq : W32
  amount : Nat
  deriving DecidableEq, Repr

/-- A Seam port (R422-R430, R468). -/
structure SeamPort where
  state : SeamState
  tx : BitVec 4
  rx : BitVec 4
  /-- groups detected at DETECT. -/
  detTx : BitVec 4
  detRx : BitVec 4
  trainFails : Nat
  peerEp : BitVec 16
  peerPort : BitVec 8
  peerDie : BitVec 8
  /-- credits the host die granted per virtual channel in its last configuration frame. -/
  granted : List Nat
  /-- credits held for sending, per virtual channel. -/
  credits : List Nat
  /-- credits freed and not yet returned, per virtual channel. -/
  owed : List Nat
  /-- FSEQ of the next frame sent, and of the next frame expected. -/
  fseqTx : BitVec 12
  fseqRx : BitVec 12
  /-- frames held for replay, oldest first. -/
  replay : List SentFrame
  /-- replays in succession of the oldest of them. -/
  replays : Nat
  /-- a NAK is owed to the far side. -/
  nak : Bool
  /-- bytes of a packet that spans frames (R426). -/
  partialRx : Bytes
  /-- packets formed and not yet sent, in order. -/
  txQueue : List Packet
  /-- packets received and not yet handled by their command, in order. -/
  rxQueue : List Packet
  /-- lane groups that the maker profile's lane map keeps (R424). -/
  laneMap : BitVec 8
  /-- payload bytes of data packets in the intervals that have not closed (R353). -/
  meter : List WorkShare
  deriving DecidableEq, Repr

/-- A read that the engine made of host memory and whose CPL is awaited (R429). -/
structure HostRead where
  port : Nat
  tag : Nat
  addr : Nat
  len : Nat
  ctx : Nat
  seq : W32
  deriving DecidableEq, Repr

/-! ## Cores and sleeves -/

/-- A staged block (R283): its context, its physical extents, its stream. -/
structure Staged where
  ctx : Nat
  stream : Nat
  block : Nat
  extents : List (Nat × Nat)
  /-- use stamp: the lowest went longest without use. -/
  used : Nat
  /-- SEQ of the command whose queue reads it, none while it is in the stage. -/
  owner : Option W32
  deriving DecidableEq, Repr

/-- What a command holds on a core (R272, R273): its queues, and the shared blocks that they have borrowed; and the tick at
which its work there began (R352). -/
structure QueueHold where
  ctx : Nat
  seq : W32
  n : Nat
  blocks : Nat
  began : Nat
  deriving DecidableEq, Repr

/-- Blocks of a core promised to an admitted chain (R271, R292), and the queues of the links whose blocks they begin. -/
structure Promise where
  ctx : Nat
  seq : W32
  n : Nat
  links : Nat
  deriving DecidableEq, Repr

/-- A half of a core's Hem (R91, R310): the command that holds it, and its entries. -/
structure HemHalf where
  ctx : Nat
  seq : W32
  entries : Nat
  deriving DecidableEq, Repr

/-- The identity of the tile that a core keeps loaded (R107): the context and address of its weight descriptor, the
physical address of the slot or tensor and the version, the first row and column of the tile, the pleat, the group
scales (GROUP and the scale bytes) and the zero points. -/
structure HeldTile where
  ctx : Nat
  desc : Nat
  slot : Nat
  version : W64
  row : Nat
  col : Nat
  pleat : Nat
  group : Nat
  scales : Bytes
  zeros : List Int
  /-- it was last streamed by north entry (R63). -/
  north : Bool
  deriving DecidableEq, Repr

/-- A core: its queues in use (R271, R272), its stage, its promised hand-over blocks (R292), the halves of its Hem in
use (R310), its held tile, the per-channel scale registers of its arrays that a tile load has written (R44, R45:
array × 4,096 + register), and its carried fraction of a cycle (R342, R446). -/
structure CoreUnit where
  queues : List QueueHold
  stage : List Staged
  promised : List Promise
  hem : List HemHalf
  held : Option HeldTile
  scales : SMap W32
  /-- fraction of a cycle carried to the next count of POWER_SLEW, in units of 1/14,000 cycle. -/
  carry : Nat
  /-- fraction of a cycle carried to the next count of its waits (R446), in the same units. -/
  phase : Nat
  deriving DecidableEq, Repr

/-- Replacement classes of the L2 (R312). -/
inductive LineClass where
  | stream | keepN | pin
  deriving DecidableEq, Repr

/-- An L2 line (R312, R313). -/
structure L2Line where
  line : Nat
  cls : LineClass
  uses : Nat
  spent : Bool
  age : Nat
  /-- what pinned it: context, whether a command (else an explicit stream), and its SEQ (its number). -/
  pinBy : Option (Nat × Bool × Nat)
  deriving DecidableEq, Repr

/-- A request for one 64-byte line that waits at its source or holds a slot of a stack port (R306, R315). -/
structure Request where
  /-- context, 1,024 for engine traffic (R316), and SEQ of the command. -/
  ctx : Nat
  seq : W32
  /-- the core whose queue reads the line, 128 for a request that no core's queue makes. -/
  core : Nat
  /-- line: physical address over 64. -/
  line : Nat
  write : Bool
  /-- class under which the line enters the L2 of the core's sleeve, and the remaining uses it sets. -/
  cls : LineClass
  uses : Nat
  ticket : W32
  /-- tick at which it was given its slot. -/
  since : W64
  /-- it was refused under the bank cap (R307). -/
  capped : Bool
  deriving DecidableEq, Repr

/-- The engine-level arbiter of a port (R315, R316): V, T by context, and what it served in the last 1,000 ticks:
tick, requests, those of engine traffic served ahead of tickets. -/
structure Arbiter where
  clock : W32
  tickets : SMap W32
  recent : List (Nat × Nat × Nat)
  deriving DecidableEq, Repr

/-- The traffic of a port (R306-R308): its arbiter; the requests that wait at their source and those that hold slots,
in order of arrival; the open row of each bank (pseudo-channel × 64 + bank); requests admitted since cold reset, and
requests refused under the bank cap; and whom it has served in the intervals that have not closed (R353). -/
structure Traffic where
  arb : Arbiter
  waits : List Request
  slots : List Request
  rows : SMap Nat
  requests : W64
  refused : W64
  meter : List WorkShare
  deriving DecidableEq, Repr

/-- The L2 of a sleeve (R311-R313) and its translation cache (R305: context and 64 KiB page, newest first). -/
structure Cache where
  l2 : List L2Line
  xlate : List (Nat × Nat)
  deriving DecidableEq, Repr

/-- What lies between the cores and the stacks: the traffic of ports 0-5 (stacks) and 6-9 (Seam), the caches of sleeves
0-15, and the Collar's translations as cache 16. -/
structure Fabric where
  ports : SMap Traffic
  caches : SMap Cache
  deriving DecidableEq, Repr

/-- SLV_STATUS.CHECK (R465). -/
inductive CheckState where
  | notRun | running | passed | failed
  deriving DecidableEq, Repr

/-- A sleeve (R371, R439, R465). -/
structure Sleeve where
  check : CheckState
  fabricFail : Bool
  coresFailed : BitVec 8
  gussetFailed : Bool
  sensor : BitVec 16
  faults : W32
  checkT : W64
  retired : Bool
  gussetRetired : Bool
  /-- gusset faults charged to the running command: context, SEQ, count (R372). -/
  gussetCharge : Option (Nat × W32 × Nat)
  /-- entries whose work sleeve faults have discarded, each with the cores where they ran (R371). -/
  hit : List (Nat × List Nat)
  deriving DecidableEq, Repr

/-! ## Contexts -/

/-- States of R209. -/
inductive CtxState where
  | closed | opened | preempting | preempted | closing
  deriving DecidableEq, Repr

/-- A region that CONTEXT_OPEN translated once (R473): its first byte within the first page, its size,
its physical 64 KiB pages in order, whether it is lost, and the address that named it. -/
structure Region where
  offset : Nat
  bytes : Nat
  pages : List Nat
  lost : Bool
  va : Nat
  deriving DecidableEq, Repr

/-- A statistics record (R140) of a (layer, role). -/
structure StatRec where
  layer : Nat
  role : Nat
  n : Nat
  nSat : Nat
  nUnd : Nat
  nZero : Nat
  nSpecial : Nat
  /-- binary64. -/
  eNum : W64
  eDen : W64
  nSampled : Nat
  /-- the 64 exponent bins. -/
  hist : List Nat
  /-- written into a sealed page (R406). -/
  sealedBy : Bool
  deriving DecidableEq, Repr

/-- Records of a completed command that wait in the pending area for their turn (R145): its entry number, its SEQ, the
slots that hold them, the records. -/
structure PendRec where
  id : Nat
  seq : W32
  /-- its command was accepted with the journal enabled: its merge commits there (R145, R380). -/
  journalled : Bool
  slots : List Nat
  recs : List StatRec
  deriving DecidableEq, Repr

/-- The ladder and the governor's variables of a (layer, role) (R135, R147-R154). MODE is 0 automatic,
1 advisory, 2 frozen. -/
structure Ladder where
  layer : Nat
  role : Nat
  mode : Nat
  rungs : List Nat
  rung : Nat
  advised : Nat
  h : Nat
  tSat : Nat
  tUnd : Nat
  tErr : Nat
  q : Nat
  need : Nat
  /-- a change decided and not yet applied: the rung it goes to (R154). -/
  pending : Option Nat
  /-- rungs before epoch changes: entries accepted below this number keep this rung (R334). -/
  past : List (Nat × Nat)
  deriving DecidableEq, Repr

/-- A loaded schedule (R328). -/
structure Schedule where
  num : Nat
  image : Nat
  bytes : Nat
  slots : Nat
  firstSeq : W32
  repeats : Nat
  period : Nat
  compileId : W64
  digest : BitVec 384
  deriving DecidableEq, Repr

/-- The armed schedule (R329-R334). -/
structure Armed where
  num : Nat
  start : Nat
  /-- governed commands dispatched, or passed over by dispatch, so far. -/
  done : Nat
  deriving DecidableEq, Repr

/-- Energy accumulators of a command or a job (R355, R358, R359), the uncertainty as an exact fraction. -/
structure Energy where
  sleeve : Nat
  stack : Nat
  seam : Nat
  apportioned : Nat
  /-- uncertainty as an exact fraction of nJ (numerator, denominator). -/
  uncNum : Nat
  uncDen : Nat
  /-- start tick of the first interval and end tick of the last. -/
  first : Option Nat
  last : Nat
  /-- intervals covered. -/
  intervals : Nat
  stretch : Nat
  partial_ : Bool
  reexecuted : Bool
  calChanged : Bool
  defaults : Bool
  /-- CAL_ID at the last interval covered. -/
  calId : W64
  deriving DecidableEq, Repr

/-- A job record (R356). -/
structure Job where
  id : W32
  beginSeq : W32
  endSeq : Option W32
  ended : Bool
  energy : Energy
  /-- members that have completed, and the time of the last of them. -/
  members : Nat
  lastDone : W64
  deriving DecidableEq, Repr

/-- An active stream (R276-R285): the block list as checked, its run-ahead points. -/
structure Stream where
  num : Nat
  desc : Nat
  cls : LineClass
  keepN : Nat
  outBlocks : Nat
  outReq : Nat
  home : BitVec 128
  /-- rows: address, row bytes, rows, pitch. -/
  extents : List (Nat × Nat × Nat × Nat)
  total : Nat
  /-- run-ahead point per level (R285). -/
  point0 : Nat
  point1 : Nat
  /-- sleeves on which it is active (an explicit stream released by a sleeve fault keeps its points, R371). -/
  active : BitVec 16
  deriving DecidableEq, Repr

/-- The bounce window of a context (R413, R414). -/
structure Bounce where
  session : Nat
  port : Nat
  base : Nat
  pages : Nat
  tags : Nat
  keyH2e : Bytes
  keyE2h : Bytes
  counter : Nat
  /-- in the view of a running command: pages that failed their tag (R414). -/
  bad : List Nat
  deriving DecidableEq, Repr

/-- A context: attributes (R207, R208, R242), page registers (R210), and what it holds. -/
structure Ctx where
  state : CtxState
  sq : Region
  cq : Region
  sqEntries : Nat
  cqEntries : Nat
  inflight : Nat
  fenceBase : Nat
  fenceN : Nat
  placement : BitVec 128
  share : Nat
  streamQuota : Nat
  endpoint : Nat
  save : Option Region
  saveUsed : Nat
  gov : Option Region
  ledger : Option Region
  ledgerBytes : Nat
  translation : Nat
  sqTail : W32
  sqHead : W32
  acceptSeq : W32
  /-- CTX_SQ_HEAD after the packet accepted last: SQ_COUNT of the newest entry (R376, R383). -/
  acceptHead : W32
  /-- INITIAL_SEQ of its opening (R208), which tells an accepted SEQ from one before the first (R211). -/
  initialSeq : W32
  cqHead : W32
  cqTail : W32
  resultSeq : W32
  dbErr : Bool
  seqErr : Bool
  cqErr : Bool
  dup : W32
  /-- members of a failed chain still to come (R241). -/
  failedMembers : Nat
  /-- SEQ of the failed CHAIN packet of those members. -/
  failedChain : W32
  /-- the stop of R231 in progress: the PREEMPT's SEQ in context 0 and the commands stopped so far. -/
  stopping : Option (W32 × Nat)
  /-- the close of R232 in progress: the CONTEXT_CLOSE's SEQ in context 0 and the commands cancelled. -/
  closing : Option (W32 × Nat)
  /-- SEQs that its last close cancelled (R211, R232). -/
  cancelled : List W32
  /-- governor (R134-R155). -/
  step : W64
  ladders : List Ladder
  /-- step area: the running merge of step S (R145). -/
  area : List StatRec
  /-- last merged records and ladders, as the committed state epoch holds them (R145, R263). -/
  lastRecs : List StatRec
  lastLadders : List Ladder
  /-- the committed state epoch (R145). -/
  govEpoch : Bool
  /-- pending area: records of completed commands that wait for their turn, by entry number (R145). -/
  waiting : List PendRec
  /-- SEQ of the last command merged into the step area and of the last committed GOV_STEP (R145). -/
  mergedSeq : W32
  govSeq : W32
  /-- ladders of this step's GOV_BOUNDS that take effect at the next GOV_STEP (R148): SEQ and ladder. -/
  bounds : List (W32 × Ladder)
  /-- ledger records written since the context opened (R155). -/
  ledgerHead : Nat
  schedules : List Schedule
  armed : Option Armed
  streams : List Stream
  jobs : List Job
  bounce : Option Bounce
  deriving DecidableEq, Repr

/-! ## The journal -/

/-- Entry states of R377. -/
inductive JState where
  | accepted | dispatched | stopped | committed | completing | completed | cancelled | lostWait | released
  deriving DecidableEq, Repr

/-- An item of a commit record (R380). -/
inductive CommitItem where
  | write (addr : Nat) (bytes : Bytes)
  | copy (dst src len : Nat)
  deriving DecidableEq, Repr

/-- A reference to a version slot (R176): context, physical address of the parameter descriptor, version. -/
structure VRef where
  ctx : Nat
  param : Nat
  version : W64
  deriving DecidableEq, Repr

/-- What a stopped command has in the save area (R99): the cursor of each slice, tile and rows (R98), and the part of the
area that its resume state takes: offset and bytes. -/
structure Saved where
  cursors : List (Nat × Nat)
  offset : Nat
  bytes : Nat
  deriving DecidableEq, Repr

/-- A journal entry (R376) with its packet, its literal block and what recovery carries with it. -/
structure Entry where
  /-- number of the entry, in order of acceptance: the model's own name for it. -/
  id : Nat
  ctx : Nat
  seq : W32
  packet : Bytes
  literal : Bytes
  state : JState
  tAccepted : W64
  tStarted : Option W64
  tFinished : W64
  /-- when its record became visible. -/
  tRecord : W64
  tileCursor : W32
  rowCursor : W32
  sqCount : W32
  cqCount : W32
  status : BitVec 8
  result : W32
  sumSat : Bool
  dispatchedOnce : Bool
  preempted : Bool
  faulted : Bool
  retiredFlag : Bool
  signalled : Bool
  ackWritten : Bool
  faultCore : Option Nat
  faults : Nat
  retirements : Nat
  /-- SEQ of the CHAIN packet, or the entry's own. -/
  chain : W32
  /-- member index in its chain (0 first), none outside one. -/
  member : Option Nat
  /-- accepted with the journal enabled (R374). -/
  journalled : Bool
  /-- lines written before its first line since placement (R375). -/
  line : Nat
  /-- the command holds its queues and its work has begun (R272). -/
  working : Bool
  /-- its WAIT mark has been met once (R218). -/
  waitMet : Bool
  /-- a status decided at dispatch, before any work (R218, R222, R236). -/
  early : Option (BitVec 8)
  /-- STATUS and RESULT are decided and every effect has committed. -/
  decided : Bool
  /-- completed-class codes that apply so far (R229). -/
  notes : List (BitVec 8)
  /-- the record is to carry REPLAYED (R384). -/
  replayed : Bool
  /-- transient references (R176). -/
  refs : List VRef
  /-- retained references taken and dropped at completion (R176). -/
  retain : List VRef
  drops : List VRef
  stats : List StatRec
  commit : List CommitItem
  /-- physical extents written (R284). -/
  wrote : List (Nat × Nat)
  /-- the STATE bytes of the version slots that it has set to WRITING, and what each held before (R173, R175, R232). -/
  taken : List (Nat × BitVec 8)
  /-- the reads of R429 on other ports have been sent. -/
  flushed : Bool
  /-- the structures that its body names, as they were read when it dispatched last (R234): address and bytes. -/
  snap : List (Nat × Bytes)
  /-- lines that its queues have looked up since they were granted (R273, R311): sleeve and line. -/
  asked : List (Nat × Nat)
  /-- its resume state (R99), none before a stop and after the command has completed. -/
  saved : Option Saved
  /-- the cores of its slices once one of them has been replaced (R367), in the order of the slices; else none. -/
  shares : List Nat
  energy : Energy
  deriving DecidableEq, Repr

/-- A loss record (R388). -/
structure Loss where
  ctx : Nat
  kind : Nat
  part : BitVec 8
  address : Nat
  firstSeq : W32
  waiting : Nat
  /-- the SEQs that wait on it. -/
  seqs : List W32
  deriving DecidableEq, Repr

/-- The journal (R374-R380, R385-R389). -/
structure Journal where
  base : W64
  mirror : W64
  enable : Bool
  state : Nat
  /-- lines written since placement, and lines reclaimed (R378). -/
  head : Nat
  tail : Nat
  /-- number of the next entry. -/
  nextId : Nat
  entries : List Entry
  /-- commit records in the ring: line, context, SEQ, items. -/
  commits : List (Nat × Nat × W32 × List CommitItem)
  losses : List (Option Loss)
  signals : List (Nat × Nat × W32)
  deriving DecidableEq, Repr

/-- Collar registers outside the journal block (R305, R389, R463). -/
structure Collar where
  xlateCtx : Nat
  xlateBusy : Option Nat
  xlateNext : Option Nat
  fault : BitVec 11
  retired : BitVec 128
  retireReq : BitVec 7
  lossSel : BitVec 12
  lossClear : BitVec 12
  ctx0Sq : W64
  ctx0SqEntries : W32
  ctx0Cq : W64
  ctx0CqEntries : W32
  ctx0Active : Bool
  ctx0CfgErr : Bool
  deriving DecidableEq, Repr

/-! ## Chains -/

/-- An admitted chain (R221, R290-R294). -/
structure ChainState where
  ctx : Nat
  seq : W32
  tAccepted : W64
  stages : Nat
  lastMembers : Nat
  buffer : Nat
  /-- one byte string per link: the producer's output not yet consumed, with its delivered length. -/
  links : List Bytes
  /-- bytes of the last link that each member of the last stage takes (R290). -/
  takes : List Nat
  /-- the link's producer has delivered everything. -/
  whole : List Bool
  /-- status of a producer that did not deliver its output, and its stage (R222). -/
  broken : Option (BitVec 8 × Nat)
  overflow : Bool
  overflowAt : Nat
  overflowBytes : Nat
  /-- the blocks placed into the ring of the overflow region, in order: link and block (R294). -/
  ring : List (Nat × Nat)
  admitted : Bool
  /-- the g values of the owner's sums, per tensor of the list (R201), and the buffers read for them. -/
  gvals : List (List W32)
  greads : List (Nat × Nat)
  deriving DecidableEq, Repr

/-! ## Exchange -/

/-- Phases of a round on this engine (R191). -/
inductive RyPhase where
  | ready | data | aborted
  deriving DecidableEq, Repr

/-- A channel word (R189). -/
structure RyChan where
  port : Nat
  valid : Bool
  ep : Nat
  deriving DecidableEq, Repr

/-- A round descriptor (R189); `resv` says that a reserved bit is not zero. -/
structure RyDesc where
  group : Nat
  vc : Nat
  size : Nat
  position : Nat
  guard : Nat
  steps : Nat
  initExp : Int
  listN : Nat
  round : W64
  step : W64
  deadline : W64
  up : RyChan
  down : RyChan
  backupIn : RyChan
  backupOut : RyChan
  backsPos : Nat
  list : Nat
  forecast : Nat
  work : Nat
  record : Nat
  resv : Bool
  deriving DecidableEq, Repr

/-- An entry of the round list (R189). -/
structure RyTensor where
  buffer : Nat
  backup : Nat
  owner : Nat
  replica : Nat
  norm : Nat
  normPart : Nat
  rows : Nat
  cols : Nat
  resv : Bool
  deriving DecidableEq, Repr

/-- The counts of a round record (R203). -/
structure RyCounts where
  blocksIn : Nat
  blocksOut : Nat
  escHere : Nat
  escFinal : Nat
  sat : Nat
  nonfinite : Nat
  resends : Nat
  divergences : Nat
  deriving DecidableEq, Repr

/-- A stream of blocks that this position receives (R186, R199): which of the non-empty shards it comes to next
and the block expected there, the block that has had one transit fault, and the blocks accepted last: shard,
SEQ and checksum. -/
structure RyIn where
  stream : Nat
  next : Nat
  faulted : List (Nat × Nat)
  accepted : List (Nat × Nat × Nat)
  deriving DecidableEq, Repr

/-- A backup's contribution to a block, received and not yet added (R202): shard, index, mantissas, SAT. -/
structure RySub where
  shard : Nat
  idx : Nat
  ms : List Int
  sat : Bool
  deriving DecidableEq, Repr

/-- A shard's part of a tensor in the parameter lap (R204): the fields of its header, and what followed it. -/
structure RyHead where
  tensor : Nat
  shard : Nat
  fmt : Nat
  version : W64
  part : W64
  dataBytes : Nat
  forecastBytes : Nat
  /-- data payloads received. -/
  got : Nat
  /-- forecast bytes received. -/
  bytes : Bytes
  deriving DecidableEq, Repr

/-- A replica that an RY_PARAM_RECV writes (R205): tensor, physical runs of its descriptor, the slot taken, its
BASE and PITCH. -/
structure RyReplica where
  tensor : Nat
  runs : List (Nat × Nat)
  slot : Nat
  base : Nat
  pitch : Nat
  deriving DecidableEq, Repr

/-- What is kept of an earlier round of a group while a contribution to it can still be at work (R202): its context, the
journal entries of its open and its close, its tensors, whether it was aborted, the kinds of command given, how this
position settled, the blocks that it served. -/
structure RyPast where
  ctx : Nat
  size : Nat
  ports : List Nat
  tensors : List RyTensor
  openId : Nat
  closeId : Nat
  aborted : Bool
  given : BitVec 4
  settled : Option Nat
  served : Option Nat
  deriving DecidableEq, Repr

/-- An exchange group 0-15 (R184-R205): its last round on this engine. -/
structure RyGroup where
  ctx : Nat
  /-- journal entries of its RY_ROUND_OPEN and of its RY_ROUND_CLOSE. -/
  openId : Nat
  closeId : Option Nat
  d : RyDesc
  tensors : List RyTensor
  /-- BLOCKS of the forecast table, the scale bytes in force (R197), the guard bytes, and the digest of the
  whole table (R191). -/
  tableBlocks : Nat
  scales : Bytes
  guards : Bytes
  digest : BitVec 64
  /-- physical runs of WORK. -/
  work : List (Nat × Nat)
  isOpen : Bool
  phase : RyPhase
  why : Nat
  /-- 0 READY, 1 BACKUP, 2 MISSING, once settled (R190). -/
  settled : Option Nat
  /-- BACKUP_READY has come from the backup. -/
  backupReady : Bool
  /-- SEQ of the PRIMARY RY_CONTRIBUTE that found its buffers committed, and the rows that it found. -/
  primary : Option W32
  mine : List (List (List (Nat × Nat)))
  /-- the BACKUP RY_CONTRIBUTE's rows, once it found them committed; blocks served, once asked for. -/
  copy : Option (List (List (List (Nat × Nat))))
  served : Option Nat
  /-- a lap 1 token that waits for this position to settle, and the token of lap 2. -/
  token : Option ReadyToken
  lap2 : Option ReadyToken
  /-- kinds of command already given: PRIMARY, BACKUP, RY_HOP, RY_OWN. -/
  given : BitVec 4
  /-- SEQ of the RY_HOP and of the RY_OWN at work, and the buffer rows that each reads. -/
  hop : Option W32
  hopRows : List (List (List (Nat × Nat)))
  own : Option W32
  ownRows : List (List (List (Nat × Nat)))
  /-- SEQ of the chain of RY_OWN. -/
  ownChain : Option W32
  /-- blocks sent of the shard that this position starts. -/
  started : Nat
  up : RyIn
  back : RyIn
  /-- blocks received and not yet taken: bytes, adder faults of their addition. -/
  inbox : List (Bytes × List Nat)
  subs : List RySub
  /-- replay windows of DOWN and of BACKUP_OUT: shard, index, bytes. -/
  window : List (Nat × Nat × Bytes)
  served_ : List (Nat × Nat × Bytes)
  /-- final sums of the own shard, in order: whether the block arrived in YB32, its sums. -/
  finals : List (Bool × List Int)
  hopBackup : Bool
  ownBackup : Bool
  /-- physical runs of the norm records, by tensor; this position's G2 (R201); tokens held; tensors done. -/
  normAt : List (Nat × List (Nat × Nat))
  normOwn : List (Nat × W64)
  normHeld : List (Nat × W64)
  normDone : List Nat
  normsBegun : Bool
  n : RyCounts
  tOpen : W64
  tReady : W64
  tData : W64
  /-- the parameter lap: SEQ of the RY_PARAM_RECV at work, its replicas, streams received, payloads that came
  before it, and a status that stands in its way. -/
  recv : Option W32
  replicas : List RyReplica
  heads : List RyHead
  early : List (Nat × Bytes)
  recvErr : Option (BitVec 8)
  /-- the own streams have been sent; packets of other streams that follow them (R204). -/
  sent : Bool
  forward : List (Nat × Bytes)
  /-- earlier rounds that commands at work still name. -/
  past : List RyPast
  deriving DecidableEq, Repr

/-! ## The Belt -/

/-- Granted activity of a core (R338, R342): array or vector, its context, the RAMP that it started with; its command, and
the tick at which that began there (R340, R352). -/
structure Activity where
  core : Nat
  array : Bool
  ctx : Nat
  ramp : Nat
  seq : W32
  since : Nat
  deriving DecidableEq, Repr

/-- A waiting request of R339: tick, core, array (true) or vector, rise or fall, context. -/
structure StepReq where
  t : Nat
  core : Nat
  array : Bool
  rise : Bool
  ctx : Nat
  seq : W32
  deriving DecidableEq, Repr

/-- A power reservation (R341, R360). -/
structure Reservation where
  ctx : Nat
  ramp : Nat
  watts : Nat
  deriving DecidableEq, Repr

/-- Profile values of the Belt (R337, R360). -/
structure BeltValues where
  slewLimit : BitVec 16
  peakCap : BitVec 16
  susMax : BitVec 16
  powerCap : BitVec 16
  tLimit : BitVec 16
  tTrip : BitVec 16
  thDp : W32
  thPc : W32
  thCi : W32
  cD : W32
  cP : W32
  cC : W32
  gainMin : BitVec 16
  gainMax : BitVec 16
  offsMax : BitVec 16
  deriving DecidableEq, Repr

/-- The Belt (R336-R360). -/
structure Belt where
  defaults : Bool
  cfgErr : Bool
  trip : Bool
  slewLimit : BitVec 16
  peakCap : BitVec 16
  susMax : BitVec 16
  powerCap : BitVec 16
  /-- caps and calibrations written and not yet in effect (R344, R351). -/
  capNext : Option (BitVec 16)
  coolant : BitVec 16
  /-- T_in of the current interval: a coolant temperature written enters at the next (R346). -/
  coolantIn : BitVec 16
  tLimit : BitVec 16
  tTrip : BitVec 16
  step : Nat
  causes : BitVec 3
  /-- the excess X in nJ (R343). -/
  bucket : Nat
  /-- model nodes as binary64 (R346). -/
  td : W64
  tp : W64
  tc : W64
  pThermal : W64
  hottest : BitVec 16
  thDp : W32
  thPc : W32
  thCi : W32
  cD : W32
  cP : W32
  cC : W32
  gainMin : BitVec 16
  gainMax : BitVec 16
  offsMax : BitVec 16
  calId : W64
  resv : List (Option Reservation)
  cal : List W32
  calNext : List (Nat × W32)
  energy : List W64
  unattributed : W64
  receipts : W64
  /-- quiet intervals in succession (R345), and consecutive ticks of cool sensors during a trip (R349). -/
  quiet : Nat
  cool : Nat
  requests : List StepReq
  /-- granted activity; and what of it is held up until its decrease is granted (R340): core, array. -/
  running : List Activity
  holdUp : List (Nat × Bool)
  /-- end of the last interval that has closed. -/
  lastInterval : Nat
  /-- the values that a profile has replaced and the tick at which it did: they hold in the window and the interval of that
  tick (R337). -/
  prior : Option (Nat × BeltValues)
  /-- DEFAULTS has been 1 in the interval that is open (R359). -/
  wasDefault : Bool
  /-- number of the first slew window that has not been granted (R339). -/
  nextWindow : Nat
  /-- what commands have earned and how long they were in progress in the intervals that have not closed (R352, R354). -/
  meter : List WorkShare
  deriving DecidableEq, Repr

/-! ## The Lining -/

/-- A session slot (R396, R418). -/
structure Session where
  role : Nat
  key : Nat
  endpoint : Nat
  deriving DecidableEq, Repr

/-- An open challenge (R396): role, endpoint, its 128 bytes, the tick it was issued, its slot. -/
structure Challenge where
  role : Nat
  endpoint : Nat
  bytes : Bytes
  t : W64
  slot : Nat
  deriving DecidableEq, Repr

/-- An audit entry (R398), its PREV field kept apart. -/
structure Audit where
  kind : Nat
  role : Nat
  endpoint : Nat
  t : W64
  target : W32
  seq : W32
  value : W64
  prev : BitVec 256
  deriving DecidableEq, Repr

/-- A seal (R402-R408). -/
structure Seal where
  handle : Nat
  ctx : Nat
  sealId : BitVec 128
  key : BitVec 256
  productsOpen : Bool
  /-- physical 64 KiB pages. -/
  pages : List Nat
  /-- highest ROUND sent under R407. -/
  lastRound : Option Nat
  deriving DecidableEq, Repr

/-- One direction of a channel's keys (R409-R411). -/
structure DirKey where
  key : Bytes
  salt : Bytes
  counter : Nat
  deriving DecidableEq, Repr

/-- A channel (R409). -/
structure Channel where
  port : Nat
  vc : Nat
  endpoint : Nat
  send : DirKey
  recv : DirKey
  /-- previous receive key, accepted until the first packet under the new one (R411). -/
  old : Option DirKey
  /-- a re-key is needed before the next packet. -/
  rekey : Bool
  deriving DecidableEq, Repr

/-- An SPDM session (R412). -/
structure Spdm where
  id : Nat
  port : Nat
  endpoint : Nat
  finished : Bool
  deriving DecidableEq, Repr

/-- SPDM negotiation state per port and endpoint. -/
structure SpdmConn where
  port : Nat
  endpoint : Nat
  stage : Nat
  deriving DecidableEq, Repr

/-- The Lining (R392-R418). -/
structure Lining where
  measured : Bool
  helperErr : Bool
  auditFull : Bool
  ctx0Ep : BitVec 16
  ctx0Latched : Bool
  sessions : List (Option Session)
  challenges : List Challenge
  challengeNo : W64
  /-- failures per endpoint and the tick of the eighth. -/
  authFails : W32
  failures : List (Nat × Nat × Option Nat)
  chanAuth : W32
  seals : List Seal
  enrolBuf : Bytes
  /-- TABLE, INDEX and REMOVE as written last (R418). -/
  enrolCmd : BitVec 8
  enrolDone : Bool
  enrolErr : Bool
  opKeys : List (Option Bytes)
  anchors : List (Option Bytes)
  instKeys : List (Option Bytes)
  audit : List Audit
  auditHead : BitVec 384
  bootNonce : BitVec 384
  /-- the reconstructed root secret (R400), none before a bundle has passed. -/
  root : Option (BitVec 384)
  channels : List Channel
  conns : List SpdmConn
  spdm : List Spdm
  draws : Nat
  deriving DecidableEq, Repr

/-! ## Trace, management ports -/

/-- A trace record (R449). -/
structure TraceRec where
  type : Nat
  resumed : Bool
  source : Nat
  ctx : Nat
  t : W64
  seq : W32
  gap : W32
  data : W64
  deriving DecidableEq, Repr

/-- The trace unit (R449-R454). -/
structure Trace where
  mode : Nat
  placed : Bool
  /-- physical 64 KiB pages of the region, and its first byte within the first. -/
  pages : List Nat
  offset : Nat
  bytes : Nat
  post : Nat
  next : Nat
  preNext : Nat
  trigIndex : Nat
  wraps : W32
  drops : W64
  sources : W64
  triggered : Bool
  full : Bool
  /-- the last stamp of each core that has stamped a record, and the cores that have been clock-gated since (R325). -/
  stamps : SMap W64
  gated : BitVec 128
  deriving DecidableEq, Repr

/-- The I3C target (R433). -/
structure I3c where
  dynamic : Option (BitVec 7)
  ibiEnabled : Bool
  ibiPending : Bool
  /-- a read set up by a private write: offset and words. -/
  read : Option (Nat × Nat)
  /-- words answered, oldest first, and CCC answers. -/
  out : Bytes
  draws : Nat
  deriving DecidableEq, Repr

/-- TAP instructions (R434). -/
inductive TapInstr where
  | bypass | idcode | sample | extest | clamp | highz
  deriving DecidableEq, Repr

/-- The test access port (R434). -/
structure Tap where
  instr : TapInstr
  cells : W32
  /-- the data register last selected, as shifted out. -/
  out : W32
  samples : Nat
  deriving DecidableEq, Repr

/-! ## The state -/

/-- The whole engine. -/
structure State where
  die : Die
  pins : Pins
  tb : TimeBase
  caps : Caps
  ready : Ready
  boot : Boot
  stks : List StackPort
  seams : List SeamPort
  hostReads : List HostRead
  mem : List Host.Cell
  ctxs : SMap Ctx
  journal : Journal
  collar : Collar
  /-- fence counters that are not 0 (R219). -/
  fences : SMap W64
  /-- retained references with their counts (R176). -/
  retained : List (VRef × Nat)
  cores : SMap CoreUnit
  sleeves : List Sleeve
  fabric : Fabric
  chains : List ChainState
  /-- the tick since which a link has been starved and no block has been placed into or taken from a link (R294). -/
  starved : Option W64
  groups : SMap RyGroup
  /-- counters that are not 0, by the aperture address of their low word (R445). -/
  counters : SMap W64
  trace : Trace
  belt : Belt
  lining : Lining
  i3c : I3c
  tap : Tap
  /-- HI words latched by a read of LO: reader (endpoint + 1, 0 for I3C), offset, value (R323, R460). -/
  latches : List (Nat × Nat × W32)
  /-- use stamps given so far (R283). -/
  stamps : Nat
  /-- free values drawn so far: the model's own (R229, R232). -/
  free : Nat
  /-- commands that wait, first in first out. -/
  pending : List Instr
  deriving DecidableEq, Repr

/-! ## Reset values -/

/-- No region. -/
def Region.none : Region := Region.mk 0 0 [] false 0

/-- A closed context, its page at the reset values of R210 with INITIAL_SEQ 0. -/
def Ctx.init : Ctx where
  state := .closed
  sq := Region.none
  cq := Region.none
  sqEntries := 0
  cqEntries := 0
  inflight := 0
  fenceBase := 0
  fenceN := 0
  placement := 0
  share := 0
  streamQuota := 0
  endpoint := 0
  save := .none
  saveUsed := 0
  gov := .none
  ledger := .none
  ledgerBytes := 0
  translation := 0
  sqTail := 0
  sqHead := 0
  acceptSeq := 0xFFFFFFFF
  acceptHead := 0
  initialSeq := 0
  cqHead := 0
  cqTail := 0
  resultSeq := 0
  dbErr := false
  seqErr := false
  cqErr := false
  dup := 0
  failedMembers := 0
  failedChain := 0
  stopping := .none
  closing := .none
  cancelled := []
  step := 0
  ladders := []
  area := []
  lastRecs := []
  lastLadders := []
  govEpoch := false
  waiting := []
  mergedSeq := 0
  govSeq := 0
  bounds := []
  ledgerHead := 0
  schedules := []
  armed := .none
  streams := []
  jobs := []
  bounce := .none

/-- Context 0 before its rings are applied, with the fixed attributes of R207. -/
def Ctx.zero : Ctx :=
  { Ctx.init with
    state := .opened
    inflight := 65536
    fenceN := 65536
    placement := BitVec.allOnes 128
    share := 16
    streamQuota := 1024 }

/-- A core with nothing in it (R314). -/
def CoreUnit.init : CoreUnit := CoreUnit.mk [] [] [] [] .none [] 0 0

/-- A port that has served nothing (R314). -/
def Traffic.init : Traffic := Traffic.mk (Arbiter.mk 0 [] []) [] [] [] 0 0 []

/-- Empty caches (R314). -/
def Cache.init : Cache := Cache.mk [] []

/-- Nothing cached, nothing on its way (R314). -/
def Fabric.init : Fabric := Fabric.mk [] []

/-- A sleeve after cold reset (R465). -/
def Sleeve.init : Sleeve where
  check := .notRun
  fabricFail := false
  coresFailed := 0
  gussetFailed := false
  sensor := 0
  faults := 0
  checkT := 0
  retired := false
  gussetRetired := false
  gussetCharge := .none
  hit := []

/-- A stack port at the release of cold reset (R467). -/
def StackPort.init : StackPort where
  state := .training
  journal := false
  pcFailed := 0
  trainFails := 0
  lanes := 0
  temp := 0
  refresh := 0
  zeroed := 0
  capacity := 0
  height := 0
  rate := 0
  cleared := false
  repeats := []
  management := []
  refreshes := 0
  allBank := false

/-- A Seam port at the release of cold reset (R468). -/
def SeamPort.init : SeamPort where
  state := .idle
  tx := 0
  rx := 0
  detTx := 0
  detRx := 0
  trainFails := 0
  peerEp := 0
  peerPort := 0
  peerDie := 0
  granted := List.replicate 18 0
  credits := List.replicate 18 0
  owed := List.replicate 18 0
  fseqTx := 0
  fseqRx := 0
  replay := []
  replays := 0
  nak := false
  partialRx := []
  txQueue := []
  rxQueue := []
  laneMap := 0xFF
  meter := []

/-- The time base after cold reset (R320, R323). -/
def TimeBase.init : TimeBase where
  now := 0
  mode := .free
  loadLo := 0
  loadHi := 0
  loadPending := false
  loadErr := false
  stepped := false
  lastError := 0
  edges := 0
  slews := 0
  losses := 0
  good := 0
  bad := 0
  sinceEdge := .none
  slewLeft := 0
  slewBehind := false
  slewIn := 0
  held := .none

/-- The units of a die (R1, R440). -/
def Caps.ofDie : Die → Caps
  | .g5x16 => Caps.mk 0xFFFF 0x3F 0xF true (BitVec.allOnes 128) 0xFFFF
  | .g5x8 => Caps.mk 0x00FF 0x0F 0x3 false 0xFFFFFFFFFFFFFFFF 0

/-- The reset value of a calibration register, by die and domain: absent domains read as 0 (R360). -/
def calInit (die : Die) (d : Nat) : W32 :=
  match die with
  | .g5x16 => 0x8000
  | .g5x8 => if (8 ≤ d ∧ d < 16) ∨ d = 20 ∨ d = 21 ∨ d = 24 ∨ d = 25 then 0 else 0x8000

/-- 25 °C as a binary64, the model temperature after cold reset (R346, R360). -/
def celsius25 : W64 := 0x4039000000000000

/-- The Belt after cold reset (R337, R360). -/
def Belt.init (die : Die) : Belt where
  defaults := true
  cfgErr := false
  trip := false
  slewLimit := 0x0064
  peakCap := 0x0258
  susMax := 0x01F4
  powerCap := 0x01F4
  capNext := .none
  coolant := 0x0190
  coolantIn := 0x0190
  tLimit := 0x0550
  tTrip := 0x0640
  step := 0
  causes := 0
  bucket := 0
  td := celsius25
  tp := celsius25
  tc := celsius25
  pThermal := 0
  hottest := 0
  thDp := 100000
  thPc := 50000
  thCi := 20000
  cD := 5000
  cP := 200000
  cC := 2000000
  gainMin := 0x8000
  gainMax := 0x8000
  offsMax := 0
  calId := calIdOf ((List.range 27).map (calInit die))
  resv := [.none, .none, .none, .none]
  cal := (List.range 27).map (calInit die)
  calNext := []
  energy := List.replicate 27 0
  unattributed := 0
  receipts := 0
  quiet := 0
  cool := 0
  requests := []
  running := []
  holdUp := []
  lastInterval := 0
  prior := .none
  wasDefault := true
  nextWindow := 0
  meter := []

/-- The 64 bytes of an audit entry (R398) with index `i`. -/
def Audit.bytes (a : Audit) (i : Nat) : Bytes :=
  leBytes 4 i ++ leBytes 1 a.kind ++ leBytes 1 a.role ++ leBytes 2 a.endpoint ++
  leBytes 8 a.t.toNat ++ leBytes 4 a.target.toNat ++ leBytes 4 a.seq.toNat ++
  leBytes 8 a.value.toNat ++ leBytes 32 a.prev.toNat

/-- The head after entry `i` (R399): the hash of the head before it and the entry's first 32 bytes. -/
def auditNext (head : BitVec 384) (a : Audit) (i : Nat) : BitVec 384 :=
  digest384 (leBytes 48 head.toNat ++ (a.bytes i).take 32)

/-- H(-1) of R399: the hash of the boot nonce. -/
def auditStart (nonce : BitVec 384) : BitVec 384 := digest384 (leBytes 48 nonce.toNat)

/-- Entry 0 of R399: KIND 0, its VALUE the first 8 bytes of DEVICE_ID. -/
def auditZero (nonce : BitVec 384) : Audit :=
  Audit.mk 0 3 0 0 0 0 (BitVec.ofNat 64 (leNat ((deviceId Config.deviceRoot).take 8)))
    ((auditStart nonce).setWidth 256)

/-- The Lining after cold reset, with the boot nonce that it draws (R399, R418). -/
def Lining.init (draw : Nat) : Lining where
  measured := false
  helperErr := false
  auditFull := false
  ctx0Ep := 0
  ctx0Latched := false
  sessions := List.replicate 16 .none
  challenges := []
  challengeNo := 0
  authFails := 0
  failures := []
  chanAuth := 0
  seals := []
  enrolBuf := List.replicate 128 0
  enrolCmd := 0
  enrolDone := false
  enrolErr := false
  opKeys := List.replicate 16 .none
  anchors := List.replicate 32 .none
  instKeys := List.replicate 4 .none
  audit := [auditZero (Config.random384 draw)]
  auditHead := auditNext (auditStart (Config.random384 draw)) (auditZero (Config.random384 draw)) 0
  bootNonce := Config.random384 draw
  root := .none
  channels := []
  conns := []
  spdm := []
  draws := draw + 1

/-- The journal before its placement (R374, R389). -/
def Journal.init : Journal where
  base := 0
  mirror := 0
  enable := false
  state := 0
  head := 0
  tail := 0
  nextId := 0
  entries := []
  commits := []
  losses := []
  signals := []

/-- The Collar registers after cold reset (R305, R389, R463). -/
def Collar.init : Collar where
  xlateCtx := 0
  xlateBusy := .none
  xlateNext := .none
  fault := 0
  retired := 0
  retireReq := 0
  lossSel := 0
  lossClear := 0
  ctx0Sq := 0
  ctx0SqEntries := 0
  ctx0Cq := 0
  ctx0CqEntries := 0
  ctx0Active := false
  ctx0CfgErr := false

/-- Trace after cold reset (R452, R454). -/
def Trace.init : Trace := Trace.mk 0 false [] 0 0 0 0 0 0 0 0 0 false false [] 0

/-- Boot state after cold reset (R440): straps 2 and 3 of STRAP_BOOT leave BOOT_ERR 5 (R421). -/
def Boot.init (straps : BitVec 6) : Boot where
  stage := .waitBundle
  err := if straps.getLsbD 5 then 5 else 0
  warmIgnored := false
  bundle := []
  everReady := false
  makerKey := .none
  fwRunning := []
  fwRunningDigest := 0
  fwStaged := .none
  commitBy := .none
  profile := .none
  checking := 0

/-- The engine right after a cold reset is released (R381, R420, R421, R435, R461), on a die with the
straps sampled; `draw` numbers the boot nonce and `free` the free values drawn before. -/
def State.cold (die : Die) (straps : BitVec 6) (draw free : Nat) : State where
  die := die
  pins := Pins.mk true true true false straps
  tb := TimeBase.init
  caps := Caps.ofDie die
  ready := Ready.mk true false false 0 0 0
  boot := Boot.init straps
  stks := List.replicate 6 StackPort.init
  seams := List.replicate 4 SeamPort.init
  hostReads := []
  mem := []
  ctxs := []
  journal := Journal.init
  collar := Collar.init
  fences := []
  retained := []
  cores := []
  sleeves := List.replicate 16 Sleeve.init
  fabric := Fabric.init
  chains := []
  starved := .none
  groups := []
  counters := []
  trace := Trace.init
  belt := Belt.init die
  lining := Lining.init draw
  i3c := I3c.mk .none false false .none [] 0
  tap := Tap.mk .bypass 0 0 0
  latches := []
  stamps := 0
  free := free
  pending := []

/-- The machine right after reset: a G5-16 whose straps are all 0 (both DESIGN CHOICES, logs 1 and 4). -/
def State.reset : State := State.cold .g5x16 0 0 0

end Sys2Proof.Machine
end

