-- ==== Sys2Proof/Machine/Fabric.lean ====
section
/-!
DEFINITION. Sys2Proof/Machine/Fabric.lean: sparse tables; the decoding of R299; arbiters, deficit tickets, request slots
and issue order (R306-R308, R315, R316); the L2 lines of a sleeve and its translation cache (R305, R311-R313); the banks
of the L1 and the Hem (R309, R310). No value depends on any of it (R317).
-/
namespace Sys2Proof.Machine

/-! ## Sparse tables -/

/-- The entry of a number, if listed. -/
def smGet? {α : Type} (m : SMap α) (k : Nat) : Option α :=
  match m with
  | [] => none
  | (j, v) :: r => if j = k then some v else smGet? r k

/-- The entry of a number, or the default. -/
def smGet {α : Type} (m : SMap α) (k : Nat) (d : α) : α := (smGet? m k).getD d

/-- Put an entry at its place in ascending order. -/
def smSet {α : Type} (m : SMap α) (k : Nat) (v : α) : SMap α :=
  m.filter (fun e => decide (e.1 < k)) ++ [(k, v)] ++ m.filter (fun e => decide (k < e.1))

/-- Remove an entry. -/
def smDel {α : Type} (m : SMap α) (k : Nat) : SMap α := m.filter (fun e => e.1 != k)

/-! ## Placement inside a stack and on the die -/

/-- The pseudo-channel of a byte offset in a stack (R299). -/
def pcOf (a : Nat) : Nat := (a / 2 ^ 8 % 64) ^^^ (a / 2 ^ 22 % 64)
/-- The bank of a byte offset in a stack (R299). -/
def bankOf (a : Nat) : Nat := (a / 2 ^ 16 % 64) ^^^ (a / 2 ^ 28 % 64)
/-- The row of a byte offset in a stack (R299). -/
def rowOf (a : Nat) : Nat := a / 2 ^ 22 % 2 ^ 15
/-- The column of a byte offset in a stack (R299): one of 16 lines of a 1 KiB row. -/
def colOf (a : Nat) : Nat := (a / 2 ^ 14 % 4) * 4 + a / 2 ^ 6 % 4

/-- Bytes of a block (R271). -/
def blockBytes : Nat := 32768

/-- Buffer blocks of a core's L1 (R271). -/
def bufferBlocks : Die → Nat
  | .g5x16 => 96
  | .g5x8 => 64

/-- Shared blocks of a core (R271): those that no reservation of its 16 queues sets aside. -/
def sharedBlocks (d : Die) : Nat := bufferBlocks d - 32

/-- The hand-over allowance of a core (R271). -/
def handAllowance : Die → Nat
  | .g5x16 => 32
  | .g5x8 => 16

/-- The bank of a byte offset of an L1 (R309). -/
def l1Bank (o : Nat) : Nat := o / 64 % 64

/-- The bank of an entry of a Hem (R310). -/
def hemBank (e : Nat) : Nat := e % 1024

/-- Entries of a half of a Hem (R310). -/
def hemEntries : Nat := 131072

/-! ## Deficit tickets (R315, R316) -/

/-- The weight of a context (R315). -/
def weightOf (share : Nat) : Nat := 65536 / max 1 share

/-- A context's next ticket at an arbiter (R315). -/
def Arbiter.draw (a : Arbiter) (ctx w : Nat) : W32 × Arbiter :=
  let t := smGet a.tickets ctx 0
  let base := if (a.clock - t).toNat < 2 ^ 31 then a.clock else t
  let k := base + BitVec.ofNat 32 w
  (k, { a with tickets := smSet a.tickets ctx k })

/-- Services of the last 1,000 ticks (R316). -/
def recentOf (now : Nat) (rs : List (Nat × Nat × Nat)) : List (Nat × Nat × Nat) :=
  rs.filter (fun r => decide (now < r.1 + 1000))

/-- One service more at a tick, ahead of tickets or not. -/
def noteServed (now ahead : Nat) (rs : List (Nat × Nat × Nat)) : List (Nat × Nat × Nat) :=
  let rs := recentOf now rs
  if rs.any (fun r => r.1 == now) then
    rs.map (fun r => if r.1 = now then (now, r.2.1 + 1, r.2.2 + ahead) else r)
  else rs ++ [(now, 1, ahead)]

/-- A ticket is served (R315): V takes it when it lies ahead. -/
def Arbiter.serve (a : Arbiter) (now : Nat) (ticket : W32) : Arbiter :=
  { a with
    clock := if (ticket - a.clock).toNat < 2 ^ 31 then ticket else a.clock
    recent := noteServed now 0 a.recent }

/-- Whether a request of engine traffic may go ahead of tickets (R316): one in 16 may. -/
def Arbiter.ahead (a : Arbiter) (now : Nat) : Bool :=
  let rs := recentOf now a.recent
  let all : Nat := (rs.map (fun r => r.2.1)).foldl (· + ·) 0
  let ahead : Nat := (rs.map (fun r => r.2.2)).foldl (· + ·) 0
  decide (16 * ahead ≤ all)

/-- A request of a context reaches the arbiter and waits with its ticket (R306, R315). -/
def Traffic.offer (w : Nat) (t : Traffic) (r : Request) : Traffic :=
  let d := t.arb.draw r.ctx w
  { t with arb := d.2, waits := t.waits ++ [{ r with ticket := d.1 }] }

/-- The requests of a command that hold slots return with no event of their own; those that still wait at their source go
on waiting for a slot, for no queue any more (log 97). -/
def Traffic.finish (mine : Request → Bool) (t : Traffic) : Traffic :=
  { t with
    waits := t.waits.map (fun r => if mine r then { r with core := 128, seq := 0 } else r)
    slots := t.slots.filter (fun r => !mine r)
    rows := (t.slots.filter mine).foldl
      (fun m r => smSet m (64 * pcOf (64 * r.line) + bankOf (64 * r.line)) (rowOf (64 * r.line))) t.rows }

/-! ## Request slots (R306-R308) -/

/-- The pseudo-channel of a request. -/
def Request.pc (r : Request) : Nat := pcOf (64 * r.line)
/-- The bank of a request. -/
def Request.bank (r : Request) : Nat := bankOf (64 * r.line)

/-- Slots of a pseudo-channel (R306). -/
def slotLimit : Nat := 1024
/-- Slots that one bank of it may hold (R307). -/
def bankLimit : Nat := 128

/-- Whether the pseudo-channel of a request has a slot free (R306). -/
def Traffic.slotFree (t : Traffic) (r : Request) : Bool :=
  decide ((t.slots.filter (fun x => x.pc == r.pc)).length < slotLimit)

/-- Whether the bank of a request holds less than its cap (R307). -/
def Traffic.bankFree (t : Traffic) (r : Request) : Bool :=
  decide ((t.slots.filter (fun x => x.pc == r.pc && x.bank == r.bank)).length < bankLimit)

/-- Whether a port takes a request now: its pseudo-channel has a slot free, and its bank is below its cap. -/
def Traffic.takes (t : Traffic) (r : Request) : Bool := t.slotFree r && t.bankFree r

/-- The end of the metering interval in which a tick lies (R350). -/
def intervalEnd (t : Nat) : Nat := (t / 10000 + 1) * 10000

/-- Add to a share, or begin one. -/
def addShare (w : WorkShare) : List WorkShare → List WorkShare
  | [] => [w]
  | x :: xs =>
    if x.stop = w.stop ∧ x.unit = w.unit ∧ x.ctx = w.ctx ∧ x.seq = w.seq then { x with amount := x.amount + w.amount } :: xs
    else x :: addShare w xs

/-- A request that the port has taken and that returns with no event of its own (R306): the page of its bank is open. It
is engine traffic, or that of a command that its row names (R353). -/
def Traffic.passed (now : Nat) (t : Traffic) (arb : Arbiter) (r : Request) : Traffic :=
  { t with
    arb := arb, requests := t.requests + 1
    rows := smSet t.rows (64 * r.pc + r.bank) (rowOf (64 * r.line))
    meter := addShare (WorkShare.mk (intervalEnd now) 0 (if r.ctx = 1024 then 1024 else 1025) 0 1) t.meter }

/-- Traffic of contexts, in the interval that ends at `stop`, for which no command has been named yet. -/
def unnamed (stop : Nat) (ms : List WorkShare) : Nat :=
  ((ms.filter (fun w => w.stop == stop && w.ctx == 1025)).map (fun w => w.amount)).foldl (· + ·) 0

/-- `n` of it was a command's. -/
def nameShare (stop ctx : Nat) (seq : W32) (n : Nat) (ms : List WorkShare) : List WorkShare :=
  if n = 0 then ms else addShare (WorkShare.mk stop 0 ctx seq n) (ms.map (fun w =>
    if w.stop = stop ∧ w.ctx = 1025 then { w with amount := w.amount - n } else w))

/-- A request of a context with weight `w` reaches a port (R306, R307, R315): it passes where the port takes it, else it
waits at its source with its ticket. -/
def Traffic.direct (now w : Nat) (t : Traffic) (r : Request) : Traffic :=
  let d := t.arb.draw r.ctx w
  if t.takes r then t.passed now (d.2.serve now d.1) r
  else { t with arb := d.2, waits := t.waits ++ [{ r with ticket := d.1 }] }

/-- A request of engine traffic (R316): ahead of tickets up to one in 16, and beyond that, or where the port has no room
for it, as context 1,024 with the weight 257. -/
def Traffic.engine (now : Nat) (t : Traffic) (r : Request) : Traffic :=
  if t.takes r && t.arb.ahead now then t.passed now { t.arb with recent := noteServed now 1 t.arb.recent } r
  else t.direct now 257 r

/-- A request for a line that no core's queue makes: a write, a read of the Collar, or engine traffic. -/
def Request.plain (ctx line : Nat) : Request := Request.mk ctx 0 128 line true .stream 0 0 0 false

/-- The order in which an arbiter serves (R315): tickets relative to V, then the lower context. -/
def servedBefore (clock : W32) (a b : Request) : Bool :=
  decide ((a.ticket - clock).toInt < (b.ticket - clock).toInt) ||
  (a.ticket == b.ticket && decide (a.ctx < b.ctx))

/-- The request served first, the earlier arrival among equals. -/
def firstServed (clock : W32) : List Request → Option Request
  | [] => none
  | r :: rs =>
    match firstServed clock rs with
    | none => some r
    | some x => if servedBefore clock x r then some x else some r

/-- Admit waiting requests in the order of their tickets, `n` at most (R306, R307, R316); one that no command waits for
any more is charged to none (R353; DESIGN CHOICE, log 58). -/
def Traffic.admitAux (now : W64) : Nat → Traffic → Traffic
  | 0, t => t
  | n + 1, t =>
    match firstServed t.arb.clock (t.waits.filter (fun r => t.slotFree r && t.bankFree r)) with
    | none => t
    | some r =>
      Traffic.admitAux now n { t with
        waits := t.waits.erase r, slots := t.slots ++ [{ r with since := now }]
        arb := t.arb.serve now.toNat r.ticket, requests := t.requests + 1
        meter := addShare (if r.core < 128 then WorkShare.mk (intervalEnd now.toNat) 0 r.ctx r.seq 1
          else WorkShare.mk (intervalEnd now.toNat) 0 1024 0 1) t.meter }

/-- Admit what can be admitted; the requests refused under the bank cap for the first time are counted (R307). -/
def Traffic.admitAll (t : Traffic) (now : W64) : Traffic :=
  let t := Traffic.admitAux now t.waits.length t
  let capped := fun (r : Request) => t.slotFree r && !t.bankFree r
  { t with
    waits := t.waits.map (fun r => if capped r then { r with capped := true } else r)
    refused := t.refused + BitVec.ofNat 64 (t.waits.filter (fun r => capped r && !r.capped)).length }

/-- The request that a pseudo-channel issues next when it turns to a bank, and whether for its age (R308): an aged request
of the bank; else the lowest ticket among the requests of every bank whose page is open and that no aged request of their
bank precedes; else the lowest ticket of the bank. Which banks can accept a command is timing. -/
def Traffic.next (t : Traffic) (pc bank : Nat) (now : W64) : Option (Request × Bool) :=
  let rs := t.slots.filter (fun r => r.pc == pc)
  let old := fun (b : Nat) => rs.filter (fun r => r.bank == b && decide (r.since.toNat + 2000 ≤ now.toNat))
  let hit := rs.filter (fun r => (old r.bank).isEmpty && smGet? t.rows (64 * pc + r.bank) == some (rowOf (64 * r.line)))
  match firstServed t.arb.clock (old bank) with
  | some r => some (r, true)
  | none =>
    match firstServed t.arb.clock hit with
    | some r => some (r, false)
    | none => (firstServed t.arb.clock (rs.filter (fun r => r.bank == bank))).map (fun r => (r, false))

/-- Of the requests for one line, in the order of their admission, those that leave together (R308): one write, or the
reads before the next write. -/
def leaving : List Request → List Request
  | [] => []
  | r :: rs => if r.write then [r] else r :: rs.takeWhile (fun x => !x.write)

/-- What a return does at a port: the requests that leave, and whether they were issued for their age; none where no
slot holds the line, and the bank's page stays open (R308). -/
def Traffic.leave (t : Traffic) (line : Nat) (now : W64) : Traffic × List Request × Bool :=
  let pc := pcOf (64 * line)
  let bank := bankOf (64 * line)
  match t.next pc bank now with
  | none => (t, [], false)
  | some (r, aged) =>
    if r.line = line then
      let out := leaving (t.slots.filter (fun x => x.line == line))
      ({ t with
        slots := t.slots.filter (fun x => !out.contains x)
        rows := smSet t.rows (64 * pc + bank) (rowOf (64 * line)) }, out, aged)
    else (t, [], false)

/-! ## L2 lines (R311-R313) -/

/-- The set of a line in an L2 (R311): line address is the physical address over 64. -/
def l2Set (line : Nat) : Nat :=
  8192 * (line % 3) + ((line % 8192) ^^^ (line / 2 ^ 13 % 8192))

/-- How late a line is evicted (R312): spent and STREAM lines first, then by remaining uses, pinned lines never. -/
def L2Line.rank (l : L2Line) : Nat :=
  match l.cls with
  | .pin => 1000
  | .keepN => if l.spent then 0 else 1 + l.uses
  | .stream => 0

/-- The way to evict in a set (R312): the lowest rank, the oldest of those. -/
def victim : List L2Line → Option L2Line
  | [] => none
  | l :: ls =>
    match victim ls with
    | none => if l.cls == .pin then none else some l
    | some v =>
      if l.cls == .pin || decide (v.rank < l.rank) || (v.rank == l.rank && decide (l.age < v.age)) then some v
      else some l

/-- What a read by a core does to a line (R312). -/
def L2Line.read (l : L2Line) : L2Line :=
  match l.cls with
  | .stream => { l with spent := true }
  | .keepN => { l with uses := l.uses - 1, spent := l.spent || decide (l.uses ≤ 1) }
  | .pin => l

/-- A lookup of a line (R312): the age of every other line of its set rises. -/
def Cache.look (c : Cache) (line : Nat) : Cache :=
  { c with l2 := c.l2.map (fun l =>
    if l.line ≠ line ∧ l2Set l.line = l2Set line then { l with age := l.age + 1 } else l) }

/-- Whether a line is present. -/
def Cache.has (c : Cache) (line : Nat) : Bool := c.l2.any (fun l => l.line == line)

/-- Whether a set or a context has no pin left for a line (R313): a line of the context pinned already keeps its own. -/
def Cache.pinFull (c : Cache) (line ctx : Nat) : Bool :=
  let pins := c.l2.filter (fun l => l.cls == .pin && l.line != line)
  decide (12 ≤ (pins.filter (fun l => l2Set l.line == l2Set line)).length) ||
  decide (131072 ≤ (pins.filter (fun l => match l.pinBy with | some o => o.1 == ctx | none => false)).length)

/-- What a fill comes to: the cache, whether a pin was refused, and the line evicted. -/
structure Filled where
  cache : Cache
  refused : Bool
  evicted : Option L2Line

/-- Fill a line under a class (R312, R313): a line present takes the new class and count where they rank higher. DESIGN
CHOICE (log 89): a KEEP_N or PIN fill enters with age 0, and a line that takes a higher class stands as one just filled. -/
def Cache.fill (c : Cache) (line : Nat) (cls : LineClass) (n : Nat) (owner : Nat × Bool × Nat) : Filled :=
  let refused := cls == .pin && c.pinFull line owner.1
  let cls := if refused then .keepN else cls
  let same := c.l2.filter (fun l => l2Set l.line == l2Set line)
  let oldest := same.foldl (fun a l => max a l.age) 0
  let fresh := L2Line.mk line cls (if refused then 255 else n) false (if cls == .stream then oldest else 0)
    (if cls == .pin then some owner else none)
  if c.has line then
    ⟨{ c with l2 := c.l2.map (fun l => if l.line = line ∧ l.rank < fresh.rank then fresh else l) }, refused, none⟩
  else if same.length < 16 then ⟨{ c with l2 := c.l2 ++ [fresh] }, refused, none⟩
  else
    match victim same with
    | none => ⟨c, refused, none⟩
    | some v => ⟨{ c with l2 := c.l2.filter (fun l => l.line != v.line) ++ [fresh] }, refused, some v⟩

/-- Unpin the lines whose pin an owner holds (R313): they become KEEP_N with one use left. -/
def Cache.unpin (c : Cache) (mine : Nat × Bool × Nat → Bool) : Cache :=
  { c with l2 := c.l2.map (fun l =>
    match l.pinBy with
    | some o => if mine o then { l with cls := .keepN, uses := 1, spent := false, pinBy := none } else l
    | none => l) }

/-- A read of a line by a core (R312). -/
def Cache.use (c : Cache) (line : Nat) : Cache :=
  { c with l2 := c.l2.map (fun l => if l.line = line then l.read else l) }

/-- The lines of a list that are not present. -/
def Cache.missing (c : Cache) (lines : List Nat) : List Nat := lines.filter (fun l => !c.has l)

/-- Lookups of lines that no core reads: ages rise. -/
def Cache.passAll (c : Cache) (lines : List Nat) : Cache := lines.foldl Cache.look c

/-- Lookups of lines by a core: ages rise, and a line that is present is read. -/
def Cache.lookAll (c : Cache) (lines : List Nat) : Cache := lines.foldl (fun c l => (c.look l).use l) c

/-- Fills of lines (R312, R313), `read` for those that a core waits for: the cache, and how many STREAM and KEEP_N lines
were evicted and how many pins refused. -/
structure Fills where
  cache : Cache
  stream : Nat
  keep : Nat
  refused : Nat

/-- One fill more. -/
def Fills.line (cls : LineClass) (n : Nat) (owner : Nat × Bool × Nat) (read : Bool) (r : Fills) (line : Nat) : Fills :=
  let f := r.cache.fill line cls n owner
  Fills.mk (if read then f.cache.use line else f.cache)
    (r.stream + (match f.evicted with | some v => (v.cls == .stream).toNat | none => 0))
    (r.keep + (match f.evicted with | some v => (v.cls == .keepN).toNat | none => 0))
    (r.refused + f.refused.toNat)

/-- Entries of a translation cache (R305). -/
def xlateEntries : Nat := 4096

/-- Enter translations (R305): the oldest makes room (DESIGN CHOICE, log 24). -/
def Cache.enter (c : Cache) (ctx : Nat) (pages : List Nat) : Cache :=
  pages.foldl (fun c p => { c with xlate := ((ctx, p) :: c.xlate).take xlateEntries }) c

/-- Drop the translations of a context (R305). -/
def Cache.forget (c : Cache) (ctx : Nat) : Cache := { c with xlate := c.xlate.filter (fun x => x.1 != ctx) }

/-- The fabric after an invalidation of lines in every cache (R311). -/
def Fabric.invalidate (f : Fabric) (gone : Nat → Bool) : Fabric :=
  { f with caches := f.caches.map (fun c => (c.1, { c.2 with l2 := c.2.l2.filter (fun l => !gone l.line) })) }

/-- A port's traffic. -/
def Fabric.port (f : Fabric) (x : Nat) : Traffic := smGet f.ports x Traffic.init

/-- Replace a port's traffic. -/
def Fabric.setPort (f : Fabric) (x : Nat) (t : Traffic) : Fabric := { f with ports := smSet f.ports x t }

/-- A cache: a sleeve's, or the Collar's translations (16). -/
def Fabric.cache (f : Fabric) (k : Nat) : Cache := smGet f.caches k Cache.init

/-- Replace a cache. -/
def Fabric.setCache (f : Fabric) (k : Nat) (c : Cache) : Fabric := { f with caches := smSet f.caches k c }

/-- A port whose requests are lost and whose banks are closed; it goes on counting. -/
def Traffic.cleared (t : Traffic) : Traffic := { t with waits := [], slots := [], rows := [] }

/-- A port without the requests of a pseudo-channel. -/
def Traffic.withoutPc (t : Traffic) (pc : Nat) : Traffic :=
  { t with waits := t.waits.filter (fun r => r.pc != pc), slots := t.slots.filter (fun r => r.pc != pc) }

/-- A port whose bank has no open row: a refresh closes it (PRESUMED, log 76: JEDEC HBM4). -/
def Traffic.refreshed (t : Traffic) (pc bank : Nat) : Traffic := { t with rows := smDel t.rows (64 * pc + bank) }

/-- The fabric after a warm reset (R314): empty caches, clocks and tickets at 0, no request; the counts of requests stay. -/
def Fabric.warm (f : Fabric) : Fabric :=
  { Fabric.init with ports := f.ports.map (fun p =>
    (p.1, { Traffic.init with requests := p.2.requests, refused := p.2.refused, meter := p.2.meter })) }

/-- Drop every request of a command (R306): it needs no more lines. -/
def Fabric.dropRequests (f : Fabric) (gone : Request → Bool) : Fabric :=
  { f with ports := f.ports.map (fun p =>
    (p.1, { p.2 with waits := p.2.waits.filter (fun r => !gone r), slots := p.2.slots.filter (fun r => !gone r) })) }

end Sys2Proof.Machine
end

