-- ==== Sys2Proof/Machine/Flags.lean ====
section
/-!
DEFINITION. Sys2Proof/Machine/Flags.lean: the status codes and their order (R229, R236), the opcodes
(10_opcode_reference), the bits of COL_FAULT (R389), the trace codes (R449, R450) and the aperture
addresses of the counters (R445).
-/
namespace Sys2Proof.Machine

/-- A status code (R229). -/
abbrev Status := BitVec 8

namespace Status
/-- R229. -/
def ok : Status := 0x00
/-- R229. -/
def accepted : Status := 0x01
/-- R229. -/
def notReady : Status := 0x02
/-- R180. -/
def skippedFrozen : Status := 0x10
/-- R171. -/
def fallbackPrecond : Status := 0x11
/-- R191. -/
def roundAborted : Status := 0x20
/-- R195. -/
def escalated : Status := 0x21
/-- R202. -/
def backupTaken : Status := 0x22
/-- R366. -/
def faultRetried : Status := 0x30
/-- R366. -/
def coreRetired : Status := 0x31
/-- R294. -/
def deadlockBroken : Status := 0x32
/-- R331. -/
def slotMiss : Status := 0x40
/-- R177. -/
def versionWait : Status := 0x41
/-- R394. -/
def deniedRole : Status := 0x50
/-- R405. -/
def isSealed : Status := 0x51
/-- R5. -/
def unitAbsent : Status := 0x60
/-- R233. -/
def malformed : Status := 0x70
/-- R281. -/
def outOfBounds : Status := 0x71
/-- R384. -/
def wasReplayed : Status := 0x80
end Status

/-- Whether a code belongs to the failed class of R229. -/
def Status.failed (c : Status) : Bool :=
  c == Status.notReady || c == Status.deniedRole || c == Status.isSealed ||
  c == Status.unitAbsent || c == Status.malformed || c == Status.outOfBounds

/-- Whether a code belongs to the completed class of R229. -/
def Status.completed (c : Status) : Bool := !(c.failed || c == Status.accepted)

/-- The rank of a failed code in the order of R236, 0 first. -/
def Status.rank (c : Status) : Nat :=
  if c = Status.deniedRole then 0
  else if c = Status.malformed then 1
  else if c = Status.unitAbsent then 2
  else if c = Status.notReady then 3
  else if c = Status.outOfBounds then 4
  else 5

/-- The failed code that R236 ranks first among several. -/
def Status.first : List Status → Option Status
  | [] => none
  | c :: cs =>
    match Status.first cs with
    | none => some c
    | some d => if c.rank ≤ d.rank then some c else some d

/-- The completed-class code of a command (R229): ROUND_ABORTED wherever it applies, else the highest. -/
def Status.highest (cs : List Status) : Status :=
  if cs.contains Status.roundAborted then Status.roundAborted
  else cs.foldl (fun a c => if a.toNat < c.toNat then c else a) Status.ok

/-- Opcode numbers (10_opcode_reference). -/
inductive Op where
  | nop | fence | signal | wait | chain | contextOpen | contextClose | preempt | queryCaps
  | copy | streamDefine | prefetch | multicast | gather | scatter | pocketWrite | pocketRead
  | mmFwd | mmDx | mmDw | mmConvFwd | mmConvDx | mmConvDw | mmDist | mmSafe
  | vecOp | softmaxBwd | normBwd | maskPack | tieSum
  | update | updateRows | precondFactor | versionRelease
  | ryRoundOpen | ryContribute | ryHop | ryOwn | ryRoundClose | ryParamSend | ryParamRecv
  | govBounds | govRead | govStep | schedLoad | schedArm
  | energyMark | receiptIssue | powerReserve
  | sealImport | attest | roleSession | profileLoad | fwStage | fwCommit
  | counterSnap | traceCtl | traceTrigger
  deriving DecidableEq, Repr

/-- The code of an opcode. -/
def Op.code : Op → Nat
  | .nop => 0x000 | .fence => 0x001 | .signal => 0x002 | .wait => 0x003 | .chain => 0x010
  | .contextOpen => 0x020 | .contextClose => 0x021 | .preempt => 0x030 | .queryCaps => 0x040
  | .copy => 0x100 | .streamDefine => 0x101 | .prefetch => 0x102 | .multicast => 0x103
  | .gather => 0x104 | .scatter => 0x105 | .pocketWrite => 0x110 | .pocketRead => 0x111
  | .mmFwd => 0x200 | .mmDx => 0x201 | .mmDw => 0x202 | .mmConvFwd => 0x210 | .mmConvDx => 0x211
  | .mmConvDw => 0x212 | .mmDist => 0x220 | .mmSafe => 0x230
  | .vecOp => 0x300 | .softmaxBwd => 0x310 | .normBwd => 0x311 | .maskPack => 0x320 | .tieSum => 0x330
  | .update => 0x400 | .updateRows => 0x401 | .precondFactor => 0x410 | .versionRelease => 0x420
  | .ryRoundOpen => 0x500 | .ryContribute => 0x501 | .ryHop => 0x502 | .ryOwn => 0x503
  | .ryRoundClose => 0x506 | .ryParamSend => 0x504 | .ryParamRecv => 0x505
  | .govBounds => 0x600 | .govRead => 0x601 | .govStep => 0x602 | .schedLoad => 0x610
  | .schedArm => 0x611
  | .energyMark => 0x700 | .receiptIssue => 0x701 | .powerReserve => 0x710
  | .sealImport => 0x800 | .attest => 0x801 | .roleSession => 0x810 | .profileLoad => 0x820
  | .fwStage => 0x830 | .fwCommit => 0x831
  | .counterSnap => 0x900 | .traceCtl => 0x901 | .traceTrigger => 0x902

/-- All opcodes. -/
def Op.all : List Op :=
  List.flatten
  [[.nop, .fence, .signal, .wait, .chain, .contextOpen, .contextClose, .preempt, .queryCaps],
  [.copy, .streamDefine, .prefetch, .multicast, .gather, .scatter, .pocketWrite, .pocketRead],
  [.mmFwd, .mmDx, .mmDw, .mmConvFwd, .mmConvDx, .mmConvDw, .mmDist, .mmSafe],
  [.vecOp, .softmaxBwd, .normBwd, .maskPack, .tieSum],
  [.update, .updateRows, .precondFactor, .versionRelease],
  [.ryRoundOpen, .ryContribute, .ryHop, .ryOwn, .ryRoundClose, .ryParamSend, .ryParamRecv],
  [.govBounds, .govRead, .govStep, .schedLoad, .schedArm],
  [.energyMark, .receiptIssue, .powerReserve],
  [.sealImport, .attest, .roleSession, .profileLoad, .fwStage, .fwCommit],
  [.counterSnap, .traceCtl, .traceTrigger]]

/-- The opcode that a code names, if any (R233). -/
def Op.ofCode (c : Nat) : Option Op := Op.all.find? (fun o => o.code == c)

/-- Bits of COL_FAULT (R389). -/
inductive FaultBit where
  | coreRetired | sleeveRetired | gussetRetired | laneGroup | pcFailed | stackFailed
  | jrnlSingle | loss | retireLimit | recovered | jrnlCfg
  deriving DecidableEq, Repr

/-- The position of a COL_FAULT bit. -/
def FaultBit.pos : FaultBit → Nat
  | .coreRetired => 0 | .sleeveRetired => 1 | .gussetRetired => 2 | .laneGroup => 3
  | .pcFailed => 4 | .stackFailed => 5 | .jrnlSingle => 6 | .loss => 7
  | .retireLimit => 8 | .recovered => 9 | .jrnlCfg => 10

/-- The SOURCE codes of R449. -/
inductive TraceUnit where
  | core (n : Nat) | sleeve (n : Nat) | collar | stack (m : Nat) | seam (p : Nat) | belt | lining | tag
  deriving DecidableEq, Repr

/-- R449. -/
def TraceUnit.code : TraceUnit → Nat
  | .core n => n
  | .sleeve n => 0x0100 + n
  | .collar => 0x0200
  | .stack m => 0x0300 + m
  | .seam p => 0x0400 + p
  | .belt => 0x0500
  | .lining => 0x0600
  | .tag => 0x0700

/-- The kinds of a FAULT record (R450). -/
inductive FaultKind where
  | welt | ecc | adder | gusset | sleeve | laneGroup | pc | stack | collar | trip | divergence
  deriving DecidableEq, Repr

/-- R450. -/
def FaultKind.code : FaultKind → Nat
  | .welt => 0 | .ecc => 1 | .adder => 2 | .gusset => 3 | .sleeve => 4 | .laneGroup => 5
  | .pc => 6 | .stack => 7 | .collar => 8 | .trip => 9 | .divergence => 10

/-- A counter of R445, by group, unit and index. -/
inductive Counter where
  | util (core i : Nat)
  | stall (core i : Nat)
  | numeric (core i : Nat)
  | fault (core i : Nat)
  | stream (core i : Nat)
  | cache (sleeve i : Nat)
  | stack (m j : Nat)
  | seam (p j : Nat)
  | exchange (i : Nat)
  | control (i : Nat)
  | context (ctx i : Nat)
  | trace (i : Nat)
  deriving DecidableEq, Repr

/-- The aperture address of a counter's low word (R445). -/
def Counter.addr : Counter → Nat
  | .util c i => 0x420000 + 0x400 * c + 8 * i
  | .stall c i => 0x420080 + 0x400 * c + 8 * i
  | .numeric c i => 0x420100 + 0x400 * c + 8 * i
  | .fault c i => 0x420180 + 0x400 * c + 8 * i
  | .stream c i => 0x420200 + 0x400 * c + 8 * i
  | .cache s i => 0x410000 + 0x1000 * s + 8 * i
  | .stack m j => 0x400000 + 8 * (8 * m + j)
  | .seam p j => 0x400200 + 8 * (8 * p + j)
  | .exchange i => 0x400400 + 8 * i
  | .control i => 0x400600 + 8 * i
  | .context c i => 0x480000 + 0x40 * c + 8 * i
  | .trace i => 0x400A00 + 8 * i

/-- Whether an aperture offset is the low word of some counter of R445. -/
def isCounterLo (off : Nat) : Bool :=
  off % 8 == 0 &&
  ((0x420000 ≤ off && off < 0x440000 &&
      (let r := off % 0x400
       r < 0x40 || (0x80 ≤ r && r < 0xE8) || (0x100 ≤ r && r < 0x120) ||
       (0x180 ≤ r && r < 0x1A8) || (0x200 ≤ r && r < 0x228))) ||
   (0x410000 ≤ off && off < 0x420000 && off % 0x1000 < 0x58) ||
   (0x400000 ≤ off && off < 0x400180) || (0x400200 ≤ off && off < 0x400300) ||
   (0x400400 ≤ off && off < 0x400430) || (0x400600 ≤ off && off < 0x400628) ||
   (0x400A00 ≤ off && off < 0x400A18) ||
   (0x480000 ≤ off && off < 0x490000))

end Sys2Proof.Machine
end

