-- ==== Sys2Proof/Machine/Ops.lean ====
section
/-!
DEFINITION. Sys2Proof/Machine/Ops.lean: the named operations over the state: memory (12),
units and their presence (R5, R440), counters (R444), the audit log (R398), trace (R449-R453), Seam
sending (R426-R428), retirement (R366) and address translation (R298, R303, R304).
A block has no exception entry; a fault is a status, a register bit or a pin.
-/
namespace Sys2Proof.Machine

/-! ## Memory -/

/-- The byte at a physical address; an address that is not listed reads as 0 (R408; for host windows a
DESIGN CHOICE, log 7). -/
def memGet (m : List Host.Cell) (a : Nat) : Byte :=
  match m with
  | [] => 0
  | (k, v) :: r => if k = a then v else memGet r a

/-- `n` bytes from an address on. -/
def memRead (m : List Host.Cell) (a n : Nat) : Bytes :=
  let w := m.filter (fun c => decide (a ≤ c.1) && decide (c.1 < a + n))
  (List.range n).map (fun i => memGet w (a + i))

/-- The cells of a run of bytes, zeros left out. -/
def cellsOf (a : Nat) (bs : Bytes) : List Host.Cell :=
  match bs with
  | [] => []
  | b :: r => if b = 0 then cellsOf (a + 1) r else (a, b) :: cellsOf (a + 1) r

/-- Write bytes from an address on, keeping the canonical form. -/
def memPut (m : List Host.Cell) (a : Nat) (bs : Bytes) : List Host.Cell :=
  m.filter (fun c => decide (c.1 < a)) ++ cellsOf a bs ++
    m.filter (fun c => decide (a + bs.length ≤ c.1))

/-- Write zeros over a run without naming each byte. -/
def memZero (m : List Host.Cell) (a n : Nat) : List Host.Cell :=
  m.filter (fun c => decide (c.1 < a)) ++ m.filter (fun c => decide (a + n ≤ c.1))

/-- Whether addresses rise strictly from `lo` on and no listed byte is 0. -/
def memOk (lo : Nat) : List Host.Cell → Bool
  | [] => true
  | (k, v) :: r => decide (lo ≤ k) && decide (v ≠ 0) && memOk (k + 1) r

/-- The canonical form of a memory. -/
def Memory.wf (m : List Host.Cell) : Bool := memOk 0 m

/-- Two extents share a byte. -/
def overlaps (a n b m : Nat) : Bool := decide (a < b + m) && decide (b < a + n)

/-! ## Places (the table before R297) -/

/-- Bytes of a stack's window. -/
def stackWindow : Nat := 2 ^ 37
/-- First byte of the host windows. -/
def hostBase : Nat := 0x100000000000
/-- Bytes of a host window. -/
def hostWindow : Nat := 0x040000000000

/-- What a physical address lies in. -/
inductive Place where
  | stack (m : Nat)
  | host (p : Nat)
  | nothing
  deriving DecidableEq, Repr

/-- The place of a physical address. -/
def placeOf (a : Nat) : Place :=
  if a < 6 * stackWindow then .stack (a / stackWindow)
  else if hostBase ≤ a ∧ a < hostBase + 4 * hostWindow then .host ((a - hostBase) / hostWindow)
  else .nothing

/-! ## Units -/

/-- A stack port. -/
def State.stack (s : State) (m : Nat) : StackPort := s.stks.getD m StackPort.init
/-- A Seam port. -/
def State.seam (s : State) (p : Nat) : SeamPort := s.seams.getD p SeamPort.init
/-- A sleeve. -/
def State.sleeve (s : State) (k : Nat) : Sleeve := s.sleeves.getD k Sleeve.init
/-- A core. -/
def State.core (s : State) (c : Nat) : CoreUnit := smGet s.cores c CoreUnit.init
/-- A context; one never opened is closed. -/
def State.ctx (s : State) (n : Nat) : Ctx := smGet s.ctxs n (if n = 0 then Ctx.zero else Ctx.init)
/-- A fence counter. -/
def State.fence (s : State) (n : Nat) : W64 := smGet s.fences n 0

/-- Replace a stack port. -/
def State.setStack (s : State) (m : Nat) (p : StackPort) : State := { s with stks := s.stks.set m p }
/-- Replace a Seam port. -/
def State.setSeam (s : State) (p : Nat) (x : SeamPort) : State := { s with seams := s.seams.set p x }
/-- Replace a sleeve. -/
def State.setSleeve (s : State) (k : Nat) (x : Sleeve) : State := { s with sleeves := s.sleeves.set k x }
/-- Replace a core. -/
def State.setCore (s : State) (c : Nat) (x : CoreUnit) : State := { s with cores := smSet s.cores c x }
/-- Replace a context. -/
def State.setCtx (s : State) (n : Nat) (c : Ctx) : State := { s with ctxs := smSet s.ctxs n c }
/-- Replace a fence counter. -/
def State.setFence (s : State) (n : Nat) (v : W64) : State := { s with fences := smSet s.fences n v }
/-- Lay bytes into a view of memory. -/
def State.poke (s : State) (a : Nat) (bs : Bytes) : State := { s with mem := memPut s.mem a bs }

/-- Aligned 64-byte lines that an extent touches. -/
def linesOf (a n : Nat) : Nat := (a % 64 + n + 63) / 64

/-- The arbiter of a physical address (R315): 0-5 the stack ports, 6-9 the Seam ports. -/
def portAt (a : Nat) : Option Nat :=
  match placeOf a with
  | .stack m => some m
  | .host p => some (6 + p)
  | .nothing => none

/-- A port that has taken some requests: what waits there is admitted where there is room. A Seam port has no banks. -/
def Traffic.settled (t : Traffic) (x : Nat) (now : W64) : Traffic :=
  if 6 ≤ x then { t with rows := [] } else if t.waits.isEmpty then t else t.admitAll now

/-- Requests for `n` lines from the line of a physical address on, made one by one at its port (R306, R315, R316). -/
def State.atPort (s : State) (ctx a n : Nat) (f : Traffic → Request → Traffic) : State :=
  match portAt a with
  | some x =>
    let t := (List.range n).foldl (fun t i => f t (Request.plain ctx (a / 64 + i))) (s.fabric.port x)
    { s with fabric := s.fabric.setPort x (t.settled x s.tb.now) }
  | none => s

/-- Requests of engine traffic for the lines of an extent (R316). -/
def State.engineLines (s : State) (a n : Nat) : State :=
  s.atPort 1024 a (linesOf a n) (Traffic.engine s.tb.now.toNat)

/-- Write bytes at a physical address: every L2 copy of their lines goes (R311). -/
def State.lay (s : State) (a : Nat) (bs : Bytes) : State :=
  { s with
    mem := memPut s.mem a bs
    fabric := s.fabric.invalidate (fun l => overlaps (64 * l) 64 a bs.length) }

/-- A write of the engine itself (R311, R316). -/
def State.put (s : State) (a : Nat) (bs : Bytes) : State := (s.lay a bs).engineLines a bs.length

/-- The data rate in 0.1 Gbit/s that the profile with a digest lets a stack have, 12.0 Gbit/s at most (R300). -/
def profileRate (d : BitVec 384) : Nat :=
  let w := (Config.profileWord d 23).toNat % 256
  if w = 0 then 120 else min 120 w

/-- Change the traffic of a stack port. -/
def State.onPort (s : State) (m : Nat) (f : Traffic → Traffic) : State :=
  { s with fabric := s.fabric.setPort m (f (s.fabric.port m)) }

/-- Requests of a context for the lines of an extent (R315). -/
def State.contextLines (s : State) (ctx a n : Nat) : State :=
  s.atPort ctx a (linesOf a n) (Traffic.direct s.tb.now.toNat (weightOf (s.ctx ctx).share))

/-- A write of a context (R311, R315). -/
def State.putFor (s : State) (ctx a : Nat) (bs : Bytes) : State := (s.lay a bs).contextLines ctx a bs.length

/-- Cores of the die (R1, R21). -/
def dieCores : Die → Nat
  | .g5x16 => 128
  | .g5x8 => 64
/-- Sleeves of the die. -/
def dieSleeves : Die → Nat
  | .g5x16 => 16
  | .g5x8 => 8
/-- Arrays per core of the die (R440). -/
def dieArrays : Die → Nat
  | .g5x16 => 4
  | .g5x8 => 2
/-- Stack ports of the die. -/
def dieStacks : Die → Nat
  | .g5x16 => 6
  | .g5x8 => 4
/-- Seam ports of the die. -/
def dieSeams : Die → Nat
  | .g5x16 => 4
  | .g5x8 => 2

/-- A core is present (R5, R440). -/
def State.corePresent (s : State) (c : Nat) : Bool := s.caps.cores.getLsbD c
/-- A core is present and its sleeve ready (R5, R435). -/
def State.coreReady (s : State) (c : Nat) : Bool :=
  s.caps.cores.getLsbD c && s.ready.sleeves.getLsbD (c / 8)

/-- The global indices of a core mask, ascending. -/
def coreList (m : BitVec 128) : List Nat := (List.range 128).filter (fun c => m.getLsbD c)

/-- The present cores of a context's placement, ascending (R208). -/
def State.placed (s : State) (ctx : Nat) : List Nat :=
  (coreList (s.ctx ctx).placement).filter s.corePresent
/-- The present, ready cores of a context's placement. -/
def State.usable (s : State) (ctx : Nat) : List Nat :=
  (coreList (s.ctx ctx).placement).filter s.coreReady

/-- What R237 says of a command that needs cores. -/
def State.coreIssues (s : State) (ctx : Nat) : List Status :=
  if (s.placed ctx).isEmpty then [Status.unitAbsent]
  else if (s.usable ctx).isEmpty then [Status.notReady] else []

/-! ## Counters and engine events -/

/-- The time that an island stamps on an event: during a hold marker the value before the step (R324). -/
def State.stamp (s : State) : W64 :=
  match s.tb.held with
  | some (v, _) => v
  | none => s.tb.now

/-- Profile values of the Belt as its registers hold them. -/
def Belt.values (b : Belt) : BeltValues where
  slewLimit := b.slewLimit
  peakCap := b.peakCap
  susMax := b.susMax
  powerCap := b.powerCap
  tLimit := b.tLimit
  tTrip := b.tTrip
  thDp := b.thDp
  thPc := b.thPc
  thCi := b.thCi
  cD := b.cD
  cP := b.cP
  cC := b.cC
  gainMin := b.gainMin
  gainMax := b.gainMax
  offsMax := b.offsMax

/-- A Belt with other profile values. -/
def Belt.withValues (b : Belt) (v : BeltValues) : Belt :=
  { b with
    slewLimit := v.slewLimit, peakCap := v.peakCap, susMax := v.susMax, powerCap := v.powerCap
    tLimit := v.tLimit, tTrip := v.tTrip, thDp := v.thDp, thPc := v.thPc, thCi := v.thCi
    cD := v.cD, cP := v.cP, cC := v.cC, gainMin := v.gainMin, gainMax := v.gainMax, offsMax := v.offsMax }

/-- The Belt with the profile values that hold in a window or an interval that begins at a tick (R337): those of a profile
loaded in it or later take effect behind it. -/
def Belt.inForce (b : Belt) (start : Nat) : Belt :=
  match b.prior with
  | some p => if start ≤ p.1 then b.withValues p.2 else b
  | none => b

/-- The stack port whose counter `k` stands at an address (R445). -/
def portCounterAt (k a : Nat) : Option Nat := (List.range 6).find? (fun m => (Counter.stack m k).addr == a)

/-- The value of a counter by address; REQUESTS and BANK_CAP_REFUSED are counts of the port itself. -/
def State.counterAt (s : State) (a : Nat) : W64 :=
  smGet s.counters a 0 + (match portCounterAt 0 a with | some m => (s.fabric.port m).requests | none => 0) +
    (match portCounterAt 2 a with | some m => (s.fabric.port m).refused | none => 0)
/-- The value of a counter. -/
def State.counter (s : State) (c : Counter) : W64 := s.counterAt c.addr
/-- Add to a counter; counters wrap (R444). -/
def State.addAt (s : State) (a n : Nat) : State :=
  { s with counters := smSet s.counters a (smGet s.counters a 0 + BitVec.ofNat 64 n) }
/-- Add to a counter. -/
def State.count (s : State) (c : Counter) (n : Nat) : State := s.addAt c.addr n

/-- Set a bit of COL_FAULT and raise the interrupt of R433. -/
def State.setFault (s : State) (b : FaultBit) : State :=
  { s with
    collar := { s.collar with fault := s.collar.fault ||| (1#11 <<< b.pos) }
    i3c := { s.i3c with ibiPending := s.i3c.ibiPending || s.i3c.ibiEnabled } }

/-- The in-band interrupt of R433, when ENEC has enabled it. -/
def State.ibi (s : State) : State :=
  { s with i3c := { s.i3c with ibiPending := s.i3c.ibiPending || s.i3c.ibiEnabled } }

/-- The level of FAULT_N (R389, R419): true while asserted. -/
def State.faultPin (s : State) : Bool :=
  if s.ready.collar then s.collar.fault.setWidth 9 != 0 else s.boot.err != 0

/-- The level of THERM_TRIP_N (R349): true while asserted. -/
def State.tripPin (s : State) : Bool := s.belt.trip

/-! ## Trace (R449-R453) -/

/-- The 32 bytes of a trace record (R449). -/
def TraceRec.bytes (r : TraceRec) : Bytes :=
  leBytes 1 r.type ++ leBytes 1 r.resumed.toNat ++ leBytes 2 r.source ++ leBytes 2 r.ctx ++
  leBytes 2 0 ++ leBytes 8 r.t.toNat ++ leBytes 4 r.seq.toNat ++ leBytes 4 r.gap.toNat ++
  leBytes 8 r.data.toNat

/-- Physical address of a byte of the trace region. -/
def Trace.byteAddr (t : Trace) (i : Nat) : Nat :=
  t.pages.getD ((t.offset + i) / 65536) 0 * 65536 + (t.offset + i) % 65536

/-- Put a record into a slot of the region; one that crosses a page boundary lies in both pages. -/
def State.traceSlot (s : State) (slot : Nat) (r : TraceRec) : State :=
  if s.trace.bytes < 32 * slot + 32 then s else
  let k := min 32 (65536 - (s.trace.offset + 32 * slot) % 65536)
  let s := s.put (s.trace.byteAddr (32 * slot)) (r.bytes.take k)
  if k = 32 then s else s.put (s.trace.byteAddr (32 * slot + k)) (r.bytes.drop k)

/-- Write a record into a slot. -/
def State.traceWrite (s : State) (slot : Nat) (r : TraceRec) : State := (s.traceSlot slot r).count (.trace 0) 1

/-- A record that finds no slot is dropped, and the LOSS record of the last slot is kept current (R453). -/
def State.traceDrop (s : State) (t : W64) : State :=
  let d := s.trace.drops + 1
  let s := { s with trace := { s.trace with drops := d, full := true } }
  let loss := TraceRec.mk 31 false TraceUnit.tag.code 0 t 0 0 d
  (s.traceSlot (s.trace.bytes / 32 - 1) loss).count (.trace 1) 1

/-- The first trigger of a window (R453): the ring freezes and the TRIGGER record takes the first slot
of the post section. -/
def State.traceTrip (s : State) (data : W64) (ctx : Nat) (seq : W32) : State :=
  let c := s.trace.bytes / 32
  let p := c - s.trace.post / 32
  let s := { s with trace := { s.trace with
    triggered := true, preNext := s.trace.next, trigIndex := p, next := p + 1 } }
  let r := TraceRec.mk 30 false TraceUnit.tag.code ctx s.stamp seq 0 data
  (s.traceWrite p r).count (.trace 2) 1

/-- A record written under the mode (R453). -/
def State.traceArrive (s : State) (r : TraceRec) : State :=
  let c := s.trace.bytes / 32
  match s.trace.mode with
  | 1 =>
    let n := s.trace.next
    let s := s.traceWrite n r
    if n + 1 = c then
      { s with trace := { s.trace with next := 0, wraps := s.trace.wraps + 1 } }
    else { s with trace := { s.trace with next := n + 1 } }
  | 2 =>
    let n := s.trace.next
    if n + 1 < c then { s.traceWrite n r with trace := { s.trace with next := n + 1 } }
    else s.traceDrop r.t
  | 3 =>
    let p := c - s.trace.post / 32
    let n := s.trace.next
    if s.trace.triggered then
      if n + 1 < c then { s.traceWrite n r with trace := { s.trace with next := n + 1 } }
      else s.traceDrop r.t
    else
      let s := s.traceWrite n r
      let s := if n + 1 = p then
          { s with trace := { s.trace with next := 0, wraps := s.trace.wraps + 1 } }
        else { s with trace := { s.trace with next := n + 1 } }
      if s.trace.sources.getLsbD (32 + r.type) then
        s.traceTrip (BitVec.ofNat 64 (r.type * 2 ^ 32)) r.ctx r.seq
      else s
  | _ => s

/-- The trace unit as a unit stamps a record, with RESUMED and the gap of the first stamp of a core that was gated (R325).
DESIGN CHOICE (log 98): a core stamps the records that its trace writes, and a core with no stamp yet counts its gap from
tick 0. -/
def Trace.resume (t : Trace) (code : Nat) (now : W64) : Trace × Bool × Nat :=
  if 128 ≤ code then (t, false, 0) else
  let gap := min (now - ((smGet? t.stamps code).getD 0)).toNat (2 ^ 32 - 1)
  ({ t with stamps := smSet t.stamps code now, gated := t.gated &&& ~~~(1#128 <<< code) },
    t.gated.getLsbD code, if t.gated.getLsbD code then gap else 0)

/-- A trace record of an enabled type (R450). -/
def State.traceRec (s : State) (type : Nat) (unit : TraceUnit) (ctx : Nat) (seq : W32) (data : Nat) :
    State :=
  if s.trace.mode ≠ 0 ∧ s.trace.placed ∧ s.trace.sources.getLsbD type then
    let r := s.trace.resume unit.code s.stamp
    ({ s with trace := r.1 } : State).traceArrive
      (TraceRec.mk type r.2.1 unit.code ctx s.stamp seq (BitVec.ofNat 32 r.2.2) (BitVec.ofNat 64 data))
  else s

/-- A FAULT record (R450). -/
def State.traceFault (s : State) (k : FaultKind) (action : Nat) (unit : TraceUnit) (ctx : Nat)
    (seq : W32) : State :=
  s.traceRec 7 unit ctx seq (k.code + action * 2 ^ 8 + unit.code * 2 ^ 16)

/-! ## Audit log (R398, R399) -/

/-- Add an audit entry; none when the log is full. -/
def State.auditAdd? (s : State) (kind role endpoint : Nat) (target seq : W32) (value : W64) :
    Option State :=
  let i := s.lining.audit.length
  if i ≥ 8192 then none else
  let a := Audit.mk kind role endpoint s.stamp target seq value (s.lining.auditHead.setWidth 256)
  some { s with lining := { s.lining with
    audit := s.lining.audit ++ [a]
    auditHead := auditNext s.lining.auditHead a i
    auditFull := decide (i + 1 = 8192) } }

/-- Room for one more audit entry. -/
def State.auditRoom (s : State) : Bool := decide (s.lining.audit.length < 8192)

/-- Add an audit entry where there is room. -/
def State.audited (s : State) (kind role endpoint : Nat) (target seq : W32) (value : W64) : State :=
  (s.auditAdd? kind role endpoint target seq value).getD s

/-- The first 8 bytes of a hash, as an audit VALUE. -/
def hashValue (bs : Bytes) : W64 := BitVec.ofNat 64 (leNat ((sha384 bs).take 8))

/-! ## Sessions (R392) -/

/-- The endpoint holds a session of a role (0 maker, 1 installer, 2 operator). -/
def State.holds (s : State) (endpoint role : Nat) : Bool :=
  s.lining.sessions.any (fun x =>
    match x with
    | some y => y.endpoint == endpoint && y.role == role
    | none => false)

/-- The endpoint of a context (R207, R208). -/
def State.endpointOf (s : State) (ctx : Nat) : Nat :=
  if ctx = 0 then s.lining.ctx0Ep.toNat else (s.ctx ctx).endpoint

/-! ## Seam sending (R426-R428) -/

/-- KIND of a packet (R426). -/
def PacketKind.code : PacketKind → Nat
  | .mwr => 1 | .mrd => 2 | .cpl => 3 | .msg => 4 | .rrd => 5 | .rwr => 6 | .rcpl => 7
  | .notice => 8 | .keyx => 9 | .spdm => 10 | .boot => 11

/-- The kind of a code. -/
def PacketKind.ofCode : Nat → Option PacketKind
  | 1 => some .mwr | 2 => some .mrd | 3 => some .cpl | 4 => some .msg | 5 => some .rrd
  | 6 => some .rwr | 7 => some .rcpl | 8 => some .notice | 9 => some .keyx | 10 => some .spdm
  | 11 => some .boot | _ => none

/-- The 16-byte header of a packet (R426). -/
def Packet.header (k : Packet) : Bytes :=
  leBytes 1 k.kind.code ++ leBytes 1 (k.vc + if k.enc then 32 else 0) ++ leBytes 2 k.endpoint ++
  leBytes 1 k.payloadType ++ leBytes 1 k.status ++ leBytes 2 k.payload.length ++
  leBytes 6 k.addr ++ leBytes 2 k.tag

/-- Whether a packet may travel in the clear (R427). -/
def PacketKind.clear : PacketKind → Bool
  | .rrd | .rwr | .rcpl | .keyx | .spdm | .boot => true
  | _ => false

/-- The channel of a port, virtual channel and endpoint (R409). -/
def State.channel? (s : State) (p vc ep : Nat) : Option Channel :=
  s.lining.channels.find? (fun c => c.port == p && c.vc == vc && c.endpoint == ep)

/-- Replace the channel of a port, virtual channel and endpoint. -/
def State.setChannel (s : State) (c : Channel) : State :=
  { s with lining := { s.lining with
    channels := s.lining.channels.filter (fun d =>
      !(d.port == c.port && d.vc == c.vc && d.endpoint == c.endpoint)) ++ [c] } }

/-- The IV of R410: the salt and the packet counter. -/
def DirKey.iv (k : DirKey) : Bytes := k.salt ++ leBytes 8 k.counter

/-- The wire form of a packet: header, padded payload, tag (R426, R410). -/
def Packet.wire (k : Packet) (key : Option DirKey) : Bytes :=
  match key with
  | none =>
    k.header ++ k.payload ++ zeroBytes ((8 - k.payload.length % 8) % 8)
  | some d =>
    let h := { k with enc := true }.header
    let ct := gcmEncrypt d.key d.iv h k.payload
    h ++ ct.1 ++ zeroBytes ((8 - k.payload.length % 8) % 8) ++ ct.2

/-- Credits that a packet of so many wire bytes needs (R428). -/
def creditsFor (n : Nat) : Nat := (n + 63) / 64

/-- Send the packet at the head of a port's queue, if the port is ACTIVE, the replay buffer has room,
the channel has its keys and the virtual channel its credits (R425, R427, R428). One frame carries one
packet (DESIGN CHOICE, log 9) and returns the credits owed on one virtual channel (R423). -/
def State.sendOne (s : State) (p : Nat) (k : Packet) (rest : List Packet) : Option State :=
  let port := s.seam p
  if port.state ≠ .active ∨ port.replay.length ≥ 2048 then none else
  let ch := s.channel? p k.vc k.endpoint
  if (!k.kind.clear) && (match ch with | none => true | some c => c.rekey) then none else
  let key := match ch with
    | some c => if c.rekey then none else some c.send
    | none => none
  let w := k.wire key
  let need := creditsFor w.length
  if port.credits.getD k.vc 0 < need then none else
  let port := { port with
    txQueue := rest
    owed := match port.owed.findIdx? (fun n => n != 0) with | some v => port.owed.set v 0 | none => port.owed
    credits := port.credits.set k.vc (port.credits.getD k.vc 0 - need)
    replay := port.replay ++ [SentFrame.mk port.fseqTx w]
    fseqTx := port.fseqTx + 1 }
  let s := (s.setSeam p port).count (.seam p 0) 1
  match ch, key with
  | some c, some d =>
    let n := d.counter + 1
    some (s.setChannel { c with send := { d with counter := n }, rekey := decide (n = 2 ^ 32) })
  | _, _ => some s

/-- Send what can be sent: a virtual channel that lacks credits or keys does not hold back another
(R428); `done` holds the packets passed over. -/
def State.pumpAux (p : Nat) : Nat → List Packet → List Packet → State → State
  | 0, done, todo, s => s.setSeam p { s.seam p with txQueue := done ++ todo }
  | _ + 1, done, [], s => s.setSeam p { s.seam p with txQueue := done }
  | n + 1, done, k :: ks, s =>
    if done.any (fun d => d.vc == k.vc) then State.pumpAux p n (done ++ [k]) ks s
    else
      match s.sendOne p k [] with
      | some t => State.pumpAux p n done ks t
      | none => State.pumpAux p n (done ++ [k]) ks s

/-- Send what a port can send. -/
def State.pump (s : State) (p : Nat) : State :=
  let q := (s.seam p).txQueue
  State.pumpAux p q.length [] q s

/-- Payload bytes of data packets move over a port for a command, if any (R353). -/
def State.movedBytes (s : State) (p n : Nat) (who : Option (Nat × W32)) : State :=
  let o := who.getD (1024, 0)
  let x := s.seam p
  s.setSeam p { x with
    meter := if n = 0 then x.meter else addShare (WorkShare.mk (intervalEnd s.tb.now.toNat) 0 o.1 o.2 n) x.meter }

/-- A packet moves over a port: its payload counts on a data virtual channel (R353). -/
def State.moved (s : State) (p : Nat) (k : Packet) (who : Option (Nat × W32)) : State :=
  if 16 ≤ k.vc then s else s.movedBytes p k.payload.length who

/-- Queue a packet at a port, for a command if any, and send what can be sent. -/
def State.send (s : State) (p : Nat) (k : Packet) (who : Option (Nat × W32) := none) : State :=
  let t := s.moved p k who
  (t.setSeam p { t.seam p with txQueue := (t.seam p).txQueue ++ [k] }).pump p

/-- Bytes of a packet on the wire: header, padded payload, tag. -/
def Packet.size (k : Packet) : Nat := 16 + (k.payload.length + 7) / 8 * 8 + 16 * k.enc.toNat

/-- Free the credits of a packet that has been dealt with (R428). -/
def State.freeCredits (s : State) (p vc size : Nat) : State :=
  let x := s.seam p
  s.setSeam p { x with owed := x.owed.set vc (x.owed.getD vc 0 + creditsFor size) }

/-- Take the packet that a command stands for off a port's receive queue, if it is there; a command of a context that it is
for, if any. -/
def State.takeRx (s : State) (p : Nat) (kind : PacketKind) (vc ep type : Nat) (who : Option (Nat × W32) := none) : State :=
  let x := s.seam p
  let is := fun (k : Packet) => k.kind == kind && k.vc == vc && k.endpoint == ep && k.payloadType == type
  match x.rxQueue.find? is with
  | none => s
  | some k => ((s.setSeam p { x with rxQueue := x.rxQueue.eraseP is }).moved p k who).freeCredits p vc k.size

/-- The port a NOTICE to an endpoint takes (R431). -/
def State.portOf (s : State) (ep : Nat) : Option Nat :=
  match (List.range 4).find? (fun p => (s.seam p).peerEp.toNat == ep && (s.seam p).state == .active) with
  | some p => some p
  | none => (List.range 4).find? (fun p => (s.seam p).state == .active)

/-- A NOTICE (R431). -/
def State.notice (s : State) (ep ctx kind : Nat) (cqTail : W32) : State :=
  match s.portOf ep with
  | none => s
  | some p =>
    s.send p (Packet.mk .notice 16 false ep 0 0 0 0
      (leBytes 2 ctx ++ leBytes 1 kind ++ [0] ++ leBytes 4 cqTail.toNat))

/-- A capability change (R442): a NOTICE of KIND 1 to LIN_CTX0_EP and the interrupt of R433. -/
def State.capChange (s : State) : State := (s.notice s.lining.ctx0Ep.toNat 0 1 0).ibi

/-- A write of the engine into a host window: the bytes in its view and one MWR per 4,096 bytes at most
(R426, R429). -/
def mwrPackets (p ep off : Nat) : Nat → Bytes → List Packet
  | 0, _ => []
  | n + 1, bs =>
    if bs.isEmpty then [] else
    Packet.mk .mwr 0 true ep 0 0 off 0 (bs.take 4096) :: mwrPackets p ep (off + 4096) n (bs.drop 4096)

/-- Send what has been written to a host window through its port (R429). -/
def State.mwrs (s : State) (who : Option (Nat × W32)) (ep a : Nat) (bs : Bytes) : State :=
  match placeOf a with
  | .host p =>
    (mwrPackets p ep (a - hostBase - p * hostWindow) (bs.length / 4096 + 1) bs).foldl (fun t k => t.send p k who) s
  | _ => s

/-- Write physical memory for the engine, a host window through its port (R316, R429). -/
def State.store (s : State) (ep a : Nat) (bs : Bytes) : State := (s.put a bs).mwrs none ep a bs

/-- Write physical memory for a context, a host window through its port (R315, R429). -/
def State.storeFor (s : State) (ctx a : Nat) (bs : Bytes) : State := (s.putFor ctx a bs).mwrs (some (1025, 0)) (s.endpointOf ctx) a bs

/-! ## L2 lines and staged blocks (R283, R284, R311-R313) -/

/-- An extent shares a byte with one of a list. -/
def touches (xs : List (Nat × Nat)) (a n : Nat) : Bool := xs.any (fun x => overlaps x.1 x.2 a n)

/-- Invalidate every L2 copy of the lines of some extents (R311). -/
def State.l2Invalidate (s : State) (xs : List (Nat × Nat)) : State :=
  { s with fabric := s.fabric.invalidate (fun l => touches xs (64 * l) 64) }

/-- Drop every staged block that overlaps a written extent (R284), counting STAGE_DROPS. -/
def dropStaged (xs : List (Nat × Nat)) (st : List Staged) : List Staged :=
  st.filter (fun b => !(b.extents.any (fun e => touches xs e.1 e.2)))

/-- The effect of writes on copies: staged blocks dropped (R284), counted per core. -/
def State.dropCopies (s : State) (xs : List (Nat × Nat)) : State :=
  s.cores.foldl (fun t e =>
    let n := e.2.stage.length - (dropStaged xs e.2.stage).length
    if n = 0 then t
    else (t.setCore e.1 { e.2 with stage := dropStaged xs e.2.stage }).count (.stream e.1 3) n) s

/-- Unpin the lines whose pin an owner holds, in every sleeve (R313). -/
def State.unpin (s : State) (mine : Nat × Bool × Nat → Bool) : State :=
  { s with fabric := { s.fabric with caches := s.fabric.caches.map (fun c => (c.1, c.2.unpin mine)) } }

/-! ## Retirement (R22, R366) -/

/-- Take a core out of service until the next cold reset (R22, R366, R369, R442). -/
def State.retireCore (s : State) (c : Nat) : State :=
  if s.corePresent c then
    let s := { s with
      caps := { s.caps with cores := s.caps.cores &&& ~~~(1#128 <<< c) }
      collar := { s.collar with retired := s.collar.retired ||| (1#128 <<< c) }
      cores := smDel s.cores c }
    ((s.setFault .coreRetired).traceRec 16 (.core c) 0 0 (TraceUnit.core c).code).capChange
  else s

/-- Take a Gusset out of service (R372). -/
def State.retireGusset (s : State) (k : Nat) : State :=
  if s.caps.gusset.getLsbD k then
    let s := { s with caps := { s.caps with gusset := s.caps.gusset &&& ~~~(1#16 <<< k) } }
    let s := s.setSleeve k { s.sleeve k with gussetRetired := true }
    ((s.setFault .gussetRetired).traceRec 16 (.sleeve k) 0 0 (TraceUnit.sleeve k).code).capChange
  else s

/-- Take a sleeve out of service with every core and its Gusset (R371). -/
def State.retireSleeve (s : State) (k : Nat) : State :=
  if s.caps.sleeves.getLsbD k then
    let s := (List.range 8).foldl (fun t i => t.retireCore (8 * k + i)) s
    let s := s.retireGusset k
    let s := { s with
      caps := { s.caps with sleeves := s.caps.sleeves &&& ~~~(1#16 <<< k) }
      ready := { s.ready with sleeves := s.ready.sleeves &&& ~~~(1#16 <<< k) } }
    let s := s.setSleeve k { s.sleeve k with retired := true }
    ((s.setFault .sleeveRetired).traceRec 16 (.sleeve k) 0 0 (TraceUnit.sleeve k).code).capChange
  else s

/-! ## Lane groups (R373, R424, R442) -/

/-- The physical runs of a region, one in each of its pages (R473). -/
def Region.pageRuns (r : Region) : List (Nat × Nat) :=
  r.pages.zipIdx.map (fun (p : Nat × Nat) =>
    let lo := if p.2 = 0 then r.offset else 0
    (65536 * p.1 + lo, min 65536 (r.offset + r.bytes - 65536 * p.2) - lo))

/-- Mark a region as lost when one of its pages goes (R473). -/
def Region.lose (r : Region) (gone : Nat × Nat → Bool) : Region := { r with lost := r.lost || r.pageRuns.any gone }

/-- A context with the regions lost that have a page among those that go. -/
def Ctx.lose (c : Ctx) (gone : Nat × Nat → Bool) : Ctx :=
  { c with
    sq := c.sq.lose gone, cq := c.cq.lose gone
    save := c.save.map (fun r => r.lose gone), gov := c.gov.map (fun r => r.lose gone)
    ledger := c.ledger.map (fun r => r.lose gone) }

/-- Mark the regions of every context that have bytes among those that go. -/
def State.loseRegions (s : State) (gone : Nat × Nat → Bool) : State :=
  { s with ctxs := s.ctxs.map (fun c => (c.1, c.2.lose gone)) }

/-- A port that enters FAILED: absent from then on (R424, R442), and regions of its host window lost (R473). -/
def State.failSeam (s : State) (p : Nat) : State :=
  let s := s.setSeam p { s.seam p with state := .failed, tx := 0, rx := 0 }
  let s := s.loseRegions (fun r => placeOf r.1 == .host p)
  let s := { s with
    caps := { s.caps with seam := s.caps.seam &&& ~~~(1#4 <<< p) }
    ready := { s.ready with seam := s.ready.seam &&& ~~~(1#4 <<< p) } }
  s.capChange

/-- Remove lane groups of a port, `tx` and `rx` those that stay (R373): a direction left with none fails the
port. -/
def State.keepGroups (s : State) (p : Nat) (tx rx : BitVec 4) : State :=
  if tx = (s.seam p).tx ∧ rx = (s.seam p).rx then s else
  let s := s.setSeam p { s.seam p with tx := tx, rx := rx }
  let s := (s.setFault .laneGroup).traceFault .laneGroup 2 (.seam p) 0 0
  if tx = 0 ∨ rx = 0 then s.failSeam p else s.capChange

/-- The mask without its highest group. -/
def lessGroup (m : BitVec 4) : BitVec 4 :=
  if m.getLsbD 3 then m &&& 7#4 else if m.getLsbD 2 then m &&& 3#4 else if m.getLsbD 1 then m &&& 1#4 else 0

/-! ## Addresses (R298, R303, R304) -/

/-- The pseudo-channels of the 256-byte granules of an extent that have failed. -/
def anyFailedPc (failed : BitVec 64) (a n : Nat) : Bool :=
  failed != 0 &&
  (List.range ((a + n - 1) / 256 + 1 - a / 256)).any (fun i => failed.getLsbD (pcOf ((a / 256 + i) * 256)))

/-- What R298 says of an access to `n` bytes at a physical address, none when it may proceed. -/
def State.physIssue (s : State) (a n : Nat) : Option Status :=
  match placeOf a with
  | .stack m =>
    let off := a - m * stackWindow
    if !s.caps.stks.getLsbD m then some Status.unitAbsent
    else if !s.ready.stks.getLsbD m then some Status.notReady
    else if off + n > (s.stack m).capacity.toNat * 2 ^ 30 then some Status.outOfBounds
    else if anyFailedPc (s.stack m).pcFailed off n then some Status.unitAbsent
    else none
  | .host p =>
    if !s.caps.seam.getLsbD p then some Status.unitAbsent
    else if !s.ready.seam.getLsbD p then some Status.notReady
    else none
  | .nothing => some Status.outOfBounds

/-- An entry of a page table (R304). -/
structure Pte where
  valid : Bool
  leaf : Bool
  write : Bool
  reserved : Bool
  addr : Nat
  deriving DecidableEq, Repr

/-- The fields of an entry. -/
def Pte.ofNat (v : Nat) : Pte :=
  Pte.mk (v.testBit 0) (v.testBit 1) (v.testBit 2)
    (decide (v / 8 % 512 ≠ 0 ∨ v / 2 ^ 48 % 65536 ≠ 0)) (v / 4096 % 2 ^ 36 * 4096)

/-- The result of a walk: the physical address of the byte, and whether its page may be written; or the
status, with a count of malformed entries met. -/
inductive Walked where
  | page (pa : Nat) (write : Bool)
  | stop (st : Status) (malformed : Bool)
  deriving DecidableEq, Repr

/-- Size of the page that a leaf maps: 64 KiB at level 0, 2 MiB at level 1 (R304). -/
def leafSize : Nat → Nat
  | 0 => 0x10000
  | _ => 0x200000

/-- The index of a level (R304). -/
def levelIndex (level va : Nat) : Nat :=
  match level with
  | 0 => va / 2 ^ 16 % 32
  | 1 => va / 2 ^ 21 % 512
  | 2 => va / 2 ^ 30 % 512
  | _ => va / 2 ^ 39 % 512

/-- The walk of R304 from a table of a level down. -/
def State.walk (s : State) (va : Nat) : Nat → Nat → Walked
  | level, table =>
    let a := table + 8 * levelIndex level va
    match placeOf a with
    | .stack _ =>
      match s.physIssue a 8 with
      | some st => .stop st false
      | none =>
        let e := Pte.ofNat (leNat (memRead s.mem a 8))
        if !e.valid then .stop Status.outOfBounds false
        else if e.reserved then .stop Status.outOfBounds true
        else if e.leaf then
          if level ≥ 2 ∨ e.addr % leafSize level ≠ 0 then .stop Status.outOfBounds true
          else .page (e.addr + va % leafSize level) e.write
        else
          match level with
          | 0 => .stop Status.outOfBounds true
          | l + 1 =>
            match placeOf e.addr with
            | .stack _ => State.walk s va l e.addr
            | _ => .stop Status.outOfBounds true
    | _ => .stop Status.outOfBounds false

/-- Translation of one address of a context (R303): context 0 uses physical addresses. -/
def State.translate (s : State) (ctx va : Nat) : Walked :=
  if ctx = 0 then (if va < 2 ^ 48 then .page va true else .stop Status.outOfBounds false)
  else if va ≥ 2 ^ 48 then .stop Status.outOfBounds false
  else s.walk va 3 (s.ctx ctx).translation

/-- A run of physical bytes. -/
abbrev Run := Nat × Nat

/-- Translate one piece of an extent, which crosses no 64 KiB boundary (R298, R304). -/
def State.resolvePiece (s : State) (ctx : Nat) (write : Bool) (va len : Nat) : Except Status Run :=
  match s.translate ctx va with
  | .stop st _ => .error st
  | .page pa w =>
    if write && !w then .error Status.outOfBounds else
    match s.physIssue pa len with
    | some st => .error st
    | none => .ok (pa, len)

/-- Translate an extent piece by piece at 64 KiB boundaries, for reading or writing: the physical runs
in order, or the first by R236 of the statuses that its pieces meet (R281, R298, R304). -/
def State.resolveAux (s : State) (ctx : Nat) (write : Bool) : Nat → Nat → Nat → Except Status (List Run)
  | 0, _, _ => .ok []
  | k + 1, va, n =>
    if n = 0 then .ok [] else
    if 2 ^ 48 ≤ va then .error Status.outOfBounds else
    let len := min n (0x10000 - va % 0x10000)
    match s.resolvePiece ctx write va len, State.resolveAux s ctx write k (va + len) (n - len) with
    | .ok r, .ok rs => .ok (r :: rs)
    | .ok _, .error st => .error st
    | .error st, .ok _ => .error st
    | .error a, .error b => .error (if a.rank ≤ b.rank then a else b)

/-- The bounce window of a context: whether an extent of a host window is inside it (R413). -/
def Bounce.covers (b : Bounce) (va n : Nat) : Bool :=
  decide (b.base ≤ va) && decide (va + n ≤ b.base + b.pages * 4096)

/-- Translate an extent of a context (R281, R298, R303, R304, R413). -/
def State.resolve (s : State) (ctx va n : Nat) (write : Bool) : Except Status (List Run) :=
  if n = 0 then .ok [] else
  match s.resolveAux ctx write (n / 0x10000 + 2) va n with
  | .error st => .error st
  | .ok rs =>
    match (s.ctx ctx).bounce with
    | none => .ok rs
    | some b =>
      if rs.any (fun r => match placeOf r.1 with | .host _ => true | _ => false) && !b.covers va n &&
          !(decide (b.tags ≤ va) && decide (va + n ≤ b.tags + 32 * b.pages))
      then .error Status.outOfBounds
      else if b.bad.any (fun k => overlaps va n (b.base + 4096 * k) 4096) then .error Status.outOfBounds
      else .ok rs

/-- Bytes of physical runs. -/
def State.readRuns (s : State) (rs : List Run) : Bytes := rs.flatMap (fun r => memRead s.mem r.1 r.2)

/-- Split bytes over physical runs. -/
def splitRuns : List Run → Bytes → List (Nat × Bytes)
  | [], _ => []
  | (a, n) :: rs, bs => (a, bs.take n) :: splitRuns rs (bs.drop n)

/-- The 64 KiB pages that runs touch. -/
def pagesOf (rs : List Run) : List Nat :=
  rs.flatMap (fun r => (List.range ((r.1 + r.2 - 1) / 65536 + 1 - r.1 / 65536)).map (fun i => r.1 / 65536 + i))

/-- The seal that holds a physical page (R404). -/
def State.sealOf (s : State) (page : Nat) : Option Seal :=
  s.lining.seals.find? (fun x => x.pages.contains page)

/-- The seals that runs touch. -/
def State.sealsOf (s : State) (rs : List Run) : List Seal := (pagesOf rs).filterMap s.sealOf

/-- Whether every page of runs is sealed under an identifier, by a context. -/
def State.sealedUnder (s : State) (ctx : Nat) (id : BitVec 128) (rs : List Run) : Bool :=
  (pagesOf rs).all (fun p =>
    match s.sealOf p with
    | some x => x.ctx == ctx && x.sealId == id
    | none => false)

/-! ## Recorded regions (R473) -/

/-- Physical address of a byte of a recorded region. -/
def Region.addr (r : Region) (i : Nat) : Nat :=
  r.pages.getD ((r.offset + i) / 65536) 0 * 65536 + (r.offset + i) % 65536

/-- Bytes of a recorded region. -/
def State.readRegion (s : State) (r : Region) (i n : Nat) : Bytes :=
  (List.range n).map (fun k => memGet s.mem (r.addr (i + k)))

/-- Whether an extent of a recorded region can be used now. -/
def State.regionOk (s : State) (r : Region) (i n : Nat) : Bool :=
  (s.physIssue (r.addr i) 1 == none) && (s.physIssue (r.addr (i + n - 1)) 1 == none)

end Sys2Proof.Machine
end

