-- ==== Sys2Proof/Machine/Journal.lean ====
section
/-!
DEFINITION. Sys2Proof/Machine/Journal.lean: journal entries and their lines (R374-R380), the fields of
a packet's header (R206), completion records (R223, R224), and the decision of a command's outcome.
-/
namespace Sys2Proof.Machine

/-! ## Packet fields -/

/-- A little-endian field of some bytes. -/
def fieldOf (bs : Bytes) (off n : Nat) : Nat := leNat ((bs.drop off).take n)
/-- Bits [lo + n - 1 : lo] of a number. -/
def bitsOf (v lo n : Nat) : Nat := v / 2 ^ lo % 2 ^ n

/-- Opcode of a packet (R206). -/
def pkOpcode (p : Bytes) : Nat := bitsOf (fieldOf p 0 2) 0 12
/-- WAIT_EN. -/
def pkWaitEn (p : Bytes) : Bool := (fieldOf p 0 2).testBit 12
/-- SIGNAL_EN. -/
def pkSignalEn (p : Bytes) : Bool := (fieldOf p 0 2).testBit 13
/-- ACK. -/
def pkAck (p : Bytes) : Bool := (fieldOf p 0 2).testBit 14
/-- NOTIFY. -/
def pkNotify (p : Bytes) : Bool := (fieldOf p 0 2).testBit 15
/-- CONTEXT with its reserved bits. -/
def pkContext (p : Bytes) : Nat := fieldOf p 2 2
/-- SEQ. -/
def pkSeq (p : Bytes) : W32 := BitVec.ofNat 32 (fieldOf p 4 4)
/-- WAIT_CTR. -/
def pkWaitCtr (p : Bytes) : Nat := fieldOf p 8 2
/-- SIGNAL_CTR. -/
def pkSignalCtr (p : Bytes) : Nat := fieldOf p 10 2
/-- WAIT_TARGET. -/
def pkWaitTarget (p : Bytes) : W32 := BitVec.ofNat 32 (fieldOf p 12 4)

/-- The opcode of an entry. -/
def Entry.op (e : Entry) : Option Op := Op.ofCode (pkOpcode e.packet)
/-- A body field of an entry's packet. -/
def Entry.field (e : Entry) (off n : Nat) : Nat := fieldOf e.packet off n

/-! ## Entries -/

/-- Accepted and not yet completed (R208, INFLIGHT). -/
def Entry.live (e : Entry) : Bool :=
  match e.state with
  | .completed | .cancelled | .released => false
  | _ => true

/-- The entry with a number. -/
def State.entryAt (s : State) (id : Nat) : Option Entry := s.journal.entries.find? (fun e => e.id == id)

/-- The live entry of a context and SEQ. -/
def State.entry? (s : State) (ctx : Nat) (seq : W32) : Option Entry :=
  s.journal.entries.find? (fun e => e.ctx == ctx && e.seq == seq && e.live)

/-- The entries of a context in order of acceptance (R216). -/
def State.entriesOf (s : State) (ctx : Nat) : List Entry :=
  s.journal.entries.filter (fun e => e.ctx == ctx)

/-- Lines of a journal ring (R378). -/
def ringLines : Nat := 4188160
/-- Lines before the ring in a region: the context table and the loss table (R378). -/
def ringStart : Nat := 6144

/-- Journal state code of R377. -/
def JState.code : JState → Nat
  | .accepted => 0 | .dispatched => 1 | .stopped => 2 | .committed => 3 | .completing => 4
  | .completed => 5 | .cancelled => 6 | .lostWait => 7 | .released => 8

/-- GEN of a line position: the number of times the ring has wrapped (R375). -/
def lineGen (pos : Nat) : Nat := pos / ringLines

/-- Bytes of a journal region (R374). -/
def journalBytes : Nat := 2 ^ 28

/-- Write bytes at an offset of the journal regions that are in use (R374, R375, R386); never past their end. -/
def State.journalPut (s : State) (off : Nat) (bs : Bytes) : State :=
  if journalBytes < off + bs.length then s else
  match s.journal.state with
  | 1 => (s.put (s.journal.base.toNat + off) bs).put (s.journal.mirror.toNat + off) bs
  | 2 => s.put (s.journal.base.toNat + off) bs
  | 3 => s.put (s.journal.mirror.toNat + off) bs
  | _ => s

/-- Write a 64-byte line at a position counted since placement. -/
def State.linePut (s : State) (pos : Nat) (bs : Bytes) : State :=
  s.journalPut ((ringStart + pos % ringLines) * 64) bs

/-- A line of 60 bytes with its CRC (R375). -/
def sealLine (bs : Bytes) : Bytes := bs ++ leBytes 4 (crc32c bs)

/-- The accumulators of R355 as line 3 of an entry; the manual does not lay them out (DESIGN CHOICE,
log 87). -/
def Energy.line (a : Energy) : Bytes :=
  leBytes 8 a.sleeve ++ leBytes 8 a.stack ++ leBytes 8 a.seam ++ leBytes 8 a.apportioned ++
  leBytes 8 (a.first.getD 0) ++ leBytes 8 a.last ++ leBytes 4 a.intervals ++
  leBytes 1 a.stretch ++
  leBytes 1 (a.partial_.toNat + 2 * a.reexecuted.toNat + 4 * a.calChanged.toNat + 16 * a.defaults.toNat) ++
  zeroBytes 10

/-- FLAGS of R376. -/
def Entry.flags (e : Entry) : Nat :=
  e.dispatchedOnce.toNat + 2 * e.preempted.toNat + 4 * e.faulted.toNat + 8 * e.retiredFlag.toNat +
  16 * e.signalled.toNat + 32 * e.ackWritten.toNat

/-- The body lines of an entry (R376): packet, literal block, accumulators at acceptance. -/
def Entry.body (e : Entry) : Bytes :=
  e.packet ++ (e.literal ++ zeroBytes (64 - e.literal.length)).take 64 ++ zeroBytes 64

/-- The header line of an entry (R376). -/
def Entry.line0 (e : Entry) : Bytes :=
  sealLine (leBytes 1 1 ++ leBytes 1 e.state.code ++ leBytes 2 e.ctx ++ leBytes 4 e.seq.toNat ++
    leBytes 8 e.tAccepted.toNat ++ leBytes 4 e.tileCursor.toNat ++ leBytes 4 e.rowCursor.toNat ++
    leBytes 4 e.sqCount.toNat ++ leBytes 4 e.cqCount.toNat ++ leBytes 1 e.status.toNat ++
    leBytes 1 e.flags ++ leBytes 1 (match e.faultCore with | some c => c + 128 | none => 0) ++
    leBytes 1 (e.faults + 16 * e.retirements) ++ leBytes 4 e.chain.toNat ++ leBytes 4 e.result.toNat ++
    leBytes 4 0 ++ leBytes 4 (lineGen e.line) ++ leBytes 4 (crc32c e.body) ++ leBytes 4 (lineGen e.line))

/-- Replace an entry and rewrite its header line (R377). -/
def State.setEntry (s : State) (e : Entry) : State :=
  let s := { s with journal := { s.journal with
    entries := s.journal.entries.map (fun x => if x.id = e.id then e else x) } }
  if e.journalled then s.linePut e.line e.line0 else s

/-- Whether the ring has room for so many lines more (R378). -/
def State.journalRoom (s : State) (n : Nat) : Bool :=
  decide (s.journal.head + n - s.journal.tail ≤ ringLines)

/-- An energy account with nothing in it (R355). -/
def Energy.zero : Energy := Energy.mk 0 0 0 0 0 1 none 0 0 0 false false false false 0

/-- A new entry for a packet (R376). -/
def Entry.fresh (id ctx : Nat) (packet literal : Bytes) (now : W64) (sqCount chain : W32)
    (member : Option Nat) (journalled : Bool) (line : Nat) (ack : Bool) : Entry where
  id := id
  ctx := ctx
  seq := pkSeq packet
  packet := packet
  literal := literal
  state := .accepted
  tAccepted := now
  tStarted := none
  tFinished := 0
  tRecord := 0
  tileCursor := 0
  rowCursor := 0
  sqCount := sqCount
  cqCount := 0
  status := 0
  result := 0
  sumSat := false
  dispatchedOnce := false
  preempted := false
  faulted := false
  retiredFlag := false
  signalled := false
  ackWritten := ack
  faultCore := none
  faults := 0
  retirements := 0
  chain := chain
  member := member
  journalled := journalled
  line := line
  working := false
  waitMet := false
  early := none
  decided := false
  notes := []
  replayed := false
  refs := []
  retain := []
  drops := []
  stats := []
  commit := []
  wrote := []
  taken := []
  flushed := false
  snap := []
  asked := []
  saved := none
  shares := []
  energy := Energy.zero

/-- Append an entry, its four lines written to the regions when the journal is enabled (R214, R376). -/
def State.addEntry (s : State) (e : Entry) : State :=
  let s := { s with journal := { s.journal with
    entries := s.journal.entries ++ [e], nextId := s.journal.nextId + 1 } }
  if e.journalled then
    let s := (s.linePut e.line e.line0).linePut (e.line + 1) e.packet
    let s := s.linePut (e.line + 2) ((e.literal ++ zeroBytes (64 - e.literal.length)).take 64)
    let s := s.linePut (e.line + 3) (zeroBytes 64)
    { s with journal := { s.journal with head := e.line + 4 } }
  else s

/-- The 32 bytes of a loss record (R388). -/
def Loss.bytes (l : Loss) : Bytes :=
  leBytes 2 l.ctx ++ leBytes 1 l.kind ++ leBytes 1 l.part.toNat ++ leBytes 4 0 ++ leBytes 8 l.address ++
  leBytes 4 l.firstSeq.toNat ++ leBytes 4 l.waiting ++ leBytes 8 0

/-! ## Commit records (R380) -/

/-- Pieces of at most 40 bytes. -/
def piecesOf : Nat → Nat → Bytes → List (Nat × Bytes)
  | 0, _, _ => []
  | n + 1, a, bs =>
    if bs.isEmpty then [] else (a, bs.take 40) :: piecesOf n (a + 40) (bs.drop 40)

/-- The item lines of a commit item, before GEN and CRC (bytes 0x00-0x37). -/
def CommitItem.bodies : CommitItem → List Bytes
  | .write a bs => (piecesOf (bs.length / 40 + 1) a bs).map (fun p =>
      leBytes 8 p.1 ++ leBytes 1 0 ++ leBytes 1 p.2.length ++ zeroBytes 6 ++
      (p.2 ++ zeroBytes (40 - p.2.length)))
  | .copy d src n => [leBytes 8 d ++ leBytes 1 1 ++ zeroBytes 7 ++ leBytes 8 src ++ leBytes 8 n ++
      zeroBytes 24]

/-- Lines of a commit record, its header last in time but first in the ring. -/
def commitLines (items : List CommitItem) : Nat := 1 + (items.flatMap CommitItem.bodies).length

/-- Apply one item. -/
def State.applyItem (s : State) : CommitItem → State
  | .write a bs => s.put a bs
  | .copy d src n => s.put d (memRead s.mem src n)

/-- Apply the items of a commit record, in order. -/
def State.applyItems (s : State) (items : List CommitItem) : State := items.foldl State.applyItem s

/-- Write item lines at positions from `pos` on. -/
def State.itemLines (s : State) : Nat → List Bytes → State
  | _, [] => s
  | pos, b :: bs => State.itemLines (s.linePut pos (sealLine (b ++ leBytes 4 (lineGen pos)))) (pos + 1) bs

/-- Write a commit record: every item line, then the header line (R380). -/
def State.writeCommit (s : State) (ctx : Nat) (seq : W32) (journalled : Bool) (items : List CommitItem) : State :=
  if !journalled then s else
  let pos := s.journal.head
  let bodies := items.flatMap CommitItem.bodies
  let s := s.itemLines (pos + 1) bodies
  let hdr := leBytes 1 2 ++ [0] ++ leBytes 2 ctx ++ leBytes 4 seq.toNat ++ leBytes 4 bodies.length ++
    zeroBytes 44 ++ leBytes 4 (lineGen pos)
  let s := s.linePut pos (sealLine hdr)
  { s with journal := { s.journal with
    head := pos + 1 + bodies.length
    commits := s.journal.commits ++ [(pos, ctx, seq, items)] } }

/-! ## Completion records (R223, R224) -/

/-- The 32 bytes of a record (R223). -/
def recordBytes (seq : W32) (status : Status) (phase reply preempted sat : Bool) (ctx : Nat)
    (tAcc tFin : W64) (run : Nat) (result : W32) : Bytes :=
  leBytes 4 seq.toNat ++ leBytes 1 status.toNat ++
  leBytes 1 (phase.toNat + 2 * reply.toNat + 4 * preempted.toNat + 8 * sat.toNat) ++
  leBytes 2 ctx ++ leBytes 8 tAcc.toNat ++ leBytes 8 tFin.toNat ++ leBytes 4 run ++
  leBytes 4 result.toNat

/-- Records that accepted commands of a context have reserved and not yet written (R223). -/
def State.reserved (s : State) (ctx : Nat) : Nat :=
  ((s.entriesOf ctx).filter Entry.live).length

/-- Free slots of a completion ring, reservations counted (R223). -/
def State.ringRoom (s : State) (ctx : Nat) : Nat :=
  let c := s.ctx ctx
  c.cqEntries - ((c.cqTail - c.cqHead).toNat + s.reserved ctx)

/-- Whether the slot of a completion-ring count can be written (R473). -/
def State.cqSlotOk (s : State) (ctx : Nat) (n : W32) : Bool :=
  let c := s.ctx ctx
  decide (0 < c.cqEntries) && s.regionOk c.cq (32 * (n.toNat % c.cqEntries)) 32

/-- PHASE of a record count (R224). -/
def phaseOf (entries : Nat) (n : W32) : Bool := n.toNat / entries % 2 == 0

/-- Write a record at the tail of a context's completion ring (R224). -/
def State.putRecord (s : State) (ctx : Nat) (rec : Bool → Bytes) : State :=
  let c := s.ctx ctx
  let a := c.cq.addr (32 * (c.cqTail.toNat % c.cqEntries))
  let s := s.store (s.endpointOf ctx) a (rec (phaseOf c.cqEntries c.cqTail))
  s.setCtx ctx { s.ctx ctx with cqTail := c.cqTail + 1 }

/-- RUN_TICKS of R223. -/
def Entry.runTicks (e : Entry) : Nat :=
  match e.tStarted with
  | none => 0
  | some t => min 0xFFFFFFFF (e.tFinished.toNat - t.toNat)

/-- The completion record of a decided entry. -/
def Entry.recordBytes (e : Entry) (phase : Bool) : Bytes :=
  Machine.recordBytes e.seq e.status phase false e.preempted e.sumSat e.ctx e.tAccepted e.tFinished
    (if e.early.isSome then 0 else e.runTicks) e.result

/-! ## Deciding an outcome -/

/-- Free bytes for the extents of a failed or cancelled pure-overwrite command (R229, R232). -/
def State.scramble (s : State) (rs : List Run) : State :=
  rs.foldl (fun t r =>
    { t.lay r.1 ((List.range r.2).map (fun i => Config.freeByte (t.free + i))) with free := t.free + r.2 }) s

/-- The status of a command whose completed-class codes are known (R229, R384): ROUND_ABORTED goes before all others. -/
def Entry.finalStatus (e : Entry) (st : Status) : Status :=
  if e.notes.contains Status.roundAborted then Status.roundAborted
  else if st.failed then st
  else Status.highest ([st] ++ e.notes ++ (if e.replayed then [Status.wasReplayed] else []))

/-- Decide a command: STATUS, RESULT and the time its last effect committed (R223, R229). -/
def State.conclude (s : State) (e : Entry) (st : Status) (result : W32) (sat : Bool) : State :=
  s.setEntry { e with
    decided := true, status := e.finalStatus st
    result := if st.failed then 0 else result
    sumSat := sat, tFinished := s.stamp }

/-- What a command's work comes to. -/
inductive Verdict where
  /-- it waits, and changes nothing yet. -/
  | wait
  /-- it fails with the first of these by R236, the extents of its pure-overwrite destinations given. -/
  | fail (issues : List Status) (lost : List Run)
  /-- it has completed: the state with its effects, and what its record carries. -/
  | done (st : Status) (result : W32) (sat : Bool) (s : State)

/-- The entry that an opcode's step works on: dispatched, of that opcode, not yet decided. -/
def State.runnable (s : State) (op : Op) (ctx : Nat) (seq : W32) : Option Entry :=
  match s.entry? ctx seq with
  | none => none
  | some e =>
    if e.op = some op ∧ e.state = .dispatched ∧ e.decided = false ∧ s.ready.collar = true then some e
    else none

/-- The runs of a list that lie in stack memory. -/
def stackRuns (rs : List Run) : List Run := rs.filter (fun r => match placeOf r.1 with | .stack _ => true | _ => false)

/-- Give an entry its outcome: a destination that it leaves undefined counts as written (R284). -/
def State.settle (s : State) (e : Entry) : Verdict → State
  | .wait => s
  | .fail issues lost =>
    (s.scramble lost).conclude { e with wrote := e.wrote ++ stackRuns lost }
      ((Status.first issues).getD Status.malformed) 0 false
  | .done st r sat t => t.conclude ((t.entryAt e.id).getD e) st r sat

/-- Bits of a packet's body that the fields of an opcode cover: offset, lowest bit, width. -/
def bodyMask (fs : List (Nat × Nat × Nat)) : Nat :=
  fs.foldl (fun m f => m ||| ((2 ^ f.2.2 - 1) * 2 ^ (8 * (f.1 - 0x10) + f.2.1))) 0

/-- Every body bit outside the fields of the opcode is zero (R233). -/
def Entry.clean (e : Entry) (fs : List (Nat × Nat × Nat)) : Bool :=
  let b := e.field 0x10 48
  b &&& bodyMask fs == b

end Sys2Proof.Machine
end

