-- ==== Sys2Proof/Machine/Num.lean ====
section
/-!
DEFINITION. Sys2Proof/Machine/Num.lean: the number formats of 02 (R26-R31), exact values, the two
roundings (nearest even for arithmetic, nearest away for conversions, R10, R50), the saturating
conversion of R51, the IEEE 754 operations on binary32 and binary64 (R85, R88, R119, R163) and the
correctly rounded exp and erf of R254. Codes are natural numbers; every function is structural.
-/
namespace Sys2Proof.Machine

/-- An exact value: `num neg m e` is (-1)^neg x m x 2^e. -/
inductive Val where
  | num (neg : Bool) (m : Nat) (e : Int)
  | inf (neg : Bool)
  | nan
  deriving DecidableEq, Repr

/-- The shape of a floating format: stored fraction bits, bias, largest finite magnitude code,
whether it has infinities, and its canonical NaN, 0 where it has none (tables of R28, R29). -/
structure FloatFmt where
  mbits : Nat
  width : Nat
  bias : Nat
  maxCode : Nat
  hasInf : Bool
  nanCode : Nat
  deriving DecidableEq, Repr

def fp4e2m1 : FloatFmt := ⟨1, 4, 1, 0x7, false, 0⟩
def fp6e2m3 : FloatFmt := ⟨3, 6, 1, 0x1F, false, 0⟩
def fp6e3m2 : FloatFmt := ⟨2, 6, 3, 0x1F, false, 0⟩
def fp8e4m3 : FloatFmt := ⟨3, 8, 7, 0x7E, false, 0x7F⟩
def fp8e5m2 : FloatFmt := ⟨2, 8, 15, 0x7B, true, 0x7E⟩
def bf16 : FloatFmt := ⟨7, 16, 127, 0x7F7F, true, 0x7FC0⟩
def binary16 : FloatFmt := ⟨10, 16, 15, 0x7BFF, true, 0x7E00⟩
def gf24 : FloatFmt := ⟨15, 24, 127, 0x7F7FFF, true, 0x7FC000⟩
def binary32 : FloatFmt := ⟨23, 32, 127, 0x7F7FFFFF, true, 0x7FC00000⟩
def binary64 : FloatFmt := ⟨52, 64, 1023, 0x7FEFFFFFFFFFFFFF, true, 0x7FF8000000000000⟩

/-- The 4-bit code of a format (R26). -/
def Format.code : Format → Nat
  | .int4 => 0 | .int8 => 1 | .fp4e2m1 => 2 | .fp6e2m3 => 3 | .fp6e3m2 => 4 | .fp8e4m3 => 5
  | .fp8e5m2 => 6 | .bf16 => 7 | .binary16 => 8 | .gf24 => 9 | .binary32 => 10 | .binary64 => 11

/-- The format of a code; 0xC-0xF are reserved (R26). -/
def formatOf : Nat → Option Format
  | 0 => some .int4 | 1 => some .int8 | 2 => some .fp4e2m1 | 3 => some .fp6e2m3
  | 4 => some .fp6e3m2 | 5 => some .fp8e4m3 | 6 => some .fp8e5m2 | 7 => some .bf16
  | 8 => some .binary16 | 9 => some .gf24 | 10 => some .binary32 | 11 => some .binary64
  | _ => none

/-- The floating shape of a format, none for the integer formats. -/
def floatFmt : Format → Option FloatFmt
  | .int4 | .int8 => none
  | .fp4e2m1 => some Machine.fp4e2m1
  | .fp6e2m3 => some Machine.fp6e2m3
  | .fp6e3m2 => some Machine.fp6e3m2
  | .fp8e4m3 => some Machine.fp8e4m3
  | .fp8e5m2 => some Machine.fp8e5m2
  | .bf16 => some Machine.bf16
  | .binary16 => some Machine.binary16
  | .gf24 => some Machine.gf24
  | .binary32 => some Machine.binary32
  | .binary64 => some Machine.binary64

def isInt (f : Format) : Bool := f == .int4 || f == .int8

/-- Width in bits (R26). -/
def fmtWidth : Format → Nat
  | .int4 | .fp4e2m1 => 4
  | .fp6e2m3 | .fp6e3m2 => 6
  | .int8 | .fp8e4m3 | .fp8e5m2 => 8
  | .bf16 | .binary16 => 16
  | .gf24 => 24
  | .binary32 => 32
  | .binary64 => 64

/-- The pleat factor p of a format: 1, 2 or 4, 0 where no array multiplies it (R26, R31). -/
def fmtPleat : Format → Nat
  | .int4 | .fp4e2m1 | .fp6e2m3 | .fp6e3m2 | .fp8e4m3 | .fp8e5m2 => 1
  | .int8 | .bf16 => 2
  | .binary16 | .gf24 => 4
  | .binary32 | .binary64 => 0

/-- Significand width, the largest exponent and the smallest one (table of R149). -/
def fmtF : Format → Nat
  | .int4 => 4 | .int8 => 8 | .fp4e2m1 => 2 | .fp6e2m3 => 4 | .fp6e3m2 => 3 | .fp8e4m3 => 4
  | .fp8e5m2 => 3 | .bf16 => 8 | .binary16 => 11 | .gf24 => 16 | .binary32 => 24 | .binary64 => 53

def fmtEmax : Format → Int
  | .int4 => 2 | .int8 => 6 | .fp4e2m1 => 2 | .fp6e2m3 => 2 | .fp6e3m2 => 4 | .fp8e4m3 => 8
  | .fp8e5m2 => 15 | .bf16 => 127 | .binary16 => 15 | .gf24 => 127 | .binary32 => 127
  | .binary64 => 1023

def fmtEsub : Format → Int
  | .int4 => 0 | .int8 => 0 | .fp4e2m1 => -1 | .fp6e2m3 => -3 | .fp6e3m2 => -4 | .fp8e4m3 => -9
  | .fp8e5m2 => -16 | .bf16 => -133 | .binary16 => -24 | .gf24 => -141 | .binary32 => -149
  | .binary64 => -1074

/-- The two's-complement value of a w-bit code. -/
def signedCode (w c : Nat) : Int :=
  let c := c % 2 ^ w
  if c < 2 ^ (w - 1) then (c : Int) else (c : Int) - (2 ^ w : Nat)

/-- The w-bit code of an integer, reduced modulo 2^w. -/
def intCode (w : Nat) (z : Int) : Nat := (z % ((2 ^ w : Nat) : Int)).toNat

/-- The value of a floating code (R28, R29): the m of `num` is the significand of R31 and the e
its unbiased exponent. -/
def floatVal (f : FloatFmt) (code : Nat) : Val :=
  let neg := (code / 2 ^ (f.width - 1)) % 2 == 1
  let mag := code % 2 ^ (f.width - 1)
  if f.maxCode < mag then
    if f.hasInf && mag == f.maxCode + 1 then .inf neg else .nan
  else
    let E := mag / 2 ^ f.mbits
    let M := mag % 2 ^ f.mbits
    if E == 0 then .num neg M (1 - (f.bias : Int) - f.mbits)
    else .num neg (2 ^ f.mbits + M) ((E : Int) - f.bias - f.mbits)

/-- The value of an element code in a format (R28). -/
def fmtVal (f : Format) (code : Nat) : Val :=
  match floatFmt f with
  | some ff => floatVal ff code
  | none =>
    let z := signedCode (fmtWidth f) code
    .num (decide (z < 0)) z.natAbs 0

def Val.isZero : Val → Bool
  | .num _ m _ => m == 0
  | _ => false

def Val.isNaN : Val → Bool
  | .nan => true
  | _ => false

def Val.finite : Val → Bool
  | .num .. => true
  | _ => false

def Val.negate : Val → Val
  | .num s m e => .num (!s) m e
  | .inf s => .inf (!s)
  | .nan => .nan

def Val.abs : Val → Val
  | .num _ m e => .num false m e
  | .inf _ => .inf false
  | .nan => .nan

/-- A value scaled by 2^k, exact (group scales, R39, R40, R471). -/
def Val.scale (k : Int) : Val → Val
  | .num s m e => .num s m (e + k)
  | v => v

/-- An integer as a value. -/
def valOfInt (z : Int) : Val := .num (decide (z < 0)) z.natAbs 0

/-- The integer m x 2^(e - e0) with its sign, for e0 ≤ e. -/
def Val.at (e0 : Int) (neg : Bool) (m : Nat) (e : Int) : Int :=
  let x : Int := (m * 2 ^ (e - e0).toNat : Nat)
  if neg then -x else x

inductive Rounding where
  | even | away | down
  deriving DecidableEq, Repr

/-- Divide m by 2^sh, rounding; `sticky` says that the exact value lies a little above m. -/
def shiftRound (r : Rounding) (m sh : Nat) (sticky : Bool) : Nat :=
  if sh == 0 then m
  else
    let q := m / 2 ^ sh
    let rem := m % 2 ^ sh
    let half := 2 ^ (sh - 1)
    let up := match r with
      | .down => false
      | .away => decide (half ≤ rem)
      | .even => decide (half < rem) || (rem == half && (sticky || q % 2 == 1))
    if up then q + 1 else q

/-- The magnitude code, with unbounded exponent, of m x 2^e rounded to the format (R50). -/
def roundMag (r : Rounding) (f : FloatFmt) (m : Nat) (e : Int) (sticky : Bool) : Nat :=
  if m == 0 then 0
  else
    let emin : Int := 1 - (f.bias : Int) - f.mbits
    let q := max ((Nat.log2 m : Int) - f.mbits + e) emin
    let s := q - e
    let n := if s ≤ 0 then m * 2 ^ (-s).toNat else shiftRound r m s.toNat sticky
    (q - emin).toNat * 2 ^ f.mbits + n

def signBit (f : FloatFmt) (neg : Bool) : Nat := if neg then 2 ^ (f.width - 1) else 0

def infCode (f : FloatFmt) (neg : Bool) : Nat := signBit f neg + f.maxCode + 1

/-- An arithmetic result (R119): round to nearest even, overflow to infinity, canonical NaN. -/
def arith (f : FloatFmt) (sticky : Bool) : Val → Nat
  | .num neg m e =>
    let c := roundMag .even f m e sticky
    if f.maxCode < c then infCode f neg else signBit f neg + c
  | .inf neg => infCode f neg
  | .nan => f.nanCode

/-- What a conversion writes and what it counts (R51). -/
structure Conv where
  code : Nat
  sat : Bool := false
  und : Bool := false
  nan : Bool := false
  deriving DecidableEq, Repr

/-- The end of an integer format's range. -/
def intMax (f : Format) : Int := ((2 ^ (fmtWidth f - 1) : Nat) : Int) - 1
def intMin (f : Format) : Int := -((2 ^ (fmtWidth f - 1) : Nat) : Int)

/-- Round an exact value to an integer, ties away from zero (R50), with unbounded range. -/
def roundInt (neg : Bool) (m : Nat) (e : Int) : Int :=
  let n : Int := if 0 ≤ e then (m * 2 ^ e.toNat : Nat) else shiftRound .away m (-e).toNat false
  if neg then -n else n

/-- The narrowing conversion of R50, R51 and, for an integer tensor with zero point z, of R472. -/
def convertZ (f : Format) (z : Int) (v : Val) : Conv :=
  match floatFmt f, v with
  | some ff, .num neg m e =>
    let c := roundMag .away ff m e false
    if ff.maxCode < c then { code := signBit ff neg + ff.maxCode, sat := true }
    else { code := signBit ff neg + c, und := m != 0 && c == 0 }
  | some ff, .inf neg =>
    if ff.hasInf then { code := infCode ff neg }
    else { code := signBit ff neg + ff.maxCode, sat := true }
  | some ff, .nan =>
    if ff.nanCode == 0 then { code := 0, nan := true } else { code := ff.nanCode }
  | none, .num neg m e =>
    let c := roundInt neg m e
    let q := c + z
    if intMax f < q then { code := intCode (fmtWidth f) (intMax f), sat := true }
    else if q < intMin f then { code := intCode (fmtWidth f) (intMin f), sat := true }
    else { code := intCode (fmtWidth f) q, und := m != 0 && c == 0 }
  | none, .inf neg =>
    { code := intCode (fmtWidth f) (if neg then intMin f else intMax f), sat := true }
  | none, .nan => { code := intCode (fmtWidth f) z, nan := true }

def convert (f : Format) (v : Val) : Conv := convertZ f 0 v

/-- Exact sum; a zero result is +0 unless both terms are -0. -/
def Val.add : Val → Val → Val
  | .nan, _ => .nan
  | _, .nan => .nan
  | .inf a, .inf b => if a == b then .inf a else .nan
  | .inf a, _ => .inf a
  | _, .inf b => .inf b
  | .num sa ma ea, .num sb mb eb =>
    let e0 := min ea eb
    let z := Val.at e0 sa ma ea + Val.at e0 sb mb eb
    if z == 0 then .num (sa && sb && ma == 0 && mb == 0) 0 e0
    else .num (decide (z < 0)) z.natAbs e0

/-- Exact product. -/
def Val.mul : Val → Val → Val
  | .nan, _ => .nan
  | _, .nan => .nan
  | .inf a, .inf b => .inf (a != b)
  | .inf a, .num s m _ => if m == 0 then .nan else .inf (a != s)
  | .num s m _, .inf b => if m == 0 then .nan else .inf (s != b)
  | .num sa ma ea, .num sb mb eb => .num (sa != sb) (ma * mb) (ea + eb)

/-- Integer square root, one result bit a step from bit k - 1 down. -/
def isqrtGo (n : Nat) : Nat → Nat → Nat
  | 0, r => r
  | k + 1, r =>
    let t := r + 2 ^ k
    isqrtGo n k (if t * t ≤ n then t else r)

def isqrt (n : Nat) : Nat := isqrtGo n (Nat.log2 n / 2 + 1) 0

/-- The IEEE 754 operations on codes of a format, round to nearest even (R85, R88, R119, R163). -/
def fadd (f : FloatFmt) (a b : Nat) : Nat := arith f false ((floatVal f a).add (floatVal f b))
def fsub (f : FloatFmt) (a b : Nat) : Nat :=
  arith f false ((floatVal f a).add (floatVal f b).negate)
def fmul (f : FloatFmt) (a b : Nat) : Nat := arith f false ((floatVal f a).mul (floatVal f b))

def fdivVal (f : FloatFmt) (a b : Val) : Nat :=
  match a, b with
  | .nan, _ => f.nanCode
  | _, .nan => f.nanCode
  | .inf _, .inf _ => f.nanCode
  | .inf s, .num t _ _ => infCode f (s != t)
  | .num s _ _, .inf t => signBit f (s != t)
  | .num s ma ea, .num t mb eb =>
    if mb == 0 then (if ma == 0 then f.nanCode else infCode f (s != t))
    else
      let k := f.mbits + 4 + Nat.log2 mb
      let n := ma * 2 ^ k
      arith f (n % mb != 0) (.num (s != t) (2 * (n / mb) + (if n % mb == 0 then 0 else 1))
        (ea - eb - k - 1))

def fdiv (f : FloatFmt) (a b : Nat) : Nat := fdivVal f (floatVal f a) (floatVal f b)

def fsqrt (f : FloatFmt) (a : Nat) : Nat :=
  match floatVal f a with
  | .nan => f.nanCode
  | .inf s => if s then f.nanCode else infCode f false
  | .num s m e =>
    if m == 0 then signBit f s
    else if s then f.nanCode
    else
      let k := 2 * (f.mbits + 4) + (if e % 2 == 0 then 0 else 1)
      let n := m * 2 ^ k
      let r := isqrt n
      arith f false (.num false (2 * r + (if r * r == n then 0 else 1)) ((e - k) / 2 - 1))

def fneg (f : FloatFmt) (a : Nat) : Nat :=
  if (floatVal f a).isNaN then f.nanCode
  else if a / 2 ^ (f.width - 1) % 2 == 1 then a % 2 ^ (f.width - 1)
  else a + 2 ^ (f.width - 1)

def fabs (f : FloatFmt) (a : Nat) : Nat := a % 2 ^ (f.width - 1)

/-- a < b; false with a NaN. -/
def Val.lt : Val → Val → Bool
  | .nan, _ => false
  | _, .nan => false
  | .inf a, .inf b => a && !b
  | .inf a, _ => a
  | _, .inf b => !b
  | .num sa ma ea, .num sb mb eb =>
    let e0 := min ea eb
    decide (Val.at e0 sa ma ea < Val.at e0 sb mb eb)

/-- a = b as numbers; false with a NaN, and +0 equals -0. -/
def Val.eq (a b : Val) : Bool := !a.isNaN && !b.isNaN && !a.lt b && !b.lt a

def flt (f : FloatFmt) (a b : Nat) : Bool := (floatVal f a).lt (floatVal f b)

def isFinite (f : FloatFmt) (a : Nat) : Bool := (floatVal f a).finite

/-- binary32 and binary64 by name. -/
def add32 := fadd binary32
def sub32 := fsub binary32
def mul32 := fmul binary32
def div32 := fdiv binary32
def sqrt32 := fsqrt binary32
def add64 := fadd binary64
def sub64 := fsub binary64
def mul64 := fmul binary64
def div64 := fdiv binary64
def sqrt64 := fsqrt binary64

def val32 (a : Nat) : Val := floatVal binary32 a
def val64 (a : Nat) : Val := floatVal binary64 a

/-- A binary32 code widened to binary64, exact (R52, R88). -/
def widen (a : Nat) : Nat := arith binary64 false (val32 a)
/-- A binary64 code converted to binary32 under R50 and R51. -/
def narrow32 (a : Nat) : Conv := convert .binary32 (val64 a)
/-- A value converted to binary32 under R50 and R51. -/
def to32 (v : Val) : Conv := convert .binary32 v

def one32 : Nat := 0x3F800000
def nan32 : Nat := 0x7FC00000

/-- sign of R163: +1, -1, +0 for a zero, the canonical NaN for a NaN. -/
def sign32 (a : Nat) : Nat :=
  match val32 a with
  | .nan => nan32
  | .inf s => if s then 0xBF800000 else one32
  | .num s m _ => if m == 0 then 0 else if s then 0xBF800000 else one32

/-- The number of bits of k. -/
def bitLen (k : Nat) : Nat := if k == 0 then 0 else Nat.log2 k + 1

/-- pow(beta, k) of R163: square, then multiply where the bit is 1, from the top set bit down. -/
def powGo (beta k : Nat) : Nat → Nat → Nat
  | 0, x => x
  | n + 1, x =>
    let y := mul32 x x
    powGo beta k n (if (k / 2 ^ n) % 2 == 1 then mul32 y beta else y)

def pow32 (beta k : Nat) : Nat := powGo beta k (bitLen k) one32

/-! ### exp and erf (R254): fixed point with 384 fraction bits, correctly rounded. -/

def fixP : Nat := 384

/-- m x 2^e in fixed point. -/
def toFix (m : Nat) (e : Int) : Nat :=
  let s := (fixP : Int) + e
  if 0 ≤ s then m * 2 ^ s.toNat else m / 2 ^ (-s).toNat

def expSeries (r : Nat) : Nat → Nat → Nat → Nat → Nat
  | 0, _, _, acc => acc
  | fuel + 1, n, t, acc =>
    let t' := t * r / (2 ^ fixP * n)
    expSeries r fuel (n + 1) t' (acc + t')

def squareN : Nat → Nat → Nat
  | 0, y => y
  | k + 1, y => squareN k (y * y / 2 ^ fixP)

/-- exp of a binary32 code, rounded to nearest even. -/
def exp32 (a : Nat) : Nat :=
  match val32 a with
  | .nan => nan32
  | .inf s => if s then 0 else infCode binary32 false
  | .num s m e =>
    if m == 0 then one32
    else if (Nat.log2 m : Int) + e ≥ 8 then (if s then 0 else infCode binary32 false)
    else
      let r := toFix m e / 2 ^ 8
      let y := squareN 8 (expSeries r 120 1 (2 ^ fixP) (2 ^ fixP))
      if s then arith binary32 true (.num false (2 ^ (2 * fixP + 256) / y) (-(fixP : Int) - 256))
      else arith binary32 true (.num false y (-(fixP : Int)))

/-- atan(1/k) in fixed point: the alternating series, `neg` the sign of the next term. -/
def atanGo (k : Nat) : Nat → Nat → Nat → Bool → Int → Int
  | 0, _, _, _, acc => acc
  | fuel + 1, n, p, neg, acc =>
    let t : Int := (p / n : Nat)
    atanGo k fuel (n + 2) (p / (k * k)) (!neg) (if neg then acc - t else acc + t)

def atanInv (k : Nat) : Int := atanGo k 180 1 (2 ^ fixP / k) false 0

/-- pi in fixed point (Machin). -/
def piFix : Nat := (16 * atanInv 5 - 4 * atanInv 239).toNat

def erfGo (x2 : Nat) : Nat → Nat → Nat → Bool → Int → Int
  | 0, _, _, _, acc => acc
  | fuel + 1, n, t, neg, acc =>
    let u : Int := (t / (2 * n + 1) : Nat)
    erfGo x2 fuel (n + 1) (t * x2 / (2 ^ fixP * (n + 1))) (!neg) (if neg then acc - u else acc + u)

/-- erf of a binary32 code, rounded to nearest even. -/
def erf32 (a : Nat) : Nat :=
  match val32 a with
  | .nan => nan32
  | .inf s => if s then 0xBF800000 else one32
  | .num s m e =>
    if m == 0 then signBit binary32 s
    else if (Nat.log2 m : Int) + e ≥ 2 then (if s then 0xBF800000 else one32)
    else
      let x := toFix m e
      let sum := (erfGo (x * x / 2 ^ fixP) 220 0 x false 0).toNat
      let root := isqrt (piFix * 2 ^ fixP)
      arith binary32 true (.num s (2 * sum * 2 ^ fixP / root) (-(fixP : Int)))

/-! ### The Kahan pair (R85), folds (R88) and chains. -/

structure Pair where
  sum : Nat
  comp : Nat
  deriving DecidableEq, Repr

def pairZero : Pair := ⟨0, 0⟩

/-- The Kahan step of R85, with the non-finite rule of R37. -/
def kahan (p : Pair) (t : Nat) : Pair :=
  if isFinite binary32 p.sum then
    let y := add32 t p.comp
    let s := add32 p.sum y
    if isFinite binary32 s then ⟨s, sub32 y (sub32 s p.sum)⟩ else ⟨s, 0⟩
  else ⟨add32 p.sum (add32 t 0), 0⟩

def kahanAll (ts : List Nat) : Pair := ts.foldl kahan pairZero

/-- sum + comp, one binary32 addition. -/
def Pair.value32 (p : Pair) : Nat := add32 p.sum p.comp

/-- The fold of R88. -/
def foldPair (h : Nat) (p : Pair) : Nat := add64 (add64 h (widen p.sum)) (widen p.comp)

/-- The tree of R96, left operand first; each round joins neighbours and carries an odd last. -/
def treeRound : List Nat → List Nat
  | a :: b :: rest => add64 a b :: treeRound rest
  | l => l

def treeGo : Nat → List Nat → Nat
  | 0, l => l.headD 0
  | _ + 1, [x] => x
  | n + 1, l => treeGo n (treeRound l)

def splitTree (vs : List Nat) : Nat := treeGo vs.length vs

/-! ### Significand products by slices (R31, R32, R35). -/

/-- Slice i of a significand (R31). -/
def slice (m i : Nat) : Nat := m / 16 ^ i % 16

/-- The weighted products of row offset i against every column offset below j. -/
def sliceRow (a b i : Nat) : Nat → Nat
  | 0 => 0
  | j + 1 => sliceRow a b i j + slice a i * slice b j * 16 ^ (i + j)

/-- The exact adder of a fused group: the sum over the p x p cells (R32). -/
def sliceSum (a b p : Nat) : Nat → Nat
  | 0 => 0
  | i + 1 => sliceSum a b p i + sliceRow a b i p

def sliceProduct (p a b : Nat) : Nat := sliceSum a b p p

/-- Trailing zero bits, below a bound. -/
def trailZeros (n : Nat) : Nat → Nat
  | 0 => 0
  | k + 1 => if n % 2 == 1 then 0 else 1 + trailZeros (n / 2) k

/-- Significant bits of P (R35). -/
def sigBits (P : Nat) : Nat := if P == 0 then 0 else bitLen P - trailZeros P (bitLen P)

/-- The one or two binary32 terms of an exact value with significand P (R35): split only where
`wide` says PL4 and more than 24 bits are significant. A low term that needs more than 24 bits itself (BF16 operands) is
rounded to the nearest binary32, ties to even: R83 does not say what it becomes (DESIGN CHOICE, log 94). -/
def termsOf (wide : Bool) (neg : Bool) (P : Nat) (e : Int) : List Nat :=
  if P == 0 then []
  else if wide && decide (24 < sigBits P) then
    let s := bitLen P - 24
    let hi := P / 2 ^ s * 2 ^ s
    [arith binary32 false (.num neg hi e), arith binary32 false (.num neg (P - hi) e)]
  else [arith binary32 false (.num neg P e)]

/-- The terms of one product (R32, R35-R37): a zero operand gives none. -/
def productTerms (p : Nat) (a b : Val) : List Nat :=
  if a.isZero || b.isZero then []
  else
    match a, b with
    | .num sa ma ea, .num sb mb eb => termsOf (p == 4) (sa != sb) (sliceProduct p ma mb) (ea + eb)
    | x, y => [arith binary32 false (x.mul y)]

/-- floor(log2 |v|) of a finite non-zero value. -/
def valExp (m : Nat) (e : Int) : Int := (Nat.log2 m : Int) + e

end Sys2Proof.Machine
end

