-- ==== Sys2Proof/Machine/Operands.lean ====
section
/-!
DEFINITION. Sys2Proof/Machine/Operands.lean: the operand forms of the manual: tensor descriptors
(R274, R275), packed rows (R30, R115), group scales (R39-R42, R471), zero points (R46, R472), their
extents, and the conversion of a result into a stored element with its counts and statistics
(R50-R52, R139-R141).
-/
namespace Sys2Proof.Machine

/-- Quotient rounded up. -/
def ceilDiv (a b : Nat) : Nat := (a + b - 1) / b
/-- MAC rows R of a pleat (R57). -/
def macRows (p : Nat) : Nat := 256 / p
/-- MAC columns C of a pleat (R57). -/
def macCols (p : Nat) : Nat := 64 / p

/-! ## The tensor descriptor -/

/-- The fields of a tensor descriptor (R274); `resv` says that a reserved bit or byte is not zero. -/
structure TDesc where
  base : Nat
  rows : Nat
  cols : Nat
  pitch : Nat
  fmt : Nat
  orient : Bool
  gov : Bool
  handover : Bool
  kind : Nat
  group : Nat
  zpKind : Nat
  cls : Nat
  keepN : Nat
  zp : Nat
  layer : Nat
  role : Nat
  outBlocks : Nat
  outReq : Nat
  scales : Nat
  zpVec : Nat
  resv : Bool
  deriving DecidableEq, Repr

/-- The descriptor in 64 bytes (R274). -/
def TDesc.parse (b : Bytes) : TDesc where
  base := fieldOf b 0x00 8
  rows := fieldOf b 0x08 4
  cols := fieldOf b 0x0C 4
  pitch := fieldOf b 0x10 4
  fmt := bitsOf (fieldOf b 0x14 1) 0 4
  orient := (fieldOf b 0x14 1).testBit 4
  gov := (fieldOf b 0x14 1).testBit 5
  handover := (fieldOf b 0x14 1).testBit 6
  kind := bitsOf (fieldOf b 0x15 1) 0 2
  group := bitsOf (fieldOf b 0x15 1) 2 2
  zpKind := bitsOf (fieldOf b 0x15 1) 4 2
  cls := bitsOf (fieldOf b 0x15 1) 6 2
  keepN := fieldOf b 0x16 1
  zp := fieldOf b 0x17 1
  layer := bitsOf (fieldOf b 0x18 2) 0 12
  role := bitsOf (fieldOf b 0x18 2) 12 2
  outBlocks := bitsOf (fieldOf b 0x1A 1) 0 7
  outReq := bitsOf (fieldOf b 0x1C 2) 0 13
  scales := fieldOf b 0x20 8
  zpVec := fieldOf b 0x28 8
  resv := (fieldOf b 0x14 1).testBit 7 || bitsOf (fieldOf b 0x18 2) 14 2 != 0 ||
    (fieldOf b 0x1A 1).testBit 7 || fieldOf b 0x1B 1 != 0 || bitsOf (fieldOf b 0x1C 2) 13 3 != 0 ||
    fieldOf b 0x1E 2 != 0 || fieldOf b 0x30 8 != 0 || fieldOf b 0x38 8 != 0

/-- Bits per element of a packed code (R114). -/
def packedBits : Nat → Nat
  | 0 => 1 | 1 => 1 | 2 => 2 | 3 => 4 | _ => 8

/-- Bytes of a packed row of `n` elements in a format (R30). -/
def rowBytes (f : Format) (n : Nat) : Nat :=
  match f with
  | .int4 | .fp4e2m1 => (n + 1) / 2
  | .fp6e2m3 | .fp6e3m2 => (n + 3) / 4 * 3
  | .int8 | .fp8e4m3 | .fp8e5m2 => n
  | .bf16 | .binary16 => 2 * n
  | .gf24 => 3 * n
  | .binary32 => 4 * n
  | .binary64 => 8 * n

/-- The group size of a GROUP code (R39, R274). -/
def groupSize : Nat → Nat
  | 1 => 32 | 2 => 64 | 3 => 128 | _ => 0

/-- The ladder of a (layer, role) in effect, if any. -/
def Ctx.ladder? (c : Ctx) (layer role : Nat) : Option Ladder :=
  c.ladders.find? (fun l => l.layer == layer && l.role == role)

/-- The current format of a (layer, role) (R135). -/
def Ctx.currentFormat (c : Ctx) (layer role : Nat) : Option Format :=
  match c.ladder? layer role with
  | some l => formatOf (l.rungs.getD l.rung 15)
  | none => none

/-- The format that a descriptor stands for: resolved where GOV is 1 (R136). -/
def TDesc.format? (d : TDesc) (c : Ctx) : Option Format :=
  if d.gov then c.currentFormat d.layer d.role else formatOf d.fmt

/-- Bytes of a memory row of a descriptor in a format: a packed row for KIND 2, pairs for KIND 1
(R30, R115, R127). -/
def TDesc.rowLen (d : TDesc) (f : Format) : Nat :=
  if d.kind = 2 then (d.cols * packedBits d.fmt + 7) / 8
  else if d.kind = 1 then 8 * d.cols
  else rowBytes f d.cols

/-- Whether a zero point code lies in the range of a format (R46): the byte is its two's complement. -/
def zpInRange (f : Format) (z : Nat) : Bool :=
  match f with
  | .int4 => decide (z < 8 ∨ 248 ≤ z)
  | _ => true

/-- The conditions of R275 that a descriptor breaks whatever its role, its format resolved. -/
def TDesc.bad (d : TDesc) (c : Ctx) : Bool :=
  let f? := d.format? c
  d.resv || decide (d.rows = 0) || decide (d.cols = 0) || decide (d.pitch % 64 ≠ 0) ||
  decide (d.kind = 3) || decide (d.cls = 3) || decide (d.zpKind = 3) ||
  (decide (d.kind = 2) && decide (d.fmt > 4)) ||
  (decide (d.kind = 1) && decide (d.fmt ≠ 0xA)) ||
  (decide (d.cls = 1) && decide (d.keepN = 0)) || (decide (d.cls ≠ 1) && decide (d.keepN ≠ 0)) ||
  decide (d.role = 3) || decide (d.outBlocks = 1 ∨ 64 < d.outBlocks) ||
  decide (0 < d.outReq ∧ d.outReq < 64 ∨ 4096 < d.outReq) ||
  (d.gov && decide (d.layer = 0)) ||
  (decide (d.group = 0) != decide (d.scales = 0)) ||
  (decide (d.zpKind ≠ 2) && decide (d.zpVec ≠ 0)) || (decide (d.zpKind = 2) && decide (d.zpVec = 0)) ||
  (decide (d.zpKind ≠ 1) && decide (d.zp ≠ 0)) ||
  (decide (d.zpKind ≠ 0) && decide (d.group ≠ 0)) ||
  (!d.handover && decide (d.base = 0)) ||
  (if d.kind = 2 then d.gov || decide (d.zpKind ≠ 0) || decide (d.group ≠ 0) || decide (d.pitch < d.rowLen .int8)
   else match f? with
    | none => true
    | some f => (decide (d.zpKind ≠ 0) && !isInt f) || (decide (d.zpKind = 1) && !zpInRange f d.zp) ||
        decide (d.pitch < d.rowLen f))

/-- Read a structure that a packet names: its bytes, or the statuses that stand in the way (R233, R234,
R281). An address of 0, or one that is not aligned, is malformed. -/
def State.readStruct (s : State) (ctx addr len align : Nat) : Except Status Bytes :=
  if addr = 0 ∨ addr % align ≠ 0 then .error Status.malformed
  else match s.resolve ctx addr len false with
    | .error st => .error st
    | .ok rs => .ok (s.readRuns rs)

/-- A descriptor opened: what stands in the way, and the descriptor when it could be read. -/
structure Opened where
  issues : List Status
  desc : Option TDesc
  fmt : Format
  deriving Repr

/-- What surrounds a command's operands: its context, and where the links that it may read from and
write to stand in its view of memory (R290). -/
structure Env where
  ctx : Nat
  handIn : Option Nat
  handOut : Option Nat
  deriving DecidableEq, Repr

/-- First address of the view in which a command sees the hand-over links of its chain: above every
physical address. -/
def linkBase : Nat := 2 ^ 60
/-- Distance between the links of a chain in that view. -/
def linkSpan : Nat := 2 ^ 50

/-- Open the descriptor at an address, with the checks of R275 that hold for every role; one with
HANDOVER takes the place of its link (R290). -/
def State.openDesc (s : State) (v : Env) (out : Bool) (addr : Nat) : Opened :=
  match s.readStruct v.ctx addr 64 64 with
  | .error st => Opened.mk [st] none .binary32
  | .ok b =>
    let d := TDesc.parse b
    let c := s.ctx v.ctx
    let hand := if out then v.handOut else v.handIn
    let bad := d.bad c || (d.handover && hand.isNone)
    Opened.mk (if bad then [Status.malformed] else [])
      (some (if d.handover then { d with base := hand.getD 0 } else d)) ((d.format? c).getD .binary32)

/-- A slot that may be 0: nothing opened, nothing in the way. -/
def State.openOpt (s : State) (v : Env) (out : Bool) (addr : Nat) : Opened :=
  if addr = 0 then Opened.mk [] none .binary32 else s.openDesc v out addr

/-- MALFORMED unless a condition holds. -/
def need (p : Bool) : List Status := if p then [] else [Status.malformed]

/-! ## Extents -/

/-- Row extents of a tensor: row i from BASE + i × PITCH (R274), as virtual extents. -/
def TDesc.extents (d : TDesc) (f : Format) : List (Nat × Nat) :=
  (List.range d.rows).map (fun i => (d.base + i * d.pitch, d.rowLen f))

/-- Physical runs of extents, each extent's runs apart, and the statuses met. -/
def State.runsOf (s : State) (ctx : Nat) (write : Bool) : List (Nat × Nat) → List Status × List (List Run)
  | [] => ([], [])
  | (a, n) :: xs =>
    let r := State.runsOf s ctx write xs
    match s.resolve ctx a n write with
    | .error st => (st :: r.1, [] :: r.2)
    | .ok rs => (r.1, rs :: r.2)

/-- The scale bytes of a tensor: ceil(K / G) for each of `n` rows (R42). -/
def scaleExtent (d : TDesc) (n k : Nat) : List (Nat × Nat) :=
  if d.group = 0 then [] else [(d.scales, n * ((k + groupSize d.group - 1) / groupSize d.group))]

/-- The scale bytes of `n` rows of which a command demands some (R281): one extent where it demands all of them. -/
def scaleExtents (d : TDesc) (n k : Nat) (use : Nat → Bool) : List (Nat × Nat) :=
  if d.group = 0 ∨ (List.range n).all use = true then scaleExtent d n k else
  let w := (k + groupSize d.group - 1) / groupSize d.group
  (List.range n).map (fun i => (d.scales + i * w, if use i then w else 0))

/-! ## Elements in memory -/

/-- Cut bytes into fields of `n` bytes. -/
def chunk (n : Nat) : Nat → Bytes → List Nat
  | 0, _ => []
  | k + 1, bs => leNat (bs.take n) :: chunk n k (bs.drop n)

/-- Split a number into `n` fields of `w` bits, lowest first. -/
def splitBits (w : Nat) : Nat → Nat → List Nat
  | 0, _ => []
  | n + 1, v => v % 2 ^ w :: splitBits w n (v / 2 ^ w)

/-- Join fields of `w` bits, lowest first. -/
def joinBits (w : Nat) : List Nat → Nat
  | [] => 0
  | v :: vs => v % 2 ^ w + 2 ^ w * joinBits w vs

/-- The element codes of a packed row (R30). -/
def unpackRow (f : Format) (n : Nat) (bs : Bytes) : List Nat :=
  match f with
  | .int4 | .fp4e2m1 => ((bs.flatMap (fun b => [b.toNat % 16, b.toNat / 16])).take n)
  | .fp6e2m3 | .fp6e3m2 =>
    (((chunk 3 ((n + 3) / 4) bs).flatMap (fun w => splitBits 6 4 w)).take n)
  | f => chunk (fmtWidth f / 8) n bs

/-- Groups of at most `k` elements. -/
def groupsOf {α : Type} (k : Nat) : Nat → List α → List (List α)
  | 0, _ => []
  | n + 1, xs => if xs.isEmpty then [] else xs.take k :: groupsOf k n (xs.drop k)

/-- The bytes of a packed row, unused bits zero (R30). -/
def packRow (f : Format) (cs : List Nat) : Bytes :=
  match f with
  | .int4 | .fp4e2m1 => (groupsOf 2 cs.length cs).flatMap (fun g => leBytes 1 (joinBits 4 g))
  | .fp6e2m3 | .fp6e3m2 => (groupsOf 4 cs.length cs).flatMap (fun g => leBytes 3 (joinBits 6 g))
  | f => cs.flatMap (fun c => leBytes (fmtWidth f / 8) c)

/-- The elements of a packed bit string (R115). -/
def unpackBits (b n : Nat) (bs : Bytes) : List Nat := splitBits b n (leNat bs)

/-- The bytes of a packed bit string, unused bits zero (R115). -/
def packBits (b : Nat) (vs : List Nat) : Bytes := leBytes ((b * vs.length + 7) / 8) (joinBits b vs)

/-- The transpose of a matrix of `n` columns. -/
def transpose {α : Type} (d : α) (n : Nat) (m : List (List α)) : List (List α) :=
  (List.range n).map (fun j => m.map (fun r => r.getD j d))

/-! ## Tensors as read -/

/-- A tensor opened for a command: descriptor, format, the runs of its memory rows, the bytes of its
scale tensor and of its zero-point vector. -/
structure Tensor where
  d : TDesc
  fmt : Format
  runs : List (List Run)
  scaleBytes : Bytes
  zpBytes : Bytes
  scaleRuns : List Run
  deriving Repr

/-- Logical rows and columns: ORIENT 1 stores column n as memory row n (R105). -/
def Tensor.shape (t : Tensor) : Nat × Nat :=
  if t.d.orient then (t.d.cols, t.d.rows) else (t.d.rows, t.d.cols)

/-- The element codes in memory order. -/
def Tensor.codes (s : State) (t : Tensor) : List (List Nat) :=
  t.runs.map (fun rs => unpackRow t.fmt t.d.cols (s.readRuns rs))

/-- The scale byte of element k of scale row n, of K elements (R42); 0x7F without group scales. -/
def Tensor.scaleAt (t : Tensor) (kTotal n k : Nat) : Nat :=
  if t.d.group = 0 then 0x7F else
  let g := groupSize t.d.group
  (t.scaleBytes.getD (n * ((kTotal + g - 1) / g) + k / g) 0).toNat

/-- The value of a code under a scale byte (R39, R41). -/
def scaledVal (f : Format) (sb code : Nat) : Val :=
  let v := fmtVal f code
  if v.isZero then v else if sb = 0xFF then .nan else v.scale ((sb : Int) - 127)

/-- The raw values of an activation or gradient tensor, memory rows, group scales applied along each row. -/
def Tensor.vals (s : State) (t : Tensor) : List (List Val) :=
  (t.codes s).zipIdx.map (fun r =>
    r.1.zipIdx.map (fun c => scaledVal t.fmt (t.scaleAt t.d.cols r.2 c.2) c.1))

/-- The raw values of a weight as W[k][n] (R59, R105), group scales indexed by n and k. -/
def Tensor.weight (s : State) (t : Tensor) : List (List Val) :=
  let m := t.codes s
  let kTotal := t.shape.1
  if t.d.orient then
    transpose (.num false 0 0) t.d.cols
      (m.zipIdx.map (fun r => r.1.zipIdx.map (fun c => scaledVal t.fmt (t.scaleAt kTotal r.2 c.2) c.1)))
  else
    m.zipIdx.map (fun r => r.1.zipIdx.map (fun c => scaledVal t.fmt (t.scaleAt kTotal c.2 r.2) c.1))

/-- The zero point of a tensor (R46). -/
def TDesc.zero (d : TDesc) (f : Format) : Int :=
  if d.zpKind = 1 then signedCode (if f = .int4 then 4 else 8) d.zp else 0

/-- The per-column zero points of a held operand, or its one zero point (R46). -/
def Tensor.zeros (t : Tensor) (n : Nat) : List Int :=
  if t.d.zpKind = 2 then (List.range n).map (fun j => signedCode 8 (t.zpBytes.getD j 0).toNat)
  else List.replicate n (t.d.zero t.fmt)

/-- Subtract a zero point from an integer value; an operand with a zero point has no group scale. -/
def minusZero (z : Int) (v : Val) : Val :=
  if z = 0 then v else
  match v with
  | .num neg m e => if e = 0 then valOfInt ((if neg then -(m : Int) else (m : Int)) - z) else v
  | v => v

/-- Extents of those memory rows that a command demands; the others have none (R281). -/
def TDesc.extentsOf (d : TDesc) (f : Format) (use : Nat → Bool) : List (Nat × Nat) :=
  (List.range d.rows).map (fun i => (d.base + i * d.pitch, if use i then d.rowLen f else 0))

/-- Read a tensor whose descriptor is open: its data for reading, in the memory rows that `use` names. -/
def State.loadTensor (s : State) (ctx : Nat) (o : Opened) (scaleRows scaleK zpN : Nat) (write : Bool)
    (use : Nat → Bool := fun _ => true) : List Status × Option Tensor :=
  match o.desc with
  | none => (o.issues, none)
  | some d =>
    if !o.issues.isEmpty then (o.issues, none) else
    let body := if d.handover then ([], (d.extents o.fmt).map (fun x => [x]))
      else s.runsOf ctx write (d.extentsOf o.fmt use)
    let xs := scaleExtents d scaleRows scaleK use
    let w := if xs.length = 1 then 0 else (scaleK + groupSize d.group - 1) / groupSize d.group
    let sc := s.runsOf ctx false xs
    let zp := if d.zpKind = 2 then s.runsOf ctx false [(d.zpVec, zpN)] else ([], [])
    (body.1 ++ sc.1 ++ zp.1,
      some (Tensor.mk d o.fmt body.2
        (sc.2.flatMap (fun rs => if rs.isEmpty then zeroBytes w else s.readRuns rs)) (s.readRuns zp.2.flatten)
        sc.2.flatten))

/-- An activation or gradient tensor: ORIENT 0, groups along each memory row (R39, R471). -/
def State.loadRows (s : State) (ctx : Nat) (o : Opened) (write : Bool) (use : Nat → Bool := fun _ => true) :
    List Status × Option Tensor :=
  match o.desc with
  | none => (o.issues, none)
  | some d => s.loadTensor ctx o d.rows d.cols 0 write use

/-- A weight or a dW destination: groups along k, indexed by n (R39, R105). -/
def State.loadWeight (s : State) (ctx : Nat) (o : Opened) (write : Bool) : List Status × Option Tensor :=
  match o.desc with
  | none => (o.issues, none)
  | some d =>
    let k := if d.orient then d.cols else d.rows
    let n := if d.orient then d.rows else d.cols
    s.loadTensor ctx o n k n write

/-! ## Conversions into stored elements -/

/-- Counts of R51 over many conversions, and the statistics of R140. -/
structure Tally where
  sat : Nat
  und : Nat
  nan : Nat
  deriving DecidableEq, Repr

/-- Nothing counted. -/
def Tally.zero : Tally := Tally.mk 0 0 0
/-- Add one conversion. -/
def Tally.addConv (t : Tally) (c : Conv) : Tally :=
  Tally.mk (t.sat + c.sat.toNat) (t.und + c.und.toNat) (t.nan + c.nan.toNat)
/-- Add tallies. -/
def Tally.add (a b : Tally) : Tally := Tally.mk (a.sat + b.sat) (a.und + b.und) (a.nan + b.nan)
/-- Add many conversions. -/
def Tally.ofConvs (cs : List Conv) : Tally := cs.foldl Tally.addConv Tally.zero

/-- RESULT of R252: saturations in [15:0], underflows in [31:16], each saturating, and SUM_SAT (R223). -/
def Tally.result (t : Tally) : W32 × Bool :=
  (BitVec.ofNat 32 (min t.sat 65535 + 65536 * min t.und 65535), decide (65535 < t.sat ∨ 65535 < t.und))

/-- The conversion input after the group scale of the destination (R471, R139). -/
def groupDivide (sb : Nat) (v : Val) : Val := if sb = 0xFF then v else v.scale (127 - (sb : Int))

/-- Convert a value into an element of a destination (R50, R51, R471, R472). -/
def convertTo (f : Format) (z : Int) (sb : Nat) (v : Val) : Conv := convertZ f z (groupDivide sb v)

/-- The exact value of an element to binary32 (R52), with its counts where it carries a scale. -/
def widenElem (v : Val) : Conv := to32 v

/-- The bin of a finite non-zero value (R140). -/
def statBin (v : Val) : Nat :=
  match v with
  | .num _ m e => (min 63 (max 0 (valExp m e + 40))).toNat
  | _ => 0

/-- An empty record of a (layer, role). -/
def StatRec.empty (layer role : Nat) : StatRec :=
  StatRec.mk layer role 0 0 0 0 0 0 0 0 (List.replicate 64 0) false

/-- Add 1 at an index of a list. -/
def bump : List Nat → Nat → List Nat
  | [], _ => []
  | x :: xs, 0 => (x + 1) :: xs
  | x :: xs, n + 1 => x :: bump xs n

/-- Add one conversion to a record (R140, R141): `v` is the conversion input, `c` its conversion, `xn` the
value written (before a zero point is added, R472). -/
def StatRec.conv (r : StatRec) (sampled : Bool) (v : Val) (c : Conv) (xn : Val) : StatRec :=
  let special := !v.finite
  let xw := to32 v
  let vn := arith binary64 false xn
  let vw := arith binary64 false (val32 xw.code)
  let shadow := sampled && !special
  { r with
    n := r.n + 1
    nSat := r.nSat + c.sat.toNat
    nUnd := r.nUnd + c.und.toNat
    nZero := r.nZero + v.isZero.toNat
    nSpecial := r.nSpecial + special.toNat
    eNum := if shadow then BitVec.ofNat 64 (add64 r.eNum.toNat (sub64 vn vw)) else r.eNum
    eDen := if shadow then BitVec.ofNat 64 (add64 r.eDen.toNat (fabs binary64 vw)) else r.eDen
    nSampled := r.nSampled + sampled.toNat
    hist := if v.isZero || special then r.hist else bump r.hist (statBin v) }

/-- Whether row `m` of a destination is sampled in step S (R141). -/
def sampledRow (m layer : Nat) (step : W64) : Bool := (m / 256 + layer) % 64 == step.toNat % 64

/-- The value that a written code stands for, the zero point taken off (R141, R472). -/
def writtenVal (f : Format) (z : Int) (code : Nat) : Val := minusZero z (fmtVal f code)

/-- Convert a matrix of values, memory rows of the destination, into codes, with counts and the record of
its (layer, role) when LAYER is non-zero and the destination is not binary32 (R139). -/
def convertRows (d : TDesc) (f : Format) (sb : Nat → Nat → Nat) (step : W64) (rows : List (List Val)) :
    List (List Nat) × Tally × StatRec :=
  let z := d.zero f
  let out := rows.zipIdx.map (fun r => r.1.zipIdx.map (fun c =>
    let v := groupDivide (sb r.2 c.2) c.1
    (v, convertZ f z v)))
  let codes := out.map (fun r => r.map (fun x => x.2.code))
  let tally := out.foldl (fun t r => r.foldl (fun t x => t.addConv x.2) t) Tally.zero
  let st := out.zipIdx.foldl (fun a r =>
    let sm := sampledRow r.2 d.layer step
    r.1.foldl (fun a x => a.conv sm x.1 x.2 (writtenVal f z x.2.code)) a) (StatRec.empty d.layer d.role)
  (codes, tally, st)

/-- The bytes to write for the rows of a tensor. -/
def writeRows (t : Tensor) (codes : List (List Nat)) : List (Nat × Bytes) :=
  (List.zipWith (fun rs cs => splitRuns rs (packRow t.fmt cs)) t.runs codes).flatten

/-- Statistics that count: those of a named layer in a format narrower than binary32 (R139). -/
def statOf (d : TDesc) (f : Format) (r : StatRec) : List StatRec :=
  if d.layer = 0 ∨ f = .binary32 then [] else [r]

/-- The physical runs of a tensor, flattened. -/
def Tensor.all (t : Tensor) : List Run := t.runs.flatten

end Sys2Proof.Machine
end

