-- ==== Sys2Proof/Machine/Conv.lean ====
section
/-!
DEFINITION. Sys2Proof/Machine/Conv.lean: what fixes the shape of a product: dataflow, pleat and logical shape (R34, R57,
R105), the geometry block of a convolution (R73, R74) and the positions that its output and its input meet (R75-R77).
-/
namespace Sys2Proof.Machine

/-- The logical K × N shape of a weight or dW descriptor (R105). -/
def TDesc.logical (d : TDesc) : Nat × Nat := if d.orient then (d.cols, d.rows) else (d.rows, d.cols)

/-- The pleat of a command (R34). -/
def pleatOf (f g : Format) : Nat := max (fmtPleat f) (fmtPleat g)
/-- The pleat of a distance operation (R82). -/
def distPleat (o : Nat) (f : Format) : Nat :=
  if fmtWidth f = 16 then 4 else if o = 1 then 4 else 2

/-- Dataflow codes of a PASS record (R450). -/
inductive Flow where
  | west | north | stationary
  deriving DecidableEq, Repr

/-- R450. -/
def Flow.code : Flow → Nat
  | .west => 0 | .north => 1 | .stationary => 2

/-- A shape of the table of R80: dataflow, pleat, M, K, N on a G5-16, tiles, destination. -/
structure SafeShape where
  flow : Flow
  p : Nat
  m : Nat
  k : Nat
  n : Nat
  tiles : Nat
  dest : Format
  deriving Repr

/-- The shapes. -/
def safeShape : Nat → Option SafeShape
  | 0 => some (SafeShape.mk .west 1 256 256 256 1 .bf16)
  | 1 => some (SafeShape.mk .west 1 2048 256 256 1 .bf16)
  | 2 => some (SafeShape.mk .west 1 2048 512 256 2 .bf16)
  | 3 => some (SafeShape.mk .west 2 128 128 128 1 .bf16)
  | 4 => some (SafeShape.mk .west 2 2048 256 128 2 .bf16)
  | 5 => some (SafeShape.mk .west 4 64 64 64 1 .binary16)
  | 6 => some (SafeShape.mk .west 4 2048 128 64 2 .binary16)
  | 7 => some (SafeShape.mk .north 1 2048 256 256 1 .bf16)
  | 8 => some (SafeShape.mk .stationary 1 2048 256 256 1 .binary32)
  | 9 => some (SafeShape.mk .stationary 2 2048 128 128 1 .binary32)
  | _ => none

/-- N on a die (R80). -/
def SafeShape.nOn (x : SafeShape) (d : Die) : Nat :=
  match d with
  | .g5x16 => x.n
  | .g5x8 => x.n / 2

/-- A convolution geometry block (R73). -/
structure Geom where
  batch : Nat
  hIn : Nat
  wIn : Nat
  cIn : Nat
  cOut : Nat
  kh : Nat
  kw : Nat
  sh : Nat
  sw : Nat
  dh : Nat
  dw : Nat
  padT : Nat
  padB : Nat
  padL : Nat
  padR : Nat
  groups : Nat
  hOut : Nat
  wOut : Nat
  resv : Bool
  deriving DecidableEq, Repr

/-- The block in 32 bytes. -/
def Geom.parse (b : Bytes) : Geom where
  batch := fieldOf b 0 2
  hIn := fieldOf b 2 2
  wIn := fieldOf b 4 2
  cIn := fieldOf b 6 2
  cOut := fieldOf b 8 2
  kh := fieldOf b 0x0A 1
  kw := fieldOf b 0x0B 1
  sh := fieldOf b 0x0C 1
  sw := fieldOf b 0x0D 1
  dh := fieldOf b 0x0E 1
  dw := fieldOf b 0x0F 1
  padT := fieldOf b 0x10 1
  padB := fieldOf b 0x11 1
  padL := fieldOf b 0x12 1
  padR := fieldOf b 0x13 1
  groups := fieldOf b 0x14 2
  hOut := fieldOf b 0x16 2
  wOut := fieldOf b 0x18 2
  resv := (b.drop 0x1A).any (fun x => x != 0)

/-- The output size of R74, 0 for one below 1. -/
def convOut (n pad dil k stride : Nat) : Nat :=
  if n + pad < dil * (k - 1) + 1 then 0 else (n + pad - dil * (k - 1) - 1) / stride + 1

/-- The ranges of R73 and the sizes of R74. -/
def Geom.ok (g : Geom) : Bool :=
  !g.resv && decide (1 ≤ g.batch ∧ 1 ≤ g.hIn ∧ 1 ≤ g.wIn ∧ 1 ≤ g.cIn ∧ 1 ≤ g.cOut ∧ 1 ≤ g.groups) &&
  decide (1 ≤ g.kh ∧ g.kh ≤ 16 ∧ 1 ≤ g.kw ∧ g.kw ≤ 16) &&
  decide (1 ≤ g.sh ∧ g.sh ≤ 8 ∧ 1 ≤ g.sw ∧ g.sw ≤ 8 ∧ 1 ≤ g.dh ∧ g.dh ≤ 8 ∧ 1 ≤ g.dw ∧ g.dw ≤ 8) &&
  decide (g.padT ≤ 15 ∧ g.padB ≤ 15 ∧ g.padL ≤ 15 ∧ g.padR ≤ 15) &&
  decide (g.cIn % g.groups = 0 ∧ g.cOut % g.groups = 0) &&
  decide (1 ≤ g.hOut ∧ g.hOut = convOut g.hIn (g.padT + g.padB) g.dh g.kh g.sh) &&
  decide (1 ≤ g.wOut ∧ g.wOut = convOut g.wIn (g.padL + g.padR) g.dw g.kw g.sw)

/-- Whether some output position meets an input row (R75, R76): the others are never streamed. -/
def Geom.readsIn (g : Geom) (outAt : Nat → Nat → Nat → Option Nat) (r : Nat) : Bool :=
  (List.range g.kh).any (fun i => (List.range g.kw).any (fun j => (outAt r i j).isSome))

/-- Input channels of a group. -/
def Geom.cg (g : Geom) : Nat := g.cIn / g.groups
/-- Output channels of a group. -/
def Geom.og (g : Geom) : Nat := g.cOut / g.groups
/-- Input positions. -/
def Geom.inRows (g : Geom) : Nat := g.batch * g.hIn * g.wIn
/-- Output positions. -/
def Geom.outRows (g : Geom) : Nat := g.batch * g.hOut * g.wOut
/-- The reduction length of a group. -/
def Geom.k (g : Geom) : Nat := g.kh * g.kw * g.cg

/-- The input row of an output position under a kernel position (R75), none for padding. -/
def Geom.inAt (g : Geom) (m kh kw : Nat) : Option Nat :=
  let n := m / (g.hOut * g.wOut)
  let h := m / g.wOut % g.hOut * g.sh + kh * g.dh
  let w := m % g.wOut * g.sw + kw * g.dw
  if g.padT ≤ h ∧ h - g.padT < g.hIn ∧ g.padL ≤ w ∧ w - g.padL < g.wIn then
    some ((n * g.hIn + (h - g.padT)) * g.wIn + (w - g.padL))
  else none

/-- The output row that an input position meets under a kernel position (R77), if any. -/
def Geom.outAt (g : Geom) (m kh kw : Nat) : Option Nat :=
  let n := m / (g.hIn * g.wIn)
  let h := m / g.wIn % g.hIn + g.padT
  let w := m % g.wIn + g.padL
  if kh * g.dh ≤ h ∧ (h - kh * g.dh) % g.sh = 0 ∧ (h - kh * g.dh) / g.sh < g.hOut ∧
      kw * g.dw ≤ w ∧ (w - kw * g.dw) % g.sw = 0 ∧ (w - kw * g.dw) / g.sw < g.wOut then
    some ((n * g.hOut + (h - kh * g.dh) / g.sh) * g.wOut + (w - kw * g.dw) / g.sw)
  else none

end Sys2Proof.Machine
end

