-- ==== Sys2Proof/Machine/Named.lean ====
section
/-!
DEFINITION. Sys2Proof/Machine/Named.lean: the structures that a packet's body names (R234, R387), read
from the operand blocks of R250 and R255 and the bodies of 10_opcode_reference; the parameter descriptor
(R157), the gradient pair buffer's header (R127) and the references of R176.
-/
namespace Sys2Proof.Machine

/-! ## Fixed structures -/

/-- A version slot of a parameter descriptor (R157). -/
structure VSlot where
  base : Nat
  version : W64
  fmt : Nat
  state : Nat
  pitch : Nat
  resv : Bool
  deriving DecidableEq, Repr

/-- A parameter descriptor (R157). -/
structure PDesc where
  stateEpoch : Bool
  rootEpoch : Bool
  zeroState : Bool
  frozen : Bool
  rowsOnly : Bool
  lastCtx : Nat
  lastSeq : W32
  count : W64
  lastStep : W64
  newest : Nat
  rowsN : Nat
  colsN : Nat
  statePitch : Nat
  orient : Bool
  blockSide : Nat
  epochBytes : Nat
  master : Nat
  mom1 : Nat
  mom2 : Nat
  aux1 : Nat
  aux2 : Nat
  slots : List VSlot
  seed : W64
  storedFmt : Nat
  gov : Bool
  layer : Nat
  resv : Bool
  deriving DecidableEq, Repr

/-- A slot entry in 32 bytes. -/
def VSlot.parse (b : Bytes) : VSlot where
  base := fieldOf b 0 8
  version := BitVec.ofNat 64 (fieldOf b 8 8)
  fmt := bitsOf (fieldOf b 0x10 1) 0 4
  state := bitsOf (fieldOf b 0x10 1) 4 2
  pitch := fieldOf b 0x14 4
  resv := bitsOf (fieldOf b 0x10 4) 6 26 != 0 || fieldOf b 0x18 8 != 0

/-- A parameter descriptor in 256 bytes. -/
def PDesc.parse (b : Bytes) : PDesc where
  stateEpoch := (fieldOf b 0 1).testBit 0
  rootEpoch := (fieldOf b 0 1).testBit 1
  zeroState := (fieldOf b 0 1).testBit 2
  frozen := (fieldOf b 1 1).testBit 0
  rowsOnly := (fieldOf b 1 1).testBit 1
  lastCtx := bitsOf (fieldOf b 2 2) 0 10
  lastSeq := BitVec.ofNat 32 (fieldOf b 4 4)
  count := BitVec.ofNat 64 (fieldOf b 8 8)
  lastStep := BitVec.ofNat 64 (fieldOf b 0x10 8)
  newest := bitsOf (fieldOf b 0x18 1) 0 2
  rowsN := fieldOf b 0x20 4
  colsN := fieldOf b 0x24 4
  statePitch := fieldOf b 0x28 4
  orient := (fieldOf b 0x2C 1).testBit 0
  blockSide := (fun c => if c = 0 then 0 else 32 * 2 ^ c) (bitsOf (fieldOf b 0x2C 1) 1 2)
  epochBytes := fieldOf b 0x30 8
  master := fieldOf b 0x38 8
  mom1 := fieldOf b 0x40 8
  mom2 := fieldOf b 0x48 8
  aux1 := fieldOf b 0x50 8
  aux2 := fieldOf b 0x58 8
  slots := [VSlot.parse (b.drop 0x60), VSlot.parse (b.drop 0x80), VSlot.parse (b.drop 0xA0)]
  seed := BitVec.ofNat 64 (fieldOf b 0xC0 8)
  storedFmt := bitsOf (fieldOf b 0xC8 1) 0 4
  gov := (fieldOf b 0xC8 1).testBit 4
  layer := bitsOf (fieldOf b 0xCA 2) 0 12
  resv := bitsOf (fieldOf b 0 1) 3 5 != 0 || bitsOf (fieldOf b 1 1) 2 6 != 0 ||
    bitsOf (fieldOf b 2 2) 10 6 != 0 || bitsOf (fieldOf b 0x18 8) 2 62 != 0 ||
    bitsOf (fieldOf b 0x2C 4) 3 29 != 0 || bitsOf (fieldOf b 0xC8 2) 5 11 != 0 ||
    bitsOf (fieldOf b 0xCA 2) 12 4 != 0 || (b.drop 0xCC).any (fun x => x != 0) ||
    ([VSlot.parse (b.drop 0x60), VSlot.parse (b.drop 0x80), VSlot.parse (b.drop 0xA0)]).any
      (fun v => v.resv)

/-- A gradient pair buffer's header (R127). -/
structure GHead where
  epoch : Bool
  cleared : Bool
  lastSeq : W32
  lastCtx : Nat
  applied : W64
  epochBytes : Nat
  deriving DecidableEq, Repr

/-- The header in 64 bytes. -/
def GHead.parse (b : Bytes) : GHead where
  epoch := (fieldOf b 0 1).testBit 0
  cleared := (fieldOf b 0 1).testBit 1
  lastSeq := BitVec.ofNat 32 (fieldOf b 4 4)
  lastCtx := bitsOf (fieldOf b 8 2) 0 10
  applied := BitVec.ofNat 64 (fieldOf b 0x10 8)
  epochBytes := fieldOf b 0x18 8

/-- The engine's bytes 0x00-0x17 of a header. -/
def GHead.bytes (h : GHead) : Bytes :=
  leBytes 4 (h.epoch.toNat + 2 * h.cleared.toNat) ++ leBytes 4 h.lastSeq.toNat ++ leBytes 8 h.lastCtx ++
  leBytes 8 h.applied.toNat

/-- What R158 says of a parameter descriptor whatever the command. DESIGN CHOICE (log 94): an EPOCH_BYTES that is no
multiple of 64 is OUT_OF_BOUNDS, as one that is too small; R157 asks for the multiple and R158 lists no status for it. -/
def PDesc.issues (p : PDesc) : List Status :=
  let held := p.slots.filter (fun v => v.state == 1)
  need (!p.resv && decide (p.rowsN ≠ 0) && decide (p.colsN ≠ 0) && decide (p.storedFmt ≤ 0xA) &&
    held.all (fun v => decide (v.fmt ≤ 0xA))) ++
  (if p.epochBytes < p.rowsN * p.statePitch ∨ p.statePitch % 64 ≠ 0 ∨ p.epochBytes % 64 ≠ 0 ∨
      p.slots.any (fun v => v.state == 3 || v.pitch % 64 != 0) = true ∨
      held.any (fun v => match formatOf v.fmt with
        | some f => decide (v.pitch < rowBytes f p.colsN)
        | none => false) = true
    then [Status.outOfBounds] else [])

/-- Row extents of an epoch (R127). -/
def TDesc.epochRows (d : TDesc) (h : GHead) (epoch : Nat) : List (Nat × Nat) :=
  (List.range d.rows).map (fun i => (d.base + 64 + epoch * h.epochBytes + i * d.pitch, 8 * d.cols))

/-- The slot that holds a version (R176). -/
def PDesc.holds (p : PDesc) (v : W64) : Option VSlot := p.slots.find? (fun x => x.state == 1 && x.version == v)

/-- A held slot as the descriptor of the stored copy in it (R137, R251). -/
def PDesc.slotDesc (p : PDesc) (v : VSlot) : TDesc :=
  { TDesc.parse [] with
    base := v.base, rows := p.rowsN, cols := p.colsN, pitch := v.pitch, fmt := v.fmt, orient := p.orient }

/-! ## What a packet names -/

/-- What a named structure is to its command. -/
inductive Slot where
  | input | held | output | other
  deriving DecidableEq, Repr

/-- A structure that a body names: its kind (0 tensor descriptor, 1 gradient pair buffer, 2 parameter
descriptor, 3 other, R388), its use, its virtual address and its length. -/
structure Named where
  kind : Nat
  slot : Slot
  addr : Nat
  len : Nat
  deriving DecidableEq, Repr

/-- A tensor descriptor, unless its address is 0. -/
def namedDesc (slot : Slot) (a : Nat) : List Named := if a = 0 then [] else [Named.mk 0 slot a 64]
/-- A parameter descriptor, unless its address is 0. -/
def namedParam (a : Nat) : List Named := if a = 0 then [] else [Named.mk 2 .other a 256]
/-- Bytes, unless their address or length is 0. -/
def namedRaw (a n : Nat) : List Named := if a = 0 ∨ n = 0 then [] else [Named.mk 3 .other a n]
/-- A gradient pair buffer by its header's address. -/
def namedBuffer (a : Nat) : List Named := if a = 0 then [] else [Named.mk 1 .other a 64]

/-- The eight addresses of an operand block (R250, R255), none where it cannot be read. -/
def State.blockOf (s : State) (ctx addr : Nat) : Option (List Nat) :=
  match s.readStruct ctx addr 64 64 with
  | .error _ => none
  | .ok b => some ((List.range 8).map (fun i => fieldOf b (8 * i) 8))

/-- W_KIND of a matrix packet (R251). -/
def Entry.wKind (e : Entry) : Bool := (e.field 0x24 1).testBit 0
/-- The version under which a command names its held operand (R176), 0 where it names a tensor. -/
def Entry.version (e : Entry) : W64 :=
  if e.op == some .normBwd || e.wKind then BitVec.ofNat 64 (e.field 0x18 8) else 0
/-- RETAIN of a matrix packet. -/
def Entry.wRetain (e : Entry) : Bool := (e.field 0x24 1).testBit 1
/-- RELEASE of a matrix packet. -/
def Entry.wRelease (e : Entry) : Bool := (e.field 0x24 1).testBit 2

/-- Whether an opcode names a matrix operand block (R251). -/
def Op.isMatrix : Op → Bool
  | .mmFwd | .mmDx | .mmDw | .mmConvFwd | .mmConvDx | .mmConvDw | .mmDist | .mmSafe | .softmaxBwd => true
  | _ => false

/-- Whether an opcode is a convolution. -/
def Op.isConv : Op → Bool
  | .mmConvFwd | .mmConvDx | .mmConvDw => true
  | _ => false

/-- Rows of a descriptor at an address, 0 where it cannot be read. -/
def State.rowsAt (s : State) (ctx addr : Nat) : Nat :=
  match s.readStruct ctx addr 64 64 with
  | .error _ => 0
  | .ok b => (TDesc.parse b).rows

/-- The state with the structures of an entry as they were read when it dispatched (R234). -/
def State.asRead (s : State) (e : Entry) : State :=
  e.snap.foldl (fun t x => match s.resolve e.ctx x.1 x.2.length false with
    | .ok rs => (splitRuns rs x.2).foldl (fun t w => t.poke w.1 w.2) t
    | .error _ => t) s

/-- The structures that an entry's packet names, as memory holds them now. -/
def State.namedNow (s : State) (e : Entry) : List Named :=
  let f := fun o => e.field o 8
  match e.op with
  | none => []
  | some op =>
    if op.isMatrix then
      Named.mk 3 .other (f 0x10) 64 ::
      (match s.blockOf e.ctx (f 0x10) with
        | some [a, b, w, out, sc, fold, mask, aux] =>
          namedDesc .input a ++ namedDesc .input b ++
          (if e.wKind then namedParam w else namedDesc .held w) ++ namedDesc .output out ++
          namedDesc .input sc ++ namedDesc .other fold ++ namedDesc .input mask ++
          (if op.isConv then namedRaw aux 32 else namedDesc .input aux)
        | _ => [])
    else
    match op with
    | .copy => namedRaw (f 0x10) (f 0x20) ++ namedRaw (f 0x18) (f 0x20)
    | .pocketWrite | .pocketRead =>
      namedRaw (f 0x10) (e.field 0x20 2 % 512) ++ namedRaw (f 0x18) (e.field 0x20 2 % 512)
    | .streamDefine => namedRaw (f 0x18) 64 ++
      (match s.readStruct e.ctx (f 0x18) 64 1 with
        | .ok h => namedRaw (f 0x18 + 64) (32 * min 1048576 (fieldOf h 0 4))
        | .error _ => [])
    | .gather =>
      let grad := (e.field 0x30 1).testBit 0
      namedDesc (if grad then .other else .held) (f 0x10) ++ namedRaw (f 0x18) (4 * s.rowsAt e.ctx (f 0x20)) ++
      namedDesc (if grad then .input else .output) (f 0x20) ++ namedRaw (f 0x28) 1
    | .scatter =>
      namedDesc .output (f 0x10) ++ namedRaw (f 0x18) (4 * s.rowsAt e.ctx (f 0x20)) ++
      namedDesc .input (f 0x20)
    | .vecOp =>
      let o := e.field 0x10 1
      namedDesc .input (f 0x18) ++ namedDesc .input (f 0x20) ++
      (if o = 12 then namedRaw (f 0x28) 8 else if o = 13 then namedRaw (f 0x28) 32
        else namedDesc .input (f 0x28)) ++ namedDesc .output (f 0x30)
    | .normBwd =>
      Named.mk 3 .other (f 0x10) 64 ::
      (match s.blockOf e.ctx (f 0x10) with
        | some [x, st, ga, dy, w, dx, dg, db] =>
          namedDesc .input x ++ namedRaw st 8 ++ namedDesc .input ga ++ namedDesc .input dy ++
          namedParam w ++ namedDesc .output dx ++ namedDesc .other dg ++ namedDesc .other db
        | _ => []) ++ namedDesc .other (f 0x20) ++ namedDesc .other (f 0x30)
    | .maskPack =>
      namedDesc .input (f 0x10) ++ namedDesc .output (f 0x18) ++ namedDesc .other (f 0x20) ++
      namedRaw (f 0x28) 32
    | .tieSum =>
      let u := e.field 0x20 1 % 32
      namedDesc .other (f 0x10) ++ namedRaw (f 0x18) (8 * u) ++
      (match s.resolve e.ctx (f 0x18) (8 * u) false with
        | .ok rs => (chunk 8 u (s.readRuns rs)).flatMap (namedDesc .other)
        | .error _ => [])
    | .update => namedParam (f 0x10) ++ namedRaw (f 0x18) 64 ++ namedDesc .other (f 0x20)
    | .updateRows =>
      namedParam (f 0x10) ++ namedRaw (f 0x18) 64 ++ namedDesc .other (f 0x20) ++ namedRaw (f 0x28) 1
    | .precondFactor | .versionRelease => namedParam (f 0x10)
    | .ryRoundOpen => namedRaw (f 0x10) 128 ++
      (match s.readStruct e.ctx (f 0x10) 128 1 with
        | .ok d => namedRaw (fieldOf d 0x40 8) (64 * bitsOf (fieldOf d 0x0A 2) 0 12)
        | .error _ => [])
    | .ryParamSend | .ryParamRecv => namedRaw (f 0x10) 128
    | .govRead => namedRaw (f 0x18) 704
    | .govStep => if (e.field 0x10 1).testBit 0 then namedRaw (f 0x18) 7862400 else []
    | .schedLoad => namedRaw (f 0x18) (f 0x20)
    | .queryCaps => namedRaw (f 0x10) (e.field 0x18 4)
    | .contextOpen => namedRaw (f 0x18) 128
    | .receiptIssue => namedRaw (f 0x18) (e.field 0x20 4)
    | .sealImport => namedRaw (f 0x10) 320
    | .attest => namedRaw (f 0x10) 1
    | .roleSession => namedRaw (f 0x18) 128
    | .profileLoad | .fwStage => namedRaw (f 0x10) (e.field 0x18 4)
    | .counterSnap => namedRaw (f 0x10) (e.field 0x18 4)
    | .traceCtl => if (e.field 0x10 1).testBit 2 then namedRaw (f 0x18) (f 0x20) else []
    | .chain => namedRaw (f 0x18) (f 0x20)
    | _ => []

/-- The structures that an entry's packet names (R387), as they were read when it dispatched (R234). -/
def State.named (s : State) (e : Entry) : List Named := (s.asRead e).namedNow e

/-- Whether an opcode's raw extents are structures (R234), and no data. -/
def Op.readsRaw : Op → Bool
  | .copy | .pocketWrite | .pocketRead | .govRead | .govStep | .queryCaps | .receiptIssue | .counterSnap | .traceCtl
  | .chain => false
  | _ => true

/-- The structures that an entry's body names, as memory holds them (R234): descriptors, operand blocks, lists and
geometry blocks. Parameter descriptors and buffers are state that commands commit, and are read in their order. -/
def State.snapOf (s : State) (e : Entry) : List (Nat × Bytes) :=
  (s.namedNow e).filterMap (fun n =>
    if n.kind = 0 ∨ (n.kind = 3 ∧ (match e.op with | some op => op.readsRaw | none => false) = true ∧
        (8 < n.len ∨ (1 < n.len ∧ (e.op = some .gather ∨ e.op = some .scatter ∨ e.op = some .tieSum)))) then
      match s.readStruct e.ctx n.addr n.len 1 with
      | .ok b => some (n.addr, b)
      | .error _ => none
    else none)

/-- The tensor descriptors that an entry names, with their use. -/
def State.descs (s : State) (e : Entry) : List (Slot × TDesc) :=
  let s := s.asRead e
  (s.named e).filterMap (fun n =>
    if n.kind = 0 then
      match s.readStruct e.ctx n.addr 64 64 with
      | .ok b => some (n.slot, TDesc.parse b)
      | .error _ => none
    else none)

/-- Whether a command names a non-zero LAYER, in a descriptor or in its body (R143). -/
def State.namesLayer (s : State) (e : Entry) : Bool :=
  ((e.op == some .govBounds || e.op == some .govRead) && bitsOf (e.field 0x10 2) 0 12 != 0) ||
  (s.descs e).any (fun d => d.2.layer != 0) ||
  (s.named e).any (fun n =>
    n.kind == 2 &&
    (match s.readStruct e.ctx n.addr 256 64 with
      | .ok b => (PDesc.parse b).layer != 0
      | .error _ => false))

/-- Whether a command resolves a governed format (R136). -/
def State.resolvesFormat (s : State) (e : Entry) : Bool :=
  (s.descs e).any (fun d => d.2.gov) ||
  ((e.op == some .update || e.op == some .updateRows) && (s.named e).any (fun n =>
    n.kind == 2 &&
    (match s.readStruct e.ctx n.addr 256 64 with
      | .ok b => (PDesc.parse b).gov
      | .error _ => false)))

/-- The version that a reading command names (R176): the physical address of the parameter descriptor. -/
def State.versionRefs (s : State) (e : Entry) : List VRef :=
  let at_ := fun (w : Nat) (v : Nat) =>
    match s.resolve e.ctx w 256 false with
    | .ok ((pa, _) :: _) => [VRef.mk e.ctx pa (BitVec.ofNat 64 v)]
    | _ => []
  let s := s.asRead e
  match e.op with
  | some .normBwd =>
    if (e.field 0x28 1).testBit 1 then
      match s.blockOf e.ctx (e.field 0x10 8) with
      | some (_ :: _ :: _ :: _ :: w :: _) => at_ w (e.field 0x18 8)
      | _ => []
    else []
  | some op =>
    if op.isMatrix && e.wKind then
      match s.blockOf e.ctx (e.field 0x10 8) with
      | some (_ :: _ :: w :: _) => if w = 0 then [] else at_ w (e.field 0x18 8)
      | _ => []
    else []
  | none => []

/-- Opcodes whose work runs on arrays or vector units. -/
def Op.isCoreWork : Op → Bool
  | .mmFwd | .mmDx | .mmDw | .mmConvFwd | .mmConvDx | .mmConvDw | .mmDist | .mmSafe | .vecOp
  | .softmaxBwd | .normBwd | .maskPack | .tieSum | .update | .updateRows | .precondFactor
  | .gather | .scatter => true
  | _ => false

/-- Opcodes that take queues on cores. -/
def Op.usesQueues (op : Op) : Bool := op.isCoreWork || op == .prefetch || op == .multicast

/-- Queues that a command needs on a core (R271, R273, R285, R289): one per tensor that it names, all 16 at most,
and one for a window. -/
def State.queueNeed (s : State) (e : Entry) : Nat :=
  match e.op with
  | some .prefetch => if (e.field 0x12 1).testBit 0 then 1 else 0
  | some .multicast => 1
  | _ => min 16 ((s.named e).filter (fun n => n.kind == 0 || n.kind == 2)).length

/-- The cores that a MULTICAST names. -/
def Entry.receivers (e : Entry) : BitVec 128 := BitVec.ofNat 128 (e.field 0x18 16)

/-- The stream of a STREAM_DEFINE, a PREFETCH or a MULTICAST. -/
def Entry.streamNo (e : Entry) : Nat := e.field 0x10 2

/-- An active stream of a context. -/
def Ctx.stream? (c : Ctx) (num : Nat) : Option Stream := c.streams.find? (fun x => x.num == num)

/-- Active streams of a context on a sleeve. -/
def Ctx.streamsOn (c : Ctx) (k : Nat) : Nat := (c.streams.filter (fun x => x.active.getLsbD k)).length

/-- Active stream descriptors of a sleeve, of every context (R23, R246, R278). -/
def State.streamsOn (s : State) (k : Nat) : Nat := (s.ctxs.map (fun c => c.2.streamsOn k)).foldl (· + ·) 0

/-- SPLIT (R95, R251): 0 selects 1. -/
def Entry.split (e : Entry) : Nat := if e.field 0x20 1 = 0 then 1 else e.field 0x20 1

/-- Whether a command runs as the slices of a product (R95). -/
def Entry.sliced (e : Entry) : Bool :=
  match e.op with
  | some op => op.isMatrix && op != .softmaxBwd && op != .mmSafe
  | none => false

/-- The core of each slice of a product (R97, R367): the cores of the placement in ascending order, several slices in turn
on one where there are fewer; once a core has been replaced, those that the slices have then, the replacement of R367 for
one that has retired since. DESIGN CHOICE (log 94): where
there are fewer cores than slices, slice j runs on core j modulo their number; R97 says only that several run in turn. -/
def State.shareCores (s : State) (e : Entry) : List Nat :=
  let cores := s.usable e.ctx
  if !e.sliced then cores
  else if e.shares.isEmpty then (List.range e.split).map (fun j => cores.getD (j % max 1 cores.length) 0)
  else e.shares.map (fun c => if s.corePresent c then c
    else (cores.filter (fun x => !e.shares.contains x) ++ cores).headD c)

/-- The core that runs slice 0 of a command, whose output stage writes its results (R97). -/
def State.firstCore (s : State) (e : Entry) : Nat := (s.shareCores e).headD 0

/-- The cores on which a command takes queues (R272): those of the slices of a product (R97), those of its placement for
vector work, the home cores of a LEVEL 1 PREFETCH, the receivers of a MULTICAST, the target core of an MM_SAFE (R79). No
other core is stalled by it (R25). -/
def State.queueCores (s : State) (e : Entry) : List Nat :=
  match e.op with
  | some .prefetch =>
    match (s.ctx e.ctx).stream? e.streamNo with
    | some x => (coreList x.home).filter s.coreReady
    | none => []
  | some .multicast => (coreList e.receivers).filter s.coreReady
  | some .mmSafe => [e.field 0x27 1 % 128].filter s.coreReady
  | _ => ((s.shareCores e).filter s.coreReady).eraseDups

end Sys2Proof.Machine
end

