-- ==== Sys2Proof/Machine/Ledger.lean ====
section
/-!
DEFINITION. Sys2Proof/Machine/Ledger.lean: what the governor shares with completion and dispatch: merging
statistics records (R142, R145), the format ledger (R155) and the changes that wait for a schedule epoch
(R154, R334).
-/
namespace Sys2Proof.Machine

/-! ## Merging (R142, R145) -/

/-- The order of the governor region: (LAYER, ROLE). -/
def lrKey (layer role : Nat) : Nat := 3 * layer + role

/-- Add one record to another: counts as 64-bit integers, sums in binary64 (R142). -/
def StatRec.merge (a b : StatRec) : StatRec :=
  let w := fun x y => (x + y) % 2 ^ 64
  { a with
    n := w a.n b.n, nSat := w a.nSat b.nSat, nUnd := w a.nUnd b.nUnd, nZero := w a.nZero b.nZero
    nSpecial := w a.nSpecial b.nSpecial, nSampled := w a.nSampled b.nSampled
    eNum := BitVec.ofNat 64 (add64 a.eNum.toNat b.eNum.toNat)
    eDen := BitVec.ofNat 64 (add64 a.eDen.toNat b.eDen.toNat)
    hist := List.zipWith w a.hist b.hist
    sealedBy := a.sealedBy || b.sealedBy }

/-- Merge a record into an area that is sorted by (LAYER, ROLE). -/
def mergeRec : List StatRec → StatRec → List StatRec
  | [], r => [r]
  | a :: as, r =>
    if lrKey a.layer a.role = lrKey r.layer r.role then a.merge r :: as
    else if lrKey r.layer r.role < lrKey a.layer a.role then r :: a :: as
    else a :: mergeRec as r

/-- Records of a command in (LAYER, ROLE) order, one for each (R140). -/
def joinRecs (rs : List StatRec) : List StatRec := rs.foldl mergeRec []

/-- Add a command's records to those that wait, in order of acceptance. -/
def addWaiting (w : PendRec) : List PendRec → List PendRec
  | [] => [w]
  | x :: xs => if w.id < x.id then w :: x :: xs else x :: addWaiting w xs

/-! ## The governor region (R144, R145) -/

/-- The 640 bytes of a statistics record (R140). -/
def StatRec.bytes (x : StatRec) : Bytes :=
  [x.n, x.nSat, x.nUnd, x.nZero, x.nSpecial, x.eNum.toNat, x.eDen.toNat, x.nSampled].flatMap (leBytes 8) ++
  zeroBytes 64 ++ x.hist.flatMap (leBytes 8)

/-- The fields that follow it in a state entry and in what GOV_READ writes (R263). -/
def govTail (l : Option Ladder) (sealedBy : Bool) (step : W64) : Bytes :=
  match l with
  | none => leBytes 1 0 ++ leBytes 1 (32 * sealedBy.toNat) ++ zeroBytes 14 ++ leBytes 8 step.toNat ++ zeroBytes 40
  | some l =>
    let pend := match l.pending with
      | none => 0
      | some t => if l.rung < t then 1 else 2
    leBytes 1 (l.rung + 8 * l.advised + 64 * l.mode) ++
    leBytes 1 (l.rungs.length + 8 * pend + 32 * sealedBy.toNat) ++ zeroBytes 2 ++
    leBytes 4 (joinBits 4 l.rungs) ++ leBytes 1 l.q ++ leBytes 1 l.need ++ zeroBytes 6 ++
    leBytes 8 step.toNat ++ zeroBytes 40

/-- The 64 bytes in which the header's fields lie (R145): bit 0 is the committed epoch; the places of the others are
open. -/
def govHeader (epoch empty : Bool) (step : W64) (merged gov : W32) : Bytes :=
  (List.range 64).map (fun i =>
    let b := Config.govByte [0, step.toNat, merged.toNat, gov.toNat, empty.toNat] i
    if i = 0 then (b &&& 0xFE#8) ||| (if epoch then 1#8 else 0#8) else b)

/-- The last 64 bytes of a state entry (R145): thresholds and H, q and need of the advised rung, and the pending
change, in places that are open. -/
def govTailOpen (l : Option Ladder) : Bytes :=
  match l with
  | none => zeroBytes 64
  | some l => (List.range 64).map (Config.govByte
      [1, l.tSat, l.tUnd, l.tErr, l.h, l.q, l.need, match l.pending with | none => 0 | some t => t + 1])

/-- The tag of a pending slot (R145): SEQ, LAYER and ROLE, in places that are open. -/
def pendTag (seq : W32) (r : StatRec) : Bytes := (List.range 64).map (Config.govByte [2, seq.toNat, r.layer, r.role])

/-- Index of a (layer, role) in a state epoch and in the step area (R145). -/
def govIndex (layer role : Nat) : Nat := (layer - 1) * 3 + role

/-- Offsets of the parts of the governor region (R145): a state epoch, the step area, the pending area. -/
def govEpochAt (epoch : Bool) : Nat := 0x10000 + (if epoch then 0x900000 else 0)
/-- Offset of the step area (R145). -/
def govAreaAt : Nat := 0x1210000
/-- Offset of the pending area (R145). -/
def govPendAt : Nat := 0x1990000

/-- The physical runs of an extent of a recorded region that crosses one page boundary at most. -/
def Region.runs (r : Region) (i n : Nat) : List Run :=
  let k := 65536 - (r.offset + i) % 65536
  if n ≤ k then [(r.addr i, n)] else [(r.addr i, k), (r.addr (i + k), n - k)]

/-- Write bytes into a recorded region; copies of the lines written go (R284, R311). -/
def State.putRegion (s : State) (r : Region) (i : Nat) (bs : Bytes) : State :=
  let rs := r.runs i bs.length
  (((splitRuns rs bs).foldl (fun t w => t.put w.1 w.2) s).dropCopies rs).l2Invalidate rs

/-- Write zeros over whole pages of a recorded region. -/
def State.zeroRegion (s : State) (r : Region) (i pages : Nat) : State :=
  let rs := (List.range pages).map (fun k => (r.addr (i + 65536 * k), 65536))
  ((({ s with mem := rs.foldl (fun m x => memZero m x.1 x.2) s.mem } : State).dropCopies rs).l2Invalidate rs)

/-- The commit items that write bytes into a recorded region (R380). -/
def Region.items (r : Region) (i : Nat) (bs : Bytes) : List CommitItem :=
  (splitRuns (r.runs i bs.length) bs).map (fun w => .write w.1 w.2)

/-- Commit a change of the governor's state (R144, R145, R380): the record, then its items; copies of the lines written
go. -/
def State.govCommit (s : State) (ctx : Nat) (seq : W32) (journalled : Bool) (items : List CommitItem) : State :=
  let rs := items.map (fun i => match i with
    | .write a bs => (a, bs.length)
    | .copy a _ n => (a, n))
  ((((s.writeCommit ctx seq journalled items).applyItems items).dropCopies rs).l2Invalidate rs)

/-- The first of the statuses that the pages of a recorded region meet (R298). -/
def State.regionStops (s : State) (r : Option Region) : List Status :=
  match r with
  | none => []
  | some g => if g.lost then [] else (g.pages.filterMap (fun p => s.physIssue (65536 * p) 65536)).eraseDups

/-- Whether nothing before an entry is still to join the merge of its step (R143, R145): every earlier command of
the context that names a non-zero LAYER has completed, and every earlier GOV_STEP has committed. -/
def State.layersDone (s : State) (ctx id : Nat) : Bool :=
  (s.entriesOf ctx).all (fun e => decide (id ≤ e.id) || !e.live || e.state == .completing ||
    (if e.op == some .govStep then e.decided else !s.namesLayer e))

/-- The governor step that an entry belongs to (R143): GOV_STEPs before it that have not committed yet count. -/
def State.stepOf (s : State) (e : Entry) : W64 :=
  (s.ctx e.ctx).step + BitVec.ofNat 64 ((s.entriesOf e.ctx).filter (fun x =>
    decide (x.id < e.id) && x.live && !x.decided && x.op == some .govStep)).length

/-- Slots of the pending area (R145). -/
def pendingSlots : Nat := 9588

/-- The slots of the pending area in use. -/
def Ctx.pendUsed (c : Ctx) : List Nat := c.waiting.flatMap (fun w => w.slots)

/-- The items of the commit that merges records into the step area `area` (R145): their entries, and the header. -/
def Ctx.mergeItems (c : Ctx) (g : Region) (area : List StatRec) (recs : List StatRec) (seq : W32) : List CommitItem :=
  (area.filter (fun a => recs.any (fun r => r.layer == a.layer && r.role == a.role))).flatMap
    (fun a => g.items (govAreaAt + 640 * govIndex a.layer a.role) a.bytes) ++
  g.items 0 (govHeader c.govEpoch false c.step seq c.govSeq)

/-- Whether the journal has room for the commit of a merge (R145, R378). -/
def State.mergeRoom (s : State) (ctx : Nat) (journalled : Bool) (recs : List StatRec) (seq : W32) : Bool :=
  let c := s.ctx ctx
  match c.gov with
  | none => true
  | some g => g.lost || !journalled || s.journalRoom (commitLines (c.mergeItems g (recs.foldl mergeRec c.area) recs seq))

/-- Merge one command's records into the step area (R142, R145): an area that was empty reads as zero first; the entries
and the header commit together. A lost region takes no bytes (R473). -/
def State.mergeOne (s : State) (ctx : Nat) (w : PendRec) : State :=
  let c := s.ctx ctx
  let area := w.recs.foldl mergeRec c.area
  let s := match c.gov with
    | some g => if g.lost then s else
      (if c.area.isEmpty then s.zeroRegion g govAreaAt 120 else s).govCommit ctx w.seq w.journalled
        (c.mergeItems g area w.recs w.seq)
    | none => s
  s.setCtx ctx { s.ctx ctx with area := area, mergedSeq := w.seq, waiting := c.waiting.filter (fun x => x.id != w.id) }

/-- Merge the waiting records, in order of acceptance, as far as nothing before an entry is still to come and the
journal takes their commits (R145). -/
def State.mergeAux (ctx : Nat) : List PendRec → State → State
  | [], s => s
  | w :: ws, s =>
    if s.layersDone ctx w.id && s.mergeRoom ctx w.journalled w.recs w.seq then State.mergeAux ctx ws (s.mergeOne ctx w)
    else s

/-- Merge what can be merged in a context. -/
def State.mergeStats (s : State) (ctx : Nat) : State := State.mergeAux ctx (s.ctx ctx).waiting s

/-- Whether a completing command's records are the next to merge, and the journal takes their commit (R145). -/
def State.mergesNow (s : State) (e : Entry) : Bool :=
  s.layersDone e.ctx e.id && (s.ctx e.ctx).waiting.all (fun w => decide (e.id < w.id)) &&
  s.mergeRoom e.ctx e.journalled (joinRecs e.stats) e.seq

/-- Whether the records of a completing command can be merged or kept (R145): the governor region can be reached, and
they are the next to merge or find slots in the pending area. -/
def State.statsRoom (s : State) (e : Entry) : Bool :=
  e.stats.isEmpty || ((s.regionStops (s.ctx e.ctx).gov).isEmpty &&
    (s.mergesNow e || decide ((s.ctx e.ctx).pendUsed.length + (joinRecs e.stats).length ≤ pendingSlots)))

/-- Put records into slots of the pending area (R145). -/
def State.putPending (s : State) (g : Region) (seq : W32) : List Nat → List StatRec → State
  | k :: ks, r :: rs => State.putPending (s.putRegion g (govPendAt + 704 * k) (pendTag seq r ++ r.bytes)) g seq ks rs
  | _, _ => s

/-- Hand over the records of a completed command (R145): they merge at once, or take the lowest free slots of the
pending area and wait. -/
def State.giveStats (s : State) (e : Entry) : State :=
  if e.stats.isEmpty then s.mergeStats e.ctx else
  let recs := joinRecs e.stats
  if s.mergesNow e then (s.mergeOne e.ctx (PendRec.mk e.id e.seq e.journalled [] recs)).mergeStats e.ctx else
  let c := s.ctx e.ctx
  let used := c.pendUsed
  let slots := ((List.range (used.length + recs.length)).filter (fun k => !used.contains k)).take recs.length
  let s := match c.gov with
    | some g => if g.lost then s else s.putPending g e.seq slots recs
    | none => s
  (s.setCtx e.ctx { s.ctx e.ctx with waiting := addWaiting (PendRec.mk e.id e.seq e.journalled slots recs) c.waiting }).mergeStats e.ctx

/-- The ladder of a (layer, role) replaced or added, in order. -/
def setLadder : List Ladder → Ladder → List Ladder
  | [], l => [l]
  | a :: as, l =>
    if lrKey a.layer a.role = lrKey l.layer l.role then l :: as
    else if lrKey l.layer l.role < lrKey a.layer a.role then l :: a :: as
    else a :: setLadder as l

/-! ## The format ledger (R155) -/

/-- Event codes of R155. -/
inductive GovEvent where
  | none | narrowed | widened | atWidest | advisedNarrow | advisedWiden
  | pendingNarrow | pendingWiden | pendingCancelled | applied | bounds
  deriving DecidableEq, Repr

/-- The code of an event. -/
def GovEvent.code : GovEvent → Nat
  | .none => 0 | .narrowed => 1 | .widened => 2 | .atWidest => 3 | .advisedNarrow => 4
  | .advisedWiden => 5 | .pendingNarrow => 6 | .pendingWiden => 7 | .pendingCancelled => 8
  | .applied => 9 | .bounds => 10

/-- A ledger record (R155). -/
structure LedgerRec where
  step : W64
  layer : Nat
  role : Nat
  mode : Nat
  event : GovEvent
  merged : Bool
  sealedBy : Bool
  used : Nat
  next : Nat
  advised : Nat
  q : Nat
  need : Nat
  n : Nat
  nSat : Nat
  nUnd : Nat
  rEst : W64
  seq : W32
  deriving DecidableEq, Repr

/-- Its 64 bytes; counts and the estimate read as 0 for a sealed role (R156). -/
def LedgerRec.bytes (r : LedgerRec) : Bytes :=
  let c := fun v => if r.sealedBy then 0 else v
  leBytes 8 r.step.toNat ++ leBytes 2 (r.layer + 4096 * r.role + 16384 * r.mode) ++ leBytes 1 r.event.code ++
  leBytes 1 (r.merged.toNat + 2 * r.sealedBy.toNat) ++
  leBytes 4 (r.used + 16 * r.next + 256 * r.advised + 4096 * r.q + 524288 * r.need) ++
  leBytes 8 (c r.n) ++ leBytes 8 (c r.nSat) ++ leBytes 8 (c r.nUnd) ++ leBytes 8 (c r.rEst.toNat) ++
  leBytes 4 r.seq.toNat ++ leBytes 12 0

/-- Records that a ledger can hold (R242). -/
def Ctx.ledgerCapacity (c : Ctx) : Nat := (c.ledgerBytes - 64) / 64

/-- Records that the ledger has room for (R155). -/
def State.ledgerRoom (s : State) (ctx : Nat) : Nat :=
  let c := s.ctx ctx
  match c.ledger with
  | none => 0
  | some r =>
    let tail := leNat (s.readRegion r 0x10 8)
    let d := (c.ledgerHead + 2 ^ 64 - tail) % 2 ^ 64
    c.ledgerCapacity - d

/-- Write one ledger record behind HEAD, which stays (R155). -/
def State.ledgerLine (s : State) (ctx h : Nat) (r : LedgerRec) : State :=
  let c := s.ctx ctx
  match c.ledger with
  | none => s
  | some g => s.putRegion g (64 + 64 * (h % max 1 c.ledgerCapacity)) r.bytes

/-- The trace record of a ledger record (R450). -/
def State.ledgerTrace (s : State) (ctx : Nat) (r : LedgerRec) : State :=
  if r.event != .none then
    s.traceRec 17 .collar ctx r.seq (r.layer + 4096 * r.role + 65536 * r.event.code + 2 ^ 24 * r.next)
  else s

/-- Write one ledger record and advance HEAD (R155): at an epoch, or at a GOV_BOUNDS's own completion. -/
def State.ledgerPut (s : State) (ctx : Nat) (r : LedgerRec) (traced : Bool) : State :=
  let c := s.ctx ctx
  match c.ledger with
  | none => s
  | some g =>
    let h := c.ledgerHead
    let s := (s.ledgerLine ctx h r).putRegion g 8 (leBytes 8 (h + 1))
    let s := s.setCtx ctx { s.ctx ctx with ledgerHead := (h + 1) % 2 ^ 64 }
    if traced then s.ledgerTrace ctx r else s

/-- The format code of a rung. -/
def Ladder.code (l : Ladder) (rung : Nat) : Nat := l.rungs.getD rung 0

/-! ## Changes that wait for an epoch (R154, R334) -/

/-- The record of a pending change that applies: its STEP is the current step, and the GOV_STEP that
decided it is the last one (DEDUCED, log 95). -/
def Ladder.appliedRec (l : Ladder) (c : Ctx) (to_ : Nat) (sealedBy : Bool) : LedgerRec :=
  LedgerRec.mk c.step l.layer l.role l.mode .applied false sealedBy (l.code l.rung) (l.code to_) (l.code to_)
    0 l.need 0 0 0 0 c.govSeq

/-- Pending changes of a context. -/
def Ctx.pendings (c : Ctx) : List (Ladder × Nat) :=
  c.ladders.filterMap (fun l => l.pending.map (fun t => (l, t)))

/-- Whether the last merged record of a (layer, role) is sealed. FLAGS bit 1 of an APPLIED record, and of a BOUNDS record
at its own completion, is taken from it: R156 does not say whether their STEP, which has not closed, decides (DESIGN
CHOICE, log 95). -/
def Ctx.sealedRole (c : Ctx) (layer role : Nat) : Bool :=
  c.lastRecs.any (fun r => r.layer == layer && r.role == role && r.sealedBy)

/-- The lowest number of an uncompleted entry of a context, or the next number. -/
def State.oldest (s : State) (ctx : Nat) : Nat :=
  (((s.entriesOf ctx).filter Entry.live).map Entry.id).foldl min s.journal.nextId

/-- Apply every pending change of a context to the commands from entry number `from_` on, an APPLIED record
for each (R154, R334). -/
def State.applyPending (s : State) (ctx from_ : Nat) : State :=
  (s.ctx ctx).pendings.foldl (fun t x =>
    let c := t.ctx ctx
    let l := x.1
    let t := t.ledgerPut ctx (l.appliedRec c x.2 (c.sealedRole l.layer l.role)) true
    let c := t.ctx ctx
    let kept := l.past.filter (fun p => decide (t.oldest ctx < p.1))
    t.setCtx ctx { c with
      ladders := setLadder c.ladders { l with
        rung := x.2, advised := x.2, q := 0, pending := none, past := kept ++ [(from_, l.rung)] } }) s

/-- The rung of a ladder for an entry number: epoch changes count from their entry on (R334). -/
def Ladder.rungFor (l : Ladder) (id : Nat) : Nat :=
  match l.past.find? (fun p => decide (id < p.1)) with
  | some p => p.2
  | none => l.rung

/-- Whether the ledger can be reached and has room for the APPLIED records of an epoch. -/
def State.pendingRoom (s : State) (ctx : Nat) : Bool :=
  let n := (s.ctx ctx).pendings.length
  n == 0 || (decide (n ≤ s.ledgerRoom ctx) && (s.regionStops (s.ctx ctx).ledger).isEmpty)

end Sys2Proof.Machine
end

