-- ==== Sys2Proof/Machine/Traffic.lean ====
section
/-!
DEFINITION. Sys2Proof/Machine/Traffic.lean: how data reaches the cores (11, 12): the blocks, queues and Hem halves of a
core (R91, R271-R273, R283), the tensors that a command's queues read (R274, R280), lookups, fills and requests
(R305-R308, R311-R316). No value depends on any of it (R317).

DESIGN CHOICE (log 97): a command's queues offer their first requests when they are granted, and the rest of its traffic
passes when its work is done; each sleeve of the command reads each line once.
-/
namespace Sys2Proof.Machine

/-- Add to a counter where there is something to add. -/
def State.countIf (s : State) (c : Counter) (n : Nat) : State := if n = 0 then s else s.count c n

/-! ## Blocks of a core (R271-R273, R283, R292) -/

/-- Queues of a core that are not in use (R271): operand queues, windows and hand-over links each take one. -/
def CoreUnit.free (u : CoreUnit) : Nat :=
  16 - ((u.queues.map (fun q => q.n)).foldl (· + ·) (0 : Nat) + (u.promised.map (fun p => p.links)).foldl (· + ·) 0)

/-- Blocks of a core promised to chains (R292). -/
def CoreUnit.promisedBlocks (u : CoreUnit) : Nat := (u.promised.map (fun p => p.n)).foldl (· + ·) (0 : Nat)

/-- Staged blocks that queues of a core read: each is the queue's own meanwhile (R283). -/
def CoreUnit.owned (u : CoreUnit) : Nat := (u.stage.filter (fun b => b.owner.isSome)).length

/-- Shared blocks that the queues of a core have borrowed or taken from the stage (R273, R283). -/
def CoreUnit.borrowed (u : CoreUnit) : Nat := (u.queues.map (fun q => q.blocks)).foldl (· + ·) (0 : Nat) + u.owned

/-- Shared blocks of a core that are neither promised nor borrowed (R273). -/
def CoreUnit.spare (u : CoreUnit) (d : Die) : Nat := sharedBlocks d - (u.promisedBlocks + u.borrowed)

/-- Blocks that the stage of a core may hold (R271): the hand-over allowance is set apart from it, and one block is left
to it always (R286). -/
def CoreUnit.stageRoom (u : CoreUnit) (d : Die) : Nat := max 1 (min (sharedBlocks d - handAllowance d) (u.spare d))

/-- Shared blocks that the queues of a core may still borrow (R273): one is left to the stage (R286). -/
def CoreUnit.lendable (u : CoreUnit) (d : Die) : Nat := u.spare d - 1

/-- The block of a stage that no queue reads and that went longest without use. -/
def oldestStaged : List Staged → Option Staged
  | [] => none
  | b :: bs =>
    match oldestStaged bs with
    | none => if b.owner.isNone then some b else none
    | some c => if b.owner.isNone && decide (b.used ≤ c.used) then some b else some c

/-- Staged blocks that no queue reads. -/
def unowned (st : List Staged) : Nat := (st.filter (fun b => b.owner.isNone)).length

/-- Drop staged blocks, the longest unused first (R283). -/
def dropOldest : Nat → List Staged → List Staged
  | 0, st => st
  | n + 1, st =>
    match oldestStaged st with
    | none => st
    | some o => dropOldest n (st.filter (fun b => b != o))

/-- A core needs shared blocks: staged blocks make room (R283), each counted. -/
def State.fitStage (s : State) (c : Nat) : State :=
  let u := s.core c
  let kept := dropOldest (unowned u.stage - u.stageRoom s.die) u.stage
  (s.setCore c { u with stage := kept }).countIf (.stream c 3) (u.stage.length - kept.length)

/-- Move a block into a core's stage (R283): the block that went longest without use makes room, which always exists
(R286). -/
def State.stageBlock (s : State) (core ctx stream block : Nat) (rs : List Run) : State :=
  let u := s.core core
  let others := u.stage.filter (fun b => !(b.ctx == ctx && b.stream == stream && b.block == block))
  let kept := dropOldest (unowned others + 1 - u.stageRoom s.die) others
  let s := s.countIf (.stream core 3) (others.length - kept.length)
  { s.setCore core { s.core core with stage := kept ++ [Staged.mk ctx stream block rs s.stamps none] } with
    stamps := s.stamps + 1 }

/-- A chain's promise leaves fewer shared blocks: queues run on what is left (R273), the stage makes room. -/
def State.shrink (s : State) (c : Nat) : State :=
  let u := s.core c
  let excess := u.promisedBlocks + u.borrowed + 1 - sharedBlocks s.die
  let cut := u.queues.foldl (fun (r : Nat × List QueueHold) q =>
    (r.1 - min r.1 q.blocks, r.2 ++ [{ q with blocks := q.blocks - min r.1 q.blocks }])) (excess, [])
  (s.setCore c { u with queues := cut.2 }).fitStage c

/-! ## What the queues of a command read (R273, R274, R280) -/

/-- The replacement class of a CLASS code (R274). -/
def classOf : Nat → LineClass
  | 0 => .stream
  | 1 => .keepN
  | _ => .pin

/-- What one operand queue reads: its row extents, the class and count of its traffic, its OUT_BLOCKS and OUT_REQ. -/
structure Feed where
  rows : List (Nat × Nat)
  cls : LineClass
  uses : Nat
  blocks : Nat
  reqs : Nat
  deriving Repr

/-- A queue with the fields of a descriptor, the defaults of R274 in place of 0. -/
def TDesc.feed (d : TDesc) (rows : List (Nat × Nat)) : Feed :=
  Feed.mk (rows.filter (fun r => r.2 != 0)) (classOf d.cls) d.keepN (if d.outBlocks = 0 then 8 else d.outBlocks)
    (if d.outReq = 0 then 1024 else d.outReq)

/-- The descriptor at an address and its format. -/
def State.descAt (s : State) (ctx addr : Nat) : Option (TDesc × Format) :=
  match s.readStruct ctx addr 64 64 with
  | .error _ => none
  | .ok b => ((TDesc.parse b).format? (s.ctx ctx)).map (fun f => (TDesc.parse b, f))

/-- The geometry block that a convolution names. -/
def State.geomOf (s : State) (e : Entry) : Option Geom :=
  match s.blockOf e.ctx (e.field 0x10 8) with
  | some [_, _, _, _, _, _, _, aux] => match s.readStruct e.ctx aux 32 1 with
    | .ok b => some (Geom.parse b)
    | .error _ => none
  | _ => none

/-- The memory rows of the tensor at an address that a command's access pattern reads (R280, R281). -/
def State.usesRow (s : State) (e : Entry) (addr : Nat) : Nat → Bool :=
  match e.op with
  | some .gather =>
    if addr ≠ e.field 0x10 8 then fun _ => true else
    let n := s.rowsAt e.ctx (e.field 0x20 8)
    let idx := match s.resolve e.ctx (e.field 0x18 8) (4 * n) false with
      | .ok rs => chunk 4 n (s.readRuns rs)
      | .error _ => []
    fun r => idx.contains r
  | some .maskPack =>
    if addr ≠ e.field 0x10 8 ∨ (e.field 0x30 1 % 8 ≠ 3 ∧ e.field 0x30 1 % 8 ≠ 4) then fun _ => true else
    match s.readStruct e.ctx (e.field 0x28 8) 32 1 with
    | .ok b => (Geom.parse b).readsIn (Geom.parse b).outAt
    | .error _ => fun _ => true
  | some .updateRows =>
    if addr ≠ e.field 0x20 8 then fun _ => true else
    let n := s.rowsAt e.ctx addr
    match s.resolve e.ctx (e.field 0x28 8) ((n + 7) / 8) false with
    | .ok rs => (leNat (s.readRuns rs)).testBit
    | .error _ => fun _ => true
  | some op =>
    if !op.isConv then fun _ => true else
    match s.blockOf e.ctx (e.field 0x10 8), s.geomOf e with
    | some (a :: b :: _), some g =>
      if op == .mmConvDx then (if addr = b then g.readsIn g.inAt else fun _ => true)
      else if addr = a then g.readsIn g.outAt else fun _ => true
    | _, _ => fun _ => true
  | none => fun _ => true

/-- The queues that read a parameter descriptor's tensors: the named version's stored copy, or the state of an UPDATE. -/
def PDesc.feeds (p : PDesc) (e : Entry) : List Feed :=
  match e.op with
  | some .update => ([p.master, p.mom1, p.mom2].filter (fun a => a != 0)).map (fun a =>
      TDesc.feed (TDesc.parse []) ((List.range p.rowsN).map (fun i =>
        (a + p.stateEpoch.toNat * p.epochBytes + i * p.statePitch, 4 * p.colsN))))
  | some .updateRows | some .precondFactor | some .versionRelease => []
  | _ =>
    match p.holds (BitVec.ofNat 64 (e.field 0x18 8)) with
    | some v => match formatOf v.fmt with
      | some f => [(p.slotDesc v).feed ((p.slotDesc v).extents f)]
      | none => []
    | none => []

/-- The operand queues of a command that read from memory, in the order of its packet. -/
def State.feeds (s : State) (e : Entry) : List Feed :=
  let s := s.asRead e
  (s.named e).flatMap (fun n =>
    if n.kind = 2 then
      match s.readStruct e.ctx n.addr 256 64 with
      | .ok b => (PDesc.parse b).feeds e
      | .error _ => []
    else if n.kind ≠ 0 then [] else
    match s.descAt e.ctx n.addr with
    | none => []
    | some (d, f) =>
      if d.handover then []
      else if d.kind = 1 then
        match s.readStruct e.ctx d.base 64 64 with
        | .ok h => if (GHead.parse h).cleared then [] else
            [d.feed (((d.epochRows (GHead.parse h) (GHead.parse h).epoch.toNat).zipIdx.filter
              (fun r => s.usesRow e n.addr r.2)).map (fun r => r.1))]
        | .error _ => []
      else if n.slot == .input || n.slot == .held then [d.feed (d.extentsOf f (s.usesRow e n.addr))]
      else [])

/-! ## Run-ahead (R280) -/

/-- The pieces of an extent within 64 KiB pages. -/
def cutPages (x : Nat × Nat) : List (Nat × Nat) :=
  if x.2 = 0 then [] else
  (List.range ((x.1 + x.2 - 1) / 65536 + 1 - x.1 / 65536)).map (fun i =>
    let lo := max x.1 ((x.1 / 65536 + i) * 65536)
    (lo, min (x.1 + x.2) ((x.1 / 65536 + i + 1) * 65536) - lo))

/-- The 64 KiB pages of some extents, each once. -/
def pagesIn (xs : List (Nat × Nat)) : List Nat :=
  (xs.flatMap cutPages).foldl (fun ps x => if ps.contains (x.1 / 65536) then ps else ps ++ [x.1 / 65536]) []

/-- The pages of a list that are mapped for a context, with their physical addresses. -/
def State.pageMap (s : State) (ctx : Nat) (pages : List Nat) : List (Nat × Nat) :=
  pages.filterMap (fun p => match s.translate ctx (65536 * p) with
    | .page pa _ => some (p, pa)
    | .stop _ _ => none)

/-- The physical runs of some pieces up to the first that cannot be fetched, and whether there is one. -/
def State.runsUpTo (s : State) (m : List (Nat × Nat)) : List (Nat × Nat) → List Run × Bool
  | [] => ([], false)
  | (a, n) :: xs =>
    match m.lookup (a / 65536) with
    | none => ([], true)
    | some pa =>
      if (s.physIssue (pa + a % 65536) n).isSome then ([], true) else
      let r := State.runsUpTo s m xs
      ((pa + a % 65536, n) :: r.1, r.2)

/-- What run-ahead fetches of a queue's rows: their physical runs up to the edge of an unmapped page (R280). -/
def State.runAhead (s : State) (ctx : Nat) (rows : List (Nat × Nat)) : List Run × Bool :=
  s.runsUpTo (s.pageMap ctx (pagesIn rows)) (rows.flatMap cutPages)

/-- Stack lines of physical runs, neighbours that share one counted once (R311). -/
def linesIn (rs : List Run) : List Nat :=
  (rs.foldl (fun (r : List Nat) x =>
    match placeOf x.1 with
    | .stack _ => (List.range (linesOf x.1 x.2)).foldl
        (fun r i => if r.head? == some (x.1 / 64 + i) then r else (x.1 / 64 + i) :: r) r
    | _ => r) []).reverse

/-! ## Lookups, fills and requests (R305, R306, R311-R316) -/

/-- Lookups of lines in the L2 of a sleeve (R312), counted; `read` where a core reads them. -/
def State.lookLines (s : State) (k : Nat) (lines : List Nat) (read : Bool := true) : State :=
  let c := s.fabric.cache k
  let miss := (c.missing lines).length
  (({ s with fabric := s.fabric.setCache k (if read then c.lookAll lines else c.passAll lines) } : State).countIf (.cache k 0)
    (lines.length - miss)).countIf (.cache k 1) miss

/-- Fills of lines into the L2 of a sleeve (R312, R313), counted; `read` where a core waits for them. -/
def State.fillLines (s : State) (k : Nat) (cls : LineClass) (n : Nat) (owner : Nat × Bool × Nat) (read : Bool)
    (lines : List Nat) : State :=
  let r := lines.foldl (Fills.line cls n owner read) (Fills.mk (s.fabric.cache k) 0 0 0)
  ((({ s with fabric := s.fabric.setCache k r.cache } : State).countIf (.cache k 2) r.stream).countIf (.cache k 3)
    r.keep).countIf (.cache k 4) r.refused

/-- Requests of a context for lines (R315). -/
def State.askLines (s : State) (ctx : Nat) (lines : List Nat) : State :=
  lines.foldl (fun t l => t.contextLines ctx (64 * l) 64) s

/-- Requests of engine traffic for lines (R316). -/
def State.askEngine (s : State) (lines : List Nat) : State := lines.foldl (fun t l => t.engineLines (64 * l) 64) s

/-- Requests of a context for the lines of host windows that runs touch (R315): no L2 holds them (R311). -/
def State.askHost (s : State) (ctx : Nat) (rs : List Run) : State :=
  rs.foldl (fun t r => match placeOf r.1 with
    | .host p => (t.contextLines ctx r.1 r.2).movedBytes p r.2 (some (1025, 0))
    | _ => t) s

/-- Whether the stack ports take a request for each of some lines now (R306, R307). -/
def State.linesPass (s : State) (lines : List Nat) : Bool :=
  lines.all (fun l => match portAt (64 * l) with
    | some x => decide (6 ≤ x) || (s.fabric.port x).takes (Request.plain 0 l)
    | none => true)

/-- The lines of the entries that a walk reads (R304), from a table of a level down. -/
def State.walkLines (s : State) (va : Nat) : Nat → Nat → List Nat
  | level, table =>
    let a := table + 8 * levelIndex level va
    match placeOf a with
    | .stack _ =>
      if (s.physIssue a 8).isSome then [] else
      let e := Pte.ofNat (leNat (memRead s.mem a 8))
      a / 64 :: (if !e.valid || e.reserved || e.leaf then [] else
        match level with
        | 0 => []
        | l + 1 => State.walkLines s va l e.addr)
    | _ => []

/-- Pages of a context that a cache holds no translation of (R305). -/
def State.xlateMisses (s : State) (k ctx : Nat) (pages : List Nat) : List Nat :=
  if ctx = 0 then [] else pages.filter (fun p => !(s.fabric.cache k).xlate.contains (ctx, p))

/-- The walk of a missing translation (R305): through the sleeve's L2 under the class STREAM, as engine traffic. The
Collar, cache 16, has no L2. -/
def State.walkFor (s : State) (k ctx page : Nat) : State :=
  let lines := s.walkLines (65536 * page) 3 (s.ctx ctx).translation
  if 16 ≤ k then s.askEngine lines else
  let miss := (s.fabric.cache k).missing lines
  ((s.lookLines k lines).fillLines k .stream 0 (0, false, 0) false miss).askEngine miss

/-- Translate pages in a sleeve or in the Collar (R305): those that miss are walked, counted and, where they are mapped,
entered; walks that meet a malformed entry are counted (R304). -/
def State.xlate (s : State) (k ctx : Nat) (pages : List Nat) : State :=
  let miss := s.xlateMisses k ctx pages
  if miss.isEmpty then s else
  let good := (s.pageMap ctx miss).map (fun x => x.1)
  let s := miss.foldl (fun t p => t.walkFor k ctx p) s
  let bad := (miss.filter (fun p => match s.translate ctx (65536 * p) with
    | .stop _ b => b
    | .page _ _ => false)).length
  let s : State := { s with fabric := s.fabric.setCache k ((s.fabric.cache k).enter ctx good) }
  if 16 ≤ k then s else (s.count (.cache k 5) miss.length).countIf (.cache k 6) bad

/-- The engine reads some extents as structures (R279, R316), through the translations of some caches: the stream engine of
each sleeve reads those of the commands that run there, the Collar (16) those of its own. -/
def State.readNamed (s : State) (ctx : Nat) (caches : List Nat) (xs : List (Nat × Nat)) : State :=
  let rs := (s.runAhead ctx xs).1
  caches.foldl (fun t k => rs.foldl (fun t r => t.engineLines r.1 r.2) (t.xlate k ctx (pagesIn xs))) s

/-- Admit what a stack port has room for (R306, R307). -/
def State.admitAt (s : State) (m : Nat) : State :=
  if (s.fabric.port m).waits.isEmpty then s else s.onPort m (fun t => t.admitAll s.tb.now)

/-- Offer requests at the stack ports and admit what can be admitted, refusals counted (R306, R307, R315, R316). -/
def State.offerAll (s : State) (w : Nat) (rs : List Request) : State :=
  (List.range 6).foldl (fun t m =>
    let mine := rs.filter (fun r => portAt (64 * r.line) == some m)
    if mine.isEmpty then t else
    (t.onPort m (fun p => mine.foldl (Traffic.offer w) p)).admitAt m) s

/-- Whether a request belongs to a command. -/
def Request.of (ctx : Nat) (seq : W32) (r : Request) : Bool := r.ctx == ctx && r.seq == seq

/-- Note lines that a command's queues have looked up: they are the engine's own account, in no line of the journal. -/
def State.noteAsked (s : State) (id k : Nat) (lines : List Nat) : State :=
  { s with journal := { s.journal with entries := s.journal.entries.map (fun x =>
    if x.id = id then { x with asked := x.asked ++ lines.map (fun l => (k, l)) } else x) } }

/-- Lines that the queues of a command on a core of sleeve `k` have still to read: not looked up before, and in no staged
block that is the command's own (R283). -/
def State.unread (s : State) (e : Entry) (k : Nat) (lines : List Nat) : List Nat :=
  let asked := ((s.entryAt e.id).map (fun x => x.asked)).getD []
  let own := (List.range 8).flatMap (fun i => ((s.core (8 * k + i)).stage.filter (fun b =>
    b.ctx == e.ctx && b.owner == some e.seq)).flatMap (fun b => b.extents))
  lines.filter (fun l => !asked.contains (k, l) && !touches own (64 * l) 64)

/-- The owner under which the traffic of a command's queues pins lines (R313). -/
def Entry.pinner (e : Entry) : Nat × Bool × Nat := (e.ctx, true, e.seq.toNat)

/-- A queue runs ahead (R273, R280): it looks up the next lines of its rows, within the blocks that it has, its 2 reserved
ones and those that it has borrowed, and within OUT_REQ, and offers a request for each that misses. -/
def State.runQueue (e : Entry) (c : Nat) (s : State) (q : Feed × Nat) : State :=
  let k := c / 8
  let f := q.1
  let ahead := s.runAhead e.ctx f.rows
  let s := s.xlate k e.ctx (pagesIn f.rows)
  let lines := (s.unread e k (linesIn ahead.1)).take (min f.reqs (512 * (2 + q.2)))
  let miss := (s.fabric.cache k).missing lines
  let s := ((s.lookLines k lines).noteAsked e.id k lines).offerAll (weightOf (s.ctx e.ctx).share)
    (miss.map (fun l => Request.mk e.ctx e.seq c l false f.cls f.uses 0 0 false))
  if !ahead.2 then s else
  let bytes := (ahead.1.map (fun r => r.2)).foldl (· + ·) 0
  (s.count (.stream c 0) 1).traceRec 13 (.core c) e.ctx e.seq (0xFFFF + bytes / blockBytes * 65536)

/-- The queues of a command take the staged blocks that hold their next bytes (R283), counted under STAGE_HITS. -/
def State.takeStaged (s : State) (e : Entry) (c : Nat) (fs : List Feed) : State :=
  let u := s.core c
  if u.stage.isEmpty then s else
  let rs := fs.flatMap (fun f => (s.runAhead e.ctx f.rows).1)
  let hit := fun (b : Staged) => b.ctx == e.ctx && b.owner.isNone && b.extents.any (fun x => touches rs x.1 x.2)
  let n := (u.stage.filter hit).length
  if n = 0 then s else
  ({ s.setCore c { u with stage := u.stage.map (fun b =>
      if hit b then { b with owner := some e.seq, used := s.stamps } else b) } with
    stamps := s.stamps + 1 } : State).count (.stream c 2) n

/-- Blocks that a queue would hold beyond its reservation (R273): within OUT_BLOCKS, and no more than its tensor fills. -/
def Feed.wants (f : Feed) : Nat :=
  min f.blocks (ceilDiv ((f.rows.map (fun r => r.2)).foldl (· + ·) 0) blockBytes) - 2

/-- `n` shared blocks lent to queues in their order (R273): a queue for which none is left runs on its reserved blocks. -/
def lendBlocks : Nat → List Feed → List (Feed × Nat)
  | _, [] => []
  | n, f :: fs => (f, min n f.wants) :: lendBlocks (n - f.wants) fs

/-- A command that holds queues on a core borrows what shared blocks are free for them and runs them ahead. -/
def State.startQueues (s : State) (e : Entry) (c : Nat) : State :=
  let fs := s.feeds e
  let u := s.core c
  let lent := lendBlocks (u.lendable s.die) fs
  let n := (lent.map (fun q => q.2)).foldl (· + ·) 0
  let s := s.setCore c { u with queues := u.queues.map (fun q =>
    if q.ctx = e.ctx ∧ q.seq = e.seq then { q with blocks := n } else q) }
  lent.foldl (State.runQueue e c) ((s.fitStage c).takeStaged e c fs)

/-- The cores whose feeders have waited for requests under the bank cap count BANK_CAP (R307), each a free value. -/
def State.countCapped (s : State) (rs : List Request) : State :=
  ((List.range 128).filter (fun c => rs.any (fun r => r.capped && r.core == c))).foldl (fun t c =>
    { t.count (.stall c 6) (Config.freeCount t.free) with free := t.free + 1 }) s

/-- The requests of a command at the stack ports return with no event of their own: their lines fill the L2 of the
requester's sleeve; those that wait there still wait for their slots (R306). -/
def State.finishRequests (s : State) (e : Entry) : State :=
  let mine := Request.of e.ctx e.seq
  (List.range 6).foldl (fun t m =>
    let p := t.fabric.port m
    let rs := (p.slots ++ p.waits).filter mine
    if rs.isEmpty then t else
    ((rs.foldl (fun (t : State) (r : Request) => if 128 ≤ r.core then t else t.fillLines (r.core / 8) r.cls r.uses e.pinner true [r.line])
      { t with fabric := t.fabric.setPort m (p.finish mine) }).countCapped rs).admitAt m) s

/-- Requests leave a stack port with their data (R306, R308): a read fills the L2 of its requester's sleeve (R311), the
merged and the aged are counted, and the slots go to requests that wait. -/
def State.returned (s : State) (m : Nat) (out : List Request) (aged : Bool) : State :=
  let s := out.foldl (fun t r => if r.write || decide (128 ≤ r.core) then t else
    t.fillLines (r.core / 8) r.cls r.uses (r.ctx, true, r.seq.toNat) true [r.line]) s
  (((s.countCapped out).countIf (.stack m 1) (out.length - 1)).countIf (.stack m 3) (if aged then 1 else 0)).admitAt m

/-- Drop the requests of a command that has no more need of them; their slots go to requests that wait (R306). -/
def State.dropRequests (s : State) (e : Entry) : State :=
  (List.range 6).foldl State.admitAt { s with fabric := s.fabric.dropRequests (Request.of e.ctx e.seq) }

/-- A row has done the work of a command: the traffic of contexts that it made since `s` was that command's (R353). -/
def State.metered (s t : State) (ctx : Nat) (seq : W32) : State :=
  let stop := intervalEnd s.tb.now.toNat
  let new := fun (a b : List WorkShare) => unnamed stop b - unnamed stop a
  let t := (List.range 6).foldl (fun u x =>
    let n := new (s.fabric.port x).meter (t.fabric.port x).meter
    if n = 0 then u else u.onPort x (fun p => { p with meter := nameShare stop ctx seq n p.meter })) t
  { t with seams := t.seams.zipIdx.map (fun v =>
    { v.1 with meter := nameShare stop ctx seq (new (s.seam v.2).meter v.1.meter) v.1.meter }) }

/-- Sleeves that hold any of some cores, ascending. -/
def sleevesOf (cores : List Nat) : List Nat :=
  (List.range 16).filter (fun k => cores.any (fun c => c / 8 == k))

/-- One sleeve reads what is left of a queue's rows. -/
def State.readRest (e : Entry) (k : Nat) (s : State) (f : Feed) : State :=
  let rs := (s.runAhead e.ctx f.rows).1
  let s := s.xlate k e.ctx (pagesIn f.rows)
  let lines := s.unread e k (linesIn rs)
  let miss := (s.fabric.cache k).missing lines
  (((s.lookLines k lines).fillLines k f.cls f.uses e.pinner true miss).askLines e.ctx miss).askHost e.ctx rs

/-- The cores that a command's traffic goes through: none for a command of the Collar. -/
def State.workCores (s : State) (e : Entry) : List Nat :=
  if (match e.op with | some op => op.usesQueues | none => false) then s.queueCores e else []

/-- The caches whose engines fetch the structures of a command (R279): the stream engines of the sleeves that it runs on, or
on which the stream that it defines becomes active; the Collar (16) for a command that runs on none. -/
def State.enginesOf (s : State) (e : Entry) : List Nat :=
  let cores := if e.op == some .streamDefine then
      match s.readStruct e.ctx (e.field 0x18 8) 64 1 with
      | .ok h => coreList (BitVec.ofNat 128 (fieldOf h 0x10 16))
      | .error _ => []
    else s.workCores e
  if cores.isEmpty then [16] else sleevesOf cores

/-- The data that a command of the Collar reads, which passes through no cache. -/
def Entry.rawReads (e : Entry) : List (Nat × Nat) :=
  match e.op with
  | some .copy => [(e.field 0x10 8, e.field 0x20 8)]
  | some .pocketWrite => if e.field 0x18 8 = 0 then [] else [(e.field 0x18 8, e.field 0x20 2 % 512)]
  | some .pocketRead => [(e.field 0x10 8, e.field 0x20 2 % 512)]
  | _ => []

/-- A command of the Pocket path, whose transfers are engine traffic (R316). -/
def Entry.isPocket (e : Entry) : Bool := e.op == some .pocketWrite || e.op == some .pocketRead

/-- The rows of the epochs of a pair buffer, by its descriptor (R127). -/
def State.bufferRows (s : State) (ctx : Nat) (d : TDesc) (epochs : List Nat) : List (Nat × Nat) :=
  match s.readStruct ctx d.base 64 64 with
  | .ok h => epochs.flatMap (d.epochRows (GHead.parse h))
  | .error _ => []

/-- Row extents of an epoch of a binary32 state tensor (R157). -/
def PDesc.epochRows (p : PDesc) (base epoch : Nat) : List (Nat × Nat) :=
  (List.range p.rowsN).map (fun i => (base + epoch * p.epochBytes + i * p.statePitch, 4 * p.colsN))

/-- The rows of the state of a parameter (R157): each state tensor in both epochs. -/
def PDesc.stateRows (p : PDesc) : List (Nat × Nat) :=
  ([p.master, p.mom1, p.mom2].filter (fun a => a != 0)).flatMap (fun a => p.epochRows a 0 ++ p.epochRows a 1)

/-- The extents that a command names (R304, R305): its structures and the tensors, scales, zero points, buffers and
parameter state behind them; the entries of a block list, the region of a seal. -/
def State.extentsOf (s : State) (e : Entry) : List (Nat × Nat) :=
  let s := s.asRead e
  (s.named e).flatMap (fun x => (x.addr, x.len) ::
    (if x.kind = 2 then
      match s.readStruct e.ctx x.addr 256 64 with
      | .ok b => (if e.op == some .update || e.op == some .updateRows then (PDesc.parse b).stateRows else [])
      | .error _ => []
    else
      if e.op == some .sealImport then [(e.field 0x18 8, e.field 0x20 8)] else [])) ++
  (s.descs e).flatMap (fun d => match d.2.format? (s.ctx e.ctx) with
    | some f =>
      (if d.2.handover then [] else if d.2.kind = 1 then s.bufferRows e.ctx d.2 [0, 1] else d.2.extents f) ++
      scaleExtent d.2 d.2.rows d.2.cols ++
      (if d.2.zpKind = 2 then [(d.2.zpVec, d.2.logical.2)] else [])
    | none => [])

/-- The traffic of a command's reads up to the end of its work: its extents are translated in the sleeves on which it runs,
or in the Collar (R305); what its queues asked for returns; its queues take what has been staged meanwhile (R283), and each
sleeve reads the rest of its operands. -/
def State.readTraffic (s : State) (e : Entry) : State :=
  let cores := s.workCores e
  let pages := pagesIn (s.extentsOf e)
  let s := (s.enginesOf e).foldl (fun t k => t.xlate k e.ctx pages) s
  let raw := (s.runAhead e.ctx e.rawReads).1
  let s := s.finishRequests e
  let s := if e.isPocket then s.askEngine (linesIn raw) else (s.askLines e.ctx (linesIn raw)).askHost e.ctx raw
  let fs := s.feeds e
  let s := cores.foldl (fun t c => t.takeStaged e c fs) s
  (sleevesOf cores).foldl (fun t k => fs.foldl (State.readRest e k) t) s

/-- The parameter descriptor that an entry names first. -/
def State.paramOf (s : State) (e : Entry) : Option PDesc :=
  match (s.named e).find? (fun n => n.kind == 2) with
  | some n => match s.readStruct e.ctx n.addr 256 64 with
    | .ok b => some (PDesc.parse b)
    | .error _ => none
  | none => none

/-- The runs in which a command writes the values of a tensor: its rows, or those of both epochs of a pair buffer (R127). -/
def State.descRuns (s : State) (e : Entry) (d : TDesc) : List Run :=
  match d.format? (s.ctx e.ctx) with
  | some f => (s.runsOf e.ctx true (if d.kind = 1 then s.bufferRows e.ctx d [0, 1] else d.extents f)).2.flatten
  | none => []

/-- The class and count under which the lines of a written run enter the L2 (R311): those of the descriptor whose extents
they lie in; STREAM for a fold region (R91), KEEP_N for the scratch of NORM_BWD (R126), with the N of its descriptor or
one use (DESIGN CHOICE, log 97); STREAM where no descriptor names them. -/
def State.writeClass (s : State) (e : Entry) (scratch : Bool) (r : Run) : LineClass × Nat :=
  if scratch then (if e.op != some .normBwd then (.stream, 0) else
    (.keepN, match s.descAt e.ctx (e.field 0x20 8) with | some (d, _) => max 1 d.keepN | none => 1)) else
  match (s.descs e).find? (fun d => (d.1 == Slot.output || d.1 == Slot.other) && touches (s.descRuns e d.2) r.1 r.2) with
  | some d => (classOf d.2.cls, d.2.keepN)
  | none => (.stream, 0)

/-- The lines that a command has written enter the L2 of the writing sleeve (R311): that of the first core that it runs
on (DESIGN CHOICE, log 97). `old` are the lines that the sleeve held before; a copy of a written line stays there. -/
def State.writeLines (s : State) (e : Entry) (old : List L2Line) (scratch rs : List Run) : State :=
  match s.workCores e with
  | [] => s
  | c :: _ =>
    let k := c / 8
    let now := s.fabric.cache k
    let kept := old.filter (fun l => now.has l.line || touches (scratch ++ rs) (64 * l.line) 64)
    let s : State := { s with fabric := s.fabric.setCache k { now with l2 := kept } }
    let put := fun (t : State) (own : Bool) (r : Run) =>
      let w := s.writeClass e own r
      t.fillLines k w.1 w.2 e.pinner false (linesIn [r])
    rs.foldl (fun t r => put t false r) (scratch.foldl (fun t r => put t true r) s)

/-! ## The Hem (R91, R310) -/

/-- The stored copy of a parameter in the version that a command names (R176). -/
def State.paramHeld (s : State) (e : Entry) (addr : Nat) : Option (TDesc × Format) :=
  match s.readStruct e.ctx addr 256 64 with
  | .error _ => none
  | .ok b =>
    match (PDesc.parse b).holds (BitVec.ofNat 64 (e.field 0x18 8)) with
    | some v => (formatOf v.fmt).map (fun f => ((PDesc.parse b).slotDesc v, f))
    | none => none

/-- The descriptor of a product's held operand, by address or by version (R176, R251). -/
def State.heldDesc (s : State) (e : Entry) (addr : Nat) : Option (TDesc × Format) :=
  if e.wKind then s.paramHeld e addr else s.descAt e.ctx addr

/-- What the shape of a product fixes before it starts (R57, R91, R95, R98): its dataflow, its pleat, its streamed rows,
its reduction units and the tiles of its outputs (N tiles in west entry, K tiles in north entry). -/
structure Shape where
  flow : Flow
  p : Nat
  rows : Nat
  units : Nat
  tiles : Nat
  deriving Repr

/-- The shape of a command's product, where its operands can be read. -/
def State.shapeOf (s : State) (e : Entry) : Option Shape :=
  let s := s.asRead e
  let a := dieArrays s.die
  match s.blockOf e.ctx (e.field 0x10 8) with
  | some (xa :: ya :: wa :: oa :: _) =>
    match e.op with
    | some .mmFwd | some .mmDist =>
      match s.descAt e.ctx xa, s.heldDesc e wa with
      | some x, some w =>
        let p := if e.op == some .mmDist then distPleat (e.field 0x25 1 % 8) x.2 else pleatOf x.2 w.2
        some (Shape.mk .west p x.1.rows (ceilDiv w.1.logical.1 (macRows p)) (ceilDiv w.1.logical.2 (macCols p * a)))
      | _, _ => none
    | some .mmConvFwd =>
      match s.descAt e.ctx xa, s.heldDesc e wa, s.geomOf e with
      | some x, some w, some g =>
        let p := pleatOf x.2 w.2
        some (Shape.mk .west p g.outRows (ceilDiv w.1.logical.1 (macRows p))
          (ceilDiv (w.1.logical.2 / g.groups) (macCols p * a) * g.groups))
      | _, _, _ => none
    | some .mmDx =>
      match s.descAt e.ctx ya, s.heldDesc e wa with
      | some y, some w =>
        let p := pleatOf y.2 w.2
        some (Shape.mk .north p y.1.rows (ceilDiv w.1.logical.2 (macCols p)) (ceilDiv w.1.logical.1 (macRows p)))
      | _, _ => none
    | some .mmConvDx =>
      match s.descAt e.ctx ya, s.heldDesc e wa, s.geomOf e with
      | some y, some w, some g =>
        let p := pleatOf y.2 w.2
        some (Shape.mk .north p g.inRows (ceilDiv (w.1.logical.2 / g.groups) (macCols p) * (g.kh * g.kw))
          (ceilDiv g.cg (macRows p) * g.groups))
      | _, _, _ => none
    | some .mmSafe => (safeShape (e.field 0x26 1 % 16)).map (fun x =>
        Shape.mk x.flow x.p x.m x.tiles 1)
    | some .mmDw | some .mmConvDw =>
      match s.descAt e.ctx xa, s.descAt e.ctx ya, s.descAt e.ctx oa with
      | some x, some y, some o =>
        let p := pleatOf x.2 y.2
        some (Shape.mk .stationary p y.1.rows 1
          (ceilDiv o.1.logical.1 (macRows p) * ceilDiv o.1.logical.2 (macCols p * a)))
      | _, _, _ => none
    | _ => none
  | _ => none

/-- Reduction units of slice `j` of `n` (R95). -/
def shareOf (units n j : Nat) : Nat := (j + 1) * units / n - j * units / n

/-- Fold entries that a product needs on one core (R91). -/
def Shape.entries (x : Shape) (a : Nat) : Nat :=
  match x.flow with
  | .west => x.rows * macCols x.p * a
  | .north => x.rows * macRows x.p
  | .stationary => macRows x.p * macCols x.p * a

/-- The kernel positions of a convolution input gradient, which are outermost in its tile order (R98); 1 for others. -/
def State.positions (s : State) (e : Entry) : Nat :=
  match e.op, s.geomOf e with
  | some .mmConvDx, some g => max 1 (g.kh * g.kw)
  | _, _ => 1

/-- The product of a FUSED vector command by north entry (R121, R124): its streamed rows, its pleat and its units. -/
def State.fusedShape (s : State) (e : Entry) : Option Shape :=
  let s := s.asRead e
  match e.op, s.blockOf e.ctx (e.field 0x10 8) with
  | some .softmaxBwd, some (_ :: d :: w :: _) =>
    if !(e.field 0x25 1).testBit 3 then none else
    match s.descAt e.ctx d, s.heldDesc e w with
    | some y, some w => some (Shape.mk .north (pleatOf y.2 w.2) y.1.rows
        (ceilDiv w.1.logical.2 (macCols (pleatOf y.2 w.2))) 1)
    | _, _ => none
  | some .normBwd, some (_ :: _ :: _ :: d :: w :: _) =>
    if !(e.field 0x28 1).testBit 1 then none else
    match s.descAt e.ctx d, s.paramHeld e w with
    | some y, some w => some (Shape.mk .north (pleatOf y.2 w.2) y.1.rows
        (ceilDiv w.1.logical.2 (macCols (pleatOf y.2 w.2))) 1)
    | _, _ => none
  | _, _ => none

/-- Columns of the input of a NORM_BWD, its D (R124). -/
def State.normColumns (s : State) (e : Entry) : Nat :=
  match s.blockOf e.ctx (e.field 0x10 8) with
  | some (x :: _) => (match s.descAt e.ctx x with | some d => d.1.cols | none => 0)
  | _ => 0

/-- Whether a product holds fold entries across time on a core (R91): those of one slice at a time. -/
def State.foldsOn (s : State) (e : Entry) (x : Shape) (core : Nat) : Bool :=
  let n := max 1 e.split
  let mine := ((s.shareCores e).zipIdx.filter (fun c => c.1 == core)).map (fun c => c.2)
  match x.flow with
  | .stationary => (s.queueCores e).head? == some core
  | .west => if e.sliced then mine.any (fun j => decide (1 < shareOf x.units n j)) else decide (1 < x.units)
  | .north =>
    let k := s.positions e
    if !e.sliced || decide (n = 1) then (s.queueCores e).head? == some core &&
      decide (1 < ceilDiv (x.units / k) (dieArrays s.die) * k)
    else mine.any (fun j => decide (1 < shareOf x.units n j))

/-- The halves of the Hem of a core that a command fills, by their entries (R91, R126, R310): the fold entries of its
product, where they fit a half, and those of NORM_BWD. -/
def State.hemNeed (s : State) (e : Entry) (core : Nat) : List Nat :=
  let a := dieArrays s.die
  let held := match (match e.op with
      | some .softmaxBwd | some .normBwd => s.fusedShape e
      | _ => s.shapeOf e) with
    | none => 0
    | some x => if s.foldsOn e x core && decide (x.entries a ≤ hemEntries) then x.entries a else 0
  let norm := if e.op == some .normBwd && (s.queueCores e).head? == some core then 2 * s.normColumns e else 0
  [held, norm].filter (fun n => n != 0)

end Sys2Proof.Machine
end

