-- ==== Sys2Proof/Machine/Work.lean ====
section
/-!
DEFINITION. Sys2Proof/Machine/Work.lean: how a command's work comes to its effects: the view of memory
that it computes on (hand-over links of R290, bounce pages of R414), what it may do with sealed pages
(R404, R405), core faults charged to it (R366-R368), its writes and its commit (R225, R284, R311, R380).
-/
namespace Sys2Proof.Machine

/-! ## Which commands work on arrays -/

/-- Whether a command adds the blocks of an exchange on vector units (R195, R202). -/
def Entry.addsBlocks (e : Entry) : Bool :=
  match e.op with
  | some op => op == .ryHop || op == .ryOwn || (op == .ryContribute && (e.field 0x10 1).testBit 4)
  | none => false

/-- Whether a command does array or vector work (R338, R349). -/
def Entry.isStepped (e : Entry) : Bool :=
  e.addsBlocks || (match e.op with | some op => op.isCoreWork | none => false)

/-- The steps that a command's work takes on a core (R338), true an array step: a backward command that is FUSED has a
product before its vector work (R121, R124). -/
def Entry.kinds (e : Entry) : List Bool :=
  match e.op with
  | some .softmaxBwd => if (e.field 0x25 1).testBit 3 then [true, false] else [false]
  | some .normBwd => if (e.field 0x28 1).testBit 1 then [true, false] else [false]
  | some op => [op.isMatrix]
  | none => [false]

/-! ## Welt checks (R363, R364) -/

/-- A welt check of a core: floating, its result, its welt value Z and its magnitude A as binary32 codes; or of an integer
command, its welt value. -/
inductive WeltCheck where
  | float (core result z a : Nat)
  | exact (core : Nat) (z : Int)
  deriving Repr

/-- The core whose work is checked. -/
def WeltCheck.core : WeltCheck → Nat
  | .float c _ _ _ => c
  | .exact c _ => c

/-- A check that is not made: its result, Z or A is infinite or NaN (R364). -/
def WeltCheck.skipped : WeltCheck → Bool
  | .float _ r z a => !(isFinite binary32 r && isFinite binary32 z && isFinite binary32 a)
  | .exact _ _ => false

/-- 2⁻¹⁰ in binary32. -/
def weltBound : Nat := 0x3A800000

/-- Whether a check fails where the welt lanes see some result (R364). -/
def WeltCheck.fails (c : WeltCheck) (seen : W64) : Bool :=
  match c with
  | .float _ _ z a =>
    let r := seen.toNat % 2 ^ 32
    isFinite binary32 r && isFinite binary32 z && isFinite binary32 a &&
      flt binary32 (mul32 weltBound a) (fabs binary32 (sub32 r z))
  | .exact _ z => seen.toInt != z

/-! ## Gusset checks (R372) -/

/-- The checksum of a row of a Gusset product: the sum that the operands give, and the sum of the magnitudes, binary64. -/
structure GussetCheck where
  sum : Nat
  mags : Nat
  deriving Repr

/-- 2⁻⁴⁰ in binary64. -/
def gussetBound : Nat := 0x3D70000000000000

/-- Whether the checksum fails where the Gusset sees some row sum of the product. -/
def GussetCheck.fails (c : GussetCheck) (seen : W64) : Bool :=
  flt binary64 (mul64 gussetBound c.mags) (fabs binary64 (sub64 seen.toNat c.sum))

/-- The checksums of a product of binary32 matrices, one for each row. DESIGN CHOICE (log 98): the sums run in ascending
order, the row sums of the right operand first; the manual gives their precision and no order. -/
def gussetChecks (a b : List (List Nat)) : List GussetCheck :=
  let total := fun (f : Nat → Nat) (xs : List Nat) => xs.foldl (fun t x => add64 t (f (widen x))) 0
  let rows := b.map (fun r => (total (fun x => x) r, total (fabs binary64) r))
  a.map (fun r => (List.zip r rows).foldl (fun c x =>
    GussetCheck.mk (add64 c.sum (mul64 (widen x.1) x.2.1)) (add64 c.mags (mul64 (fabs binary64 (widen x.1)) x.2.2)))
    (GussetCheck.mk 0 0))

/-! ## Delta: what a command does -/

/-- The effects of a command's work. -/
structure Delta where
  /-- completed-class codes that apply (R229). -/
  notes : List Status
  result : W32
  sat : Bool
  /-- bytes written, by address of the view. -/
  writes : List (Nat × Bytes)
  /-- state that it writes row by row before its commit, each row's writes and then its header (R182). -/
  steps : List (Nat × List (Nat × Bytes)) := []
  /-- read-modify-write effects, committed together (R380); empty without one. -/
  commit : List CommitItem
  counts : List (Counter × Nat)
  stats : List StatRec
  /-- trace records: type, unit, data. -/
  traces : List (Nat × TraceUnit × Nat)
  /-- what cores keep loaded after it (R107). -/
  held : List (Nat × Option HeldTile)
  /-- per-channel scale registers that it loads, by core (R44). -/
  scales : List (Nat × SMap W32)
  /-- regions that the engine used in an order of its own: their bytes afterwards are open (R91, R126). -/
  scratch : List Run
  /-- free values that the effects above are made of. -/
  draws : Nat
  /-- the byte that holds FMT and STATE of the version slot that it writes, and FMT (R173, R175). -/
  slot : Option (Nat × Nat) := .none
  /-- the welt checks of its passes, in order (R363). -/
  welts : List WeltCheck := []
  /-- the checksums of its Gusset products, in order (R372). -/
  gussets : List GussetCheck := []
  deriving Repr

/-- A command that does nothing but complete. -/
def Delta.none : Delta where
  notes := []
  result := 0
  sat := false
  writes := []
  commit := []
  counts := []
  stats := []
  traces := []
  held := []
  scales := []
  scratch := []
  draws := 0

/-- What a command's checks and work come to. -/
inductive Plan where
  | wait
  /-- it waits, and a completed-class code will say so (R177). -/
  | hold (st : Status)
  /-- it fails with the first of these by R236, its pure-overwrite destinations undefined (R229). -/
  | fail (issues : List Status)
  /-- it fails, and its rule says that nothing is written. -/
  | refuse (issues : List Status)
  | done (d : Delta)
  deriving Repr

/-- A plan from the statuses met: the first by R236, or the work. -/
def planOf (issues : List Status) (d : Unit → Delta) : Plan :=
  if issues.isEmpty then .done (d ()) else .fail issues

/-- A plan that fails, its rule leaving everything unwritten where some of its conditions hold (R91, R126). -/
def planStop (nothing issues : List Status) : Plan :=
  if nothing.isEmpty then .fail issues else .refuse (nothing ++ issues)

/-- A plan some of whose conditions leave everything unwritten (R91, R126, R127, R130). -/
def planUnless (nothing issues : List Status) (d : Unit → Delta) : Plan :=
  if nothing.isEmpty then planOf issues d else .refuse (nothing ++ issues)

/-! ## Bounce pages (R414) -/

/-- The additional data of a page: context, page index, WRITER. -/
def bounceAd (ctx page writer : Nat) : Bytes := leBytes 2 ctx ++ leBytes 4 page ++ leBytes 1 writer

/-- The physical address of a byte of a host window named by a virtual address, if mapped. -/
def State.hostAddr (s : State) (ctx va : Nat) : Option Nat :=
  match s.translate ctx va with
  | .page pa _ => (match placeOf pa with | .host _ => some pa | _ => none)
  | .stop _ _ => none

/-- A page of a bounce window as the engine sees it: its plaintext if its tag verifies. -/
def State.bouncePage (s : State) (ctx : Nat) (b : Bounce) (page : Nat) : Option Bytes :=
  match s.hostAddr ctx (b.base + 4096 * page), s.hostAddr ctx (b.tags + 32 * page) with
  | some pa, some ta =>
    let e := memRead s.mem ta 32
    let counter := e.take 8
    let writer := fieldOf e 8 1 % 2
    let key := if writer = 0 then b.keyH2e else b.keyE2h
    gcmDecrypt key (leBytes 4 page ++ counter) (bounceAd ctx page writer) (memRead s.mem pa 4096) (e.drop 16)
  | _, _ => none

/-- Pages of a window that hold anything. -/
def State.bouncePages (s : State) (ctx : Nat) (b : Bounce) : List Nat :=
  (List.range b.pages).filter (fun k =>
    match s.hostAddr ctx (b.base + 4096 * k) with
    | some pa => s.mem.any (fun c => decide (pa ≤ c.1) && decide (c.1 < pa + 4096))
    | none => false)

/-- The view of a context with a bounce window: its pages in plaintext, those that fail noted. -/
def State.bounceView (s : State) (ctx : Nat) : State :=
  match (s.ctx ctx).bounce with
  | none => s
  | some b =>
    let good := s.bouncePages ctx b
    let t := good.foldl (fun t k =>
      match s.bouncePage ctx b k, s.hostAddr ctx (b.base + 4096 * k) with
      | some p, some pa => t.poke pa p
      | _, _ => t) s
    let ok := good.filter (fun k => (s.bouncePage ctx b k).isSome)
    t.setCtx ctx { t.ctx ctx with bounce := some { b with
      bad := (List.range b.pages).filter (fun k => !ok.contains k) } }

/-- Write physical memory for a context, as its own traffic or as a transfer of the Pocket path (R316). -/
def State.storeAs (s : State) (pocket : Bool) (ctx a : Nat) (bs : Bytes) : State :=
  if pocket then s.store (s.endpointOf ctx) a bs else s.storeFor ctx a bs

/-- Write plaintext into a bounce window: whole pages, read and verified first, with a fresh counter
(R414); an address outside the window is written as it is. -/
def State.bounceStore (s : State) (ctx a : Nat) (bs : Bytes) (pocket : Bool := false) : State :=
  match (s.ctx ctx).bounce with
  | none => s.storeAs pocket ctx a bs
  | some b =>
    match (List.range b.pages).find? (fun k =>
        match s.hostAddr ctx (b.base + 4096 * k) with
        | some pa => decide (pa ≤ a) && decide (a < pa + 4096)
        | none => false) with
    | none => s.storeAs pocket ctx a bs
    | some k =>
      match s.hostAddr ctx (b.base + 4096 * k), s.hostAddr ctx (b.tags + 32 * k) with
      | some pa, some ta =>
        let old := (s.bouncePage ctx b k).getD (zeroBytes 4096)
        let page := (old.take (a - pa) ++ bs ++ old.drop (a - pa + bs.length)).take 4096
        let ct := gcmEncrypt b.keyE2h (leBytes 4 k ++ leBytes 8 b.counter) (bounceAd ctx k 1) page
        let s := (s.storeAs pocket ctx pa ct.1).storeAs pocket ctx ta (leBytes 8 b.counter ++ leBytes 1 1 ++ zeroBytes 7 ++ ct.2)
        s.setCtx ctx { s.ctx ctx with bounce := some { b with counter := b.counter + 1 } }
      | _, _ => s

/-! ## Chains (R221, R290) -/

/-- The chain whose CHAIN packet has a context and SEQ. -/
def State.chain? (s : State) (ctx : Nat) (seq : W32) : Option ChainState :=
  s.chains.find? (fun c => c.ctx == ctx && c.seq == seq)

/-- The chain that an entry is a member of. -/
def State.chainOf (s : State) (e : Entry) : Option ChainState :=
  match e.member with
  | some _ => s.chain? e.ctx e.chain
  | none => none

/-- Replace a chain. -/
def State.setChain (s : State) (c : ChainState) : State :=
  { s with chains := s.chains.map (fun x => if x.ctx = c.ctx ∧ x.seq = c.seq then c else x) }

/-- The stage of a member: every stage but the last has one member (R221). -/
def ChainState.stageOf (c : ChainState) (member : Nat) : Nat := min member (c.stages - 1)

/-- Bytes of the link that earlier members of the last stage take: their extents in member order (R290). -/
def ChainState.skip (c : ChainState) (member : Nat) : Nat :=
  (c.takes.take (member - (c.stages - 1))).foldl (· + ·) 0

/-- Where the links of an entry stand in its view. -/
def State.envOf (s : State) (e : Entry) : Env :=
  match e.member, s.chainOf e with
  | some m, some c =>
    let st := c.stageOf m
    Env.mk e.ctx
      (if st = 0 then none else some (linkBase + linkSpan * (st - 1) + (if st + 1 = c.stages then c.skip m else 0)))
      (if st + 1 < c.stages then some (linkBase + linkSpan * st) else none)
  | _, _ => Env.mk e.ctx none none

/-- The governor's state as an entry sees it: the step that it belongs to, each ladder at the rung that its commands resolve
(R136, R334). -/
def State.rungsFor (s : State) (e : Entry) : State :=
  let c := s.ctx e.ctx
  if c.gov.isNone then s else
  s.setCtx e.ctx { c with step := s.stepOf e, ladders := c.ladders.map (fun l => { l with rung := l.rungFor e.id }) }

/-- The physical runs of some bytes of the overflow region of a chain, none where a page is not mapped. -/
def State.ringRuns (s : State) (c : ChainState) (write : Bool) (slot off n : Nat) : List Run :=
  match s.resolve c.ctx (c.overflowAt + slot * blockBytes + off) n write with
  | .ok rs => rs
  | .error _ => []

/-- Blocks of the ring of a chain in its overflow region (R294). -/
def ChainState.ringSize (c : ChainState) : Nat := max 1 (c.overflowBytes / blockBytes)

/-- The place in the ring of each block that it still holds: link, block, slot. -/
def ChainState.ringBlocks (c : ChainState) : List (Nat × Nat × Nat) :=
  (c.ring.zipIdx.filter (fun x => decide (c.ring.length ≤ x.2 + c.ringSize))).map (fun x => (x.1.1, x.1.2, x.2 % c.ringSize))

/-- Place bytes of a link into the ring (R294): a block that is new takes the next place. -/
def State.ringStore (s : State) (c : ChainState) (k off : Nat) (bs : Bytes) : State :=
  if bs.isEmpty then s else
  (List.range ((off + bs.length - 1) / blockBytes + 1 - off / blockBytes)).foldl (fun t i =>
    let b := off / blockBytes + i
    let lo := max off (b * blockBytes)
    let hi := min (off + bs.length) ((b + 1) * blockBytes)
    let c := (t.chain? c.ctx c.seq).getD c
    let c := if c.ring.contains (k, b) then c else { c with ring := c.ring ++ [(k, b)] }
    let rs := t.ringRuns c true (c.ring.idxOf (k, b) % c.ringSize) (lo - b * blockBytes) (hi - lo)
    ((splitRuns rs ((bs.drop (lo - off)).take (hi - lo))).foldl (fun t w => t.storeFor c.ctx w.1 w.2) (t.setChain c)).dropCopies rs) s

/-- The state that an entry's work sees: bounce pages in plaintext, links above physical memory, the
governor step that the entry belongs to, each ladder at the rung that its commands resolve (R334). -/
def State.viewFor (s : State) (e : Entry) : State :=
  let s := ((s.bounceView e.ctx).asRead e).rungsFor e
  match s.chainOf e with
  | none => s
  | some c =>
    let t := c.links.zipIdx.foldl (fun t l => t.poke (linkBase + linkSpan * l.2) l.1) s
    c.ringBlocks.foldl (fun t x =>
      let n := min blockBytes ((c.links.getD x.1 []).length - x.2.1 * blockBytes)
      t.poke (linkBase + linkSpan * x.1 + x.2.1 * blockBytes) (s.readRuns (s.ringRuns c false x.2.2 0 n))) t

/-- Write bytes at an address of an entry's view: a link of its chain, a bounce page, or memory. -/
def State.viewStore (s : State) (e : Entry) (w : Nat × Bytes) : State :=
  if w.1 ≥ linkBase then
    match s.chainOf e with
    | none => s
    | some c =>
      let k := (w.1 - linkBase) / linkSpan
      let off := (w.1 - linkBase) % linkSpan
      let old := c.links.getD k []
      let old := old ++ zeroBytes (off + w.2.length - old.length)
      let s : State := { s.setChain { c with links := c.links.set k (old.take off ++ w.2 ++ old.drop (off + w.2.length)) } with
        starved := none }
      if c.overflow then s.ringStore c k off w.2 else s
  else s.bounceStore e.ctx w.1 w.2 e.isPocket

/-! ## Sealed pages (R404, R405) -/

/-- What R404 and R405 say of a command that reads values from `vals`, writes values to `outs`, and reads or
writes structure bytes in `other`. -/
def State.sealIssues (s : State) (ctx : Nat) (vals outs other : List Run) : List Status :=
  let foreign := (s.sealsOf (vals ++ outs ++ other)).any (fun x => x.ctx != ctx)
  let leak := (s.sealsOf vals).any (fun x => !s.sealedUnder ctx x.sealId outs)
  if foreign || leak then [Status.isSealed] else []

/-- Whether every sealed page of runs belongs to a seal with PRODUCTS_OPEN (R405). -/
def State.allOpen (s : State) (rs : List Run) : Bool := (s.sealsOf rs).all (fun x => x.productsOpen)

/-- Whether runs touch a sealed page. -/
def State.anySealed (s : State) (rs : List Run) : Bool := !(s.sealsOf rs).isEmpty

/-! ## What a failed command leaves undefined (R229) -/

/-- Extents that a pure-overwrite command names as its outputs, without those that it may not write: pages
sealed by another context. -/
def State.outputRuns (s : State) (e : Entry) : List Run :=
  let raw := fun (a n : Nat) => if a = 0 then [] else (s.runsOf e.ctx true [(a, n)]).2.flatten
  let rs : List Run := match e.op with
    | some .copy => raw (e.field 0x18 8) (e.field 0x20 8)
    | some .pocketWrite => raw (e.field 0x10 8) (e.field 0x20 2 % 512)
    | some .pocketRead => raw (e.field 0x18 8) (e.field 0x20 2 % 512)
    | _ => (s.descs e).flatMap (fun (d : Slot × TDesc) =>
        if d.1 == Slot.output && d.2.kind != 1 && !d.2.handover then
          match d.2.format? (s.ctx e.ctx) with
          | some f => (s.runsOf e.ctx true (d.2.extents f)).2.flatten
          | none => []
        else [])
  rs.filter (fun r => (s.sealsOf [r]).all (fun x => x.ctx == e.ctx))

/-- A governed descriptor of a command whose format cannot be resolved, or whose PITCH is below the packed row (R136). -/
def State.governedBad (s : State) (e : Entry) : Bool :=
  (s.descs e).any (fun d => d.2.gov && (match d.2.format? (s.ctx e.ctx) with
    | none => true
    | some f => decide (d.2.pitch < d.2.rowLen f)))

/-- A parameter descriptor that a command names and that R158 rejects. -/
def State.paramBad (s : State) (e : Entry) : Bool :=
  (s.named e).any (fun n => n.kind == 2 && (match s.readStruct e.ctx n.addr 256 64 with
    | .ok b => !(PDesc.parse b).issues.isEmpty
    | .error _ => false))

/-- What a failed command leaves undefined: nothing where a rule says that nothing is written (R136, R158, R405). -/
def State.lostRuns (s : State) (e : Entry) (issues : List Status) : List Run :=
  let s := s.rungsFor e
  if Status.first issues == some Status.isSealed || s.governedBad e || s.paramBad e then [] else s.outputRuns e

/-! ## Faults charged to cores (R366-R368) -/

/-- A command that has dispatched and has no outcome yet. -/
def Entry.inWork (e : Entry) : Bool := e.state == .dispatched && !e.decided

/-- What charging the faults of a command's work comes to. -/
structure Charged where
  s : State
  e : Entry
  /-- the retirement limit was reached, or the placement has no core left. -/
  stop : Bool

/-- Whether a command's work cannot go on after its faults: no core of its placement is left, or the target of an
MM_SAFE has gone (R5, R81, R367). -/
def State.noCoreLeft (s : State) (e : Entry) : Bool :=
  if e.op == some .mmSafe then !s.corePresent (e.field 0x27 1 % 128) else (s.placed e.ctx).isEmpty

/-- Reset a core (R366, R381): its L1 and Hem are emptied and its queues released; other commands that ran there run again
there once they have their queues. -/
def State.resetCore (s : State) (x : Nat) : State :=
  let u := s.core x
  let t := s.setCore x { u with held := none, stage := [], queues := [], hem := [] }
  { t with journal := { t.journal with entries := t.journal.entries.map (fun e =>
    if e.inWork && u.queues.any (fun q => q.ctx == e.ctx && q.seq == e.seq) then
      { e with energy := { e.energy with reexecuted := true } } else e) } }

/-- The cores of the slices of a product once core `x` is to be replaced (R367): by the present, ready core of the placement
with the lowest index that holds no other share, else by the lowest of those that stay. -/
def State.replaceCore (s : State) (e : Entry) (x : Nat) : List Nat :=
  if !e.sliced then [] else
  let now := s.shareCores e
  let left := (s.usable e.ctx).filter (fun c => c != x)
  let new := ((left.filter (fun c => !now.contains c)) ++ left).headD x
  now.map (fun c => if c = x then new else c)

/-- Charge one fault to core `x` (R366), one of those that the command runs on: the core is reset; the first fault is
retried, the second retires the core, and a third retirement does not take place (R368). -/
def chargeOne (c : Charged) (f : FaultKind × Nat) : Charged :=
  let kind := f.1
  let x := f.2
  if c.stop || !c.s.corePresent x || !(c.s.queueCores c.e).contains x then c else
  let s := (c.s.count (.fault x (if kind = .adder then 4 else if kind = .ecc then 3 else 0)) 1)
  let s := s.resetCore x
  let second := c.e.faultCore == some x && c.e.faults == 1
  let e : Entry := { c.e with faulted := true, asked := [], energy := { c.e.energy with reexecuted := true } }
  if !second then
    let s := (s.count (.fault x 1) 1).traceFault kind 0 (.core x) e.ctx e.seq
    Charged.mk s { e with faultCore := some x, faults := 1, notes := e.notes ++ [Status.faultRetried] } false
  else if e.retirements ≥ 2 then
    Charged.mk (s.setFault .retireLimit) { e with faults := 2 } true
  else
    let s := (s.traceFault kind 1 (.core x) e.ctx e.seq).retireCore x
    Charged.mk s { e with
      faults := 2, retirements := e.retirements + 1, retiredFlag := true, shares := c.s.replaceCore e x
      notes := e.notes ++ [Status.coreRetired] } (s.noCoreLeft e)

/-- Charge the faults of a command's work, in order. -/
def State.charge (s : State) (e : Entry) (faults : List (FaultKind × Nat)) : Charged :=
  faults.foldl chargeOne (Charged.mk s e false)

/-- The faults that errors of a command's work charge to cores (R361, R366): failed welt checks, and uncorrectable errors of
the L1 and the Hem. -/
def Delta.charged (d : Delta) (faults : List CoreFault) : List (FaultKind × Nat) :=
  faults.flatMap (fun f => match f with
    | .welt i r => match d.welts[i]? with
      | some w => if w.fails r then [(.welt, w.core)] else []
      | .none => []
    | .memory c => [(.ecc, c)]
    | _ => [])

/-- An error that no core is charged for (R370): counted; an uncorrectable line or entry is invalidated, and the next access
fetches it again. -/
def State.bitError (s : State) : CoreFault → State
  | .corrected c => s.count (.fault c 2) 1
  | .cacheCorrected k => s.count (.cache k 7) 1
  | .lineLost k l =>
    let x := s.fabric.cache k
    ({ s with fabric := s.fabric.setCache k { x with l2 := x.l2.filter (fun y => y.line != l) } } : State).count (.cache k 8) 1
  | .entryLost k n p =>
    let x := s.fabric.cache k
    ({ s with fabric := s.fabric.setCache k { x with xlate := x.xlate.filter (fun y => y != (n, p)) } } : State).count
      (.cache k 8) 1
  | _ => s

/-- The errors of a step that no core is charged for, in order. -/
def State.bitErrors (s : State) (faults : List CoreFault) : State := faults.foldl State.bitError s

/-! ## Applying the effects -/

/-- Physical extents of the writes of a delta that come before its commit. -/
def Delta.overwrites (d : Delta) : List Run :=
  d.scratch ++ (d.writes.filter (fun w => decide (w.1 < linkBase))).map (fun w => (w.1, w.2.length))

/-- Physical extents of the writes and of the commit of a delta. -/
def Delta.runs (d : Delta) : List Run :=
  d.overwrites ++ (d.steps.flatMap (fun r => r.2)).map (fun w => (w.1, w.2.length)) ++
  d.commit.map (fun i => match i with
    | .write a bs => (a, bs.length)
    | .copy a _ n => (a, n))

/-- Physical extents that a delta writes, its scratch apart. -/
def Delta.landed (d : Delta) : List Run := { d with scratch := [] }.runs

/-- Write rows of state, in order (R182). -/
def State.rowSteps (s : State) (e : Entry) (rows : List (Nat × List (Nat × Bytes))) : State :=
  rows.foldl (fun t r => r.2.foldl (fun t w => t.viewStore e w) t) s

/-- The slot byte of R157 that gives a slot a STATE: 0 EMPTY, 2 WRITING; staged blocks that cover it go (R284). -/
def State.markSlot (s : State) (slot : Option (Nat × Nat)) (state : Nat) : State :=
  match slot with
  | some (a, fmt) => (s.put a (leBytes 1 (fmt % 16 + 16 * state))).dropCopies [(a, 1)]
  | none => s

/-- The slot bytes that an entry has set to WRITING, with those of some slots that it sets now (R175). -/
def State.takenWith (s : State) (e : Entry) (slots : List Nat) : List (Nat × BitVec 8) :=
  e.taken ++ (slots.filter (fun a => !e.taken.any (fun t => t.1 == a))).map (fun a => (a, memGet s.mem a))

/-- Put the bytes of version slots back (R174, R175, R232); staged blocks that cover them go (R284). -/
def State.slotsBack (s : State) (xs : List (Nat × BitVec 8)) : State :=
  xs.foldl (fun t x => (t.put x.1 [x.2]).dropCopies [(x.1, 1)]) s

/-- The slots that a command took become EMPTY as it fails (R205; DESIGN CHOICE for the update family, log 94). -/
def State.emptyTaken (s : State) (e : Entry) : State :=
  s.slotsBack (e.taken.map (fun t => (t.1, t.2 &&& 0x0F)))

/-- The L2 lines of the sleeve that a command writes from (R311). -/
def State.ownLines (s : State) (e : Entry) : List L2Line :=
  match s.workCores e with
  | [] => []
  | c :: _ => (s.fabric.cache (c / 8)).l2

/-- Cycles that the copy or the restore of the pairs of an output-stationary command takes (R99): 64, 16 or 4. -/
def State.pairCycles (s : State) (e : Entry) : Nat :=
  match s.shapeOf e with
  | some x => if x.flow = .stationary then 64 / (x.p * x.p) else 0
  | none => 0

/-- A resumed command restores its saved pairs on its first core (R99): SPILL. -/
def State.restorePairs (s : State) (e : Entry) : State :=
  if e.saved.isNone then s else s.countIf (.stall ((s.queueCores e).headD 0) 3) (s.pairCycles e)

/-- Cycle counts of a core that nothing but timing fixes (R25, R71, R446, R447): CYCLES, ARRAY_BUSY or VECTOR_BUSY,
FEED_EMPTY and DRAIN_FULL, each a free value; L2_MISS and STACK_LATENCY where lines have missed the sleeve's L2. In
MM_SAFE no feeder runs dry and no drain fills (R79). -/
def State.timedCore (e : Entry) (s : State) (c : Nat) : State :=
  let v := fun i => Config.freeCount (s.free + i)
  let t := e.kinds.foldl (fun t a => t.count (.util c (if a then 1 else 2)) (v (if a then 1 else 6)))
    (s.count (.util c 0) (v 0))
  let t := if e.op == some .mmSafe then t else (t.count (.stall c 0) (v 2)).count (.stall c 1) (v 3)
  let t := if e.op == some .mmSafe || s.counter (.cache (c / 8) 1) == 0 then t
    else (t.count (.stall c 4) (v 4)).count (.stall c 5) (v 5)
  { t with free := s.free + 7 }

/-- Those counts on every core that a command ran on. -/
def State.timedCores (s : State) (e : Entry) : State :=
  if (match e.op with | some op => op.isCoreWork | none => false) then (s.queueCores e).foldl (State.timedCore e) s else s

/-- Perform the writes and the commit of a delta: the command's reads, the slot becomes WRITING, private writes, commit
record, items, then the copies that the writes make stale or bring into the writing sleeve (R173, R284, R311, R380). -/
def State.applyEffects (s : State) (e : Entry) (d : Delta) : State :=
  let s := (s.readTraffic e).restorePairs e
  let old := s.ownLines e
  let s := { s with free := s.free + d.draws }
  let s := s.markSlot d.slot 2
  let s := s.scramble d.scratch
  let s := s.rowSteps e d.steps
  let s := d.writes.foldl (fun t w => t.viewStore e w) s
  let s := if d.commit.isEmpty then s else (s.writeCommit e.ctx e.seq e.journalled d.commit).applyItems d.commit
  let s := (s.dropCopies d.runs).writeLines e old d.scratch d.landed
  let s := (d.counts.foldl (fun t c => t.count c.1 c.2) s).timedCores e
  let s := d.held.foldl (fun t h => if t.corePresent h.1 then t.setCore h.1 { t.core h.1 with held := h.2 } else t) s
  let s := d.scales.foldl (fun t c =>
    if t.corePresent c.1 then t.setCore c.1 { t.core c.1 with
      scales := c.2.foldl (fun m x => smSet m x.1 x.2) (t.core c.1).scales } else t) s
  d.traces.foldl (fun t r => t.traceRec r.1 r.2.1 e.ctx e.seq r.2.2) s

/-- Whether the journal has room for a delta's commit record (R380). -/
def State.commitRoom (s : State) (e : Entry) (d : Delta) : Bool :=
  d.commit.isEmpty || !e.journalled || s.journalRoom (commitLines d.commit)

/-- The runs of the version slots of a parameter (R157). -/
def State.slotRuns (s : State) (ctx : Nat) (p : PDesc) : List Run :=
  p.slots.flatMap (fun v => (s.runsOf ctx true ((List.range p.rowsN).map (fun r => (v.base + r * v.pitch, v.pitch)))).2.flatten)

/-- An empty record for each role that a command writes into a sealed page, whatever it converts: the statistics of
that role are sealed for the step (R156, R406). `landed` are the runs that it writes; a stored copy is of role W. -/
def State.sealMarks (s : State) (e : Entry) (landed : List Run) : List StatRec :=
  let rs := landed.filter (fun r => s.anySealed [r])
  let mark := fun (layer role : Nat) (at_ : List Run) =>
    if layer != 0 && at_.any (fun r => touches rs r.1 r.2) then [{ StatRec.empty layer role with sealedBy := true }] else []
  if rs.isEmpty then [] else
  (s.descs e).flatMap (fun d => if d.1 == Slot.output || d.1 == Slot.other then
    mark d.2.layer d.2.role (if d.2.handover then [] else s.descRuns e d.2) else []) ++
  (match e.op, s.paramOf e with
    | some .update, some p | some .updateRows, some p => mark p.layer 1 (s.slotRuns e.ctx p)
    | _, _ => [])

/-- Complete a command with the effects of its work (R225 step 1, R229, R377). -/
def State.applyDelta (s : State) (e : Entry) (d : Delta) : State :=
  let marks := s.sealMarks e d.landed
  let s := s.applyEffects e d
  let e := { e with
    stats := d.stats ++ marks, commit := d.commit, wrote := d.runs, taken := []
    retain := if (match e.op with | some op => op.isMatrix | none => false) && e.wRetain then e.refs else []
    drops := if (match e.op with | some op => op.isMatrix | none => false) && e.wRelease then e.refs else []
    state := if d.commit.isEmpty then e.state else .committed
    notes := e.notes ++ d.notes }
  s.conclude e Status.ok d.result d.sat

/-- A chain whose producer ended without its whole output (R222): the status that its later members carry. -/
def State.brokenFor (s : State) (e : Entry) : Option Status :=
  match e.member, s.chainOf e with
  | some m, some c => if c.stageOf m = 0 then none else
      match c.broken with
      | some (st, k) => if k < c.stageOf m then some st else none
      | none => none
  | _, _ => none

/-- Whether a chain member may start: the producer of its input has delivered all of it (R290). -/
def State.producerDone (s : State) (e : Entry) : Bool :=
  match e.member, s.chainOf e with
  | some m, some c => decide (c.stageOf m = 0) || c.whole.getD (c.stageOf m - 1) false
  | _, _ => true

/-- The end of a chain member's work: its link is whole, or the stages behind it are broken (R222). -/
def State.memberEnd (s : State) (e : Entry) (st : Status) : State :=
  match e.member, s.chainOf e with
  | some m, some c =>
    let k := c.stageOf m
    if k + 1 ≥ c.stages then s
    else if st.failed || st == Status.roundAborted then
      if c.broken.isSome then s else s.setChain { c with broken := some (st, k) }
    else s.setChain { c with whole := c.whole.set k true }
  | _, _ => s

/-! ## Activity steps (R338-R341) -/

/-- The order of R339: the oldest first, then the lower core, then the array step. -/
def StepReq.before (a b : StepReq) : Bool :=
  decide (a.t < b.t) || (a.t == b.t && (decide (a.core < b.core) || (a.core == b.core && a.array)))

/-- Put a request at its place. -/
def addReq (r : StepReq) : List StepReq → List StepReq
  | [] => [r]
  | x :: xs => if r.before x then r :: x :: xs else x :: addReq r xs

/-- Whether a command adds blocks of an exchange on a core: it is at work, on the cores of its placement. -/
def State.addsOn (s : State) (e : Entry) (core : Nat) : Bool :=
  e.inWork && e.working && e.addsBlocks && (s.usable e.ctx).contains core

/-- Whether some command has work of a kind on a core: it holds queues there, or adds blocks of an exchange. -/
def State.coreBusy (s : State) (core : Nat) (array : Bool) : Bool :=
  (s.core core).queues.any (fun q => match s.entry? q.ctx q.seq with
    | some e => e.isStepped && e.kinds.contains array
    | none => false) ||
  (!array && s.journal.entries.any (fun e => s.addsOn e core))

/-- The reservation of a context, if any. -/
def Belt.resvOf (b : Belt) (ctx : Nat) : Option Reservation :=
  (b.resv.filterMap id).find? (fun r => r.ctx == ctx)

/-- The RAMP under which a context's work starts now (R341, R342), 0 without a reservation. -/
def Belt.rampOf (b : Belt) (ctx : Nat) : Nat := match b.resvOf ctx with | some r => r.ramp | none => 0

/-- Whether activity is a core's of a kind. -/
def Activity.at (r : Activity) (core : Nat) (array : Bool) : Bool := r.core == core && r.array == array

/-- Core cycles lost to power on a core, in units of 1/14,000 cycle: whole cycles counted, the fraction carried. -/
def State.slewCycles (s : State) (core units : Nat) : State :=
  if units = 0 then s else
  let u := s.core core
  let n := u.carry + units
  (s.setCore core { u with carry := n % 14000 }).count (.stall core 9) (n / 14000)

/-- Units of 1/14,000 cycle that a RAMP costs (R342): RAMP × 481 / 280 cycles. -/
def rampUnits (ramp : Nat) : Nat := ramp / 8 * 481 * 400

/-- Work of one kind begins on a core (R340): it takes the place of a decrease that waits, or follows other work,
or asks for an increase. -/
def State.beginStep (e : Entry) (core : Nat) (s : State) (a : Bool) : State :=
  let b := s.belt
  if b.running.any (fun r => r.at core a) then
    { s with belt := { b with
      running := b.running.map (fun r => if r.at core a then
        Activity.mk core a e.ctx (b.rampOf e.ctx) e.seq s.stamp.toNat else r)
      holdUp := b.holdUp.filter (fun h => h != (core, a))
      requests := b.requests.filter (fun r => r.rise || r.core != core || r.array != a) } }
  else if b.requests.any (fun r => r.rise && r.core == core && r.array == a) then s
  else { s with belt := { b with requests := addReq (StepReq.mk s.stamp.toNat core a true e.ctx e.seq) b.requests } }

/-- A command's work begins on a core, with the steps that it takes. -/
def State.beginSteps (s : State) (e : Entry) (core : Nat) : State :=
  if e.isStepped then e.kinds.foldl (State.beginStep e core) s else s

/-- Work that has ended (R340): each core that no longer has any of a kind asks for a decrease and holds up, for the command
that has ended; the stop ramp of the RAMP that its work began with has passed by then (R342). An increase that a core no
longer needs is dropped. -/
def State.endSteps (s : State) (who : Option (Nat × W32) := none) : State :=
  let b := s.belt
  let ends := b.running.filter (fun r => !b.holdUp.contains (r.core, r.array) && !s.coreBusy r.core r.array)
  let keep := b.requests.filter (fun r => !r.rise || s.coreBusy r.core r.array)
  let last := fun (r : Activity) => let o := who.getD (r.ctx, r.seq); { r with ctx := o.1, seq := o.2 }
  let s : State := { s with belt := { b with
    running := b.running.map (fun r => if ends.contains r then last r else r)
    requests := ends.foldl (fun q r => addReq (StepReq.mk s.stamp.toNat r.core r.array false r.ctx 0) q) keep
    holdUp := b.holdUp ++ ends.map (fun r => (r.core, r.array)) } }
  ends.foldl (fun t r => t.slewCycles r.core (rampUnits r.ramp)) s

/-- Exchange opcodes. -/
def Op.isExchange : Op → Bool
  | .ryRoundOpen | .ryContribute | .ryHop | .ryOwn | .ryRoundClose | .ryParamSend | .ryParamRecv => true
  | _ => false

/-! ## Queues (R271-R273) -/

/-- A core without what a command holds on it (R91, R272, R283): its queues and its half of the Hem are free, the staged
blocks that its queues read are back in the stage. -/
def CoreUnit.release (u : CoreUnit) (ctx : Nat) (seq : W32) : CoreUnit :=
  { u with
    queues := u.queues.filter (fun q => !(q.ctx == ctx && q.seq == seq))
    hem := u.hem.filter (fun h => !(h.ctx == ctx && h.seq == seq))
    stage := u.stage.map (fun b => if b.ctx = ctx ∧ b.owner = some seq then { b with owner := none } else b) }

/-- Release what a command holds on every core (R272). -/
def State.releaseQueues (s : State) (ctx : Nat) (seq : W32) : State :=
  ({ s with cores := s.cores.map (fun u => (u.1, u.2.release ctx seq)) } : State).endSteps (some (ctx, seq))

/-- The end of a command's work: its requests and its queues go back (R272, R306). -/
def State.endWork (s : State) (e : Entry) : State := (s.dropRequests e).releaseQueues e.ctx e.seq

/-- Order of waiting commands: T_ACCEPTED, then context (R272, R292). -/
def earlier (a b : Entry) : Bool :=
  decide (a.tAccepted.toNat < b.tAccepted.toNat) ||
  (a.tAccepted == b.tAccepted && (decide (a.ctx < b.ctx) || (a.ctx == b.ctx && decide (a.id < b.id))))

/-- The earliest of some entries. -/
def earliest : List Entry → Option Entry
  | [] => none
  | e :: es =>
    match earliest es with
    | none => some e
    | some f => if earlier e f then some e else some f

/-- Whether a command holds its queues on a core. -/
def State.holdsQueues (s : State) (e : Entry) (core : Nat) : Bool :=
  (s.core core).queues.any (fun q => q.ctx == e.ctx && q.seq == e.seq)

/-- Commands that wait for queues on a core. -/
def State.queueWaiters (s : State) (core : Nat) : List Entry :=
  s.journal.entries.filter (fun e =>
    e.state == .dispatched && !e.decided &&
    (match e.op with | some op => op.usesQueues && !(op.isCoreWork && s.belt.trip) | none => false) &&
    (s.queueCores e).contains core && s.producerDone e && decide (0 < s.queueNeed e) && !s.holdsQueues e core)

/-- Whether a core has the queues and the half of the Hem that some commands need, in their order (R91, R272). -/
def State.coreTakes (s : State) (core : Nat) (es : List Entry) : Bool :=
  let u := s.core core
  decide ((es.map s.queueNeed).foldl (· + ·) 0 ≤ u.free) &&
  decide ((es.flatMap (fun e => s.hemNeed e core)).length + u.hem.length ≤ 2)

/-- Whether a command has its queues on every core that it runs on, or could take them behind the commands that wait
there before it (R272). -/
def State.queuesOk (s : State) (e : Entry) : Bool :=
  s.queueNeed e == 0 || (s.queueCores e).all (fun c => s.holdsQueues e c ||
    s.coreTakes c ((s.queueWaiters c).filter (fun x => earlier x e) ++ [e]))

/-- A command takes all its queues on a core, and its half of the Hem (R91, R272, R310): it is at work. -/
def State.takeQueues (s : State) (e : Entry) (core : Nat) : State :=
  let u := s.core core
  let t := (s.setEntry { e with working := true }).setCore core { u with
    queues := u.queues ++ [QueueHold.mk e.ctx e.seq (s.queueNeed e) 0 s.stamp.toNat]
    hem := u.hem ++ (s.hemNeed e core).map (HemHalf.mk e.ctx e.seq) }
  t.startQueues e core

/-- The part of the save area that a command's resume state takes is free again (R99, R231). -/
def State.freeSave (s : State) (e : Entry) : State :=
  match e.saved with
  | none => s
  | some v => s.setCtx e.ctx { s.ctx e.ctx with saveUsed := (s.ctx e.ctx).saveUsed - v.bytes }

/-- A command that finds an order, a version or a slot unmet has not started its work: it gives its queues back
(R231 item 3, R272). -/
def State.standBack (s : State) (e : Entry) : State :=
  (if e.working then s.endWork e else s).setEntry { e with working := false, asked := [] }

/-- Whether the work of a command on a core waits for a step (R340). -/
def State.stepsOn (s : State) (e : Entry) (core : Nat) : Bool :=
  s.belt.requests.any (fun r => r.rise && e.kinds.contains r.array && r.core == core)

/-- Whether a core on which a command works still waits for a step of that work (R340). -/
def State.stepWaits (s : State) (e : Entry) : Bool :=
  s.belt.requests.any (fun r => r.rise && e.kinds.contains r.array && (s.holdsQueues e r.core || s.addsOn e r.core))

/-- Whether the vector units that add blocks for a command of an exchange may go on (R340, R349). -/
def State.vectorFree (s : State) (ctx : Nat) (q : Option W32) : Bool :=
  match q.bind (s.entry? ctx) with
  | none => true
  | some e => !s.belt.trip && !s.stepWaits e

/-- Whether discarded work waits for the self-check of a sleeve of its placement before it runs again (R371, R383). -/
def State.checkWaits (s : State) (e : Entry) : Bool :=
  (e.faulted || e.replayed) && (s.placed e.ctx).any (fun c => s.boot.checking.getLsbD (c / 8))

/-! ## Room in the links of a chain (R291-R294) -/

/-- The HANDOVER descriptors of a member: inputs, outputs, and others, which R290 does not permit. -/
def State.handovers (s : State) (m : Entry) : List TDesc × List TDesc × Bool :=
  let h := (s.descs m).filter (fun d => d.2.handover)
  ((h.filter (fun d => d.1 == .input || d.1 == .held)).map (fun d => d.2),
    (h.filter (fun d => d.1 == .output)).map (fun d => d.2),
    h.any (fun d => d.1 == .other))

/-- Members of a chain at a stage that have no outcome yet. -/
def State.stageLeft (s : State) (c : ChainState) (k : Nat) : List Entry :=
  s.journal.entries.filter (fun e => e.ctx == c.ctx && e.chain == c.seq && e.member.isSome && e.live &&
    !e.decided && c.stageOf (e.member.getD 0) == k)

/-- Bytes of a link that its consumers have taken: those of the members that have an outcome, in member order. -/
def State.linkTaken (s : State) (c : ChainState) (k : Nat) : Nat :=
  match s.stageLeft c (k + 1) with
  | [] => (c.links.getD k []).length
  | m :: _ => if k + 2 = c.stages then c.skip (m.member.getD 0) else 0

/-- Blocks of a link that its consumers have not taken. -/
def State.linkHeld (s : State) (c : ChainState) (k : Nat) : Nat :=
  ceilDiv (c.links.getD k []).length blockBytes - s.linkTaken c k / blockBytes

/-- Blocks that the producer at a stage may place into its link (R291-R294): the promised blocks, or those of the overflow
ring after a break, without what the other links hold or have reserved; its own input makes way as it is taken. -/
def State.linkRoom (s : State) (c : ChainState) (k : Nat) : Nat :=
  let others := (List.range (c.stages - 1)).filter (fun j => j != k && j + 1 != k)
  if c.overflow then c.overflowBytes / blockBytes - (others.map (s.linkHeld c)).foldl (· + ·) 0
  else c.buffer - ((others.map (fun j => max 2 (s.linkHeld c j))).foldl (· + ·) 0 + (if k = 0 then 0 else 2))

/-- Whether a command completes its output in stored byte order (R291): a product that revisits its rows for further
output tiles does not. -/
def State.inOrder (s : State) (e : Entry) : Bool :=
  match s.shapeOf e with
  | some x => x.flow == .stationary || decide (x.tiles ≤ 1)
  | none => true

/-- Whether the consumer of a link can take its blocks as they come: it holds its queues or can take them. -/
def State.consumerRuns (s : State) (c : ChainState) (k : Nat) : Bool :=
  match s.stageLeft c (k + 1) with
  | [] => false
  | m :: _ => m.state == .dispatched && s.queuesOk m

/-- Whether the link of a chain's producer takes its output (R291-R293): all of it finds room, or it leaves in order to a
consumer that runs. -/
def State.linkFree (s : State) (e : Entry) : Bool :=
  match e.member, s.chainOf e with
  | some m, some c =>
    let k := c.stageOf m
    if k + 1 ≥ c.stages then true else
    let need := ((s.handovers e).2.1.map (fun d => ceilDiv (d.rows * d.pitch) blockBytes)).foldl (· + ·) 0
    decide (need ≤ s.linkRoom c k) || (s.inOrder e && s.consumerRuns c k)
  | _, _ => true

/-- Whether a chain has a link that is starved for space (R293): its producer could work, and has no block for its output.
RY_OWN, which places none before there is room, is never such a producer. -/
def State.chainStarved (s : State) (c : ChainState) : Bool :=
  c.admitted && c.broken.isNone && (List.range (c.stages - 1)).any (fun k =>
    match s.stageLeft c k with
    | e :: _ => e.state == .dispatched && e.op != some .ryOwn && s.producerDone e && !s.linkFree e
    | [] => false)

/-- Whether array or vector work of an opcode may go on: no thermal trip stands (R349), its sleeves are checked where it runs
again, its hand-over link takes what it produces. -/
def State.mayWork (s : State) (op : Op) (e : Entry) : Bool :=
  !op.usesQueues || (!(op.isCoreWork && (s.belt.trip || s.checkWaits e)) && s.linkFree e)

/-- Whether a command holds its queues on every core that it runs on (R272). -/
def State.hasQueues (s : State) (e : Entry) : Bool :=
  s.queueNeed e == 0 || (s.queueCores e).all (fun c => s.holdsQueues e c)

/-- Whether work has what it takes to be done: its queues (R272), and the steps of its cores (R340). -/
def State.hasStarted (s : State) (op : Op) (e : Entry) : Bool :=
  !op.usesQueues || (s.hasQueues e && !(op.isCoreWork && s.stepWaits e))

/-! ## Jobs (R356) -/

/-- Whether a command's SEQ lies between the marks of a job. -/
def Job.covers (j : Job) (seq : W32) : Bool :=
  let d := (seq - j.beginSeq).toNat
  decide (1 ≤ d ∧ d < 2 ^ 31) && (match j.endSeq with
    | some q => decide (d < (q - j.beginSeq).toNat)
    | none => true)

/-- An accepted END mark of a job, which may have its effect still to come. -/
def Entry.endsJob (e : Entry) (id : W32) : Bool :=
  e.op == some .energyMark && (e.field 0x14 1).testBit 0 && e.field 0x10 4 == id.toNat &&
  e.clean [(0x10, 0, 32), (0x14, 0, 1)] && !(e.decided && Status.failed e.status)

/-- Whether a command is a member of a job, an END mark that waits counted. -/
def State.jobCovers (s : State) (ctx : Nat) (j : Job) (seq : W32) : Bool :=
  j.covers seq && !(s.entriesOf ctx).any (fun x => x.endsJob j.id &&
    decide (0 < (x.seq - j.beginSeq).toNat ∧ (x.seq - j.beginSeq).toNat ≤ (seq - j.beginSeq).toNat))

/-- A command that fails has walked what it names (R304, R305): in the sleeve of the first core of its placement, for the
manual names no other where the command runs on no core (DESIGN CHOICE, log 97); with no core left it walks in none. -/
def State.walkNamed (s : State) (e : Entry) : State :=
  match s.queueCores e ++ s.usable e.ctx with
  | [] => s
  | c :: _ => s.xlate (c / 8) e.ctx (pagesIn (s.extentsOf e))

/-- The end of a command's work (R272, R290): what it held goes back; a successful member has placed or taken blocks. -/
def State.workEnd (s : State) (e : Entry) (st : Status) : State :=
  let s := (s.endWork e).memberEnd e st
  if e.member.isSome && !st.failed then { s with starved := none } else s

/-- A command that has failed and has taken no slot (R229): its undefined destinations, its outcome, the stages behind
it. -/
def State.failPlain (s : State) (e : Entry) (issues : List Status) (lost : List Run) : State :=
  (s.settle e (.fail issues lost)).memberEnd e ((Status.first issues).getD Status.malformed)

/-- A command that has failed (R229): the slots that it took are empty. -/
def State.failNow (s : State) (e : Entry) (issues : List Status) (lost : List Run) : State :=
  (s.emptyTaken e).failPlain { e with taken := [] } issues lost

/-- A command that works on cores has failed: its walks, its outcome, and what it held. -/
def State.failWork (s : State) (e : Entry) (issues : List Status) (lost : List Run) : State :=
  ((s.walkNamed e).failNow e issues lost).endWork e

/-- Commands whose work was discarded on cores that have now retired (R367, R371): they go on with the cores left, or complete
with UNIT_ABSENT where their placement holds none. -/
def State.strand (s : State) (gone ids : List Nat) : State :=
  (s.journal.entries.filter (fun e => e.inWork && ids.contains e.id)).foldl (fun t x =>
    let e := gone.foldl (fun e c => { e with shares := t.replaceCore e c }) { x with
      faulted := true, retiredFlag := true, working := false, asked := []
      notes := x.notes ++ [Status.coreRetired], energy := { x.energy with reexecuted := true } }
    if t.noCoreLeft e then t.failWork e [Status.unitAbsent] (t.lostRuns e [Status.unitAbsent]) else t.setEntry e) s

/-- Opcodes that name no extent. -/
def Op.namesNone : Op → Bool
  | .nop | .fence | .signal | .wait | .chain | .contextClose | .preempt | .powerReserve | .energyMark | .traceTrigger
  | .schedArm => true
  | _ => false

/-- Run the effect of a command that needs no core, and takes no version slot, on its entry; a chain whose producer ended
first comes before it (R222). -/
def State.runOp (s : State) (op : Op) (ctx : Nat) (seq : W32) (eff : State → Entry → Verdict) :
    Host.Outcome State Fault Refusal :=
  match s.runnable op ctx seq with
  | none => .next s
  | some e =>
    match s.brokenFor e with
    | some st => .next ((s.conclude e st 0 false).memberEnd e st)
    | none =>
      if !s.producerDone e then .next s else
      match eff s e with
      | .wait => .next s
      | .fail issues lost =>
        .next (if op.namesNone then s.failPlain e issues lost
          else if op.usesQueues then ((s.walkNamed e).failPlain e issues lost).endWork e
          else (s.walkNamed e).failPlain e issues lost)
      | .done st r sat t =>
        if !s.hasStarted op e then .next s else
        let t := s.settle e (.done st r sat t)
        .next (if op.namesNone then t.memberEnd e st
          else s.metered (if op.usesQueues then t.workEnd e st else t.memberEnd e st) e.ctx e.seq)

/-- Run the work of a data command (R217, R229, R366-R368, R370). Work that is charged a fault is discarded: it runs again
once it has its queues, on the same core or on the one that replaces it. -/
def State.runWork (s : State) (op : Op) (ctx : Nat) (seq : W32) (faults : List CoreFault)
    (plan : State → Entry → Plan) : Host.Outcome State Fault Refusal :=
  match s.runnable op ctx seq with
  | none => .next s
  | some e =>
    match s.brokenFor e with
    | some st => .next ((s.conclude e st 0 false).memberEnd e st)
    | none =>
      if !s.producerDone e || !s.mayWork op e then .next s else
      let failed := fun (issues : List Status) (lost : List Run) =>
        (match ((s.viewFor e).ctx ctx).bounce with
          | some b => if Status.first issues = some Status.outOfBounds ∧ !b.bad.isEmpty then s.count (.control 3) 1 else s
          | none => s).failWork e issues lost
      match plan (s.viewFor e) e with
      | .wait => .next (s.standBack e)
      | .hold st =>
        if e.notes.contains st then .next (s.standBack e)
        else .next ((s.count (.context ctx 6) 1).standBack { e with notes := e.notes ++ [st] })
      | .fail issues => .next (failed issues (s.lostRuns e issues))
      | .refuse issues => .next (failed issues [])
      | .done d =>
        if !s.hasStarted op e || !s.commitRoom e d then .next s else
        let c := (s.bitErrors faults).charge e (d.charged faults)
        if c.stop then .next ((c.s.markSlot d.slot 0).failWork c.e [Status.unitAbsent] d.overwrites)
        else if c.e != e then .next (c.s.setEntry c.e)
        else .next (s.metered ((c.s.applyDelta e d).workEnd e Status.ok) e.ctx e.seq)

end Sys2Proof.Machine
end

