-- ==== Sys2Proof/Machine/Loss.lean ====
section
/-!
DEFINITION. Sys2Proof/Machine/Loss.lean: the loss table (R388), and the commands that need a lost region (R387, R473).
-/
namespace Sys2Proof.Machine

/-- A region, if it is lost (R473). -/
def lostOf (r : Option Region) : List Region :=
  match r with
  | some x => if x.lost then [x] else []
  | none => []

/-- The ledger, if it is lost while changes are pending that their epoch is to record there (R334, R473). -/
def Ctx.ledgerLost (c : Ctx) : List Region := if c.pendings.isEmpty then [] else lostOf c.ledger

/-- Lost regions that an entry needs (R473): the save area of a stopped command whose resume state lies there, the governor
region of a governor command or one that names a LAYER, the ledger of a command that adds records to it. -/
def State.regionsLost (s : State) (e : Entry) : List Region :=
  let c := s.ctx e.ctx
  (match e.state, e.saved with
    | .stopped, some v => if v.bytes = 0 then [] else lostOf c.save
    | _, _ => []) ++
  (if e.op = some .govStep ∨ e.op = some .govBounds then lostOf c.gov ++ lostOf c.ledger
    else if e.op = some .govRead then lostOf c.gov
    else if e.op = some .schedArm then
      (if c.armed.isSome ∧ (e.field 0x11 1).testBit 0 = true then c.ledgerLost else [])
    else if (lostOf c.gov).isEmpty then [] else if s.namesLayer e then lostOf c.gov else [])

/-- Put a loss record into a slot of the table, and into the journal regions (R388). -/
def State.putLoss (s : State) (i : Nat) (l : Loss) : State :=
  let ls := s.journal.losses ++ List.replicate (i + 1 - s.journal.losses.length) none
  let s : State := { s with journal := { s.journal with losses := ls.set i (some l) } }
  s.journalPut (4096 * 64 + 32 * i) l.bytes

/-- The lowest free slot of the loss table, none when it is full. -/
def State.freeLoss (s : State) : Option Nat :=
  let k := s.journal.losses.findIdx (fun l => l.isNone)
  if k < 4096 then some k else none

/-- Add a command, if any, to the loss record of a structure, or add that record (R387, R388). -/
def State.addLoss (s : State) (part : BitVec 8) (ctx kind addr : Nat) (seq : Option W32) : State :=
  let seqs := seq.toList
  match s.journal.losses.findIdx? (fun l => match l with
      | some x => x.ctx == ctx && x.kind == kind && x.address == addr
      | none => false) with
  | some i =>
    match s.journal.losses.getD i none with
    | some x => s.putLoss i { x with
        seqs := x.seqs ++ seqs, waiting := x.waiting + seqs.length
        firstSeq := if x.waiting = 0 then seq.getD x.firstSeq else x.firstSeq }
    | none => s
  | none =>
    match s.freeLoss with
    | some i => s.putLoss i (Loss.mk ctx kind part addr (seq.getD 0) seqs.length seqs)
    | none => s

/-- Entries that a failure makes the Collar examine (R387); one whose outcome is decided and needs no commit is about
to complete, and goes on. -/
def Entry.examined (e : Entry) : Bool :=
  match e.state with
  | .stopped | .committed => true
  | .accepted | .dispatched => !e.decided
  | _ => false

/-- Opcodes whose work goes on over a reset and a loss from their cursor (R379). -/
def Op.keepsCursor : Op → Bool
  | .ryRoundOpen | .ryContribute | .ryHop | .ryOwn | .ryRoundClose | .ryParamSend | .ryParamRecv => true
  | _ => false

/-- An entry enters LOST_WAIT (R387): its work is discarded. A committed one has applied its items and keeps its outcome, for
it commits once (R390): released, it goes on to its record. -/
def State.enterLost (s : State) (e : Entry) : State :=
  if e.state = .committed then (s.setEntry { e with state := .lostWait }).setFault .loss else
  let ex := match e.op with | some op => op.keepsCursor | none => false
  let s := (s.freeSave e).setEntry { e with
    state := .lostWait, working := e.working && ex, decided := false, status := 0, result := 0, saved := none
    tileCursor := if ex then e.tileCursor else 0, rowCursor := if ex then e.rowCursor else 0
    commit := [], stats := [], wrote := [], refs := [], asked := if ex then e.asked else []
    energy := { e.energy with reexecuted := e.energy.reexecuted || e.working } }
  (if ex then s else s.endWork e).setFault .loss

/-- Whether a run has a byte that a part which is absent holds (R386). -/
def State.runGone (s : State) (r : Nat × Nat) : Bool := s.physIssue r.1 r.2 == some Status.unitAbsent

/-- The stack that took a region, none where a Seam port did. -/
def State.lostWith (s : State) (r : Region) : Option Nat :=
  (r.pageRuns.filter s.runGone).findSome? (fun x => match placeOf x.1 with | .stack m => some m | _ => none)

/-- Add a command, if any, to the loss record of a lost region (R387, R473). PART names the stack that took it, [7] set where
all of it failed; R388 has no PART for a region that went with a Seam port: there it is free. -/
def State.addRegionLoss (s : State) (ctx : Nat) (r : Region) (seq : Option W32) : State :=
  match s.lostWith r with
  | some m => s.addLoss (BitVec.ofNat 8 (m + if s.caps.stks.getLsbD m then 0 else 128)) ctx 4 r.va seq
  | none => { s.addLoss (Config.freeByte s.free) ctx 4 r.va seq with free := s.free + 1 }

/-- An entry that needs some lost regions enters LOST_WAIT (R387, R473). -/
def State.loseFor (s : State) (e : Entry) (rs : List Region) : State :=
  if rs.isEmpty then s else (rs.foldl (fun t r => t.addRegionLoss e.ctx r (some e.seq)) s).enterLost e

/-- An entry that needs a lost region enters LOST_WAIT (R387, R473). -/
def State.loseRegionsOf (s : State) (e : Entry) : State := s.loseFor e (s.regionsLost e)

/-- Every entry that needs a lost region enters LOST_WAIT (R473). -/
def State.examineRegions (s : State) : State :=
  (s.journal.entries.filter Entry.examined).foldl (fun t e => t.loseRegionsOf e) s

end Sys2Proof.Machine
end

