-- ==== Sys2Proof/Machine/Collar.lean ====
section
/-!
DEFINITION. Sys2Proof/Machine/Collar.lean: acceptance, dispatch, queues, chains and completion (09, 13,
11 R271-R294, 15 R374-R385): the rows DOORBELL's ring to COMMAND_COMPLETE. An event whose conditions do not
hold changes nothing.
-/
namespace Sys2Proof.Machine

/-! ## Acceptance (R214, R215) -/

/-- Whether the Collar fetches for a context: a packet lies ahead in a ring that is in use (R209, R232, R464). -/
def State.fetches (s : State) (ctx : Nat) : Bool :=
  let c := s.ctx ctx
  s.ready.collar && (c.state == .opened || c.state == .preempting || c.state == .preempted) &&
  (ctx != 0 || s.collar.ctx0Active) && c.sqHead != c.sqTail

/-- The packet in the slot of a submission-ring count, if it can be read (R473). -/
def State.packetAt (s : State) (ctx : Nat) (n : W32) : Option Bytes :=
  let c := s.ctx ctx
  let i := 64 * (n.toNat % max 1 c.sqEntries)
  if s.regionOk c.sq i 64 then some (s.readRegion c.sq i 64) else none

/-- What the header checks of R215 say. -/
inductive Check where
  | accept | duplicate | refuse
  deriving DecidableEq, Repr

/-- The header checks of R215, E the SEQ expected. -/
def checkHeader (ctx : Nat) (e : W32) (p : Bytes) : Check :=
  if pkContext p ≠ ctx then .refuse
  else if pkSeq p = e then .accept
  else if 1 ≤ (e - pkSeq p).toNat ∧ (e - pkSeq p).toNat ≤ 2 ^ 31 then .duplicate
  else .refuse

/-- Records that a packet reserves (R223). -/
def recordsOf (p : Bytes) : Nat := if pkAck p then 2 else 1

/-- The literal block of UPDATE and UPDATE_ROWS as it stands at acceptance (R161); empty where it cannot be
read. -/
def State.literalOf (s : State) (ctx : Nat) (p : Bytes) : Bytes :=
  match Op.ofCode (pkOpcode p) with
  | some .update | some .updateRows =>
    match s.readStruct ctx (fieldOf p 0x18 8) 64 1 with
    | .ok b => b
    | .error _ => []
  | _ => []

/-- Accept one packet (R214): its entry, the counts, the ACCEPTED reply and its trace record. -/
def State.acceptOne (s : State) (ctx : Nat) (p : Bytes) (chain : W32) (member : Option Nat)
    (early : Option Status) : State :=
  let c := s.ctx ctx
  let head := c.sqHead + 1
  let e := Entry.fresh s.journal.nextId ctx p (s.literalOf ctx p) s.stamp head chain member
    s.journal.enable s.journal.head (pkAck p)
  let s := (s.engineLines (c.sq.addr (64 * (c.sqHead.toNat % max 1 c.sqEntries))) 64).addEntry { e with early := early }
  let s := s.setCtx ctx { s.ctx ctx with sqHead := head, acceptHead := head, acceptSeq := pkSeq p }
  let s := if pkAck p then
      s.putRecord ctx (fun ph => Machine.recordBytes (pkSeq p) Status.accepted ph true false false ctx
        s.stamp 0 0 0)
    else s
  s.traceRec 1 .collar ctx (pkSeq p) (pkOpcode p)

/-- Refuse a packet (R215). -/
def State.refuseOne (s : State) (ctx : Nat) (p : Bytes) : State :=
  let e := (s.ctx ctx).acceptSeq + 1
  let s := s.putRecord ctx (fun ph => Machine.recordBytes (pkSeq p) Status.malformed ph true false false ctx
    0 s.stamp 0 e)
  let c := s.ctx ctx
  (s.setCtx ctx { c with sqHead := c.sqHead + 1, seqErr := true }).count (.control 1) 1

/-- Whether the journal, the completion ring and INFLIGHT take some packets (R214, R223). -/
def State.takes (s : State) (ctx : Nat) (ps : List Bytes) : Bool :=
  let c := s.ctx ctx
  let recs := (ps.map recordsOf).foldl (· + ·) 0
  decide (((s.entriesOf ctx).filter Entry.live).length + ps.length ≤ c.inflight) &&
  decide (recs ≤ s.ringRoom ctx) &&
  (!s.journal.enable || s.journalRoom (4 * ps.length)) &&
  (ps.all (fun p => !pkAck p) || s.cqSlotOk ctx c.cqTail)

/-- STAGES of a CHAIN packet. -/
def chainStages (p : Bytes) : Nat := bitsOf (fieldOf p 0x10 1) 0 4
/-- LAST_MEMBERS of a CHAIN packet. -/
def chainLast (p : Bytes) : Nat := bitsOf (fieldOf p 0x12 2) 0 13
/-- Members of a chain (R241), 0 for fields outside their range. -/
def chainMembers (p : Bytes) : Nat :=
  if 2 ≤ chainStages p ∧ chainStages p ≤ 8 ∧ 1 ≤ chainLast p ∧ chainLast p ≤ 4096 then
    chainStages p - 1 + chainLast p
  else 0

/-- The chain that a CHAIN packet starts (R221). -/
def ChainState.fresh (ctx : Nat) (p : Bytes) (now : W64) : ChainState where
  ctx := ctx
  seq := pkSeq p
  tAccepted := now
  stages := chainStages p
  lastMembers := chainLast p
  buffer := fieldOf p 0x14 4
  links := List.replicate (chainStages p - 1) []
  takes := []
  whole := List.replicate (chainStages p - 1) false
  broken := none
  overflow := false
  overflowAt := fieldOf p 0x18 8
  overflowBytes := fieldOf p 0x20 8
  ring := []
  admitted := false
  gvals := []
  greads := []

/-- Accept a packet of a failed chain, which completes with MALFORMED as it is accepted (R241): it never dispatches. -/
def State.acceptFailed (s : State) (ctx : Nat) (p : Bytes) (chain : W32) : State :=
  let s := s.acceptOne ctx p chain none (some Status.malformed)
  match s.entry? ctx (pkSeq p) with
  | some e => s.conclude e Status.malformed 0 false
  | none => s

/-- Accept a CHAIN packet with its members in one group (R221), or alone as a failed chain (R241). -/
def State.acceptChain (s : State) (ctx : Nat) (p : Bytes) : State :=
  let c := s.ctx ctx
  let n := chainMembers p
  let alone := fun (k : Nat) =>
    if s.takes ctx [p] then
      let s := s.acceptFailed ctx p (pkSeq p)
      s.setCtx ctx { s.ctx ctx with failedMembers := k, failedChain := pkSeq p }
    else s
  if n = 0 then alone 0
  else if n + 1 > c.sqEntries then alone n
  else if (c.sqTail - c.sqHead).toNat < n + 1 then s
  else
    match (List.range n).mapM (fun i => s.packetAt ctx (c.sqHead + BitVec.ofNat 32 (i + 1))) with
    | none => s
    | some ms =>
      if ms.zipIdx.all (fun m => checkHeader ctx (pkSeq p + BitVec.ofNat 32 (m.2 + 1)) m.1 == .accept) then
        if s.takes ctx (p :: ms) then
          let t := s.stamp
          let s := s.acceptOne ctx p (pkSeq p) none none
          let s := ms.zipIdx.foldl (fun s m => s.acceptOne ctx m.1 (pkSeq p) (some m.2) none) s
          { s with chains := s.chains ++ [ChainState.fresh ctx p t] }
        else s
      else alone n

/-- PACKET_ACCEPT (R214, R215): the next packet of a context is accepted, refused or discarded. -/
def execPacketAccept (ctx : Nat) (s : State) : Host.Outcome State Fault Refusal :=
  if !s.fetches ctx then .next s else
  let c := s.ctx ctx
  match s.packetAt ctx c.sqHead with
  | none => .next s
  | some p =>
    match checkHeader ctx (c.acceptSeq + 1) p with
    | .duplicate => .next (s.setCtx ctx { c with sqHead := c.sqHead + 1, dup := c.dup + 1 })
    | .refuse =>
      if 1 ≤ s.ringRoom ctx ∧ s.cqSlotOk ctx c.cqTail = true then .next (s.refuseOne ctx p) else .next s
    | .accept =>
      if 0 < c.failedMembers then
        if s.takes ctx [p] then
          let t := s.acceptFailed ctx p c.failedChain
          .next (t.setCtx ctx { t.ctx ctx with failedMembers := c.failedMembers - 1 })
        else .next s
      else if Op.ofCode (pkOpcode p) = some .chain then .next (s.acceptChain ctx p)
      else if s.takes ctx [p] then .next (s.acceptOne ctx p (pkSeq p) none none)
      else .next s

/-! ## Rights (R392, R394) -/

/-- Whether the sessions of an endpoint carry the rights that an opcode needs (R394). -/
def State.mayIssue (s : State) (e : Entry) (op : Op) : Bool :=
  let ep := s.endpointOf e.ctx
  let o := s.holds ep 2
  let i := s.holds ep 1
  match op with
  | .nop | .fence | .signal | .wait | .chain | .queryCaps => decide (e.ctx = 0) || o
  | .contextOpen | .contextClose => i
  | .preempt => i || o
  | .traceCtl => if (e.field 0x10 1).testBit 2 then o && i else o
  | .powerReserve | .fwStage | .fwCommit => if e.ctx = 0 then i else o && i
  | .attest | .roleSession | .profileLoad => true
  | _ => o

/-- The role whose rights a command needs for the audit log (R398): installer or maker. PREEMPT needs the
installer's only where no operator session stands, and PROFILE_LOAD rests on the maker (both DEDUCED, log
62). -/
def State.auditRole (s : State) (e : Entry) : Option Nat :=
  match e.op with
  | some .contextOpen | some .contextClose | some .powerReserve | some .fwStage | some .fwCommit => some 1
  | some .traceCtl => if (e.field 0x10 1).testBit 2 then some 1 else none
  | some .preempt => if s.holds (s.endpointOf e.ctx) 2 then none else some 1
  | some .profileLoad => some 0
  | _ => none

/-- The audit entry of a command that completes in the completed class (R398): `what` is the structure, key
or image that it brings, if any. -/
def State.auditCommand (s : State) (e : Entry) (what : Option Bytes) : State :=
  match s.auditRole e with
  | none => s
  | some r =>
    s.audited 2 r (s.endpointOf e.ctx) (BitVec.ofNat 32 (pkOpcode e.packet + e.ctx * 65536)) e.seq
      (match what with
        | some b => hashValue b
        | none => BitVec.ofNat 64 (e.field 0x10 8))

/-- Whether the audit log refuses a command (R399). -/
def State.auditDenies (s : State) (e : Entry) : Bool := (s.auditRole e).isSome && !s.auditRoom

/-! ## Marks (R218) -/

/-- A fence counter lies in a context's range (R208). -/
def Ctx.hasFence (c : Ctx) (n : Nat) : Bool := decide (c.fenceBase ≤ n) && decide (n < c.fenceBase + c.fenceN)

/-- Marks outside the range of their context (R218). -/
def State.badMarks (s : State) (e : Entry) : Bool :=
  let c := s.ctx e.ctx
  (pkWaitEn e.packet && !c.hasFence (pkWaitCtr e.packet)) ||
  (pkSignalEn e.packet && !c.hasFence (pkSignalCtr e.packet))

/-- The WAIT mark of an entry is met now (R218). -/
def State.markMet (s : State) (e : Entry) : Bool :=
  !pkWaitEn e.packet || e.waitMet ||
  decide (((s.fence (pkWaitCtr e.packet)).setWidth 32 - pkWaitTarget e.packet).toNat < 2 ^ 31)

/-! ## Slots (R327-R334) -/

/-- The slot that governs a command. -/
structure SlotInfo where
  rep : Nat
  idx : Nat
  /-- number of the governed command, counted through the repetitions. -/
  nth : Nat
  start : Nat
  stop : Nat
  epoch : Bool
  free : Bool
  last : Bool
  deriving DecidableEq, Repr

/-- The armed schedule of a context with its image. -/
def Ctx.armedSched (c : Ctx) : Option (Armed × Schedule) :=
  match c.armed with
  | none => none
  | some a =>
    match c.schedules.find? (fun x => x.num == a.num) with
    | none => none
    | some x => some (a, x)

/-- The number of a governed command of a schedule (R330), none before FIRST_SEQ and after the last slot: its SEQ lies within
2³¹ of the next one to dispatch, behind it where a loss has made the command wait again. -/
def schedNth (a : Armed) (x : Schedule) (seq : W32) : Option Nat :=
  let k := (seq - x.firstSeq).toNat
  let d := (k + 2 ^ 32 - a.done % 2 ^ 32) % 2 ^ 32
  if 2 ^ 31 ≤ d ∧ a.done + d < 2 ^ 32 then none else
  let n := if d < 2 ^ 31 then a.done + d else a.done + d - 2 ^ 32
  if 0 < x.repeats ∧ x.repeats * x.slots ≤ n then none else some n

/-- The slot that governs a SEQ (R330), for `span` commands from there on. -/
def State.slotFor (s : State) (ctx : Nat) (seq : W32) (span : Nat := 1) : Option SlotInfo :=
  match (s.ctx ctx).armedSched with
  | none => none
  | some (a, x) =>
    match schedNth a x seq with
    | none => none
    | some n =>
      let i := n % max 1 x.slots
      match s.readStruct ctx (x.image + 64 + 16 * i) 16 16 with
      | .error _ => none
      | .ok b =>
        let t := a.start + n / max 1 x.slots * x.period + fieldOf b 0 6
        some (SlotInfo.mk (n / max 1 x.slots) i n t (t + fieldOf b 8 4) ((fieldOf b 6 1).testBit 0)
          ((fieldOf b 6 1).testBit 1) (decide (0 < x.repeats ∧ x.repeats * x.slots ≤ n + span)))

/-- Disarm the schedule of a context: pending changes apply from entry `from_` on (R329, R334). -/
def State.disarm (s : State) (ctx from_ : Nat) (seq : W32) : State :=
  match (s.ctx ctx).armedSched with
  | none => s
  | some (_, x) =>
    let s := s.applyPending ctx from_
    let s := s.setCtx ctx { s.ctx ctx with armed := none }
    s.traceRec 12 .collar ctx seq x.compileId.toNat

/-! ## Chains at dispatch (R222, R241, R290-R292) -/

/-- The members of the chain of a CHAIN packet, in order. -/
def State.membersOf (s : State) (e : Entry) : List Entry :=
  (s.entriesOf e.ctx).filter (fun m => m.member.isSome && m.chain == e.seq && m.live && decide (e.id < m.id))

/-- The last command that an entry's slot governs (R330): a CHAIN packet's governs its chain. -/
def State.lastGoverned (s : State) (e : Entry) : Entry :=
  if e.op == some .chain && e.early.isNone then (s.membersOf e).getLast?.getD e else e

/-- The slot that governs an entry (R330). -/
def State.slotOf (s : State) (e : Entry) : Option SlotInfo :=
  s.slotFor e.ctx e.seq (((s.lastGoverned e).seq - e.seq).toNat + 1)

/-- What the two ends of a link must agree in (R290). -/
def TDesc.linkShape (d : TDesc) : Nat × Nat × Nat × Nat × Bool × Nat :=
  (d.fmt, d.kind, d.cols, d.pitch, d.orient, d.group)

/-- Whether the links of a chain agree (R290). -/
def State.linksAgree (s : State) (c : ChainState) (ms : List Entry) : Bool :=
  ms.all (fun m =>
    let h := s.handovers m
    !h.2.2 && (c.stageOf (m.member.getD 0) != 0 || h.1.isEmpty) &&
    (c.stageOf (m.member.getD 0) + 1 != c.stages || h.2.1.isEmpty)) &&
  (List.range (c.stages - 1)).all (fun k =>
    let outs := (ms.filter (fun m => c.stageOf (m.member.getD 0) == k)).flatMap (fun m => (s.handovers m).2.1)
    let ins := (ms.filter (fun m => c.stageOf (m.member.getD 0) == k + 1)).flatMap (fun m => (s.handovers m).1)
    match outs with
    | [] => ins.isEmpty
    | o :: _ =>
      ins.all (fun d => d.linkShape == o.linkShape) &&
      decide ((ins.map (fun d => d.rows)).foldl (· + ·) 0 = o.rows))

/-- What stands in the way of a chain as a whole (R222, R241, R290-R292, R259). -/
def State.chainIssues (s : State) (e : Entry) : List Status :=
  match s.chain? e.ctx e.seq with
  | none => [Status.malformed]
  | some c =>
    let ms := s.membersOf e
    let ry := ms.filter (fun m => m.op == some .ryOwn)
    let bad := ms.any (fun m => pkWaitEn m.packet || m.op == some .chain) ||
      c.overflowAt == 0 || c.overflowBytes % 64 != 0 || decide (c.overflowBytes < c.buffer * 32768) ||
      decide (c.buffer < 2 * (c.stages - 1)) || !s.linksAgree c ms ||
      (!ry.isEmpty && (c.stages != 2 || ry.any (fun m => m.member != some 0))) ||
      bitsOf (fieldOf e.packet 0x10 1) 4 4 != 0 || fieldOf e.packet 0x11 1 != 0 ||
      bitsOf (fieldOf e.packet 0x12 2) 13 3 != 0 || (e.packet.drop 0x28).any (fun b => b != 0)
    need (!bad) ++
      (if c.buffer > (s.usable e.ctx).length * handAllowance s.die then [Status.outOfBounds] else [])

/-! ## Dispatch (R217) -/

/-- The command of a context that dispatches next (R217, R231, R387): the first that is accepted, and not ended so
(R241), or stopped, none behind one that waits for a lost structure, behind a WAIT whose target is not met, or behind a SCHED_ARM
or an ENERGY_MARK that has still to take its effect (R329, R356). A chain's members
go with their CHAIN packet. -/
def State.candidate (s : State) (ctx : Nat) : Option Entry :=
  let es := s.entriesOf ctx
  match es.find? (fun e => (e.state == .accepted && !e.decided) || e.state == .stopped || e.state == .lostWait) with
  | none => none
  | some e =>
    if e.state == .lostWait ||
        es.any (fun w => decide (w.id < e.id) && w.state == .dispatched && !w.decided &&
          (w.op == some .wait || w.op == some .schedArm ||
            (w.op == some .energyMark && !(w.field 0x14 1).testBit 0)))
    then none else some e

/-- The ports of the valid channel words (R189). -/
def RyDesc.ports (d : RyDesc) : List Nat :=
  ([d.up, d.down, d.backupIn, d.backupOut].filter (fun c => c.valid)).map (fun c => c.port)

/-- A round as it is kept for the commands that still name it once it is over; its RY_ROUND_CLOSE given. -/
def RyGroup.asPast (g : RyGroup) (closeId : Nat) : RyPast :=
  RyPast.mk g.ctx g.d.size g.d.ports g.tensors g.openId closeId (g.phase == .aborted) g.given g.settled g.served

/-- The round of a group that a command names (R259): the open one, or one that was open when it was accepted. -/
def State.ryRoundOf (s : State) (e : Entry) : Option RyPast :=
  match smGet? s.groups (e.field 0x10 1 % 16) with
  | none => none
  | some g => (g.asPast (if g.isOpen then e.id + 1 else g.closeId.getD 0) :: g.past).find? (fun r =>
      r.ctx == e.ctx && decide (r.openId < e.id ∧ e.id < r.closeId))

/-- Whether a command belongs to a round that has been aborted (R191, R192): it completes with ROUND_ABORTED, whatever
else applies to it (R229). -/
def State.ryAborted (s : State) (e : Entry) : Bool :=
  (e.op == some .ryContribute || e.op == some .ryHop || e.op == some .ryOwn || e.op == some .ryRoundClose) &&
  (match s.ryRoundOf e with | some r => r.aborted | none => false)

/-- Whether a command is an UPDATE chained to the RY_OWN of an aborted round: it ends with ROUND_ABORTED, whatever else
applies to it (R191, R222, R229). -/
def State.abortedMember (s : State) (e : Entry) : Bool :=
  match e.member with
  | some (_ + 1) => (s.entriesOf e.ctx).any (fun x =>
      x.chain == e.chain && x.member == some 0 && x.op == some .ryOwn && s.ryAborted x)
  | _ => false

/-- Failed statuses that a command carries at dispatch (R207, R218, R222, R233, R236, R394). -/
def State.dispatchIssues (s : State) (e : Entry) : List Status :=
  if s.ryAborted e || s.abortedMember e then [] else
  match e.op with
  | none => [Status.malformed]
  | some op =>
    if (op = .contextOpen ∨ op = .contextClose ∨ op = .preempt) ∧ e.ctx ≠ 0 then [Status.malformed]
    else
      (if !s.mayIssue e op || s.auditDenies e then [Status.deniedRole] else []) ++
      need (!s.badMarks e) ++
      (match e.early with | some st => [st] | none => [])

/-- Whether every GOV_STEP and GOV_BOUNDS before an entry has been decided (R136, R334). -/
def State.govSettled (s : State) (e : Entry) : Bool :=
  (s.entriesOf e.ctx).all (fun g => decide (e.id ≤ g.id) || !g.live || g.decided ||
    !(g.op == some .govStep || g.op == some .govBounds))

/-- Place one entry (R377): its start, its references, the structures that it names (R234), its trace record; and its
outcome when it fails here, `quiet` where nothing of its chain executes (R222). -/
def State.place (s : State) (e : Entry) (issues : List Status) (missed quiet : Bool) : State :=
  let e := { e with
    snap := s.snapOf e
    state := .dispatched, dispatchedOnce := true, waitMet := true
    tStarted := some (e.tStarted.getD s.stamp)
    refs := if e.refs.isEmpty then s.versionRefs e else e.refs
    notes := if missed then e.notes ++ [Status.slotMiss] else e.notes
    early := if issues.isEmpty then none else Status.first issues }
  let s := ((s.setEntry e).readNamed e.ctx (s.enginesOf e) (e.snap.map (fun x => (x.1, x.2.length)))).traceRec 2 .collar e.ctx e.seq
    (pkOpcode e.packet)
  match e.early with
  | some st => (s.walkNamed e).failNow e [st] (if quiet then [] else s.lostRuns e [st])
  | none => s

/-- Count a governed command as dispatched: its slot met or missed (R331, R333), its trace record, the
schedule's progress and its own end (R329). -/
def State.passSlot (s : State) (e : Entry) (i : SlotInfo) (missed : Bool) (lastSeq : W32) (lastId : Nat) :
    State :=
  let s := if i.free then s else s.count (.context e.ctx (if missed then 3 else 2)) 1
  let s := s.traceRec 10 .collar e.ctx e.seq (i.idx + 2 ^ 20 * missed.toNat + 2 ^ 32 * i.rep)
  let c := s.ctx e.ctx
  let n := i.nth + (lastSeq - e.seq).toNat + 1
  let s := s.setCtx e.ctx { c with armed := c.armed.map (fun a => { a with done := max a.done n }) }
  match c.armedSched with
  | some (_, x) =>
    if 0 < x.repeats ∧ x.repeats * x.slots ≤ n then s.disarm e.ctx (lastId + 1) e.seq else s
  | none => s

/-- Whether a stopped or accepted command may dispatch now (R217, R218, R330, R331), chain admission apart: no array or
vector work, nor a chain with any, during a thermal trip (R349). -/
def State.mayDispatch (s : State) (e : Entry) (slot : Option SlotInfo) : Bool :=
  (s.badMarks e || s.markMet e) &&
  !(s.belt.trip && (e.isStepped || (e.op == some .chain && (s.membersOf e).any Entry.isStepped))) &&
  (match slot with
    | some i => (i.free || decide (i.start ≤ s.stamp.toNat)) &&
        (!(i.epoch || i.last) || (s.govSettled e && s.pendingRoom e.ctx))
    | none => true)

/-- Dispatch an entry, a chain with its members (R217, R222, R330-R334). -/
def State.dispatch (s : State) (e : Entry) : State :=
  if !(s.regionsLost e).isEmpty then s.loseRegionsOf e
  else if e.state == .stopped then (if s.belt.trip && e.isStepped then s else s.place e [] false false) else
  let slot := s.slotOf e
  let lost := match slot with
    | some i => if i.epoch || i.last then (s.ctx e.ctx).ledgerLost else []
    | none => []
  if !lost.isEmpty then s.loseFor e lost else
  if !s.mayDispatch e slot then
    (if pkWaitEn e.packet && s.markMet e && !e.waitMet then s.setEntry { e with waitMet := true } else s)
  else
  let isChain := e.op == some .chain && e.early.isNone
  let ms := if isChain then s.membersOf e else []
  let issues := s.dispatchIssues e ++ (if isChain then s.chainIssues e else [])
  let admitted := match s.chain? e.ctx e.seq with | some c => c.admitted | none => false
  if isChain && issues.isEmpty && !admitted then s else
  let missed := match slot with
    | some i => !i.free && decide (i.stop < s.stamp.toNat)
    | none => false
  let s := match slot with
    | some i => if i.epoch then s.applyPending e.ctx e.id else s
    | none => s
  let s := s.place e issues missed (isChain && !issues.isEmpty)
  let s := ms.foldl (fun s m => s.place m (if s.ryAborted m || s.abortedMember m then [] else s.dispatchIssues m ++ issues) false
    (!issues.isEmpty)) s
  let lastMember := s.lastGoverned e
  match slot with
  | some i => s.passSlot e i missed lastMember.seq lastMember.id
  | none => s

/-- COMMAND_DISPATCH (R217): the next command of an OPEN context dispatches, if it may. -/
def execCommandDispatch (ctx : Nat) (s : State) : Host.Outcome State Fault Refusal :=
  if !s.ready.collar ∨ (s.ctx ctx).state ≠ .opened then .next s else
  match s.candidate ctx with
  | none => .next s
  | some e => .next (s.dispatch e)

/-! ## Queues (R271, R272) -/

/-- QUEUE_GRANT (R91, R272): the first command that waits on a core takes all its queues there and the half of the Hem that it
needs, when enough are free. -/
def execQueueGrant (core : Nat) (s : State) : Host.Outcome State Fault Refusal :=
  if !s.ready.collar || !s.coreReady core then .next s else
  match earliest (s.queueWaiters core) with
  | none => .next s
  | some e =>
    if s.coreTakes core [e] then .next ((s.takeQueues e core).beginSteps e core)
    else .next s

/-! ## Chain admission and the stall detector (R290-R294) -/

/-- CHAIN packets that wait for admission: next in their context, their other conditions met. -/
def State.chainWaiters (s : State) : List Entry :=
  s.journal.entries.filter (fun e =>
    e.op == some .chain && e.state == .accepted && e.early.isNone && (s.ctx e.ctx).state == .opened &&
    s.candidate e.ctx == some e && s.mayDispatch e (s.slotOf e) &&
    (s.dispatchIssues e ++ s.chainIssues e).isEmpty &&
    (match s.chain? e.ctx e.seq with | some c => !c.admitted | none => false))

/-- Free allowance of a core. -/
def State.allowanceLeft (s : State) (core : Nat) : Nat :=
  handAllowance s.die - (s.core core).promisedBlocks

/-- Links that lie on a core whose promised blocks of a chain run from number `a` (R292): link i takes the blocks 2 i and
2 i + 1 as its reserved ones, and lies where the first of them does. -/
def linksFrom (links a n : Nat) : Nat := ((List.range links).filter (fun i => decide (a ≤ 2 * i ∧ 2 * i < a + n))).length

/-- Take blocks from cores in ascending order (R292), for a chain with some links: `a` are taken, `n` are still needed. A
core's queues and its stage run on what is left (R273, R283). -/
def State.promise (ctx : Nat) (seq : W32) (links : Nat) : List Nat → Nat → Nat → State → State
  | [], _, _, s => s
  | k :: ks, a, n, s =>
    let t := min n (s.allowanceLeft k)
    let s := if t = 0 then s else
      (s.setCore k { s.core k with
        promised := (s.core k).promised ++ [Promise.mk ctx seq t (linksFrom links a t)] }).shrink k
    State.promise ctx seq links ks (a + t) (n - t) s

/-- Whether the cores that a promise falls on have queues for the links that it puts there (R271). -/
def State.promiseQueues (s : State) (links : Nat) : List Nat → Nat → Nat → Bool
  | [], _, _ => true
  | k :: ks, a, n =>
    let t := min n (s.allowanceLeft k)
    decide (linksFrom links a t ≤ (s.core k).free) && s.promiseQueues links ks (a + t) (n - t)

/-- Return a chain's promise. -/
def State.unpromise (s : State) (ctx : Nat) (seq : W32) : State :=
  { s with cores := s.cores.map (fun u =>
    (u.1, { u.2 with promised := u.2.promised.filter (fun q => !(q.ctx == ctx && q.seq == seq)) })) }

/-- Rows that a member of the last stage takes from its link, in bytes. -/
def State.takeOf (s : State) (m : Entry) : Nat :=
  ((s.handovers m).1.map (fun d => d.rows * d.pitch)).foldl (· + ·) 0

/-- CHAIN_ADMIT (R292): the earliest waiting chain is promised its blocks, whole or not at all, once its links have their
queues (log 15). -/
def execChainAdmit (s : State) : Host.Outcome State Fault Refusal :=
  if !s.ready.collar then .next s else
  match earliest s.chainWaiters with
  | none => .next s
  | some e =>
    match s.chain? e.ctx e.seq with
    | none => .next s
    | some c =>
      let cores := s.usable e.ctx
      if c.buffer ≤ (cores.map s.allowanceLeft).foldl (· + ·) 0 && s.promiseQueues (c.stages - 1) cores 0 c.buffer then
        let last := (s.membersOf e).filter (fun m => decide (c.stages - 1 ≤ m.member.getD 0))
        let s := s.setChain { c with admitted := true, takes := last.map s.takeOf }
        .next (State.promise e.ctx e.seq (c.stages - 1) cores 0 c.buffer s)
      else .next s

/-- The younger of two chains (R294). -/
def younger (a b : ChainState) : ChainState :=
  if b.tAccepted.toNat < a.tAccepted.toNat then a else if a.tAccepted.toNat < b.tAccepted.toNat then b
  else if b.ctx < a.ctx then a else if a.ctx < b.ctx then b
  else if b.seq.toNat < a.seq.toNat then a else b

/-- Add a completed-class code to every member of a chain that has not completed. -/
def State.noteMembers (s : State) (c : ChainState) (st : Status) : State :=
  (s.journal.entries.filter (fun e => e.ctx == c.ctx && e.chain == c.seq && e.member.isSome && e.live)).foldl
    (fun s e => s.setEntry { e with
      notes := e.notes ++ [st]
      status := if e.decided && !(Status.failed e.status) then Status.highest [e.status, st] else e.status }) s

/-- End every member of a chain that has no outcome yet. -/
def State.endMembers (s : State) (c : ChainState) (st : Status) : State :=
  (s.journal.entries.filter (fun e => e.ctx == c.ctx && e.chain == c.seq && e.member.isSome && e.live &&
    !e.decided)).foldl (fun s e => (s.conclude e st 0 false).workEnd e st) s

/-- Whether the stall detector acts now (R294): a link has been starved, and no block has moved, for 100,000 ticks. -/
def State.stallOver (s : State) : Bool :=
  match s.starved with
  | some t => decide (100000 ≤ (s.stamp - t).toNat)
  | none => false

/-- The blocks that the links of a chain hold and that no consumer has taken go to its overflow region, in ascending order
(R294 step 2). -/
def State.spillLinks (s : State) (c : ChainState) : State :=
  (List.range (c.stages - 1)).foldl (fun t k =>
    let at_ := s.linkTaken c k / blockBytes * blockBytes
    t.ringStore c k at_ ((c.links.getD k []).drop at_)) s

/-- DEADLOCK_BREAK (R294): the stall detector has seen 100,000 ticks without hand-over progress. -/
def execDeadlockBreak (s : State) : Host.Outcome State Fault Refusal :=
  if !s.ready.collar || !s.stallOver then .next s else
  let cs := s.chains.filter s.chainStarved
  let s : State := { s with starved := none }
  match cs.filter (fun c => !c.overflow) with
  | [] => .next (cs.foldl (fun s c => s.endMembers c Status.outOfBounds) s)
  | c :: rest =>
    let v := rest.foldl younger c
    let n := ((List.range (v.stages - 1)).map (s.linkHeld v)).foldl (· + ·) 0
    match s.resolve v.ctx v.overflowAt v.overflowBytes true with
    | .error _ => .next (s.endMembers v Status.outOfBounds)
    | .ok _ =>
      let s := ((s.setChain { v with overflow := true }).spillLinks v).unpromise v.ctx v.seq
      let s := (s.noteMembers v Status.deadlockBroken).count (.control 2) 1
      let s := s.count (.context v.ctx 5) 1
      .next (s.traceRec 15 .collar v.ctx v.seq (n * 2 ^ 32))

/-! ## Completion (R225) -/

/-- Retained references of a context on a version (R176). -/
def State.retainedOf (s : State) (v : VRef) : Nat :=
  match s.retained.find? (fun r => r.1 == v) with
  | some r => r.2
  | none => 0

/-- Set a count of retained references. -/
def State.setRetained (s : State) (v : VRef) (n : Nat) : State :=
  let r := s.retained.filter (fun r => r.1 != v)
  { s with retained := if n = 0 then r else r ++ [(v, n)] }

/-- The references that a command's completion takes and drops (R176). -/
def State.applyRefs (s : State) (e : Entry) : State :=
  if Status.completed e.status then
    let s := e.retain.foldl (fun s v => s.setRetained v (s.retainedOf v + 1)) s
    e.drops.foldl (fun s v => s.setRetained v (s.retainedOf v - 1)) s
  else s

/-- Host ports that a command wrote to besides the one of its record (R429). -/
def State.flushPorts (s : State) (e : Entry) : List Nat :=
  let c := s.ctx e.ctx
  let rec_ := placeOf (c.cq.addr (32 * (c.cqTail.toNat % max 1 c.cqEntries)))
  (List.range 4).filter (fun p =>
    rec_ != .host p && s.ready.seam.getLsbD p &&
    e.wrote.any (fun r => placeOf r.1 == .host p))

/-- The lowest tag that no outstanding read of a port uses. -/
def State.freeTag (s : State) (p : Nat) : Nat :=
  ((List.range (s.hostReads.length + 1)).find? (fun t =>
    !s.hostReads.any (fun r => r.port == p && r.tag == t))).getD 0

/-- Send the reads of LENGTH 0 of R429. -/
def State.sendFlush (s : State) (e : Entry) (ps : List Nat) : State :=
  ps.foldl (fun s p =>
    let t := s.freeTag p
    let s := { s with hostReads := s.hostReads ++ [HostRead.mk p t 0 0 e.ctx e.seq] }
    s.send p (Packet.mk .mrd 0 true (s.endpointOf e.ctx) 0 0 0 t [])) s

/-- The SIGNAL mark of a completed command, once (R219, R385). -/
def State.signalMark (s : State) (e : Entry) : State :=
  let n := pkSignalCtr e.packet
  if pkSignalEn e.packet && (s.ctx e.ctx).hasFence n && !s.journal.signals.contains (n, e.ctx, e.seq) then
    let s := s.setFence n (s.fence n + 1)
    let l := s.journal.signals ++ [(n, e.ctx, e.seq)]
    { s with journal := { s.journal with signals := l.drop (l.length - 256) } }
  else s

/-- The jobs of its context that a completed command is a member of (R356): counted, its flags joined to theirs. -/
def State.jobMember (s : State) (e : Entry) : State :=
  let c := s.ctx e.ctx
  if c.jobs.isEmpty then s else
  s.setCtx e.ctx { c with jobs := c.jobs.map (fun j =>
    if s.jobCovers e.ctx j e.seq then { j with
      members := j.members + 1, lastDone := s.stamp
      energy := { j.energy with
        reexecuted := j.energy.reexecuted || e.energy.reexecuted, partial_ := j.energy.partial_ || e.energy.partial_ } }
    else j) }

/-- Everything that follows a visible record (R225 steps 3 and 4, R176, R222, R292, R313, R377). -/
def State.afterRecord (s : State) (e : Entry) : State :=
  let s := s.traceRec 3 .collar e.ctx e.seq
    (pkOpcode e.packet + 2 ^ 16 * e.status.toNat + 2 ^ 32 * e.result.toNat)
  let s := s.count (.context e.ctx (if Status.failed e.status then 1 else 0)) 1
  let s := s.signalMark e
  let s := s.applyRefs e
  let s := s.jobMember e
  let s := (s.freeSave e).setEntry { e with
    state := .completed, tRecord := s.stamp, signalled := pkSignalEn e.packet, refs := [], faults := 0, faultCore := none
    snap := [], saved := none }
  let s := (s.endWork e).unpin (fun o => o == e.pinner)
  let s := match e.member with
    | some _ => if (s.journal.entries.any (fun m => m.ctx == e.ctx && m.chain == e.chain && m.member.isSome &&
          m.live)) then s else s.unpromise e.ctx e.chain
    | none => if e.op == some Op.chain then
        { s with chains := s.chains.filter (fun c => !(c.ctx == e.ctx && c.seq == e.seq)) } else s
  let s := s.mergeStats e.ctx
  if pkNotify e.packet then s.notice (s.endpointOf e.ctx) e.ctx 0 (s.ctx e.ctx).cqTail else s

/-- Complete a decided entry: statistics, COMPLETING, the record, and what follows it. A record that cannot be
written leaves the entry COMPLETING (R473). -/
def State.complete (s : State) (e : Entry) : State :=
  let s := s.dropCopies e.wrote
  let c := s.ctx e.ctx
  let e := { e with cqCount := c.cqTail }
  let s := s.setEntry { e with state := .completing }
  let s := if Status.completed e.status then s.giveStats e else s
  let s := s.setEntry { e with state := .completing, stats := [] }
  if !s.cqSlotOk e.ctx c.cqTail then s else
  (s.putRecord e.ctx e.recordBytes).afterRecord { e with state := .completing, stats := [] }

/-- Entries that are COMPLETING with a SIGNAL mark (R385). -/
def State.signalling (s : State) : Nat :=
  (s.journal.entries.filter (fun e => e.state == .completing && pkSignalEn e.packet)).length

/-- Whether a completion ring has a part that is lost (R473). -/
def State.cqLost (s : State) (ctx : Nat) : Bool := (s.ctx ctx).cq.lost

/-- A command whose outcome is decided and whose record is still to be written (R225): after its work, at its
acceptance (R241), or COMPLETING while its ring could not be written. -/
def Entry.ending (e : Entry) : Bool :=
  e.decided && (match e.state with
    | .accepted | .dispatched | .committed | .completing => true
    | _ => false)

/-- COMMAND_COMPLETE (R225): a decided command completes; where it wrote to other host ports the engine first
reads back from each (R429). While the port of its ring is not ready it waits; a lost ring leaves it COMPLETING
(R473). -/
def execCommandComplete (ctx : Nat) (seq : W32) (s : State) : Host.Outcome State Fault Refusal :=
  match s.entry? ctx seq with
  | none => .next s
  | some e =>
    if !s.ready.collar || !e.ending then .next s
    else if !s.cqLost ctx && !s.cqSlotOk ctx (s.ctx ctx).cqTail then .next s
    else
      let ps := s.flushPorts e
      if !e.flushed && !ps.isEmpty then .next ((s.sendFlush e ps).setEntry { e with flushed := true })
      else if s.hostReads.any (fun r => r.ctx == ctx && r.seq == seq && r.len == 0) then .next s
      else if !s.statsRoom e || decide (256 ≤ s.signalling ∧ pkSignalEn e.packet = true) then .next s
      else .next (s.complete e)

end Sys2Proof.Machine
end

