-- ==== Sys2Proof/Machine/Regs.lean ====
section
/-!
DEFINITION. Sys2Proof/Machine/Regs.lean: the Tag aperture (R456-R470): what a read of a word gives, the
latches of R460, what a write does and who may make it (R14, R393, R395); and the rows that are register
accesses.
-/
namespace Sys2Proof.Machine

/-! ## Reading -/

/-- A word from fields: value and lowest bit. -/
def word (fs : List (Nat × Nat)) : W32 := BitVec.ofNat 32 ((fs.map (fun f => f.1 * 2 ^ f.2)).foldl (· + ·) 0)

/-- A binary64 in the unit 1/k, to the nearest whole unit, ties away from zero (R10, R360). -/
def reportUnits (k : Nat) (v : W64) : Int :=
  match val64 v.toNat with
  | .num neg m e =>
    let d := 2 ^ (-e).toNat
    let n : Nat := if e ≥ 0 then m * k * 2 ^ e.toNat else (2 * m * k + d) / (2 * d)
    if neg then -(n : Int) else n
  | _ => 0

/-- A temperature in 1/16 degree, signed, 16 bits. -/
def reportTemp (v : W64) : BitVec 16 := BitVec.ofInt 16 (reportUnits 16 v)

/-- P_th in W, saturating (R347). -/
def reportPower (v : W64) : Nat := min 65535 (reportUnits 1 v).toNat

/-- X, a count of nJ, in mJ (R343): R360 does not say how a part of a mJ is reported (log 59). -/
def reportBucket (x : Nat) : Nat :=
  x / 1000000 + (if x % 1000000 ≠ 0 ∧ Config.roundUp (BitVec.ofNat 64 x) = true then 1 else 0)

/-- States of R209 as CTX_STATE reports them. -/
def CtxState.code : CtxState → Nat
  | .closed => 0 | .opened => 1 | .preempting => 2 | .preempted => 3 | .closing => 4

/-- States of R467. -/
def StackState.code : StackState → Nat
  | .off => 0 | .training => 1 | .zeroing => 2 | .ready => 3 | .retraining => 4 | .selfRefresh => 5
  | .failed => 6

/-- States of R424. -/
def SeamState.code : SeamState → Nat
  | .disabled => 0 | .idle => 1 | .detect => 2 | .equalise => 3 | .config => 4 | .active => 5
  | .retrain => 6 | .failed => 7

/-- States of R321. -/
def TbMode.code : TbMode → Nat
  | .free => 0 | .acquiring => 1 | .locked => 2 | .syncLost => 3

/-- Stages of R440. -/
def BootStage.code : BootStage → Nat
  | .waitBundle => 0 | .verifying => 1 | .running => 2 | .measuring => 3

/-- CHECK of R465. -/
def CheckState.code : CheckState → Nat
  | .notRun => 0 | .running => 1 | .passed => 2 | .failed => 3

/-- Bits set in a mask. -/
def popMask {w : Nat} (m : BitVec w) : Nat := ((List.range w).filter (fun i => m.getLsbD i)).length

/-- CAP_UNITS (R440). -/
def State.capUnits (s : State) : W32 :=
  word [(s.caps.sleeves.toNat, 0), (s.caps.stks.toNat, 16), (s.caps.seam.toNat, 22), (s.caps.dist.toNat, 26),
    (dieArrays s.die, 28)]

/-- The identity block (R440). -/
def State.idRead (s : State) (off : Nat) : W32 :=
  if off = 0x00 then 0x00050100
  else if off = 0x04 then (match s.die with | .g5x16 => 0x10 | .g5x8 => 0x08)
  else if off = 0x08 then s.capUnits
  else if 0x10 ≤ off ∧ off < 0x20 then (s.caps.cores >>> (8 * (off - 0x10))).setWidth 32
  else if off = 0x20 then s.caps.gusset.setWidth 32
  else if 0x40 ≤ off ∧ off < 0x58 then
    let p := s.stack ((off - 0x40) / 4)
    word [(p.capacity.toNat, 0), (p.height.toNat, 16), (p.rate.toNat, 20)]
  else if 0x60 ≤ off ∧ off < 0x70 then
    let k := (off - 0x60) / 4
    let p := s.seam k
    if k < dieSeams s.die then word [(popMask p.tx, 0), (popMask p.rx, 4), (p.state.code, 8)] else 0
  else if off = 0x80 then
    word [(s.ready.tag.toNat, 0), (s.ready.lining.toNat, 1), (s.ready.collar.toNat, 2),
      (s.ready.stks.toNat, 3), (s.ready.seam.toNat, 9)]
  else if off = 0x84 then s.ready.sleeves.setWidth 32
  else if off = 0x88 then
    word [(s.boot.stage.code, 0), (s.boot.err.toNat, 3), (s.boot.warmIgnored.toNat, 7),
      (s.boot.bundle.length / 1024 % 2 ^ 24, 8)]
  else if off = 0x8C then s.pins.straps.setWidth 32
  else 0

/-- The time base block but for the pair TB_NOW (R323). -/
def State.tbRead (s : State) (off : Nat) : W32 :=
  let b := s.tb
  if off = 0x2008 then b.loadLo
  else if off = 0x200C then b.loadHi
  else if off = 0x2010 then
    word [(b.mode.code, 0), (b.loadPending.toNat, 2), (b.loadErr.toNat, 3), (b.stepped.toNat, 4),
      (b.lastError.toNat, 16)]
  else if off = 0x2014 then b.edges
  else if off = 0x2018 then b.slews
  else if off = 0x201C then b.losses
  else 0

/-- The entry of a context with a SEQ, the newest if several. -/
def State.entryOfSeq (s : State) (ctx : Nat) (seq : W32) : Option Entry :=
  ((s.entriesOf ctx).filter (fun e => e.seq == seq)).getLast?

/-- CTX_RESULT_STATUS (R210, R211): an accepted command whose entry is no longer held has had its record
released, unless the context's close cancelled it, which leaves it without a record for good (R232). Entries of the
context's earlier lives do not count. -/
def State.resultStatus (s : State) (ctx : Nat) : W32 :=
  let c := s.ctx ctx
  let q := c.resultSeq
  if c.cancelled.contains q then word [(2, 0), (1, 8)] else
  match ((s.entriesOf ctx).filter (fun e => e.seq == q && (e.live || e.state == .completed))).getLast? with
  | some e =>
    if e.state = .completed then word [(e.status.toNat, 0), (1, 8), (1, 9)] else word [(2, 0), (1, 8)]
  | none =>
    if (q - c.initialSeq).toNat < (c.acceptSeq + 1 - c.initialSeq).toNat then
      word [(2, 0), (1, 8), (1, 9), (1, 10)]
    else word [(2, 0)]

/-- A word of a context page (R210). -/
def State.pageRead (s : State) (ctx reg : Nat) : W32 :=
  let c := s.ctx ctx
  if reg = 0x00 then c.sqTail
  else if reg = 0x04 then c.sqHead
  else if reg = 0x08 then c.acceptSeq
  else if reg = 0x0C then c.cqHead
  else if reg = 0x10 then c.cqTail
  else if reg = 0x14 then c.resultSeq
  else if reg = 0x18 then s.resultStatus ctx
  else if reg = 0x1C then
    word [(c.state.code, 0), (c.dbErr.toNat, 3), (c.seqErr.toNat, 4), (c.cqErr.toNat, 5)]
  else if reg = 0x20 then c.dup
  else 0

/-- Loss records held (R389). -/
def State.lossCount (s : State) : Nat := min 4096 ((s.journal.losses.filter (fun l => l.isSome)).length)

/-- The Collar block past the context pages (R305, R389, R463). -/
def State.colRead (s : State) (off : Nat) : W32 :=
  let j := s.journal
  let c := s.collar
  if off = 0x020000 then word [(c.xlateCtx, 0), (c.xlateBusy.isSome.toNat, 31)]
  else if off = 0x020100 then j.base.setWidth 32
  else if off = 0x020104 then (j.base >>> 32).setWidth 32
  else if off = 0x020108 then j.mirror.setWidth 32
  else if off = 0x02010C then (j.mirror >>> 32).setWidth 32
  else if off = 0x020110 then word [(j.enable.toNat, 0), (j.state, 1)]
  else if off = 0x020114 then
    if j.enable then BitVec.ofNat 32 (ringLines - (j.head - j.tail)) else 0
  else if off = 0x020118 then c.fault.setWidth 32
  else if 0x020120 ≤ off ∧ off < 0x020130 then (c.retired >>> (8 * (off - 0x020120))).setWidth 32
  else if off = 0x020130 then c.retireReq.setWidth 32
  else if off = 0x020140 then BitVec.ofNat 32 s.lossCount
  else if off = 0x020144 then c.lossSel.setWidth 32
  else if off = 0x020148 then c.lossClear.setWidth 32
  else if 0x020150 ≤ off ∧ off < 0x020170 then
    match j.losses.getD c.lossSel.toNat none with
    | some l => BitVec.ofNat 32 (fieldOf l.bytes (off - 0x020150) 4)
    | none => 0
  else if off = 0x020200 then c.ctx0Sq.setWidth 32
  else if off = 0x020204 then (c.ctx0Sq >>> 32).setWidth 32
  else if off = 0x020208 then c.ctx0SqEntries
  else if off = 0x02020C then c.ctx0Cq.setWidth 32
  else if off = 0x020210 then (c.ctx0Cq >>> 32).setWidth 32
  else if off = 0x020214 then c.ctx0CqEntries
  else if off = 0x020218 then word [(c.ctx0Active.toNat, 1), (c.ctx0CfgErr.toNat, 2)]
  else 0

/-- A sleeve's block (R465): nothing where the die or the profile leaves it out. -/
def State.sleeveRead (s : State) (k off : Nat) : W32 :=
  let v := s.sleeve k
  if !s.caps.sleeves.getLsbD k && !v.retired then 0
  else if off = 0x00 then
    word [((s.caps.sleeves.getLsbD k).toNat, 0), ((s.ready.sleeves.getLsbD k).toNat, 1), (v.retired.toNat, 2),
      (v.check.code, 3), (v.fabricFail.toNat, 5)]
  else if off = 0x04 then
    word [((s.caps.cores >>> (8 * k)).toNat % 256, 0), (v.coresFailed.toNat, 8),
      ((s.collar.retired >>> (8 * k)).toNat % 256, 16)]
  else if off = 0x08 then
    word [((s.caps.gusset.getLsbD k).toNat, 0), (v.gussetRetired.toNat, 1), (v.gussetFailed.toNat, 2)]
  else if off = 0x0C then v.sensor.setWidth 32
  else if off = 0x10 then BitVec.ofNat 32 (s.streamsOn k)
  else if off = 0x14 then BitVec.ofNat 32 ((s.fabric.cache k).l2.filter (fun l => l.cls == .pin)).length
  else if off = 0x18 then v.faults
  else if off = 0x20 then v.checkT.setWidth 32
  else if off = 0x24 then (v.checkT >>> 32).setWidth 32
  else 0

/-- Whether the unit of a domain of R350 is present: sleeves 0-15, stacks 16-21, Seam ports 22-25, the uncore 26. -/
def State.domainPresent (s : State) (d : Nat) : Bool :=
  if d < 16 then s.caps.sleeves.getLsbD d else if d < 22 then s.caps.stks.getLsbD (d - 16)
  else if d < 26 then s.caps.seam.getLsbD (d - 22) else decide (d = 26)

/-- The Belt block (R360). A new cap or calibration reads back at once (R344, R351). -/
def State.beltRead (s : State) (r : Nat) : W32 :=
  let b := s.belt
  if r = 0x00 then word [(b.defaults.toNat, 0), (b.cfgErr.toNat, 1), (b.trip.toNat, 2)]
  else if r = 0x04 then b.slewLimit.setWidth 32
  else if r = 0x08 then (match s.die with | .g5x16 => 0x1F40 | .g5x8 => 0x0FA0)
  else if r = 0x0C then (match s.die with | .g5x16 => 0x05DC | .g5x8 => 0x02EE)
  else if r = 0x10 then b.peakCap.setWidth 32
  else if r = 0x14 then b.susMax.setWidth 32
  else if r = 0x18 then (b.capNext.getD b.powerCap).setWidth 32
  else if r = 0x1C then b.coolant.setWidth 32
  else if r = 0x20 then b.tLimit.setWidth 32
  else if r = 0x24 then b.tTrip.setWidth 32
  else if r = 0x28 then word [(b.step, 0), (b.causes.toNat, 4)]
  else if r = 0x2C then BitVec.ofNat 32 (reportBucket b.bucket)
  else if r = 0x30 then word [((reportTemp b.td).toNat, 0), ((reportTemp b.tp).toNat, 16)]
  else if r = 0x34 then word [((reportTemp b.tc).toNat, 0), (b.hottest.toNat, 16)]
  else if r = 0x38 then BitVec.ofNat 32 (reportPower b.pThermal)
  else if r = 0x40 then b.thDp
  else if r = 0x44 then b.thPc
  else if r = 0x48 then b.thCi
  else if r = 0x4C then b.cD
  else if r = 0x50 then b.cP
  else if r = 0x54 then b.cC
  else if r = 0x60 then word [(b.gainMin.toNat, 0), (b.gainMax.toNat, 16)]
  else if r = 0x64 then b.offsMax.setWidth 32
  else if r = 0x68 then b.calId.setWidth 32
  else if r = 0x6C then (b.calId >>> 32).setWidth 32
  else if 0x80 ≤ r ∧ r < 0xA0 then
    match b.resv.getD ((r - 0x80) / 8) none with
    | none => 0
    | some v => if r % 8 = 0 then word [(v.ctx, 0), (v.ramp, 16), (1, 23)] else BitVec.ofNat 32 v.watts
  else if 0x100 ≤ r ∧ r < 0x16C then
    let d := (r - 0x100) / 4
    if !s.domainPresent d then 0 else
    match (b.calNext.filter (fun c => c.1 == d)).getLast? with
    | some c => c.2
    | none => b.cal.getD d 0
  else if r = 0x308 then b.receipts.setWidth 32
  else 0

/-- A mask of the slots of a table in use. -/
def usedMask {α : Type} (t : List (Option α)) : Nat :=
  (t.zipIdx.map (fun x => if x.1.isSome then 2 ^ x.2 else 0)).foldl (· + ·) 0

/-- The Lining block and the audit window (R399, R418). -/
def State.linRead (s : State) (off : Nat) : W32 :=
  let l := s.lining
  let r := off - 0x300000
  if 0x380000 ≤ off then
    let i := (off - 0x380000) / 64
    match l.audit[i]? with
    | some a => BitVec.ofNat 32 (fieldOf (a.bytes i) (off % 64) 4)
    | none => 0
  else if r = 0x00 then
    word [(l.measured.toNat, 0), (s.boot.profile.isSome.toNat, 1), (s.boot.fwStaged.isSome.toNat, 2),
      (l.auditFull.toNat, 3), (l.helperErr.toNat, 4)]
  else if r = 0x04 then word [(l.ctx0Ep.toNat, 0), (l.ctx0Latched.toNat, 16)]
  else if 0x10 ≤ r ∧ r < 0x50 then
    match l.sessions.getD ((r - 0x10) / 4) none with
    | some v => word [(v.role, 0), (1, 2), (v.key, 3), (v.endpoint, 16)]
    | none => 0
  else if r = 0x50 then l.authFails
  else if r = 0x54 then l.chanAuth
  else if r = 0x58 then BitVec.ofNat 32 l.seals.length
  else if 0x100 ≤ r ∧ r < 0x180 then BitVec.ofNat 32 (fieldOf l.enrolBuf (r - 0x100) 4)
  else if r = 0x180 then l.enrolCmd.setWidth 32
  else if r = 0x184 then word [(l.enrolDone.toNat, 0), (l.enrolErr.toNat, 1)]
  else if r = 0x188 then BitVec.ofNat 32 (usedMask l.opKeys)
  else if r = 0x18C then BitVec.ofNat 32 (usedMask l.anchors)
  else if r = 0x190 then BitVec.ofNat 32 (usedMask l.instKeys)
  else if r = 0x200 then BitVec.ofNat 32 l.audit.length
  else if 0x210 ≤ r ∧ r < 0x240 then (l.auditHead >>> (8 * (r - 0x210))).setWidth 32
  else if 0x240 ≤ r ∧ r < 0x270 then BitVec.ofNat 32 (fieldOf (bootHash l.bootNonce) (r - 0x240) 4)
  else 0

/-- The trace block (R454). -/
def State.traceRead (s : State) (r : Nat) : W32 :=
  let t := s.trace
  let base := BitVec.ofNat 64 (t.byteAddr 0)
  let bytes := BitVec.ofNat 64 t.bytes
  if r = 0x00 then word [(t.mode, 0), (t.placed.toNat, 2), (t.triggered.toNat, 3), (t.full.toNat, 4)]
  else if r = 0x08 then base.setWidth 32
  else if r = 0x0C then (base >>> 32).setWidth 32
  else if r = 0x10 then bytes.setWidth 32
  else if r = 0x14 then (bytes >>> 32).setWidth 32
  else if r = 0x18 then BitVec.ofNat 32 t.post
  else if r = 0x1C then BitVec.ofNat 32 t.next
  else if r = 0x20 then BitVec.ofNat 32 t.preNext
  else if r = 0x24 then BitVec.ofNat 32 t.trigIndex
  else if r = 0x28 then t.wraps
  else if r = 0x30 then t.drops.setWidth 32
  else if r = 0x34 then (t.drops >>> 32).setWidth 32
  else 0

/-- A stack port's block (R467): nothing where the die or the profile leaves it out. -/
def State.stackRead (s : State) (m off : Nat) : W32 :=
  let p := s.stack m
  if dieStacks s.die ≤ m ∨ p.state = .off then 0
  else if off = 0x00 then
    word [(p.state.code, 0), ((s.caps.stks.getLsbD m).toNat, 3), (p.journal.toNat, 4)]
  else if off = 0x08 then p.pcFailed.setWidth 32
  else if off = 0x0C then (p.pcFailed >>> 32).setWidth 32
  else if off = 0x10 then word [(p.trainFails, 0), (p.lanes.toNat, 8)]
  else if off = 0x14 then word [(p.temp.toNat, 0), (p.refresh.toNat, 16)]
  else if off = 0x18 then p.zeroed.setWidth 32
  else if off = 0x1C then BitVec.ofNat 32 ((s.fabric.port m).slots.length % 2 ^ 17)
  else 0

/-- A Seam port's block (R468). -/
def State.seamRead (s : State) (k off : Nat) : W32 :=
  let p := s.seam k
  if dieSeams s.die ≤ k ∨ p.state = .disabled then 0
  else if off = 0x00 then
    word [(p.state.code, 0), ((s.ready.seam.getLsbD k).toNat, 3), (p.tx.toNat, 4), (p.rx.toNat, 8),
      (p.trainFails, 12)]
  else if off = 0x04 then word [(p.peerEp.toNat, 0), (p.peerPort.toNat, 16), (p.peerDie.toNat, 24)]
  else if off = 0x08 then BitVec.ofNat 32 (p.replay.length % 4096)
  else if 0x40 ≤ off ∧ off < 0x88 then BitVec.ofNat 32 (p.granted.getD ((off - 0x40) / 4) 0 % 2 ^ 14)
  else 0

/-- The value of a pair of words whose LO half lies at an offset (R460): the time base, the counters, the
fence counters, the Belt's energies. -/
def State.pairAt (s : State) (lo : Nat) : Option W64 :=
  if lo = 0x2000 then some s.stamp
  else if 0x080000 ≤ lo ∧ lo < 0x100000 then some (s.fence ((lo - 0x080000) / 8))
  else if 0x400000 ≤ lo ∧ lo < 0x490000 then (if isCounterLo lo then some (s.counterAt lo) else none)
  else if 0x200200 ≤ lo ∧ lo < 0x2002D8 then some (s.belt.energy.getD ((lo - 0x200200) / 8) 0)
  else if lo = 0x200300 then some s.belt.unattributed
  else none

/-- Offsets of the LO words of RO pairs whose halves the block reads give (R460). -/
def isRoPairLo (off : Nat) : Bool :=
  off == 0x200068 || off == 0x500008 || off == 0x500010 || off == 0x500030 ||
  (decide (0x100000 ≤ off ∧ off < 0x200000) && off % 0x10000 == 0x20) ||
  (decide (0x600000 ≤ off ∧ off < 0x660000) && off % 0x10000 == 0x08)

/-- The live value of a word of the aperture (R456); 0 where there is no register (R14). -/
def State.regRead (s : State) (off : Nat) : W32 :=
  if off % 4 ≠ 0 then 0 else
  match s.pairAt (off - off % 8) with
  | some v => if off % 8 = 0 then v.setWidth 32 else (v >>> 32).setWidth 32
  | none =>
    if off < 0x90 then s.idRead off
    else if 0x2000 ≤ off ∧ off < 0x2020 then s.tbRead off
    else if 0x010000 ≤ off ∧ off < 0x020000 then s.pageRead ((off - 0x010000) / 0x40) (off % 0x40)
    else if 0x020000 ≤ off ∧ off < 0x020220 then s.colRead off
    else if 0x100000 ≤ off ∧ off < 0x200000 then s.sleeveRead ((off - 0x100000) / 0x10000) (off % 0x10000)
    else if 0x200000 ≤ off ∧ off < 0x20030C then s.beltRead (off - 0x200000)
    else if 0x300000 ≤ off ∧ off < 0x400000 then s.linRead off
    else if 0x500000 ≤ off ∧ off < 0x500038 then s.traceRead (off - 0x500000)
    else if 0x600000 ≤ off ∧ off < 0x660000 then s.stackRead ((off - 0x600000) / 0x10000) (off % 0x10000)
    else if 0x700000 ≤ off ∧ off < 0x740000 then s.seamRead ((off - 0x700000) / 0x10000) (off % 0x10000)
    else 0

/-- The reader that a source counts as: each far endpoint, and the I3C port (R460). -/
def readerOf : Source → Nat
  | .seam _ ep _ => ep + 1
  | .i3c => 0

/-- A read of a word from a source (R460): a LO word latches its HI word, one latch for each reader. -/
def State.readWord (s : State) (src : Source) (off : Nat) : W32 × State :=
  let k := (readerOf src)
  let v := s.regRead off
  if off % 4 = 0 ∧ ((s.pairAt off).isSome ∨ isRoPairLo off = true) ∧ off % 8 = 0 then
    let hi := s.regRead (off + 4)
    (v, { s with latches := s.latches.filter (fun l => l.1 != k) ++ [(k, off, hi)] })
  else
    match s.latches.find? (fun l => l.1 == k && l.2.1 + 4 == off) with
    | some l => (l.2.2, s)
    | none => (v, s)

/-! ## Rights (R14, R392, R393, R395) -/

/-- Endpoint of a source. -/
def sourceEp : Source → Option Nat
  | .seam _ ep _ => some ep
  | .i3c => none

/-- A source whose endpoint holds a session of a role (R395). -/
def State.srcHolds (s : State) (src : Source) (role : Nat) : Bool :=
  match src with
  | .seam _ ep _ => s.holds ep role
  | .i3c => false

/-- A source that may write an RW/role register (R393): its endpoint holds the role, its channel is
encrypted. -/
def State.srcRole (s : State) (src : Source) (role : Nat) : Bool :=
  match src with
  | .seam _ ep enc => enc && s.holds ep role
  | .i3c => false

/-- The endpoint whose writes a context's page takes (R208, R212, R392): none before it has been opened, or
before context 0's endpoint is latched. -/
def State.pageOwner (s : State) (ctx : Nat) : Option Nat :=
  if ctx = 0 then (if s.lining.ctx0Latched then some s.lining.ctx0Ep.toNat else none)
  else if (s.ctx ctx).endpoint = 0 then none else some (s.ctx ctx).endpoint

/-- A source is the owner of a context's page. -/
def State.srcOwns (s : State) (src : Source) (ctx : Nat) : Bool :=
  match sourceEp src, s.pageOwner ctx with
  | some a, some b => a == b
  | _, _ => false

/-- An audit entry of KIND 1 for a register write that takes effect (R15, R398). -/
def State.auditWrite (s : State) (src : Source) (role off : Nat) (v : W32) : State :=
  s.audited 1 role ((sourceEp src).getD 0) (BitVec.ofNat 32 off) 0 (v.setWidth 64)

/-! ## What writes do -/

/-- CTX_SQ_TAIL (R212): a doorbell behind the last one, or more than the ring ahead of the fetched packets, is
ignored. Context 0's is held while its rings are not in use (R464). -/
def State.doorbell (s : State) (ctx : Nat) (v : W32) : State :=
  let c := s.ctx ctx
  if ctx = 0 ∧ s.collar.ctx0Active = false then s.setCtx ctx { c with sqTail := v }
  else
    let d := (v - c.sqHead).toNat
    if d < (c.sqTail - c.sqHead).toNat ∨ c.sqEntries < d then s.setCtx ctx { c with dbErr := true }
    else s.setCtx ctx { c with sqTail := v }

/-- The context-table record of a context (R378): SEQ and SQ_COUNT of the entry reclaimed last, and that there is one (the
manual lays the record out no further: a DESIGN CHOICE, log 87). -/
def Entry.tableRecord (e : Entry) : Bytes := leBytes 4 e.seq.toNat ++ leBytes 4 e.sqCount.toNat ++ leBytes 1 1

/-- Reclaim journal entries in ring order (R378): past entries that are released or cancelled; each leaves its SEQ and
SQ_COUNT in its context-table record. An entry without lines in the ring (R374) holds none back. -/
def State.reclaimAux : List Entry → State → State
  | [], s => s
  | e :: es, s =>
    if e.state = .released ∨ e.state = .cancelled then
      let s := { s with journal := { s.journal with entries := s.journal.entries.filter (fun x => x.id != e.id) } }
      State.reclaimAux es (if e.journalled then s.journalPut (256 * e.ctx) e.tableRecord else s)
    else if e.journalled then s
    else State.reclaimAux es s

/-- The oldest line still in use. -/
def Journal.oldestLine (j : Journal) : Nat :=
  ((j.entries.filter (fun e => e.journalled)).map (fun e => e.line) ++ j.commits.map (fun c => c.1)).foldl min
    j.head

/-- Reclaim what can be reclaimed, and move the tail. -/
def State.reclaim (s : State) : State :=
  let s := State.reclaimAux s.journal.entries s
  let live := s.journal.entries
  let j := { s.journal with commits := s.journal.commits.filter (fun c =>
    live.any (fun e => e.ctx == c.2.1 && e.seq == c.2.2.1)) }
  { s with journal := { j with tail := j.oldestLine } }

/-- CTX_CQ_HEAD (R227): a value from the current head to the tail releases the records before it. -/
def State.cqHeadWrite (s : State) (ctx : Nat) (v : W32) : State :=
  let c := s.ctx ctx
  if (v - c.cqHead).toNat ≤ (c.cqTail - c.cqHead).toNat then
    let s := s.setCtx ctx { c with cqHead := v }
    let passed := (s.entriesOf ctx).filter (fun e =>
      e.state == .completed && decide ((e.cqCount - c.cqHead).toNat < (v - c.cqHead).toNat))
    (passed.foldl (fun s e => s.setEntry { e with state := .released }) s).reclaim
  else s.setCtx ctx { c with cqErr := true }

/-- Whether a mapped ring can be used by context 0 (R464). -/
def State.ringPlace (s : State) (a n : Nat) : Bool :=
  match placeOf a, placeOf (a + n - 1) with
  | .stack m, .stack k => m == k && s.physIssue a n == none
  | .host p, .host q => p == q
  | _, _ => false

/-- A power of two within bounds. -/
def ringSize (n lo hi : Nat) : Bool := decide (lo ≤ n ∧ n ≤ hi) && (2 ^ Nat.log2 n == n)

/-- A physically contiguous region as pages (R473). -/
def Region.flat (a n : Nat) : Region :=
  Region.mk (a % 65536) n ((List.range ((a + n - 1) / 65536 + 1 - a / 65536)).map (fun i => a / 65536 + i)) false a

/-- APPLY (R464). -/
def State.applyCtx0 (s : State) : State :=
  let k := s.collar
  let sq := k.ctx0Sq.toNat
  let cq := k.ctx0Cq.toNat
  let n := k.ctx0SqEntries.toNat
  let m := k.ctx0CqEntries.toNat
  if sq % 64 = 0 ∧ cq % 64 = 0 ∧ ringSize n 64 65536 = true ∧ ringSize m 64 131072 = true ∧
      s.ringPlace sq (64 * n) = true ∧ s.ringPlace cq (32 * m) = true ∧
      ((s.entriesOf 0).all (fun e => !e.live)) = true then
    let held := if k.ctx0Active then 0 else (s.ctx 0).sqTail
    let c := s.ctx 0
    let c := { c with
      sq := Region.flat sq (64 * n), cq := Region.flat cq (32 * m), sqEntries := n, cqEntries := m
      sqTail := 0, sqHead := 0, acceptHead := 0, acceptSeq := 0xFFFFFFFF, initialSeq := 0, cqHead := 0, cqTail := 0
      resultSeq := 0, dbErr := false, seqErr := false, cqErr := false, dup := 0
      failedMembers := 0, failedChain := 0 }
    let s := ((s.entriesOf 0).filter (fun e => e.state == .completed)).foldl
      (fun s e => s.setEntry { e with state := .released }) s
    let s := ({ s with collar := { k with ctx0Active := true } }.setCtx 0 c).reclaim
    if held = 0 then s else s.doorbell 0 held
  else { s with collar := { k with ctx0CfgErr := true } }

/-- Whether a region lies wholly in a stack that is ready (R374, R408). -/
def State.journalPlace (s : State) (a m : Nat) : Bool :=
  a % 2 ^ 21 == 0 && placeOf a == .stack m && placeOf (a + journalBytes - 1) == .stack m &&
  s.physIssue a journalBytes == none

/-- COL_JRNL_CTL.ENABLE (R374). -/
def State.enableJournal (s : State) : State :=
  if s.journalPlace s.journal.base.toNat 0 ∧ s.journalPlace s.journal.mirror.toNat 3 then
    let s := { s with journal := { s.journal with enable := true, state := 1 } }
    (s.setStack 0 { s.stack 0 with journal := true }).setStack 3 { s.stack 3 with journal := true }
  else s.setFault .jrnlCfg

/-- Retirement by the installer (R369): work of running commands moves, and they carry CORE_RETIRED. -/
def State.retireByRequest (s : State) (c : Nat) : State :=
  if !s.corePresent c then s else
  let on := (s.core c).queues
  let s := s.journal.entries.foldl (fun s e =>
    if e.live && !e.decided && on.any (fun q => q.ctx == e.ctx && q.seq == e.seq) then
      s.setEntry { e with
        notes := e.notes ++ [Status.coreRetired], retiredFlag := true, shares := s.replaceCore e c }
    else s) s
  s.retireCore c

/-- Clear a loss record (R388): commands that wait on no other return to ACCEPTED. -/
def State.clearLoss (s : State) (i : Nat) : State :=
  match s.journal.losses.getD i none with
  | none => s
  | some _ =>
    let ls := s.journal.losses.set i none
    let s := { s with journal := { s.journal with losses := ls } }
    let s := s.journalPut (4096 * 64 + 32 * i) (zeroBytes 32)
    let free := s.journal.entries.filter (fun e =>
      e.state == .lostWait && !ls.any (fun l =>
        match l with | some x => x.ctx == e.ctx && x.seqs.contains e.seq | none => false))
    free.foldl (fun s e => s.setEntry { e with state := .accepted, refs := [] }) s

/-- Aperture offset of LIN_SESSION(i) (R418). -/
def sessionReg (i : Nat) : W32 := BitVec.ofNat 32 (0x300010 + 4 * i)

/-- Close sessions (R397), with their audit entries: the target is the session's register, the value its new one. -/
def State.closeSessions (s : State) (dead : Session → Bool) : State :=
  let gone : List (Session × Nat) := s.lining.sessions.zipIdx.filterMap (fun (x : Option Session × Nat) =>
    x.1.bind (fun v => if dead v then some (v, x.2) else none))
  let s := { s with lining := { s.lining with sessions := s.lining.sessions.map (fun x =>
    x.bind (fun v => if dead v then none else some v)) } }
  gone.foldl (fun s v => s.audited 4 v.1.role v.1.endpoint (sessionReg v.2) 0 0) s

/-- The role that LIN_ENROL_CMD needs for a TABLE (R418): installer, or maker for installer keys. -/
def enrolRole (table : Nat) : Nat := if table = 2 then 0 else 1

/-- The role whose keys a table holds, none for the anchors. -/
def enrolKeys (table : Nat) : Option Nat :=
  if table = 0 then some 2 else if table = 2 then some 1 else none

/-- Slots of a table. -/
def enrolSlots (table : Nat) : Nat := if table = 0 then 16 else if table = 1 then 32 else if table = 2 then 4 else 0

/-- Set a slot of a key table. -/
def Lining.setKey (l : Lining) (table i : Nat) (k : Option Bytes) : Lining :=
  if table = 0 then { l with opKeys := l.opKeys.set i k }
  else if table = 1 then { l with anchors := l.anchors.set i k }
  else { l with instKeys := l.instKeys.set i k }

/-- Audit entries that a LIN_ENROL_CMD needs: the write, and the enrolment or the sessions closed. -/
def State.enrolEntries (s : State) (table i : Nat) (remove : Bool) : Nat :=
  let closing := match enrolKeys table with
    | some r => (s.lining.sessions.filter (fun x =>
        match x with | some v => v.role == r && v.key == i | none => false)).length
    | none => 0
  1 + closing + (if remove then 0 else 1)

/-- LIN_ENROL_CMD with GO (R397, R418): enrol the buffer's key into a slot, or empty the slot; the sessions
opened with a key that goes are closed. -/
def State.enrolGo (s : State) (src : Source) (table i : Nat) (remove : Bool) : State :=
  let key := s.lining.enrolBuf.take 97
  let l := s.lining
  if enrolSlots table ≤ i ∨ (remove = false ∧ p384Point key = none) then
    { s with lining := { l with enrolErr := true } }
  else
    let s := match enrolKeys table with
      | some r => s.closeSessions (fun v => v.role == r && v.key == i)
      | none => s
    let s := { s with lining := { (s.lining.setKey table i (if remove then none else some key)) with
      enrolDone := true } }
    if remove then s
    else s.audited 5 (enrolRole table) ((sourceEp src).getD 0) (BitVec.ofNat 32 0x300180) 0 (hashValue key)

/-- Start an invalidation, or replace the one that waits (R305). -/
def State.xlateWrite (s : State) (ctx : Nat) : State :=
  let c := s.collar
  { s with collar :=
    if c.xlateBusy.isSome then { c with xlateCtx := ctx, xlateNext := some ctx }
    else { c with xlateCtx := ctx, xlateBusy := some ctx } }

/-- Whether the audit log has room for `n` entries. -/
def State.auditRoomFor (s : State) (n : Nat) : Bool := decide (s.lining.audit.length + n ≤ 8192)

/-- A write to an RW/role register by a source that may make it: its effect and its audit entry (R15). -/
def State.roleWrite (s : State) (src : Source) (role off : Nat) (v : W32) (t : State) : Option State :=
  if s.srcRole src role && s.auditRoom then some (t.auditWrite src role off v) else none

/-- Halves of a 64-bit register. -/
def setLo (r : W64) (v : W32) : W64 := (r >>> 32 <<< 32) ||| v.setWidth 64
/-- The upper half. -/
def setHi (r : W64) (v : W32) : W64 := ((r <<< 32) >>> 32) ||| (v.setWidth 64 <<< 32)

/-- A write to a context page (R210, R212, R227). -/
def State.pageWrite (s : State) (src : Source) (ctx reg : Nat) (v : W32) : Option State :=
  if !s.srcOwns src ctx then none
  else if reg = 0x00 then some (s.doorbell ctx v)
  else if reg = 0x0C then some (s.cqHeadWrite ctx v)
  else if reg = 0x14 then some (s.setCtx ctx { s.ctx ctx with resultSeq := v })
  else if reg = 0x1C then
    let c := s.ctx ctx
    some (s.setCtx ctx { c with
      dbErr := c.dbErr && !v.getLsbD 3, seqErr := c.seqErr && !v.getLsbD 4, cqErr := c.cqErr && !v.getLsbD 5 })
  else none

/-- A write to a register of context 0's rings (R392, R463): the first writer's endpoint is latched. -/
def State.ctx0Write (s : State) (src : Source) (off : Nat) (v : W32) : Option State :=
  match sourceEp src with
  | none => none
  | some ep =>
    if s.lining.ctx0Latched && s.lining.ctx0Ep.toNat != ep then none else
    let s := { s with lining := { s.lining with ctx0Latched := true, ctx0Ep := BitVec.ofNat 16 ep } }
    let c := s.collar
    if off = 0x020200 then some { s with collar := { c with ctx0Sq := setLo c.ctx0Sq v } }
    else if off = 0x020204 then some { s with collar := { c with ctx0Sq := setHi c.ctx0Sq v } }
    else if off = 0x020208 then some { s with collar := { c with ctx0SqEntries := v } }
    else if off = 0x02020C then some { s with collar := { c with ctx0Cq := setLo c.ctx0Cq v } }
    else if off = 0x020210 then some { s with collar := { c with ctx0Cq := setHi c.ctx0Cq v } }
    else if off = 0x020214 then some { s with collar := { c with ctx0CqEntries := v } }
    else
      let s := { s with collar := { c with ctx0CfgErr := c.ctx0CfgErr && !v.getLsbD 2 } }
      some (if v.getLsbD 0 then s.applyCtx0 else s)

/-- A write to the journal and retirement registers (R374, R389). -/
def State.journalWrite (s : State) (src : Source) (off : Nat) (v : W32) : Option State :=
  let j := s.journal
  let place := fun (k : Journal) => if j.enable then (if s.srcRole src 1 then some s else none)
    else s.roleWrite src 1 off v { s with journal := k }
  if off = 0x020100 then place { j with base := setLo j.base v }
  else if off = 0x020104 then place { j with base := setHi j.base v }
  else if off = 0x020108 then place { j with mirror := setLo j.mirror v }
  else if off = 0x02010C then place { j with mirror := setHi j.mirror v }
  else if off = 0x020110 then
    if j.enable || !v.getLsbD 0 then (if s.srcRole src 1 then some s else none)
    else s.roleWrite src 1 off v s.enableJournal
  else if off = 0x020118 then
    if s.srcHolds src 1 then
      some { s with collar := { s.collar with fault := s.collar.fault &&& ~~~(v.setWidth 11) } }.ibi
    else none
  else if off = 0x020130 then
    let t := { s with collar := { s.collar with retireReq := v.setWidth 7 } }
    s.roleWrite src 1 off v (if v.getLsbD 31 then t.retireByRequest (v.toNat % 128) else t)
  else if off = 0x020144 then
    if s.srcHolds src 1 || s.srcHolds src 2 then
      some { s with collar := { s.collar with lossSel := v.setWidth 12 } } else none
  else if off = 0x020148 then
    if s.srcHolds src 1 || s.srcHolds src 2 then
      some ({ s with collar := { s.collar with lossClear := v.setWidth 12 } }.clearLoss (v.toNat % 4096))
    else none
  else none

/-- A signed 16-bit value. -/
def signed16 (v : BitVec 16) : Int := v.toInt

/-- A write to the Belt block (R344, R346, R351, R360), its bounds those in force (R337). -/
def State.beltWrite (s : State) (src : Source) (off : Nat) (v : W32) : Option State :=
  let b := s.belt
  let f := b.inForce (s.stamp.toNat / 10000 * 10000)
  let r := off - 0x200000
  let lo := v.setWidth 16
  let err := if s.srcRole src 1 then some { s with belt := { b with cfgErr := true } } else none
  if r = 0x00 then
    if s.srcHolds src 1 then some { s with belt := { b with cfgErr := b.cfgErr && !v.getLsbD 1 } } else none
  else if r = 0x18 then
    if 100 ≤ lo.toNat ∧ lo.toNat ≤ f.susMax.toNat then
      s.roleWrite src 1 off v { s with belt := { b with capNext := some lo } }
    else err
  else if r = 0x1C then
    if 0 ≤ signed16 lo ∧ signed16 lo ≤ 1280 then
      s.roleWrite src 1 off v { s with belt := { b with coolant := lo } }
    else err
  else if 0x100 ≤ r ∧ r < 0x16C ∧ s.domainPresent ((r - 0x100) / 4) then
    if f.gainMin.toNat ≤ lo.toNat ∧ lo.toNat ≤ f.gainMax.toNat ∧
        (signed16 ((v >>> 16).setWidth 16)).natAbs ≤ f.offsMax.toNat then
      s.roleWrite src 1 off v { s with belt := { b with calNext := b.calNext ++ [((r - 0x100) / 4, v)] } }
    else err
  else none

/-- A write to the Lining block (R392, R418). -/
def State.linWrite (s : State) (src : Source) (off : Nat) (v : W32) : Option State :=
  let l := s.lining
  let r := off - 0x300000
  if r = 0x04 then
    s.roleWrite src 1 off v { s with lining := { l with ctx0Ep := v.setWidth 16, ctx0Latched := true } }
  else if 0x100 ≤ r ∧ r < 0x180 then
    some { s with lining := { l with
      enrolBuf := l.enrolBuf.take (r - 0x100) ++ leBytes 4 v.toNat ++ l.enrolBuf.drop (r - 0xFC) } }
  else if r = 0x180 then
    let table := v.toNat % 4
    let i := v.toNat / 4 % 32
    let remove := v.getLsbD 7
    let role := enrolRole table
    if s.srcRole src role && decide (table < 3) &&
        s.auditRoomFor (if v.getLsbD 8 then s.enrolEntries table i remove else 1) then
      let t := { s with lining := { l with enrolCmd := v.setWidth 8 } }.auditWrite src role off v
      some (if v.getLsbD 8 then t.enrolGo src table i remove else t)
    else none
  else if r = 0x184 then
    some { s with lining := { l with
      enrolDone := l.enrolDone && !v.getLsbD 0, enrolErr := l.enrolErr && !v.getLsbD 1 } }
  else none

/-- A write to the time base block (R322, R323). -/
def State.tbWrite (s : State) (src : Source) (off : Nat) (v : W32) : Option State :=
  let b := s.tb
  if off = 0x2008 then s.roleWrite src 1 off v { s with tb := { b with loadLo := v } }
  else if off = 0x200C then s.roleWrite src 1 off v { s with tb := { b with loadHi := v, loadPending := true } }
  else if off = 0x2010 then
    if s.srcHolds src 1 then
      some { s with tb := { b with loadErr := b.loadErr && !v.getLsbD 3, stepped := b.stepped && !v.getLsbD 4 } }
    else none
  else none

/-- What a write of a word does: none where R14 refuses it. -/
def State.tryWrite (s : State) (src : Source) (off : Nat) (v : W32) : Option State :=
  if off % 4 ≠ 0 then none
  else if 0x2000 ≤ off ∧ off < 0x2020 then s.tbWrite src off v
  else if 0x010000 ≤ off ∧ off < 0x020000 then s.pageWrite src ((off - 0x010000) / 0x40) (off % 0x40) v
  else if off = 0x020000 then
    if s.srcOwns src (v.toNat % 1024) then some (s.xlateWrite (v.toNat % 1024)) else none
  else if 0x020100 ≤ off ∧ off < 0x020170 then s.journalWrite src off v
  else if 0x020200 ≤ off ∧ off < 0x02021C then s.ctx0Write src off v
  else if 0x200000 ≤ off ∧ off < 0x20030C then s.beltWrite src off v
  else if 0x300000 ≤ off ∧ off < 0x380000 then s.linWrite src off v
  else none

/-- A write of a word (R14, R457, R462): whether it was refused, and the engine after it. -/
def State.regWrite (s : State) (src : Source) (off : Nat) (v : W32) : Bool × State :=
  match s.tryWrite src off v with
  | some t => (false, t)
  | none => (true, s.count (.control 0) 1)

/-! ## The rows -/

/-- DOORBELL (R212). -/
def execDoorbell (src : Source) (ctx : Nat) (value : W32) (s : State) : Host.Outcome State Fault Refusal :=
  .next (s.regWrite src (0x010000 + 0x40 * (ctx % 1024)) value).2

/-- CTX_CQ_HEAD_WRITE (R227). -/
def execCtxCqHeadWrite (src : Source) (ctx : Nat) (value : W32) (s : State) :
    Host.Outcome State Fault Refusal :=
  .next (s.regWrite src (0x01000C + 0x40 * (ctx % 1024)) value).2

/-- COL_XLATE_INVAL (R305). -/
def execColXlateInval (src : Source) (value : W32) (s : State) : Host.Outcome State Fault Refusal :=
  .next (s.regWrite src 0x020000 value).2

/-- XLATE_INVAL_DONE (R305): every cached translation of the context and its staged blocks are dropped, and a write that
waited takes its turn. -/
def execXlateInvalDone (s : State) : Host.Outcome State Fault Refusal :=
  match s.collar.xlateBusy with
  | none => .next s
  | some ctx =>
    let keep := fun (u : CoreUnit) => { u with stage := u.stage.filter (fun b => b.ctx != ctx) }
    let s : State := { s with
      cores := s.cores.map (fun u => (u.1, keep u.2))
      fabric := { s.fabric with caches := s.fabric.caches.map (fun c => (c.1, c.2.forget ctx)) } }
    .next { s with collar := { s.collar with xlateBusy := s.collar.xlateNext, xlateNext := none } }

/-- COL_JRNL_CTL_ENABLE (R374). -/
def execColJrnlCtlEnable (src : Source) (value : W32) (s : State) : Host.Outcome State Fault Refusal :=
  .next (s.regWrite src 0x020110 value).2

/-- COL_RETIRE_REQ (R369). -/
def execColRetireReq (src : Source) (value : W32) (s : State) : Host.Outcome State Fault Refusal :=
  .next (s.regWrite src 0x020130 value).2

/-- COL_LOSS_CLEAR (R388). -/
def execColLossClear (src : Source) (value : W32) (s : State) : Host.Outcome State Fault Refusal :=
  .next (s.regWrite src 0x020148 value).2

/-- COL_CTX0_APPLY (R464). -/
def execColCtx0Apply (src : Source) (value : W32) (s : State) : Host.Outcome State Fault Refusal :=
  .next (s.regWrite src 0x020218 value).2

/-- LIN_CTX0_EP_WRITE (R392). -/
def execLinCtx0EpWrite (src : Source) (value : W32) (s : State) : Host.Outcome State Fault Refusal :=
  .next (s.regWrite src 0x300004 value).2

/-- TB_LOAD_HI_WRITE (R322). -/
def execTbLoadHiWrite (src : Source) (value : W32) (s : State) : Host.Outcome State Fault Refusal :=
  .next (s.regWrite src 0x200C value).2

/-- BELT_POWER_CAP_WRITE (R344). -/
def execBeltPowerCapWrite (src : Source) (value : W32) (s : State) : Host.Outcome State Fault Refusal :=
  .next (s.regWrite src 0x200018 value).2

/-- BELT_COOLANT_IN_WRITE (R346). -/
def execBeltCoolantInWrite (src : Source) (value : W32) (s : State) : Host.Outcome State Fault Refusal :=
  .next (s.regWrite src 0x20001C value).2

/-- BELT_CAL_WRITE (R351). -/
def execBeltCalWrite (src : Source) (domain : Nat) (value : W32) (s : State) :
    Host.Outcome State Fault Refusal :=
  .next (s.regWrite src (0x200100 + 4 * domain) value).2

/-- ENROL (R418): LIN_ENROL_CMD. -/
def execEnrol (src : Source) (value : W32) (s : State) : Host.Outcome State Fault Refusal :=
  .next (s.regWrite src 0x300180 value).2

/-- ENROL_REMOVE (R397, R418): LIN_ENROL_CMD. -/
def execEnrolRemove (src : Source) (value : W32) (s : State) : Host.Outcome State Fault Refusal :=
  .next (s.regWrite src 0x300180 value).2

/-- LATCHED_PAIR_READ (R323, R460): a read of the LO word of a pair. -/
def execLatchedPairRead (src : Source) (offset : Nat) (s : State) : Host.Outcome State Fault Refusal :=
  .next (s.readWord src offset).2

/-- REGISTER_WRITE (R13, R14, R456-R459). -/
def execRegisterWrite (src : Source) (offset : Nat) (value : W32) (s : State) :
    Host.Outcome State Fault Refusal :=
  .next (s.regWrite src offset value).2

end Sys2Proof.Machine
end

