-- ==== Sys2Proof/Machine/Control.lean ====
section
/-!
DEFINITION. Sys2Proof/Machine/Control.lean: the control opcodes (R238-R242): NOP, FENCE, SIGNAL, WAIT,
CHAIN, CONTEXT_OPEN (R208, R473), CONTEXT_CLOSE (R232) and QUERY_CAPS.
-/
namespace Sys2Proof.Machine

/-! ## NOP to CHAIN -/

/-- NOP (R239): it completes at dispatch. -/
def nopWork (s : State) (e : Entry) : Verdict :=
  if e.clean [] then .done Status.ok 0 false s else .fail [Status.malformed] []

/-- FENCE (R239): it completes once every earlier command of its context has completed. -/
def fenceWork (s : State) (e : Entry) : Verdict :=
  if !e.clean [] then .fail [Status.malformed] []
  else if (s.entriesOf e.ctx).any (fun x => decide (x.id < e.id) && x.live) then .wait
  else .done Status.ok 0 false s

/-- SIGNAL (R239): VALUE is added to the counter. -/
def signalWork (s : State) (e : Entry) : Verdict :=
  let n := e.field 0x10 2
  if !e.clean [(0x10, 0, 16), (0x14, 0, 32)] || !(s.ctx e.ctx).hasFence n then .fail [Status.malformed] []
  else
    let v := s.fence n + BitVec.ofNat 64 (e.field 0x14 4)
    .done Status.ok (v.setWidth 32) false (s.setFence n v)

/-- WAIT (R240). -/
def waitWork (s : State) (e : Entry) : Verdict :=
  let n := e.field 0x10 2
  if !e.clean [(0x10, 0, 16), (0x18, 0, 64)] || !(s.ctx e.ctx).hasFence n then .fail [Status.malformed] []
  else if (s.fence n).toNat < e.field 0x18 8 then .wait
  else .done Status.ok ((s.fence n).setWidth 32) false s

/-- CHAIN (R222): it completes after its last member, and counts those whose status is not OK. -/
def chainWork (s : State) (e : Entry) : Verdict :=
  let ms := (s.entriesOf e.ctx).filter (fun m => m.member.isSome && m.chain == e.seq && decide (e.id < m.id))
  if ms.any Entry.live then .wait
  else .done Status.ok (BitVec.ofNat 32 (ms.filter (fun m => m.status != Status.ok)).length) false s

/-- NOP (R239). -/
def execNop (ctx : Nat) (seq : W32) (s : State) : Host.Outcome State Fault Refusal :=
  s.runOp .nop ctx seq nopWork

/-- FENCE (R239). -/
def execFence (ctx : Nat) (seq : W32) (s : State) : Host.Outcome State Fault Refusal :=
  s.runOp .fence ctx seq fenceWork

/-- SIGNAL (R239). -/
def execSignal (ctx : Nat) (seq : W32) (s : State) : Host.Outcome State Fault Refusal :=
  s.runOp .signal ctx seq signalWork

/-- WAIT (R240). -/
def execWait (ctx : Nat) (seq : W32) (s : State) : Host.Outcome State Fault Refusal :=
  s.runOp .wait ctx seq waitWork

/-- CHAIN (R222, R241). -/
def execChain (ctx : Nat) (seq : W32) (s : State) : Host.Outcome State Fault Refusal :=
  s.runOp .chain ctx seq chainWork

/-! ## CONTEXT_OPEN (R208, R242, R473) -/

/-- One page of a region: its translation under the new root, and where it lies (R473). -/
def State.regionPage (s : State) (ctx va : Nat) (write stackOnly : Bool) : Except Status Nat :=
  match s.translate ctx va with
  | .stop st _ => .error st
  | .page pa w =>
    if write && !w then .error Status.outOfBounds else
    match placeOf pa with
    | .stack _ => if s.physIssue pa 1 == none then .ok (pa / 65536) else .error Status.outOfBounds
    | .host p => if s.caps.seam.getLsbD p && !stackOnly then .ok (pa / 65536) else .error Status.outOfBounds
    | .nothing => .error Status.outOfBounds

/-- Translate a region once, over its whole extent (R473). -/
def State.regionOf (s : State) (ctx va n : Nat) (write stackOnly : Bool) : List Status × Region :=
  if n = 0 then ([], Region.none) else
  let ps := (List.range ((va + n - 1) / 65536 + 1 - va / 65536)).map (fun i =>
    s.regionPage ctx ((va / 65536 + i) * 65536) write stackOnly)
  (ps.filterMap (fun p => match p with | .error st => some st | .ok _ => none),
    Region.mk (va % 65536) n (ps.filterMap (fun p => match p with | .error _ => none | .ok a => some a)) false va)

/-- Bytes of a governor region (R144). -/
def govBytes : Nat := 2 ^ 25

/-- The ranges of R208 and R242 that an attribute block keeps. -/
def attrOk (b : Bytes) : Bool :=
  let f := fun o n => fieldOf b o n
  let gov := f 0x50 8
  decide (f 0 8 % 64 = 0) && decide (f 8 8 % 64 = 0) &&
  ringSize (f 0x10 4) 64 65536 && ringSize (f 0x14 4) 64 131072 &&
  decide (1 ≤ f 0x1C 4 ∧ f 0x1C 4 ≤ 65536) &&
  decide (1 ≤ f 0x24 4 ∧ f 0x20 4 + f 0x24 4 ≤ 65536) &&
  decide (f 0x28 16 ≠ 0) && decide (1 ≤ f 0x38 1) && decide (f 0x39 1 = 0) &&
  decide (1 ≤ f 0x3A 2 ∧ f 0x3A 2 ≤ 16384) && decide (1 ≤ f 0x3C 2 ∧ f 0x3C 2 ≤ 0xFFFE) &&
  decide (f 0x3E 2 = 0) && decide (f 0x40 8 % 2 ^ 21 = 0) && decide (f 0x48 8 % 2 ^ 21 = 0) &&
  decide (gov % 2 ^ 21 = 0) &&
  decide (f 0x60 8 % 64 = 0) &&
  (if gov = 0 then decide (f 0x58 8 = 0) else decide (f 0x58 8 ≠ 0) && decide (786496 ≤ f 0x60 8)) &&
  decide (f 0x68 8 ≠ 0 ∧ f 0x68 8 % 4096 = 0) && (b.drop 0x70).all (fun x => x == 0)

/-- The statuses that the regions of an attribute block meet, and the context that it opens. -/
def State.openedCtx (s : State) (n : Nat) (b : Bytes) : List Status × Ctx :=
  let f := fun o k => fieldOf b o k
  let t := s.setCtx n { Ctx.init with translation := f 0x68 8 }
  let sq := t.regionOf n (f 0 8) (64 * f 0x10 4) false false
  let cq := t.regionOf n (f 8 8) (32 * f 0x14 4) true false
  let sv := t.regionOf n (f 0x40 8) (f 0x48 8) true false
  let gv := t.regionOf n (f 0x50 8) (if f 0x50 8 = 0 then 0 else govBytes) true true
  let lg := t.regionOf n (f 0x58 8) (if f 0x58 8 = 0 then 0 else f 0x60 8) true true
  let opt := fun (r : Region) => if r.bytes = 0 then Option.none else some r
  let seq0 : W32 := BitVec.ofNat 32 (f 0x18 4)
  (sq.1 ++ cq.1 ++ sv.1 ++ gv.1 ++ lg.1,
    { Ctx.init with
      state := .opened, sq := sq.2, cq := cq.2, sqEntries := f 0x10 4, cqEntries := f 0x14 4
      inflight := f 0x1C 4, fenceBase := f 0x20 4, fenceN := f 0x24 4
      placement := BitVec.ofNat 128 (f 0x28 16), share := f 0x38 1, streamQuota := f 0x3A 2
      endpoint := f 0x3C 2, save := opt sv.2, gov := opt gv.2, ledger := opt lg.2
      ledgerBytes := if f 0x50 8 = 0 then 0 else f 0x60 8
      translation := f 0x68 8, acceptSeq := seq0 - 1, initialSeq := seq0 })

/-- Release the records that a context's earlier life still holds. -/
def State.releaseAll (s : State) (ctx : Nat) : State :=
  (((s.entriesOf ctx).filter (fun e => e.state == .completed)).foldl
    (fun t e => t.setEntry { e with state := .released }) s).reclaim

/-- CONTEXT_OPEN's effect: the context with its page at its reset values, its governor region with state epoch 0 and the
step area empty (DESIGN CHOICE, log 50), and its ledger's header (R155). -/
def State.openContext (s : State) (n : Nat) (c : Ctx) : State :=
  let s := (s.releaseAll n).setCtx n c
  let s := match c.gov with
    | none => s
    | some g => (s.zeroRegion g 0 145).putRegion g 0 (govHeader false true 0 0 0)
  match c.ledger with
  | none => s
  | some g => s.putRegion g 0 (leBytes 8 c.ledgerCapacity ++ zeroBytes 56)

/-- CONTEXT_OPEN (R208). -/
def contextOpenWork (s : State) (e : Entry) : Verdict :=
  let n := e.field 0x10 2
  let early := need (e.clean [(0x10, 0, 10), (0x18, 0, 64)] && decide (n ≠ 0) && (s.ctx n).state == .closed) ++
    (if s.journal.enable then [] else [Status.notReady])
  match (s.asRead e).readStruct 0 (e.field 0x18 8) 128 64 with
  | .error st => .fail (early ++ [st]) []
  | .ok b =>
    let r := s.openedCtx n b
    let issues := early ++ need (attrOk b) ++ (if attrOk b then r.1 else [])
    if issues.isEmpty then
      .done Status.ok (BitVec.ofNat 32 n) false ((s.openContext n r.2).auditCommand e (some b))
    else .fail issues []

/-- CONTEXT_OPEN (R208, R242, R473). -/
def execContextOpen (ctx : Nat) (seq : W32) (s : State) : Host.Outcome State Fault Refusal :=
  s.runOp .contextOpen ctx seq contextOpenWork

/-! ## CONTEXT_CLOSE (R232) -/

/-- Extents of pure-overwrite commands that a cancelled command has begun (R232). -/
def State.begunRuns (s : State) (e : Entry) : List Run :=
  if e.decided then (if e.commit.isEmpty then e.wrote else [])
  else if e.working then s.outputRuns e else []

/-- Cancel a command (R232, R377): its version slots are as they were, and the page remembers its SEQ, which has no record
and gets none (R211). -/
def State.cancelEntry (s : State) (e : Entry) : State :=
  let s := ((s.scramble (s.begunRuns e)).slotsBack e.taken).setEntry { e with
    state := .cancelled, working := false, refs := [], commit := [], stats := [], snap := [], saved := none, taken := [] }
  s.setCtx e.ctx { s.ctx e.ctx with cancelled := (s.ctx e.ctx).cancelled ++ [e.seq] }

/-- Write zeros over the pages of a seal and forget it (R408). -/
def State.dropSeals (s : State) (ctx : Nat) : State :=
  let mine := s.lining.seals.filter (fun x => x.ctx == ctx)
  let pages := mine.flatMap (fun x => x.pages)
  let rs := pages.map (fun p => (65536 * p, 65536))
  let s : State := { s with
    mem := pages.foldl (fun m p => memZero m (65536 * p) 65536) s.mem
    lining := { s.lining with seals := s.lining.seals.filter (fun x => x.ctx != ctx) } }
  (s.dropCopies rs).l2Invalidate rs

/-- A core without what a context holds in it. -/
def CoreUnit.dropCtx (u : CoreUnit) (n : Nat) : CoreUnit :=
  { u with
    queues := u.queues.filter (fun q => q.ctx != n)
    promised := u.promised.filter (fun q => q.ctx != n)
    hem := u.hem.filter (fun h => h.ctx != n)
    stage := u.stage.filter (fun b => b.ctx != n)
    held := match u.held with | some h => if h.ctx = n then none else some h | none => none }

/-- Clear the loss records of a context (R388): no command waits on them any longer. -/
def State.dropLosses (s : State) (n : Nat) : State :=
  let gone := (s.journal.losses.zipIdx.filter (fun l =>
    match l.1 with | some x => x.ctx == n | none => false)).map (fun l => l.2)
  gone.foldl (fun t i =>
    let t : State := { t with journal := { t.journal with losses := t.journal.losses.set i none } }
    t.journalPut (4096 * 64 + 32 * i) (zeroBytes 32)) s

/-- A closed context: its page stays readable and its records releasable, all else goes. -/
def Ctx.closed (c : Ctx) : Ctx :=
  { Ctx.init with
    state := .closed, cq := c.cq, cqEntries := c.cqEntries, endpoint := c.endpoint
    sqTail := c.sqTail, sqHead := c.sqHead, acceptHead := c.acceptHead, acceptSeq := c.acceptSeq, initialSeq := c.initialSeq
    cqHead := c.cqHead, cqTail := c.cqTail, resultSeq := c.resultSeq
    dbErr := c.dbErr, seqErr := c.seqErr, cqErr := c.cqErr, dup := c.dup, stopping := c.stopping
    cancelled := c.cancelled }

/-- The close of a context begins (R232): it is CLOSING, its schedule ends, and every accepted command whose outcome is
not decided stops and is cancelled. What a decided command did has committed: it goes on to its record (DEDUCED, log
96). -/
def State.beginClose (s : State) (n : Nat) (seq : W32) : State :=
  let lastId := s.journal.nextId
  let s := if s.pendingRoom n then s.disarm n lastId 0
    else match (s.ctx n).armedSched with
      | some (_, x) => s.traceRec 12 .collar n 0 x.compileId.toNat
      | none => s
  let es := (s.entriesOf n).filter (fun e => e.live && !e.decided)
  let s := s.setCtx n { s.ctx n with
    state := .closing, closing := some (seq, es.length), armed := none, cancelled := [], saveUsed := 0 }
  es.foldl (fun t e => (t.endWork e).cancelEntry e) s

/-- Whether a command of a closing context can still write its record: its ring is not lost (R473). -/
def State.stillEnding (s : State) (n : Nat) : Bool :=
  (s.entriesOf n).any (fun e => e.live && !(s.cqLost n && !s.cqSlotOk n (s.ctx n).cqTail))

/-- The close of a context ends (R232, R178, R313, R332, R341, R408): commands without a ring to report to are cancelled,
their effects standing (R473), and all that the context held goes. -/
def State.closeContext (s : State) (n : Nat) : State :=
  let s := ((s.entriesOf n).filter Entry.live).foldl (fun t e => t.cancelEntry { e with commit := [], wrote := [] }) s
  let s := s.dropSeals n
  let s := (s.unpin (fun o => o.1 == n)).dropLosses n
  let s : State := { s with fabric := s.fabric.dropRequests (fun r => r.ctx == n) }
  let s : State := { s with
    retained := s.retained.filter (fun r => r.1.ctx != n)
    chains := s.chains.filter (fun c => c.ctx != n)
    groups := s.groups.filter (fun g => g.2.ctx != n)
    cores := s.cores.map (fun u => (u.1, u.2.dropCtx n))
    belt := { s.belt with
      resv := s.belt.resv.map (fun r => match r with | some v => if v.ctx = n then none else some v | none => none)
      requests := s.belt.requests.filter (fun r => r.ctx != n) } }
  (s.endSteps.setCtx n (s.ctx n).closed).reclaim

/-- CONTEXT_CLOSE (R232): the first step on its entry puts the target into CLOSING, a later one ends the close; one that
finds a close in progress waits for it. -/
def contextCloseWork (s : State) (e : Entry) : Verdict :=
  let n := e.field 0x10 2
  if !e.clean [(0x10, 0, 10)] || decide (n = 0) then .fail [Status.malformed] [] else
  match (if (s.ctx n).state = .closed then none else (s.ctx n).closing) with
  | none => .done Status.ok 0 false (s.auditCommand e none)
  | some (q, k) =>
    if q ≠ e.seq ∨ s.stillEnding n then .wait
    else .done Status.ok (BitVec.ofNat 32 (k + ((s.entriesOf n).filter Entry.live).length)) false ((s.closeContext n).auditCommand e none)

/-- A CONTEXT_CLOSE that finds its target open, pre-empting or pre-empted: the target enters CLOSING (R232). -/
def State.startsClose (s : State) (seq : W32) : Option Nat :=
  match s.runnable .contextClose 0 seq with
  | none => none
  | some e =>
    let n := e.field 0x10 2
    if e.clean [(0x10, 0, 10)] && decide (n ≠ 0) && (s.ctx n).state != .closed && (s.ctx n).state != .closing
    then some n else none

/-- CONTEXT_CLOSE (R232). -/
def execContextClose (ctx : Nat) (seq : W32) (s : State) : Host.Outcome State Fault Refusal :=
  match (if ctx = 0 then s.startsClose seq else none) with
  | some n => .next (s.beginClose n seq)
  | none => s.runOp .contextClose ctx seq contextCloseWork

/-! ## QUERY_CAPS -/

/-- QUERY_CAPS (R239): the first BYTES bytes of the Tag block. -/
def queryCapsPlan (s : State) (e : Entry) : Plan :=
  let n := e.field 0x18 4
  let dst := e.field 0x10 8
  let ok := e.clean [(0x10, 0, 64), (0x18, 0, 32)] && decide (64 ≤ n ∧ n ≤ 4096 ∧ n % 64 = 0) &&
    decide (dst ≠ 0)
  if !ok then .fail [Status.malformed] else
  match s.resolve e.ctx dst n true with
  | .error st => .fail [st]
  | .ok rs =>
    let bs := (List.range (n / 4)).flatMap (fun i => leBytes 4 (s.idRead (4 * i)).toNat)
    planOf (s.sealIssues e.ctx [] [] rs) (fun _ =>
      { Delta.none with result := BitVec.ofNat 32 n, writes := splitRuns rs bs })

/-- QUERY_CAPS (R239). -/
def execQueryCaps (ctx : Nat) (seq : W32) (s : State) : Host.Outcome State Fault Refusal :=
  s.runWork .queryCaps ctx seq [] queryCapsPlan

end Sys2Proof.Machine
end

