-- ==== Sys2Proof/Machine/Tick.lean ====
section
/-!
DEFINITION. Sys2Proof/Machine/Tick.lean: the time base (R320-R322, R324): its count, its corrections, its edges.
-/
namespace Sys2Proof.Machine

/-- The engine is held in cold reset (R420). -/
def State.inReset (s : State) : Bool := !s.pins.coldResetN || !s.pins.pwrGood

/-- Corrections of a slew that fall within the next `n` ns (R321): one on every 100th tick. -/
def TimeBase.corrections (b : TimeBase) (n : Nat) : Nat :=
  if b.slewLeft = 0 ∨ n < b.slewIn then 0 else min b.slewLeft (1 + (n - b.slewIn) / 100)

/-- The hold marker after `n` ns (R324): a correction that advances 2 raises it for 16 ticks. -/
def TimeBase.heldAfter (b : TimeBase) (n k : Nat) : Option (W64 × Nat) :=
  let last := b.slewIn + 100 * (k - 1)
  if 0 < k ∧ b.slewBehind = true ∧ n - last < 16 then
    some (b.now + BitVec.ofNat 64 (last - 1 + (k - 1)), 16 - (n - last))
  else
    match b.held with
    | some (v, t) => if t ≤ n then none else some (v, t - n)
    | none => none

/-- `n` ns pass: the count advances on REFCLK with the corrections of a slew (R320, R321). -/
def TimeBase.advance (b : TimeBase) (n : Nat) : TimeBase :=
  let k := b.corrections n
  { b with
    now := b.now + BitVec.ofNat 64 (if b.slewBehind then n + k else n - k)
    slews := b.slews + BitVec.ofNat 32 k
    slewLeft := b.slewLeft - k
    slewIn := if k = 0 then b.slewIn - n else b.slewIn + 100 * k - n
    sinceEdge := b.sinceEdge.map (fun t => t + n)
    held := b.heldAfter n k }

/-- Phase error e at an edge (R321), -500 to 499. -/
def TimeBase.phase (b : TimeBase) : Int :=
  let r := b.now.toNat % 1000
  if r < 500 then (r : Int) else (r : Int) - 1000

/-- Set the count to a later value, with its hold marker (R324). -/
def TimeBase.stepTo (b : TimeBase) (v : W64) : TimeBase :=
  { b with now := v, stepped := true, held := some (b.now, 16), slewLeft := 0 }

/-- A step forward to the next multiple of 1,000 (R321). -/
def TimeBase.stepUp (b : TimeBase) : TimeBase :=
  b.stepTo (BitVec.ofNat 64 ((b.now.toNat / 1000 + 1) * 1000))

/-- A slew of phase error e (R321). -/
def TimeBase.slewBy (b : TimeBase) (e : Int) : TimeBase :=
  { b with slewLeft := min e.natAbs 10, slewBehind := decide (e < 0), slewIn := 100 }

/-- Enter SYNC_LOST (R321). -/
def TimeBase.lose (b : TimeBase) : TimeBase :=
  { b with mode := .syncLost, losses := b.losses + 1, good := 0, bad := 0, slewLeft := 0 }

/-- The state machine of R321 at an edge with phase error e; `move` is off where a load set the count. -/
def TimeBase.edgeState (b : TimeBase) (e : Int) (move : Bool) : TimeBase :=
  let small := decide (e.natAbs ≤ 2)
  let large := decide (64 < e.natAbs)
  let up := fun (x : TimeBase) => if move then x.stepUp else x
  let slew := fun (x : TimeBase) => if move then x.slewBy e else x
  match b.mode with
  | .free | .syncLost =>
    let b := { b with mode := .acquiring, good := small.toNat, bad := 0, slewLeft := 0 }
    if e = 0 then b else up b
  | .acquiring =>
    if large then
      if b.bad + 1 = 4 then b.lose else up { b with bad := b.bad + 1, good := 0 }
    else if small then
      { b with
        good := b.good + 1, bad := 0, slewLeft := 0
        mode := if b.good + 1 = 16 then .locked else .acquiring }
    else slew { b with good := 0, bad := 0 }
  | .locked =>
    if large then (if b.bad + 1 = 4 then b.lose else { b with bad := b.bad + 1, slewLeft := 0 })
    else if small then { b with bad := 0, slewLeft := 0 }
    else slew { b with bad := 0 }

/-- Whether ACQUIRING or LOCKED has gone 8,000 ns without an edge (R321). -/
def TimeBase.lapsed (b : TimeBase) : Bool :=
  (match b.sinceEdge with | some g => decide (8000 ≤ g) | none => false) &&
  (b.mode == .acquiring || b.mode == .locked)

/-- A rising edge of TIME_SYNC (R321), the load edge of R322 included. One that comes after 8,000 ns or more finds the
time base in SYNC_LOST. -/
def TimeBase.edge (b : TimeBase) : TimeBase :=
  let b := if b.lapsed then b.lose else b
  let e := b.phase
  let loadEdge := match b.sinceEdge with
    | some g => b.loadPending && decide (2500 ≤ g ∧ g ≤ 7999)
    | none => false
  let b := { b with edges := b.edges + 1, lastError := BitVec.ofInt 16 e, sinceEdge := some 0 }
  if loadEdge then
    let v : W64 := b.loadHi ++ b.loadLo
    let b := { b with loadPending := false }
    if v.toNat % 1000 = 0 ∧ b.now.toNat < v.toNat then (b.edgeState e false).stepTo v
    else { b with loadErr := true }.edgeState e true
  else b.edgeState e true

/-- Units of 1/14,000 cycle in `t` ticks at a throttle step: 0.85 × (20 − s) / 20 cycles for each (R345). -/
def waitUnits (t step : Nat) : Nat := t * 85 * (20 - step) * 7

end Sys2Proof.Machine
end

