-- ==== Sys2Proof/Machine/Belt.lean ====
section
/-!
DEFINITION. Sys2Proof/Machine/Belt.lean: the Belt (R336-R360): slew windows, metering intervals with throttle,
thermal model and attribution, the end of a trip, and ENERGY_MARK, RECEIPT_ISSUE and POWER_RESERVE.
-/
namespace Sys2Proof.Machine

/-! ## Slew windows (R338-R342) -/

/-- Size of a step in mA (R338). -/
def stepSize (d : Die) (array : Bool) : Nat :=
  match d, array with
  | .g5x16, true => 8000 | .g5x16, false => 1500
  | .g5x8, true => 4000 | .g5x8, false => 750

/-- Watts reserved in all. -/
def Belt.reserved (b : Belt) : Nat := ((b.resv.filterMap id).map (fun r => r.watts)).foldl (· + ·) 0

/-- B_w in mA (R339). -/
def Belt.window (b : Belt) : Nat := b.slewLimit.toNat * 100

/-- Whether a reserved context may take `ma` more after `used` within its share (R341): r_c = B_w × WATTS / CAP, and
every share is cut where the cap has fallen below twice the sum of the reservations. -/
def Belt.inShare (b : Belt) (watts used ma : Nat) : Bool :=
  decide ((used + ma) * max b.powerCap.toNat (2 * b.reserved) ≤ b.window * watts)

/-- The first pass of R339: what is granted, what is left over, what each context has used. -/
def grantReserved (b : Belt) (d : Die) : List StepReq → List (Nat × Nat) → List StepReq × List StepReq
  | [], _ => ([], [])
  | r :: rs, used =>
    let ma := stepSize d r.array
    let u := smGet used r.ctx 0
    match b.resvOf r.ctx with
    | some v =>
      if b.inShare v.watts u ma then
        let g := grantReserved b d rs (smSet used r.ctx (u + ma))
        (r :: g.1, g.2)
      else
        let g := grantReserved b d rs used
        (g.1, r :: g.2)
    | none =>
      let g := grantReserved b d rs used
      (g.1, r :: g.2)

/-- The second pass of R339, with `left` mA of B_w: a request that does not fit waits, and the next is looked at. -/
def grantRest (d : Die) : List StepReq → Nat → List StepReq × List StepReq
  | [], _ => ([], [])
  | r :: rs, left =>
    let ma := stepSize d r.array
    if ma ≤ left then
      let g := grantRest d rs (left - ma)
      (r :: g.1, g.2)
    else
      let g := grantRest d rs left
      (g.1, r :: g.2)

/-- The grants of one window among the requests of one direction (R339): granted, and waiting. -/
def Belt.grants (b : Belt) (d : Die) (rs : List StepReq) : List StepReq × List StepReq :=
  let first := grantReserved b d rs []
  let taken := (first.1.map (fun r => stepSize d r.array)).foldl (· + ·) 0
  let rest := grantRest d first.2 (b.window - taken)
  (first.1 ++ rest.1, rest.2)

/-- An increase granted: the wait counted as POWER_SLEW, with the start ramp (R340, R342); the command's work on the core
begins. -/
def State.grantRise (s : State) (r : StepReq) : State :=
  let ramp := s.belt.rampOf r.ctx
  let now := s.stamp.toNat
  let s := s.slewCycles r.core (waitUnits (now - r.t) s.belt.step + rampUnits ramp)
  let u := s.core r.core
  let s := s.setCore r.core { u with queues := u.queues.map (fun q =>
    if q.ctx = r.ctx ∧ q.seq = r.seq then { q with began := now } else q) }
  { s with belt := { s.belt with running := s.belt.running ++ [Activity.mk r.core r.array r.ctx ramp r.seq now] } }

/-- A decrease granted: hold-up ends (R340). -/
def State.grantFall (s : State) (r : StepReq) : State :=
  { s with belt := { s.belt with
    running := s.belt.running.filter (fun x => !x.at r.core r.array)
    holdUp := s.belt.holdUp.filter (fun h => h != (r.core, r.array)) } }

/-- SLEW_WINDOW (R339): the grants of the window of 100 ticks that is open, once. -/
def execSlewWindow (s : State) : Host.Outcome State Fault Refusal :=
  let w := s.stamp.toNat / 100
  if s.inReset || decide (w < s.belt.nextWindow) then .next s else
  let s := s.endSteps
  let b := s.belt.inForce (w * 100)
  let rises := b.grants s.die (s.belt.requests.filter (fun r => r.rise))
  let falls := b.grants s.die (s.belt.requests.filter (fun r => !r.rise))
  let s : State := { s with belt := { s.belt with
    nextWindow := w + 1, requests := falls.2.foldl (fun q r => addReq r q) rises.2 } }
  let s := rises.1.foldl State.grantRise s
  .next (falls.1.foldl State.grantFall s)

/-! ## Energy of an interval (R350, R351) -/

/-- Calibrated energy of a domain (R351). -/
def calibrated (raw : Nat) (cal : W32) : Nat :=
  (((raw * (cal.toNat % 65536) / 32768 : Nat) : Int) + 10 * ((cal >>> 16).setWidth 16 : BitVec 16).toInt).toNat

/-- Calibrated energies of the 27 domains in an interval. -/
def State.intervalEnergy (s : State) (m : Metering) : List Nat :=
  (List.range 27).map (fun d =>
    if s.domainPresent d then calibrated (m.raw.getD d 0) (s.belt.cal.getD d 0) else 0)

/-- Sum of a list. -/
def sumNat (xs : List Nat) : Nat := xs.foldl (· + ·) 0

/-- Energy of die power in an interval (R343): sleeves, ports and uncore, and the port half of each stack. -/
def State.dieEnergy (s : State) (m : Metering) (es : List Nat) : Nat :=
  sumNat (es.take 16) + sumNat (es.drop 22) +
  sumNat ((List.range 6).map (fun i => if s.domainPresent (16 + i) then m.portHalf.getD i 0 else 0))

/-! ## Attribution (R352-R354) -/

/-- A part of an interval's energy that a command receives: its class (0 sleeve, 1 stack, 2 Seam, 3 apportioned), nJ,
and its uncertainty as a fraction (R359). -/
structure Piece where
  ctx : Nat
  seq : W32
  cls : Nat
  nj : Nat
  num : Nat
  den : Nat
  deriving DecidableEq, Repr

/-- What commands did in the interval that ends at `stop`, by domain (R352-R354): units that they earned, requests that
served them, payload bytes that they moved; 26 their ticks in progress. -/
def State.sharesAt (s : State) (stop : Nat) : List WorkShare :=
  let of_ := fun (unit : Nat) (ms : List WorkShare) => (ms.filter (fun w => w.stop == stop)).map (fun w => { w with unit := unit })
  s.belt.meter.filter (fun w => w.stop == stop) ++
  (List.range 6).flatMap (fun m => of_ (16 + m) (s.fabric.port m).meter) ++
  (List.range 4).flatMap (fun p => of_ (22 + p) (s.seam p).meter)

/-- The shares of one domain. -/
def sharesOf (unit : Nat) (ws : List WorkShare) : List WorkShare := ws.filter (fun w => w.unit == unit)

/-- Those of them that belong to a command. -/
def ownedOf (ws : List WorkShare) : List WorkShare := ws.filter (fun w => decide (w.ctx < 1024))

/-- The accounts of intervals up to `stop` are closed. -/
def State.dropShares (s : State) (stop : Nat) : State :=
  let later := fun (ms : List WorkShare) => ms.filter (fun w => decide (stop < w.stop))
  { s with
    belt := { s.belt with meter := later s.belt.meter }
    fabric := { s.fabric with ports := s.fabric.ports.map (fun p => (p.1, { p.2 with meter := later p.2.meter })) }
    seams := s.seams.map (fun x => { x with meter := later x.meter }) }

/-- Sleeve units of a sleeve in an interval (R352). -/
def State.sleeveUnits (s : State) (k : Nat) : Nat :=
  10000 * (((List.range 8).filter (fun i => s.corePresent (8 * k + i))).length + (s.caps.gusset.getLsbD k).toNat)

/-- What a domain's energy is divided by: sleeve units, or requests or bytes in all (R352, R353). Where cores have retired
since they earned, the units are those earned (DESIGN CHOICE, log 58). -/
def State.domainTotal (s : State) (d : Nat) (ws : List WorkShare) : Nat :=
  let all := sumNat (ws.map (fun w => w.amount))
  if d < 16 then max (s.sleeveUnits d) all else all

/-- The direct pieces of a domain of energy `e` (R352, R353, R359). -/
def directPieces (d e total : Nat) (ws : List WorkShare) : List Piece :=
  if total = 0 then [] else
  ws.map (fun w => Piece.mk w.ctx w.seq (if d < 16 then 0 else if d < 22 then 1 else 2) (e * w.amount / total)
    (w.amount * max (15 * e) 3000000) (total * 1000))

/-- What a domain gives to the pool (R354): its energy that no command earned. -/
def poolPart (e total : Nat) (ws : List WorkShare) : Nat :=
  if total = 0 then e else e * (total - sumNat (ws.map (fun w => w.amount))) / total

/-- The pieces of an interval (R352-R354). -/
def State.pieces (s : State) (ws : List WorkShare) (es : List Nat) : List Piece :=
  let direct := (List.range 26).flatMap (fun d =>
    directPieces d (es.getD d 0) (s.domainTotal d (sharesOf d ws)) (ownedOf (sharesOf d ws)))
  let pool := sumNat ((List.range 26).map (fun d =>
    poolPart (es.getD d 0) (s.domainTotal d (sharesOf d ws)) (ownedOf (sharesOf d ws)))) + es.getD 26 0
  let shares := sharesOf 26 ws
  let t := sumNat (shares.map (fun x => x.amount))
  direct ++ (if t = 0 then [] else shares.map (fun x =>
    Piece.mk x.ctx x.seq 3 (pool * x.amount / t) (2 * (pool * x.amount / t)) 100))

/-- Add a piece to an account. -/
def Energy.add (a : Energy) (p : Piece) : Energy :=
  let n := a.uncNum * p.den + p.num * a.uncDen
  let d := a.uncDen * p.den
  let g := max 1 (Nat.gcd n d)
  { a with
    sleeve := a.sleeve + (if p.cls = 0 then p.nj else 0)
    stack := a.stack + (if p.cls = 1 then p.nj else 0)
    seam := a.seam + (if p.cls = 2 then p.nj else 0)
    apportioned := a.apportioned + (if p.cls = 3 then p.nj else 0)
    uncNum := n / g, uncDen := d / g }

/-- An account covers one more interval, that ends at `stop` (R355, R359). -/
def Energy.cover (a : Energy) (b : Belt) (stop : Nat) : Energy :=
  { a with
    first := some (a.first.getD (stop - 10000))
    last := stop
    intervals := a.intervals + 1
    stretch := max a.stretch b.step
    calChanged := a.calChanged || (a.first.isSome && a.calId != b.calId)
    defaults := a.defaults || b.wasDefault
    calId := b.calId }

/-- Commands that an interval concerns. -/
def meterKeys (ws : List WorkShare) : List (Nat × W32) :=
  (ownedOf ws).foldl (fun ks w => if ks.contains (w.ctx, w.seq) then ks else ks ++ [(w.ctx, w.seq)]) []

/-- Charge an interval to the entry of a command and to the jobs around it (R355, R356). -/
def State.chargeEnergy (s : State) (ps : List Piece) (stop : Nat) (k : Nat × W32) : State :=
  let mine := ps.filter (fun p => p.ctx == k.1 && p.seq == k.2)
  match s.entryOfSeq k.1 k.2 with
  | none => s
  | some e => s.setEntry { e with energy := mine.foldl Energy.add (e.energy.cover s.belt stop) }

/-- Charge an interval to the jobs of a context (R356): each covers it once. -/
def State.chargeJobs (s : State) (ps : List Piece) (keys : List (Nat × W32)) (stop ctx : Nat) : State :=
  let c := s.ctx ctx
  if c.jobs.isEmpty then s else
  s.setCtx ctx { c with jobs := c.jobs.map (fun j =>
    let ks := keys.filter (fun k => k.1 == ctx && s.jobCovers ctx j k.2)
    let mine := ps.filter (fun p => ks.contains (p.ctx, p.seq))
    if ks.isEmpty then j else { j with energy := mine.foldl Energy.add (j.energy.cover s.belt stop) }) }

/-- Attribute an interval that ends at `stop` (R350-R355). -/
def State.attribute (s : State) (es : List Nat) (stop : Nat) : State :=
  let ws := s.sharesAt stop
  let ps := s.pieces ws es
  let keys := meterKeys ws
  let given := sumNat (ps.map (fun p => p.nj))
  let s := keys.foldl (fun t k => t.chargeEnergy ps stop k) s
  let s := (s.ctxs.map (fun c => c.1)).foldl (fun t c => t.chargeJobs ps keys stop c) s
  { s with belt := { s.belt with
    energy := List.zipWith (fun (a : W64) (e : Nat) => a + BitVec.ofNat 64 e) s.belt.energy es
    unattributed := s.belt.unattributed + BitVec.ofNat 64 (sumNat es - given) } }

/-! ## Power, heat and throttle (R343-R349) -/

/-- An integer as a binary64. -/
def int64 (z : Int) : Nat := arith binary64 false (valOfInt z)

/-- A temperature of a register, in 1/16 °C, as a binary64. -/
def temp64 (t : BitVec 16) : Nat := div64 (int64 t.toInt) (int64 16)

/-- The thermal model after an interval of `nj` of die energy (R346), and the limit of R347 with the plate as it then
is. -/
def Belt.thermal (b : Belt) (nj : Nat) : Belt :=
  let p := div64 (int64 nj) (int64 10000)
  let th := fun (x : W32) => div64 (int64 x.toNat) (int64 1000000)
  let cap := fun (x : W32) => div64 (int64 x.toNat) (int64 1000)
  let delta := div64 (int64 1) (int64 100000)
  let qdp := div64 (sub64 b.td.toNat b.tp.toNat) (th b.thDp)
  let qpc := div64 (sub64 b.tp.toNat b.tc.toNat) (th b.thPc)
  let qci := div64 (sub64 b.tc.toNat (temp64 b.coolantIn)) (th b.thCi)
  let td := add64 b.td.toNat (div64 (mul64 delta (sub64 p qdp)) (cap b.cD))
  let tp := add64 b.tp.toNat (div64 (mul64 delta (sub64 qdp qpc)) (cap b.cP))
  let tc := add64 b.tc.toNat (div64 (mul64 delta (sub64 qpc qci)) (cap b.cC))
  let pth := div64 (sub64 (temp64 b.tLimit) tp) (th b.thDp)
  { b with
    td := BitVec.ofNat 64 td, tp := BitVec.ofNat 64 tp, tc := BitVec.ofNat 64 tc
    pThermal := if (val64 pth).lt (valOfInt 0) then 0 else BitVec.ofNat 64 pth }

/-- Whether die energy `nj` in an interval exceeds the thermal limit (R343, R347). -/
def Belt.overModel (b : Belt) (nj : Nat) : Bool :=
  (val64 b.pThermal.toNat).lt (val64 (div64 (int64 nj) (int64 10000)))

/-- Whether it exceeds the power caps (R343): 1 W for an interval is 10,000 nJ. -/
def Belt.overPower (b : Belt) (nj : Nat) : Bool :=
  decide (b.peakCap.toNat * 10000 < nj) ||
  decide (((b.peakCap.toNat : Int) - b.powerCap.toNat) * 10000000 ≤ b.bucket)

/-- Whether it is at most 95 % of the lowest of the three limits (R345). -/
def Belt.calm (b : Belt) (nj : Nat) : Bool :=
  decide (100 * nj ≤ 95 * (b.powerCap.toNat * 10000)) && decide (100 * nj ≤ 95 * (b.peakCap.toNat * 10000)) &&
  !(((valOfInt 19).mul (val64 b.pThermal.toNat)).lt ((valOfInt 20).mul (val64 (div64 (int64 nj) (int64 10000)))))

/-- The change of the throttle step at the end of an interval (R345); the causes of a raised step add up until it is
back at 0. -/
def Belt.throttle (b : Belt) (nj : Nat) (backstop : Bool) : Belt :=
  let pw := b.overPower nj
  let md := b.overModel nj
  if pw || md || backstop then
    { b with
      step := min 15 (b.step + 1), quiet := 0
      causes := b.causes ||| BitVec.ofNat 3 (pw.toNat + 2 * md.toNat + 4 * backstop.toNat) }
  else if b.calm nj then
    if b.quiet + 1 ≥ 10 then
      { b with step := b.step - 1, quiet := 0, causes := if b.step ≤ 1 then 0 else b.causes }
    else { b with quiet := b.quiet + 1 }
  else { b with quiet := 0 }

/-- A THROTTLE record where the step has changed (R450). -/
def State.traceStep (s : State) (old : Nat) : State :=
  if s.belt.step = old then s
  else s.traceRec 8 .belt 0 0 (s.belt.step + 16 * s.belt.causes.toNat)

/-- A thermal trip (R349): work in flight on every core is discarded and will run again. -/
def State.trips (s : State) : State :=
  let old := s.belt.step
  let s : State := { s with belt := { s.belt with
    trip := true, step := 15, cool := 0, quiet := 0, requests := [], running := [], holdUp := [] } }
  let s := (s.traceStep old).traceFault .trip 0 .belt 0 0
  let hit := s.journal.entries.filter (fun e => e.inWork && e.working && e.isStepped)
  (hit.foldl (fun t e => (t.dropRequests e).setEntry { e with
    asked := [], faulted := true, notes := e.notes ++ [Status.faultRetried]
    energy := { e.energy with reexecuted := true } }) s).ibi

/-- The sensors of the die among 17 readings (R348): one for each sleeve, and the uncore's. -/
def dieSensors (d : Die) (xs : List Int) : List Int := xs.take (dieSleeves d) ++ [xs.getD 16 0]

/-- The readings of an interval (R348, R349): registers, backstop, trip, and the time that they have been cool. -/
def State.readSensors (s : State) (xs : List Int) : State :=
  let rs := dieSensors s.die xs
  let hot := rs.foldl max (rs.headD 0)
  let s : State := { s with
    sleeves := s.sleeves.zipIdx.map (fun (v : Sleeve × Nat) =>
      if v.2 < dieSleeves s.die then { v.1 with sensor := BitVec.ofInt 16 (xs.getD v.2 0) } else v.1)
    belt := { s.belt with
      hottest := BitVec.ofInt 16 hot
      cool := if s.belt.trip && decide (hot ≤ s.belt.tTrip.toInt - 160) then s.belt.cool + 10000 else 0 } }
  if !s.belt.trip && decide (s.belt.tTrip.toInt ≤ hot) then s.trips else s

/-- Calibrations, the cap and the values of a profile that came during an interval take effect at its end (R337, R344, R346,
R351). CAL_ID hashes the words as they read, 0 for an absent domain (R360). `v` are the values as the registers hold them. -/
def State.takeNew (s : State) (v : BeltValues) (stop : Nat) : Belt :=
  let b := s.belt.withValues v
  let cal := b.calNext.foldl (fun c x => c.set x.1 x.2) b.cal
  { b with
    cal := cal, calNext := []
    calId := if b.calNext.isEmpty then b.calId else
      calIdOf ((List.range 27).map (fun d => if s.domainPresent d then cal.getD d 0 else 0))
    powerCap := b.capNext.getD b.powerCap, capNext := none
    coolantIn := b.coolant, wasDefault := b.defaults
    prior := b.prior.filter (fun p => decide (stop ≤ p.1)) }

/-- Nominal cycles that a throttle step took from every core in an interval (R345): 8,500 × s / 20. -/
def State.stretchCycles (s : State) : State :=
  if s.belt.step = 0 then s else
  (coreList s.caps.cores).foldl (fun t c => t.count (.stall c 10) (425 * s.belt.step)) s

/-- The end of the metering interval that ends at tick `stop` (R343-R354). -/
def State.endInterval (s : State) (m : Metering) (stop : Nat) : State :=
  let es := s.intervalEnergy m
  let nj := s.dieEnergy m es
  let v := s.belt.values
  let s := ((s.attribute es stop).dropShares stop).stretchCycles
  let s : State := { s with belt := s.belt.inForce (stop - 10000) }
  let old := s.belt.step
  let b := s.belt
  let b := { b with
    bucket := b.bucket + nj - b.powerCap.toNat * 10000
    lastInterval := stop }.thermal nj
  let hot := (dieSensors s.die m.sensors).any (fun x => decide (b.tLimit.toInt < x))
  let b := if b.trip then b else b.throttle nj hot
  let s := ({ s with belt := b }.traceStep old).readSensors m.sensors
  { s with belt := s.takeNew v stop }

/-- METERING_INTERVAL (R343, R350): the interval that ended at the last multiple of 10,000, if it is not closed yet. -/
def execMeteringInterval (m : Metering) (s : State) : Host.Outcome State Fault Refusal :=
  let stop := s.stamp.toNat / 10000 * 10000
  if s.inReset || decide (stop ≤ s.belt.lastInterval) then .next s else .next (s.endInterval m stop)

/-- TRIP_END (R349): all sensors have been cool for 1,000,000 ticks. Commands that hold queues ask for their steps
again. -/
def execTripEnd (s : State) : Host.Outcome State Fault Refusal :=
  if !s.belt.trip || decide (s.belt.cool < 1000000) then .next s else
  let s : State := { s with belt := { s.belt with trip := false, step := 8, quiet := 0, cool := 0 } }
  let s := s.traceStep 15
  let held := s.cores.flatMap (fun u => u.2.queues.filterMap (fun q =>
    (s.entry? q.ctx q.seq).map (fun e => (e, u.1)))) ++
    (s.journal.entries.filter (fun e => e.inWork && e.working && e.addsBlocks)).flatMap (fun e =>
      (s.usable e.ctx).map (fun c => (e, c)))
  .next (held.foldl (fun t x => t.beginSteps x.1 x.2) s).ibi

/-! ## ENERGY_MARK (R356) -/

/-- Whether a tick lies in an interval that has closed. -/
def State.intervalClosed (s : State) (t : W64) : Bool := decide (t.toNat < s.belt.lastInterval)

/-- ENERGY_MARK (R265, R266, R356). -/
def energyMarkWork (s : State) (e : Entry) : Verdict :=
  let c := s.ctx e.ctx
  let id : W32 := BitVec.ofNat 32 (e.field 0x10 4)
  if !e.clean [(0x10, 0, 32), (0x14, 0, 1)] then .fail [Status.malformed] [] else
  match (e.field 0x14 1).testBit 0, c.jobs.find? (fun j => j.id == id) with
  | false, some _ => .fail [Status.malformed] []
  | false, none =>
    if 16 ≤ c.jobs.length then .fail [Status.outOfBounds] []
    else
      -- commands behind it whose record is already written: those of a failed chain (R241) are members too.
      let before := (s.entriesOf e.ctx).filter (fun x => decide (e.id < x.id) && (x.state == .completed || x.state == .released))
      let last := before.foldl (fun t x => if t.toNat < x.tRecord.toNat then x.tRecord else t) 0
      .done Status.ok 0 false
        (s.setCtx e.ctx { c with jobs := c.jobs ++ [Job.mk id e.seq none false Energy.zero before.length last] })
  | true, none => .fail [Status.malformed] []
  | true, some j =>
    if j.ended then .fail [Status.malformed] [] else
    let j' := { j with endSeq := some e.seq }
    if (s.entriesOf e.ctx).any (fun x => x.live && j'.covers x.seq) ||
        (decide (0 < j.members) && !s.intervalClosed j.lastDone) then .wait
    else .done Status.ok 0 false (s.setCtx e.ctx { c with
      jobs := c.jobs.map (fun x => if x.id = id then { j' with ended := true } else x) })

/-- ENERGY_MARK. -/
def execEnergyMark (ctx : Nat) (seq : W32) (s : State) : Host.Outcome State Fault Refusal :=
  s.runOp .energyMark ctx seq energyMarkWork

/-! ## RECEIPT_ISSUE (R357-R359) -/

/-- FLAGS of a receipt (R358, R359). -/
def Energy.flags (a : Energy) : Nat :=
  a.partial_.toNat + 2 * a.reexecuted.toNat + 4 * a.calChanged.toNat + 8 * (decide (0 < a.stretch)).toNat +
  16 * a.defaults.toNat

/-- UNCERTAINTY: the exact sum rounded up (R359). -/
def Energy.uncertainty (a : Energy) : Nat := (a.uncNum + a.uncDen - 1) / max 1 a.uncDen

/-- Bytes 0x00-0x9F of a receipt (R358). -/
def receiptBytes (kind ctx id commands no : Nat) (boot device : Bytes) (a : Energy) : Bytes :=
  leBytes 2 1 ++ leBytes 1 kind ++ leBytes 1 a.flags ++ leBytes 2 ctx ++ leBytes 2 1 ++ leBytes 4 id ++
  leBytes 4 commands ++ leBytes 8 no ++ leBytes 8 a.calId.toNat ++ boot.take 16 ++ device.take 16 ++
  leBytes 8 (a.first.getD 0) ++ leBytes 8 a.last ++ leBytes 8 a.sleeve ++ leBytes 8 a.stack ++ leBytes 8 a.seam ++
  leBytes 8 a.apportioned ++ leBytes 8 (a.sleeve + a.stack + a.seam + a.apportioned) ++
  leBytes 8 a.uncertainty ++ leBytes 4 a.intervals ++ leBytes 1 a.stretch ++ zeroBytes 27

/-- The root secret in use (R400). -/
def State.rootOf (s : State) : BitVec 384 := s.lining.root.getD Config.deviceRoot

/-- Whether the Lining can work (R5). -/
def State.liningIssues (s : State) : List Status := if s.ready.lining then [] else [Status.notReady]

/-- Write a receipt: signed by the identity key, counted (R358, R445). -/
def State.writeReceipt (s : State) (e : Entry) (rs : List Run) (kind id commands : Nat) (a : Energy) : State :=
  let no := s.belt.receipts + 1
  let body := receiptBytes kind e.ctx id commands no.toNat (bootHash s.lining.bootNonce) (deviceId s.rootOf) a
  let bs := body ++ signBytes (dikPrivate s.rootOf) body
  let s := (splitRuns rs bs).foldl (fun t w => t.bounceStore e.ctx w.1 w.2) s
  let s : State := { s with belt := { s.belt with receipts := no } }
  ((((s.dropCopies rs).l2Invalidate rs).setEntry { e with wrote := rs })).count (.context e.ctx 7) 1

/-- Whether a SEQ names a command of the context accepted before an entry (R357). -/
def State.isEarlier (s : State) (e : Entry) (q : W32) : Bool :=
  let c := s.ctx e.ctx
  decide ((q - c.initialSeq).toNat < (e.seq - c.initialSeq).toNat)

/-- What a receipt covers: commands and account; or what stands in the way (R266, R357). -/
inductive Covered where
  | wait
  | stop (st : Status)
  | account (commands : Nat) (a : Energy)
  deriving Repr

/-- The command or job that a receipt names (R357). -/
def State.covered (s : State) (e : Entry) (job : Bool) (id : W32) : Covered :=
  if job then
    match (s.ctx e.ctx).jobs.find? (fun j => j.id == id && j.ended) with
    | none => .stop Status.malformed
    | some j => .account j.members j.energy
  else if !s.isEarlier e id then .stop Status.malformed
  else
    match ((s.entriesOf e.ctx).filter (fun x => x.seq == id && decide (x.id < e.id))).getLast? with
    | none => .stop Status.outOfBounds
    | some x =>
      if x.live then .wait
      else if x.state != .completed then .stop Status.outOfBounds
      else if !s.intervalClosed x.tRecord then .wait
      else .account 1 x.energy

/-- RECEIPT_ISSUE (R265, R266, R357). -/
def receiptIssueWork (s : State) (e : Entry) : Verdict :=
  let job := (e.field 0x10 1).testBit 0
  let id : W32 := BitVec.ofNat 32 (e.field 0x14 4)
  let dest := e.field 0x18 8
  let ok := e.clean [(0x10, 0, 1), (0x14, 0, 32), (0x18, 0, 64), (0x20, 0, 32)] && decide (dest ≠ 0)
  let room := if 256 ≤ e.field 0x20 4 then [] else [Status.outOfBounds]
  match s.covered e job id, s.resolve e.ctx dest 256 true with
  | .stop st, _ => .fail (need ok ++ room ++ s.liningIssues ++ [st]) []
  | cov, .error st =>
    match cov with
    | .wait => if ok && room.isEmpty then .wait else .fail (need ok ++ room) []
    | _ => .fail (need ok ++ room ++ s.liningIssues ++ [st]) []
  | .wait, .ok _ => if ok && room.isEmpty then .wait else .fail (need ok ++ room) []
  | .account n a, .ok rs =>
    let issues := need ok ++ room ++ s.liningIssues ++ s.sealIssues e.ctx [] rs []
    if !issues.isEmpty then .fail issues [] else
    let s := s.writeReceipt e rs job.toNat id.toNat n a
    let c := s.ctx e.ctx
    .done Status.ok 256 false
      (if job then s.setCtx e.ctx { c with jobs := c.jobs.filter (fun j => j.id != id) } else s)

/-- RECEIPT_ISSUE. -/
def execReceiptIssue (ctx : Nat) (seq : W32) (s : State) : Host.Outcome State Fault Refusal :=
  s.runOp .receiptIssue ctx seq receiptIssueWork

/-! ## POWER_RESERVE (R341) -/

/-- Put a reservation of a context in its slot, or in the first free one. -/
def putResv (r : Reservation) (rs : List (Option Reservation)) : List (Option Reservation) :=
  let mine := rs.zipIdx.find? (fun (x : Option Reservation × Nat) => match x.1 with | some v => v.ctx == r.ctx | none => false)
  let free := rs.zipIdx.find? (fun (x : Option Reservation × Nat) => x.1.isNone)
  match mine, free with
  | some x, _ => rs.set x.2 (some r)
  | none, some x => rs.set x.2 (some r)
  | none, none => rs

/-- POWER_RESERVE (R265, R266, R341). -/
def powerReserveWork (s : State) (e : Entry) : Verdict :=
  let n := e.field 0x10 2
  let ramp := bitsOf (e.field 0x14 1) 0 7
  let watts := e.field 0x18 2
  let b := s.belt
  let clean := e.clean [(0x10, 0, 10), (0x12, 0, 1), (0x14, 0, 7), (0x18, 0, 16)]
  let finish := fun (rs : List (Option Reservation)) =>
    Verdict.done Status.ok (BitVec.ofNat 32 (rs.filterMap id).length) false
      ({ s with belt := { b with resv := rs } }.auditCommand e none)
  if (e.field 0x12 1).testBit 0 then
    if !clean then .fail [Status.malformed] []
    else finish (b.resv.map (fun r => match r with
      | some v => if v.ctx = n then none else some v
      | none => none))
  else
    let ok := clean && (s.ctx n).state == .opened && decide (watts ≠ 0) &&
      decide (ramp = 0 ∨ (ramp % 8 = 0 ∧ 16 ≤ ramp ∧ ramp ≤ 96))
    let others := b.reserved - (match b.resvOf n with | some v => v.watts | none => 0)
    let full := (b.resvOf n).isNone && b.resv.all (fun r => r.isSome)
    let issues := need ok ++ (if 2 * (others + watts) > b.powerCap.toNat || full then [Status.outOfBounds] else [])
    if issues.isEmpty then finish (putResv (Reservation.mk n (if ramp = 0 then 48 else ramp) watts) b.resv)
    else .fail issues []

/-- POWER_RESERVE. -/
def execPowerReserve (ctx : Nat) (seq : W32) (s : State) : Host.Outcome State Fault Refusal :=
  s.runOp .powerReserve ctx seq powerReserveWork

end Sys2Proof.Machine
end

