-- ==== Sys2Proof/Machine/Boot.lean ====
section
/-!
DEFINITION. Sys2Proof/Machine/Boot.lean: the boot bundle (R436, R437) and the sleeve self-check (R439).
-/
namespace Sys2Proof.Machine

/-- An error of the boot (R436, R437): the bundle is discarded, and the interrupt of R433 raised when the code
changes. -/
def State.bootFail (s : State) (err : BitVec 4) : State :=
  let t : State := { s with boot := { s.boot with stage := .waitBundle, bundle := [], err := err } }
  if s.boot.err = err then t else t.ibi

/-- Greatest bytes of a bundle (R436). -/
def bundleMax : Nat := 8 * 2 ^ 20

/-- Add a chunk to the bundle (R436): in ascending, gap-free order; once TOTAL bytes have arrived it is verified. -/
def State.bootBytes (s : State) (offset : Nat) (data : Bytes) : State :=
  let b := s.boot
  if b.stage ≠ .waitBundle ∨ b.err = 5 then s
  else if offset ≠ b.bundle.length then s.bootFail 4
  else
    let all := b.bundle ++ data
    let total := fieldOf all 4 4
    if all.length < 8 then { s with boot := { b with bundle := all } }
    else if bundleMax < total then s.bootFail 4
    else if total ≤ all.length then { s with boot := { b with bundle := all.take total, stage := .verifying } }
    else { s with boot := { b with bundle := all } }

/-- The port that the straps choose for the bundle (R421, R436). -/
def State.bootSource (s : State) (src : Source) : Bool :=
  match src with
  | .seam p _ _ => s.pins.straps.toNat / 16 == 0 && (s.seam p).state == .active
  | .i3c => s.pins.straps.toNat / 16 == 1

/-- BOOT_CHUNK (R436): a BOOT packet on VC 17 of an ACTIVE port, or an I3C BOOT transfer. -/
def execBootChunk (src : Source) (offset : Nat) (data : List (BitVec 8)) (s : State) :
    Host.Outcome State Fault Refusal :=
  if s.inReset || !s.pins.warmResetN || !s.ready.tag then .next s else
  let t := match src with
    | .seam p ep _ => s.takeRx p .boot 17 ep 0
    | .i3c => s
  if s.bootSource src then .next (t.bootBytes offset data) else .next t

/-- The fields of a bundle's header (R436). -/
structure Bundle where
  bytes : Bytes
  format : Nat
  total : Nat
  helper : Nat × Nat
  cert : Nat × Nat
  makerAt : Nat
  fw : Nat × Nat
  resv : Bool
  deriving DecidableEq, Repr

/-- Read the header. -/
def Bundle.parse (b : Bytes) : Bundle where
  bytes := b
  format := fieldOf b 0 2
  total := fieldOf b 4 4
  helper := (fieldOf b 8 4, fieldOf b 0xC 4)
  cert := (fieldOf b 0x10 4, fieldOf b 0x14 4)
  makerAt := fieldOf b 0x18 4
  fw := (fieldOf b 0x1C 4, fieldOf b 0x20 4)
  resv := fieldOf b 2 2 != 0 || ((b.drop 0x24).take 0x1C).any (fun x => x != 0)

/-- A part of a bundle. -/
def Bundle.part (b : Bundle) (r : Nat × Nat) : Bytes := (b.bytes.drop r.1).take r.2

/-- The layout of R436: every part within TOTAL bytes, none over another. -/
def Bundle.layoutOk (b : Bundle) : Bool :=
  let parts := [(0, 0x40), b.helper, b.cert, (b.makerAt, 97), b.fw]
  b.format == 1 && !b.resv && decide (b.total ≤ bundleMax) && decide (b.bytes.length = b.total) &&
  decide (b.helper.2 ≤ 16384) && decide (b.cert.2 ≤ 16384) &&
  parts.all (fun r => decide (r.1 + r.2 ≤ b.total)) &&
  parts.zipIdx.all (fun (x : (Nat × Nat) × Nat) => parts.zipIdx.all (fun (y : (Nat × Nat) × Nat) =>
    decide (x.2 = y.2) || !overlaps x.1.1 x.1.2 y.1.1 y.1.2))

/-- Whether the helper data carries Elvom's signature in its last 96 bytes (R437; their place is PRESUMED, log
65). -/
def Bundle.helperOk (b : Bundle) : Bool :=
  let h := b.part b.helper
  decide (96 ≤ h.length) &&
  verifyBytes (leBytes 97 Config.elvomRootKey.toNat) (h.take (h.length - 96)) (h.drop (h.length - 96))

/-- A signed firmware image (R436): its body, where both signatures hold over it. -/
def signedBody (maker image : Bytes) : Option Bytes :=
  let n := image.length - 192
  let body := image.take n
  if 192 < image.length ∧ verifyBytes (leBytes 97 Config.elvomRootKey.toNat) body ((image.drop n).take 96) = true ∧
      verifyBytes maker body (image.drop (n + 96)) = true then some body
  else none

/-- A check of every present sleeve begins (R439). -/
def State.startChecks (s : State) (mask : BitVec 16) : State :=
  let m := mask &&& s.caps.sleeves
  { s with
    boot := { s.boot with checking := s.boot.checking ||| m }
    ready := { s.ready with sleeves := s.ready.sleeves &&& ~~~m }
    sleeves := s.sleeves.zipIdx.map (fun (x : Sleeve × Nat) =>
      if m.getLsbD x.2 then { x.1 with check := .running } else x.1) }

/-- The Collar becomes ready (R435, R439). -/
def State.releaseCollar (s : State) : State :=
  let s : State := { s with
    boot := { s.boot with stage := .running, everReady := true }
    lining := { s.lining with measured := true }
    ready := { s.ready with collar := true } }
  (s.startChecks s.caps.sleeves).ibi

/-- HELPER_ERR (R401). -/
def State.helperFail (s : State) (err : BitVec 4) : State :=
  ({ s with lining := { s.lining with helperErr := true } } : State).bootFail err

/-- BUNDLE_VERIFY (R437): the Lining verifies the bundle, measures the firmware and releases the Collar. -/
def execBundleVerify (s : State) : Host.Outcome State Fault Refusal :=
  if s.inReset || !s.pins.warmResetN || s.boot.stage != .verifying || !s.ready.lining then .next s else
  let b := Bundle.parse s.boot.bundle
  if !b.helperOk then .next (s.helperFail 1) else
  let h := b.part b.helper
  let root := Config.rootSecret (h.take (h.length - 96))
  let key := p384Public (dikPrivate root)
  if Config.certifiedKey (b.part b.cert) ≠ some (BitVec.ofNat 776 (leNat key)) then .next (s.helperFail 2) else
  let maker := b.part (b.makerAt, 97)
  match signedBody maker (b.part b.fw) with
  | none => .next (s.bootFail 3)
  | some body =>
    if !b.layoutOk then .next (s.bootFail 4) else
    let s : State := { s with
      boot := { s.boot with
        err := 0, bundle := [], makerKey := some maker, fwRunning := body, fwRunningDigest := digest384 body }
      lining := { s.lining with root := some root, helperErr := false } }
    .next s.releaseCollar

/-- SELF_CHECK (R371, R439): the check of a sleeve ends; commands discarded on cores that retire go on elsewhere. -/
def execSelfCheck (sleeve : Nat) (coresFailed : BitVec 8) (gussetFailed fabricFailed : Bool) (s : State) :
    Host.Outcome State Fault Refusal :=
  if !s.boot.checking.getLsbD sleeve || !s.ready.collar then .next s else
  let v := s.sleeve sleeve
  let mine := (s.caps.cores >>> (8 * sleeve)).setWidth 8
  let bad := coresFailed &&& mine
  let fails := fabricFailed || bad == mine
  let gusset := gussetFailed && s.caps.gusset.getLsbD sleeve
  let s : State := { s with boot := { s.boot with checking := s.boot.checking &&& ~~~(1#16 <<< sleeve) } }
  let s := s.setSleeve sleeve { v with
    check := if fails then .failed else .passed, fabricFail := fabricFailed, coresFailed := bad
    gussetFailed := gusset, checkT := s.stamp }
  let s := s.count (.cache sleeve 10) 1
  let s := (List.range 8).foldl (fun t i => if bad.getLsbD i then t.retireCore (8 * sleeve + i) else t) s
  let s := if gusset then s.retireGusset sleeve else s
  let gone := ((List.range 8).filter (fun i => fails || bad.getLsbD i)).map (fun i => 8 * sleeve + i)
  let hit := (v.hit.filter (fun h => h.2.any gone.contains)).map (fun h => h.1)
  if fails then .next ((s.retireSleeve sleeve).strand gone hit)
  else .next { s.strand gone hit with ready := { s.ready with sleeves := s.ready.sleeves ||| (1#16 <<< sleeve) } }

end Sys2Proof.Machine
end

