-- ==== Sys2Proof/Machine/Stores.lean ====
section
/-!
DEFINITION. Sys2Proof/Machine/Stores.lean: what several families share: gradient pair buffers with their
epoch commit (R127-R131, R94), stored copies read by version (R157, R158, R176), and the counts that a
command's conversions leave (R51, R252).
-/
namespace Sys2Proof.Machine

/-! ## Gradient pair buffers -/

/-- A gradient pair buffer as a command finds it: its descriptor, its header, the header's physical address,
and the physical runs of the rows of its committed and of its other epoch. -/
structure PairBuf where
  d : TDesc
  h : GHead
  head : Nat
  old : List (List Run)
  new : List (List Run)
  deriving Repr

/-- Open a buffer, its other epoch for writing if `write`; of the committed epoch the rows that the command demands (R281). -/
def State.openBuffer (s : State) (ctx : Nat) (d : TDesc) (write : Bool) (use : Nat → Bool := fun _ => true) :
    List Status × Option PairBuf :=
  match s.readStruct ctx d.base 64 64, s.resolve ctx d.base 64 write with
  | .ok b, .ok ((pa, _) :: _) =>
    let h := GHead.parse b
    if h.epochBytes % 64 ≠ 0 ∨ h.epochBytes < d.rows * d.pitch then ([Status.outOfBounds], none)
    else
      let e := h.epoch.toNat
      let o := if h.cleared then ([], [])
        else s.runsOf ctx false ((d.epochRows h e).zipIdx.map (fun x => (x.1.1, if use x.2 then x.1.2 else 0)))
      let n := if write then s.runsOf ctx true (d.epochRows h (1 - e)) else ([], [])
      (o.1 ++ n.1, some (PairBuf.mk d h pa o.2 n.2))
  | .error st, _ => ([st], none)
  | _, .error st => ([st], none)
  | _, _ => ([Status.outOfBounds], none)

/-- R130: between two clears a buffer accumulates from one context only. -/
def PairBuf.foreign (b : PairBuf) (ctx : Nat) : Bool := b.h.applied != 0 && b.h.lastCtx != ctx

/-- Pairs from the bytes of a row: gs, then gc (R127). -/
def pairsOf : List Nat → List Pair
  | gs :: gc :: r => Pair.mk gs gc :: pairsOf r
  | _ => []

/-- The bytes of a row of pairs. -/
def pairBytes (ps : List Pair) : Bytes := ps.flatMap (fun p => leBytes 4 p.sum ++ leBytes 4 p.comp)

/-- The committed pairs, memory rows; (+0, +0) when cleared (R127, R128). -/
def PairBuf.pairs (b : PairBuf) (s : State) : List (List Pair) :=
  if b.h.cleared then List.replicate b.d.rows (List.replicate b.d.cols pairZero)
  else b.old.map (fun rs => pairsOf (chunk 4 (2 * b.d.cols) (s.readRuns rs)))

/-- The writes of rows into the other epoch (R128 step 1). -/
def PairBuf.rowWrites (b : PairBuf) (rows : List (List Pair)) : List (Nat × Bytes) :=
  (List.zipWith (fun rs ps => splitRuns rs (pairBytes ps)) b.new rows).flatten

/-- The header write of an accumulation (R128 step 3). -/
def PairBuf.commitItem (b : PairBuf) (e : Entry) : CommitItem :=
  .write b.head (GHead.bytes { b.h with
    epoch := !b.h.epoch, cleared := false, lastSeq := e.seq, lastCtx := e.ctx, applied := b.h.applied + 1 })

/-- The header write of a clear (R131). -/
def PairBuf.clearItem (b : PairBuf) (e : Entry) : CommitItem :=
  .write b.head (GHead.bytes { b.h with cleared := true, lastSeq := e.seq, lastCtx := e.ctx, applied := 0 })

/-- Accumulate a binary64 value into a pair (R94), with the conversion of its high part. -/
def accumulate64 (p : Pair) (h : Nat) : Pair × Conv :=
  let v := val64 h
  let hi := to32 v
  let lo := if v.finite then (to32 (v.add (val32 hi.code).negate)).code else 0
  (kahan (kahan p hi.code) lo, hi)

/-- Physical address of a structure. -/
def State.physOf (s : State) (ctx va n : Nat) : Option Nat :=
  match s.resolve ctx va n false with
  | .ok ((pa, _) :: _) => some pa
  | _ => none

/-- The entries of the round list that a round descriptor names (R189). -/
def State.roundList (s : State) (ctx addr : Nat) : List Bytes :=
  match s.readStruct ctx addr 128 64 with
  | .error _ => []
  | .ok d =>
    let n := bitsOf (fieldOf d 0x0A 2) 0 12
    match s.resolve ctx (fieldOf d 0x40 8) (64 * n) false with
    | .error _ => []
    | .ok rs =>
      let b := s.readRuns rs
      (List.range n).map (fun i => (b.drop (64 * i)).take 64)

/-- Header addresses of the buffers that a command's descriptors name, or that its round clears. -/
def State.bufferHeads (s : State) (e : Entry) : List Nat :=
  (s.descs e).filterMap (fun d => if d.2.kind = 1 then s.physOf e.ctx d.2.base 64 else none) ++
  (if e.op == some .ryRoundClose then
    match smGet? s.groups (e.field 0x10 1 % 16) with
    | some g =>
      if g.ctx = e.ctx then g.tensors.filterMap (fun t =>
        match s.readStruct e.ctx t.buffer 64 64 with
        | .ok b => s.physOf e.ctx (TDesc.parse b).base 64
        | .error _ => none)
      else []
    | none => []
  else [])

/-- Whether an earlier command of the context has still to commit to one of some buffers (R130). -/
def State.bufferWait (s : State) (e : Entry) (heads : List Nat) : Bool :=
  (s.entriesOf e.ctx).any (fun x =>
    decide (x.id < e.id) && x.live && !x.decided && (s.bufferHeads x).any (fun a => heads.contains a))

/-! ## Governed formats (R136) -/

/-- Whether a command waits for its governed formats: an earlier GOV_STEP or GOV_BOUNDS has not committed. -/
def State.formatWait (s : State) (e : Entry) : Bool :=
  s.resolvesFormat e &&
  (s.entriesOf e.ctx).any (fun x =>
    decide (x.id < e.id) && x.live && !x.decided && (x.op == some .govStep || x.op == some .govBounds))

/-! ## Stored copies -/

/-- Parameter descriptors that an update-family command or an RY_PARAM_RECV writes, by physical address;
RY_PARAM_RECV names them in its round list. -/
def State.writesParams (s : State) (e : Entry) : List Nat :=
  match e.op with
  | some .update | some .updateRows | some .precondFactor =>
    (s.physOf e.ctx (e.field 0x10 8) 256).toList
  | some .ryParamRecv =>
    (s.roundList e.ctx (e.field 0x10 8)).filterMap (fun x => s.physOf e.ctx (fieldOf x 0x18 8) 256)
  | _ => []

/-- Whether an earlier command of the context may still commit a version of a descriptor (R159, R176). -/
def State.paramWait (s : State) (e : Entry) (pa : Nat) : Bool :=
  (s.entriesOf e.ctx).any (fun x =>
    decide (x.id < e.id) && x.live && !x.decided && (s.writesParams x).contains pa)

/-- What comes of naming a version (R176). -/
inductive VersionRead where
  | wait
  | stop (issues : List Status)
  | slot (d : TDesc) (ref : VRef)

/-- Resolve a version of a parameter descriptor that a command reads. -/
def State.readVersion (s : State) (e : Entry) (addr : Nat) (v : W64) : VersionRead :=
  match s.readStruct e.ctx addr 256 64 with
  | .error st => .stop [st]
  | .ok b =>
    let p := PDesc.parse b
    let pa := (s.physOf e.ctx addr 256).getD 0
    match p.holds v with
    | some x => if p.issues.isEmpty then .slot (p.slotDesc x) (VRef.mk e.ctx pa v) else .stop p.issues
    | none => if s.paramWait e pa then .wait else .stop (p.issues ++ [Status.outOfBounds])

/-- What stands in the way of a RETAIN (R176): the references held, and those of commands that are decided and will take
one when they complete. -/
def State.retainIssues (s : State) (v : VRef) : List Status :=
  let n := ((s.retained.filter (fun r => r.1.param == v.param && r.1.version == v.version)).map
    (fun r => r.2)).foldl (· + ·) 0 +
    ((s.journal.entries.filter (fun e => e.live)).map (fun e =>
      (e.retain.filter (fun r => r.param == v.param && r.version == v.version)).length)).foldl (· + ·) 0
  if 65535 ≤ n then [Status.outOfBounds] else []

/-! ## Counts -/

/-- A count of a RESULT word, and SUM_SAT (R223). -/
def resultCount (n : Nat) : W32 × Bool := (BitVec.ofNat 32 (min n 0xFFFFFFFF), decide (0xFFFFFFFF < n))

/-- The core whose counters take the conversions of a command: the first of its placement (R97; a DESIGN
CHOICE where the manual names no core). -/
def State.countCore (s : State) (ctx : Nat) : Nat := (s.usable ctx).headD 0

/-- The NUMERIC counts of a command's conversions (R51, R445). -/
def tallyCounts (core : Nat) (t : Tally) : List (Counter × Nat) :=
  ((if t.sat = 0 then [] else [(Counter.numeric core 0, t.sat)]) ++
   (if t.und = 0 then [] else [(Counter.numeric core 1, t.und)]) ++
   (if t.nan = 0 then [] else [(Counter.numeric core 2, t.nan)]))

end Sys2Proof.Machine
end

