-- ==== Sys2Proof/Machine/Product.lean ====
section
/-!
DEFINITION. Sys2Proof/Machine/Product.lean: what every product shares (03, 04): the order of its terms
(R85-R89, R95-R96), zero-point corrections (R47), the output stage (R49), the welt checks that are not made
(R364), the passes it runs (R62-R64, R98), convolution addressing (R73-R78), and its operand checks.
-/
namespace Sys2Proof.Machine

/-- A zero element: raw code 0 (R59, R76). -/
def zeroVal : Val := .num false 0 0

/-- Fold entries that a command keeps in its region (R91): `each` per slice, for the slices that hold any. -/
def foldNeed (each : Nat) (holds : List Bool) : Nat :=
  if each ≤ hemEntries then 0 else each * (holds.filter (fun h => h)).length

/-! ## Reductions -/

/-- Cut a list into pieces of given lengths. -/
def cutBy {α : Type} : List Nat → List α → List (List α)
  | [], _ => []
  | n :: ns, xs => xs.take n :: cutBy ns (xs.drop n)

/-- Lengths of the units of at most `size` of a reduction over `n` elements. -/
def unitLens (n size : Nat) : List Nat := (List.range (ceilDiv n size)).map (fun i => min size (n - i * size))

/-- The chain of the products of one unit (R85, R87). -/
def dotPair (p : Nat) (u : List (Val × Val)) : Pair := kahanAll (u.flatMap (fun t => productTerms p t.1 t.2))

/-- A chain of plain values, formed by the welt lanes (R47, R362). DESIGN CHOICE (log 94): a zero value takes no
step, as a gated cell takes none (R36); the manual does not say whether it takes a step of +0. -/
def plainPair (vs : List Val) : Pair :=
  kahanAll ((vs.filter (fun v => !v.isZero)).map (arith binary32 false))

/-- The shares of `s` slices in a list of units (R95). -/
def sliceUnits {α : Type} (s : Nat) (us : List α) : List (List α) :=
  (List.range s).map (fun j =>
    let a := j * us.length / s
    (us.drop a).take ((j + 1) * us.length / s - a))

/-- The slice totals joined by the tree (R88, R89, R96). -/
def reduceFloat (s : Nat) (us : List Pair) : Nat :=
  splitTree ((sliceUnits s us).map (fun ps => ps.foldl foldPair 0))

/-- The integer that an unscaled integer element stands for. -/
def intOf : Val → Int
  | .num neg m e => (if neg then -1 else 1) * ((m * 2 ^ e.toNat : Nat) : Int)
  | _ => 0

/-- Sum of integers. -/
def sumInt (zs : List Int) : Int := zs.foldl (· + ·) 0

/-- How a product reduces: pleat, split factor, lengths of its units in order, whether it is an integer
command (R86), and whether an operand carries a zero point. -/
structure Red where
  p : Nat
  s : Nat
  cut : List Nat
  isInt : Bool
  hasZp : Bool
  deriving Repr

/-- The total of one output after step 1 of R49: `a` the streamed elements, `b` the others. -/
def Red.total (r : Red) (zx zw : Int) (a b : List Val) : Val :=
  if r.isInt then
    let sxy := sumInt (List.zipWith (fun x y => intOf x * intOf y) a b)
    valOfInt (sxy - zw * sumInt (a.map intOf) - zx * sumInt (b.map intOf) + a.length * zx * zw)
  else
    let h := reduceFloat r.s ((cutBy r.cut (List.zip a b)).map (dotPair r.p))
    if !r.hasZp then val64 h else
    let rs := reduceFloat r.s ((cutBy r.cut a).map plainPair)
    let cs := reduceFloat r.s ((cutBy r.cut b).map plainPair)
    let d := fun (z : Int) => arith binary64 false (valOfInt z)
    val64 (add64 (sub64 (sub64 h (mul64 (d zw) rs)) (mul64 (d zx) cs)) (d (a.length * zx * zw)))

/-- All totals of a product: rows `as`, columns `bs`. -/
def Red.product (r : Red) (zx : Int) (zw : Nat → Int) (as bs : List (List Val)) : List (List Val) :=
  as.map (fun a => bs.zipIdx.map (fun b => r.total zx (zw b.2) a b.1))

/-- Join the columns of the products of the channel groups. -/
def joinCols (ms : List (List (List Val))) : List (List Val) :=
  match ms with
  | [] => []
  | m :: r => r.foldl (fun a b => List.zipWith (· ++ ·) a b) m

/-- One product of step 2 of R49: a zero total stays +0 under a negative scale, and so does a total under a zero scale; only a
total that rounds to zero leaves -0 (R38). -/
def scaleTotal (v : Val) (c : Nat) : Val :=
  let x := val64 (mul64 (arith binary64 false v) (widen c))
  if (v.isZero || (val32 c).isZero) && x.isZero then zeroVal else x

/-- Step 2 of R49: the per-channel scale of column j, binary32 codes. -/
def scaleCols (sc : Option (List Nat)) (rows : List (List Val)) : List (List Val) :=
  match sc with
  | none => rows
  | some cs => rows.map (fun r => List.zipWith scaleTotal r cs)

/-! ## Welt checks (R362-R364) -/

/-- One check of a streamed unit on a core against the columns of a tile (R362, R363): the result that the chains give, the
welt value Z and the magnitude A, or Z as an integer. -/
def weltOf (isInt : Bool) (p core : Nat) (a : List Val) (bs : List (List Val)) : WeltCheck :=
  if isInt then .exact core (sumInt ((List.range a.length).map (fun k =>
    intOf (a.getD k zeroVal) * sumInt (bs.map (fun b => intOf (b.getD k zeroVal)))))) else
  let result := (bs.map (fun b => (dotPair p (List.zip a b)).value32)).foldl add32 0
  let omega := fun (g : Val → Val) => (List.range a.length).map (fun k =>
    (plainPair (bs.map (fun b => g (b.getD k zeroVal)))).value32)
  let chain := fun (g : Val → Val) =>
    (kahanAll ((List.zipWith (fun x w => if x.isZero then [] else [arith binary32 false ((g x).mul (val32 w))])
      a (omega g)).flatten)).value32
  .float core result (chain (fun v => v)) (chain Val.abs)

/-- The slice that a reduction unit belongs to (R95), of `s` slices of `n` units. -/
def sliceAt (s n u : Nat) : Nat := ((List.range s).find? (fun j => decide (u < (j + 1) * n / s))).getD 0

/-- The checks of rows `as` and columns `bs` in tiles of `seg` columns, each on the core of its slice. -/
def weltChecks (r : Red) (cores : List Nat) (seg : Nat) (as bs : List (List Val)) : List WeltCheck :=
  let tiles := cutBy (unitLens bs.length seg) bs
  as.flatMap (fun a => (cutBy r.cut a).zipIdx.flatMap (fun u => tiles.map (fun t =>
    weltOf r.isInt r.p (cores.getD (sliceAt r.s r.cut.length u.2) 0) u.1 (t.map (fun b => (cutBy r.cut b).getD u.2 [])))))

/-! ## Passes (R62-R64, R98) -/

/-- Core cycles of one unstalled pass of M rows (R62, R64), I the spill interval. -/
def passCycles (f : Flow) (p m i : Nat) : Nat :=
  match f with
  | .stationary => m + (if p = 1 then 64 * ceilDiv m i else 0) + macRows p + macCols p - 1
  | _ => macRows p + macRows p + macCols p + m - 1

/-- Pleat code of a PASS record. -/
def pleatCode (p : Nat) : Nat := if p = 1 then 0 else if p = 2 then 1 else 2

/-- Slices whose first tile their core holds already (R63, R107), the slices of one core in turn: for each slice its core, its
first tile and its last; `same` says whether a pass reuses a tile. -/
def reused (same : HeldTile → HeldTile → Bool) : List (Nat × HeldTile × HeldTile) → Nat → (Nat → Option HeldTile) → List Nat
  | [], _, _ => []
  | (c, f, l) :: r, i, held =>
    (if (held c).any (same f) then [i] else []) ++ reused same r (i + 1) (fun x => if x = c then some l else held x)

/-- Whether a tile is the one that a core holds (R107), whatever dataflow streamed it last. -/
def HeldTile.is (a b : HeldTile) : Bool := a == { b with north := a.north }

/-- The passes of a command: for each slice, its core and its number of tiles. -/
structure Passes where
  flow : Flow
  p : Nat
  rows : Nat
  spill : Nat
  /-- arrays of a core. -/
  arrays : Nat
  slices : List (Nat × Nat)
  /-- slices whose first tile their core holds already (R63, R107). -/
  reuse : List Nat
  /-- products formed by the cells of each slice, none where the cells form none (R84). -/
  products : Option (List Nat)
  deriving Repr

/-- Their trace records (R450) and counts (R445): one record for each tile, without the load of a tile that the core
held (R107). -/
def Passes.traces (x : Passes) (op : Op) : List (Nat × TraceUnit × Nat) :=
  x.slices.zipIdx.flatMap (fun s => (List.range s.1.2).map (fun i =>
    let saved := if i = 0 ∧ s.2 ∈ x.reuse then macRows x.p else 0
    (4, TraceUnit.core s.1.1, op.code + pleatCode x.p * 2 ^ 12 + x.flow.code * 2 ^ 14 + i % 65536 * 2 ^ 16 +
      (passCycles x.flow x.p x.rows x.spill - saved) * 2 ^ 32)))

/-- WEIGHT_LOAD and SPILL cycles of a slice of `tiles` tiles (R62-R64, R71, R93): one load of L cycles for each tile but
one that the core held, 64 cycles for each spill at PL1. -/
def Passes.stalls (x : Passes) (core tiles idx : Nat) : List (Counter × Nat) :=
  match x.flow with
  | .stationary => if x.p = 1 then [(Counter.stall core 3, tiles * (64 * ceilDiv x.rows x.spill))] else []
  | _ => [(Counter.stall core 2, (tiles - if idx ∈ x.reuse then 1 else 0) * macRows x.p)]

/-- CELL_ACTIVE and CELL_GATED of a slice (R36, R67): each streamed row passes each base cell of a tile once, a product
takes the p × p cells of its group, and the cells of every other product are gated. -/
def Passes.cells (x : Passes) (core tiles idx : Nat) : List (Counter × Nat) :=
  match x.products with
  | none => []
  | some ns =>
    let active := x.p * x.p * ns.getD idx 0
    [(Counter.util core 3, active), (Counter.util core 4, tiles * x.rows * (16384 * x.arrays) - active)]

/-- PASSES, ROWS_STREAMED, the cells and the stalls that the shape of a command fixes (R67, R71). -/
def Passes.counts (x : Passes) : List (Counter × Nat) :=
  x.slices.zipIdx.flatMap (fun s =>
    [(Counter.util s.1.1 6, s.1.2), (Counter.util s.1.1 7, s.1.2 * x.rows)] ++ x.stalls s.1.1 s.1.2 s.2 ++
      x.cells s.1.1 s.1.2 s.2)

/-- The slices of a product: the core of each (R97) and its number of tiles. -/
def placeSlices (cores tiles : List Nat) : List (Nat × Nat) := tiles.zipIdx.map (fun t => (cores.getD t.2 0, t.1))

/-- Add two lists of counts by position. -/
def addUp : List Nat → List Nat → List Nat
  | [], ys => ys
  | xs, [] => xs
  | x :: xs, y :: ys => (x + y) :: addUp xs ys

/-- How many of some rows hold a non-zero element at each position. -/
def nonZeros (ms : List (List Val)) : List Nat :=
  ms.foldl (fun a r => addUp a (r.map (fun v => if v.isZero then 0 else 1))) []

/-! ## Convolution (R73-R78) -/

/-- Kernel positions in ascending order. -/
def Geom.kernel (g : Geom) : List (Nat × Nat) :=
  (List.range g.kh).flatMap (fun i => (List.range g.kw).map (fun j => (i, j)))

/-- Streamed rows of a forward convolution in a channel group (R75, R76): `pad` the padding element. -/
def Geom.patches (g : Geom) (pad : Val) (x : List (List Val)) (grp : Nat) : List (List Val) :=
  (List.range g.outRows).map (fun m => g.kernel.flatMap (fun k =>
    match g.inAt m k.1 k.2 with
    | some r => ((x.getD r []).drop (grp * g.cg)).take g.cg
    | none => List.replicate g.cg pad))

/-- Streamed rows of a convolution input gradient in a channel group (R77). -/
def Geom.backRows (g : Geom) (dy : List (List Val)) (grp : Nat) : List (List Val) :=
  (List.range g.inRows).map (fun m => g.kernel.flatMap (fun k =>
    match g.outAt m k.1 k.2 with
    | some r => ((dy.getD r []).drop (grp * g.og)).take g.og
    | none => List.replicate g.og zeroVal))

/-- The weights that meet input channel c in a convolution input gradient, in the order of `backRows`. -/
def Geom.backCols (g : Geom) (w : List (List Val)) (grp : Nat) : List (List Val) :=
  (List.range g.cg).map (fun c => (List.range (g.kh * g.kw)).flatMap (fun k =>
    ((w.getD (k * g.cg + c) []).drop (grp * g.og)).take g.og))

/-! ## Operands -/

/-- A matrix operand format (R27). -/
def matFmt (f : Format) : Bool := decide (Format.code f ≤ 9)

/-- A streamed activation operand (R27, R46, R105). -/
def streamOk (d : TDesc) (f : Format) : Bool := decide (d.kind = 0 ∧ d.zpKind ≠ 2) && !d.orient && matFmt f
/-- A gradient operand (R109). -/
def gradOk (d : TDesc) (f : Format) : Bool := decide (d.kind = 0 ∧ d.zpKind = 0) && !d.orient && matFmt f
/-- A held operand. -/
def heldOk (d : TDesc) (f : Format) : Bool := decide (d.kind = 0) && matFmt f
/-- An activation destination (R472). -/
def outOk (d : TDesc) (f : Format) : Bool := decide (d.kind = 0 ∧ d.zpKind ≠ 2 ∧ Format.code f ≤ 10) && !d.orient
/-- A gradient destination (R109). -/
def gradOutOk (d : TDesc) (f : Format) : Bool := decide (d.kind = 0 ∧ d.zpKind = 0 ∧ Format.code f ≤ 10) && !d.orient

/-- Two matrix operands that may meet in one command (R34). -/
def mixOk (f g : Format) : Bool := isInt f == isInt g
/-- An integer command (R86). -/
def intCommand (f g : Format) (df dg : TDesc) : Bool :=
  isInt f && isInt g && decide (df.group = 0) && decide (dg.group = 0)

/-- A check that applies once a descriptor has been read. -/
def Opened.check (o : Opened) (p : TDesc → Format → Bool) : List Status :=
  match o.desc with
  | some d => o.issues ++ need (p d o.fmt)
  | none => o.issues

/-- A condition on descriptors that applies once all of them have been read (R236). -/
def onceRead (os : List Opened) (p : Bool) : List Status := if os.all (fun o => o.desc.isSome) then need p else []

/-- What stands in the way of further descriptors that a command names, where another of them cannot be read (R236). -/
def State.namedIssues (s : State) (v : Env) (addrs : List Nat) : List Status :=
  addrs.flatMap (fun a => (s.openOpt v false a).issues)

/-- The descriptor of an opened operand, a blank one where there is none. -/
def Opened.d (o : Opened) : TDesc := o.desc.getD (TDesc.parse [])

/-- A slot of an operand block: required, optional, or required to be 0. -/
inductive SlotUse where
  | req | opt | zero
  deriving DecidableEq, Repr

/-- Whether the slots of an operand block are used as their opcode requires (R250). -/
def slotsOk (addrs : List Nat) (uses : List SlotUse) : Bool :=
  (List.zip addrs uses).all (fun x =>
    match x.2 with
    | .req => decide (x.1 ≠ 0)
    | .zero => decide (x.1 = 0)
    | .opt => true)

/-- The held operand of a command (R176, R251): none while its version is still to come. -/
def State.openHeld (s : State) (v : Env) (e : Entry) (addr : Nat) : Option Opened :=
  if !e.wKind then some (s.openDesc v false addr) else
  match s.readVersion e addr (BitVec.ofNat 64 (e.field 0x18 8)) with
  | .wait => none
  | .stop is => some (Opened.mk is none .binary32)
  | .slot d r => some (Opened.mk (if e.wRetain then s.retainIssues r else []) (some d)
      ((formatOf d.fmt).getD .binary32))

/-- The per-column zero points of a held operand lie in its format's range (R274). -/
def zpVecOk (t : Tensor) : Bool := t.zpBytes.all (fun b => zpInRange t.fmt b.toNat)

/-- The first `n` binary32 elements of a vector in the row-major order of its logical shape; those beyond them are not read
(R44). With ORIENT 1 memory row i holds the elements i, i + ROWS, i + 2 ROWS and so on. -/
def State.loadFlat (s : State) (ctx : Nat) (d : TDesc) (n : Nat) : List Status × List Run × List Nat :=
  let xs := (List.range d.rows).map (fun i =>
    (d.base + i * d.pitch, 4 * (if d.orient then ceilDiv (n - i) (max 1 d.rows) else min d.cols (n - i * d.cols))))
  let r := if d.handover then ([], xs.map (fun x => [x])) else s.runsOf ctx false xs
  let cs := r.2.map (fun rs => chunk 4 ((rs.map (fun x => x.2)).foldl (· + ·) 0 / 4) (s.readRuns rs))
  let flat := if d.orient then (List.range n).map (fun o => (cs.getD (o % max 1 d.rows) []).getD (o / max 1 d.rows) 0)
    else cs.flatten
  (r.1, r.2.flatten, flat.take n)

/-- A per-channel scale vector for `n` outputs (R44), `limit` the outputs that an array may serve. -/
def State.scaleVec (s : State) (v : Env) (addr n limit : Nat) : List Status × List Run × Option (List Nat) :=
  if addr = 0 then ([], [], none) else
  let o := s.openDesc v false addr
  let bad := o.check (fun d _ => decide (d.fmt = 0xA ∧ d.gov = false ∧ d.kind = 0 ∧ d.group = 0 ∧ d.zpKind = 0 ∧
    n ≤ d.rows * d.cols ∧ n ≤ limit))
  if !bad.isEmpty then (bad, [], none) else
  let r := s.loadFlat v.ctx o.d n
  (r.1, r.2.1, some r.2.2)

/-- A region that a command names for its own entries (R91, R126): missing, too small, not writable or not in stack
memory. DESIGN CHOICE (log 94): a descriptor with ORIENT, GROUP, ZP_KIND, GOV or HANDOVER set is MALFORMED, and a region
in a host window is OUT_OF_BOUNDS; the manual states FMT and KIND of the descriptor and that the region is in stack
memory. -/
def State.regionIssues (s : State) (v : Env) (addr fmt n : Nat) : List Status × List Run :=
  if addr = 0 then (need (decide (n = 0)), []) else
  let o := s.openDesc v false addr
  let bad := o.check (fun d _ => decide (d.fmt = fmt ∧ d.gov = false ∧ d.kind = 0 ∧ d.group = 0 ∧ d.zpKind = 0) &&
    !d.handover && !d.orient)
  if !bad.isEmpty then (bad, []) else
  let r := s.runsOf v.ctx true (o.d.extents o.fmt)
  let inHost := r.2.flatten.any (fun x => match placeOf x.1 with | .stack _ => false | _ => true)
  ((if o.d.rows * o.d.cols < n ∨ inHost = true then [Status.outOfBounds] else []) ++ r.1, r.2.flatten)

/-- A region that a command uses, when it needs one. -/
def scratchOf (n : Nat) (runs : List Run) : List Run := if n = 0 then [] else runs

/-- The runs of the structures that a command names (R404). -/
def State.structRuns (s : State) (e : Entry) : List Run :=
  (s.runsOf e.ctx false ((s.named e).map (fun n => (n.addr, n.len)))).2.flatten

/-- SEALED for a product (R404, R405): `vals` are its values but for the held operand's, `held` those. -/
def State.productSeals (s : State) (e : Entry) (open_ : Bool) (vals held outs other : List Run) : List Status :=
  let free := open_ && !s.anySealed vals && s.allOpen held
  s.sealIssues e.ctx (if free then vals else vals ++ held) outs (held ++ other ++ s.structRuns e)

/-! ## Output -/

/-- What conversions into a tensor come to: the writes, the counts, the statistics (R49-R51, R139). -/
structure Written where
  writes : List (Nat × Bytes)
  tally : Tally
  stats : List StatRec
  deriving Repr

/-- Convert memory rows of values into a tensor, `sb` the scale byte of a row and column. Every command that writes a
narrow tensor through here gathers the statistics of the LAYER and ROLE that its descriptor names, MM_DW, MM_CONV_DW,
MM_DIST and MM_SAFE too, which the table of R139 does not list (DESIGN CHOICE, log 95). -/
def State.storeRows (s : State) (ctx : Nat) (t : Tensor) (sb : Nat → Nat → Nat) (rows : List (List Val)) :
    Written :=
  let r := convertRows t.d t.fmt sb (s.ctx ctx).step rows
  Written.mk (writeRows t r.1) r.2.1
    ((statOf t.d t.fmt r.2.2).map (fun x => { x with sealedBy := s.anySealed t.all }))

/-- Scale bytes of an activation or gradient destination: along each memory row (R471). -/
def rowScales (t : Tensor) : Nat → Nat → Nat := fun m c => t.scaleAt t.d.cols m c

/-- Scale bytes of a dW destination: along k, indexed by n, whatever ORIENT (R471). -/
def weightScales (t : Tensor) : Nat → Nat → Nat :=
  fun r c => if t.d.orient then t.scaleAt t.shape.1 r c else t.scaleAt t.shape.1 c r

/-- The effects of a command whose conversions go to plain tensors. -/
def State.writeDelta (s : State) (e : Entry) (w : Written) (tally : Tally) (result : W32) (sat : Bool) : Delta :=
  { Delta.none with
    result := result, sat := sat, writes := w.writes, stats := w.stats
    counts := tallyCounts (s.firstCore e) tally }

end Sys2Proof.Machine
end

