-- ==== Sys2Proof/Machine/Matrix.lean ====
section
/-!
DEFINITION. Sys2Proof/Machine/Matrix.lean: the matrix opcodes (R104-R111, R249-R252): MM_FWD, MM_DX, MM_DW,
the convolutions, MM_DIST (R82-R84) and MM_SAFE (R79-R81).
-/
namespace Sys2Proof.Machine

/-! ## Bodies -/

/-- The fields that a matrix opcode uses (R251), OPS among them. -/
def matFields (e : Entry) (w : Bool) (more : List (Nat × Nat × Nat)) : List (Nat × Nat × Nat) :=
  [(0x10, 0, 64)] ++ (if w then [(0x24, 0, 1)] else []) ++
  (if w && e.wKind then [(0x18, 0, 64), (0x24, 1, 2)] else []) ++ more

/-- SPILL (R92, R251): 0 selects 4,096 rows. -/
def Entry.spill (e : Entry) : Nat := if e.field 0x22 2 = 0 then 4096 else 256 * e.field 0x22 2
/-- ACCUM (R111). -/
def Entry.accum (e : Entry) : Bool := (e.field 0x24 1).testBit 3

/-- A matrix operand block (R250). -/
structure MBlock where
  a : Nat
  b : Nat
  w : Nat
  out : Nat
  scale : Nat
  fold : Nat
  mask : Nat
  aux : Nat
  deriving Repr

/-- The addresses in their order. -/
def MBlock.list (m : MBlock) : List Nat := [m.a, m.b, m.w, m.out, m.scale, m.fold, m.mask, m.aux]

/-- Read a command's operand block. -/
def State.matBlock (s : State) (e : Entry) : Except Status MBlock :=
  match s.readStruct e.ctx (e.field 0x10 8) 64 64 with
  | .error st => .error st
  | .ok x =>
    let f := fun o => fieldOf x o 8
    .ok (MBlock.mk (f 0) (f 8) (f 0x10) (f 0x18) (f 0x20) (f 0x28) (f 0x30) (f 0x38))

/-- The identity of a tile of a held operand whose descriptor stands at `addr` (R107). -/
def heldTile (north : Bool) (e : Entry) (addr : Nat) (t : Tensor) (p row col : Nat) : HeldTile :=
  HeldTile.mk e.ctx addr ((t.all.map (fun r => r.1)).headD t.d.base) e.version row col p t.d.group t.scaleBytes
    (t.zeros t.d.logical.2) north

/-- Every descriptor of a list could be read. -/
def allRead (os : List Opened) : Bool := os.all (fun o => o.desc.isSome)

/-- The per-channel scale registers that a command's tile loads leave written in each array (R44): in west entry and
output-stationary mode an array has C positions of every N tile, in north entry every position; a convolution leaves
those of its last channel group. DESIGN CHOICE (log 94): the registers of an array are numbered by its positions in
order; R44 does not number them. -/
def scaleRegs (f : Flow) (p a per : Nat) (v : Option (List Nat)) : SMap W32 :=
  match v with
  | none => []
  | some cs =>
    let last := (cs.length - 1) / max 1 per * per
    (cs.drop last).zipIdx.flatMap (fun x => match f with
      | .north => (List.range a).map (fun r => (4096 * r + x.2, BitVec.ofNat 32 x.1))
      | _ => [(4096 * (x.2 / macCols p % a) + x.2 / (macCols p * a) * macCols p + x.2 % macCols p, BitVec.ofNat 32 x.1)])

/-! ## MM_FWD and MM_CONV_FWD -/

/-- A product ready to run: how it reduces, its zero points, its channel groups, and the passes it makes. -/
structure ProdJob where
  red : Red
  zx : Int
  zw : List Int
  /-- rows and columns of each channel group. -/
  groups : List (List (List Val) × List (List Val))
  passes : Passes
  /-- columns of a tile for the welt checks, and whether columns are checked too (output-stationary). -/
  seg : Nat
  both : Option Nat

/-- The totals of a job: every group's product, side by side. -/
def ProdJob.totals (j : ProdJob) : List (List Val) :=
  joinCols (j.groups.zipIdx.map (fun g =>
    let off := g.2 * g.1.2.length
    j.red.product j.zx (fun n => j.zw.getD (off + n) 0) g.1.1 g.1.2))

/-- Products formed by the cells of each slice (R36): the pairs whose elements are both non-zero, over the slice's share
of the reduction. -/
def ProdJob.products (j : ProdJob) : List Nat :=
  let ks := j.groups.foldl (fun a g => addUp a (List.zipWith (· * ·) (nonZeros g.1) (nonZeros g.2))) []
  (sliceUnits j.red.s (cutBy j.red.cut ks)).map (fun us => (us.map (fun u => u.foldl (· + ·) 0)).foldl (· + ·) 0)

/-- The welt checks of a job (R363): the streamed rows against the tiles, and the columns too in output-stationary mode. -/
def ProdJob.checks (j : ProdJob) : List WeltCheck :=
  let cores := j.passes.slices.map (fun x => x.1)
  j.groups.flatMap (fun g => weltChecks j.red cores j.seg g.1 g.2 ++
    (match j.both with | some k => weltChecks j.red cores k g.2 g.1 | none => []))

/-- The counts, the records and the welt checks of a job; a check that is not made is counted (R364). -/
def ProdJob.effects (j : ProdJob) (op : Op) (d : Delta) : Delta :=
  let cs := j.checks
  { d with
    counts := d.counts ++ { j.passes with products := some j.products }.counts ++
      (cs.filter WeltCheck.skipped).map (fun c => (Counter.numeric c.core 3, 1))
    traces := d.traces ++ j.passes.traces op
    welts := cs }

/-- The forward products (R104, R75), `g` the geometry of a convolution. -/
def forwardPlan (op : Op) (s : State) (e : Entry) (m : MBlock) (g : Option Geom) : Plan :=
  let v := s.envOf e
  match s.openHeld v e m.w with
  | none => .wait
  | some ow =>
    let ox := s.openDesc v false m.a
    let oy := s.openDesc v true m.out
    let fx := ox.fmt
    let fw := ow.fmt
    let (k, n) := ow.d.logical
    let rows := match g with | some c => c.outRows | none => ox.d.rows
    let p := pleatOf fx fw
    let sp := e.split
    let nGrp := match g with | some c => n / c.groups | none => n
    let units := ceilDiv k (macRows p)
    let a := dieArrays s.die
    let shape := onceRead [ox, ow] (mixOk fx fw && decide (sp ≤ 16 ∧ sp ≤ units) &&
        !(isInt fx && isInt fw && decide (1048576 < k))) ++
      (match g with
        | none => onceRead [ox, ow] (decide (ox.d.cols = k)) ++ onceRead [ox, oy] (decide (oy.d.rows = ox.d.rows)) ++
            onceRead [ow, oy] (decide (oy.d.cols = n))
        | some c => onceRead [ox] (decide (ox.d.rows = c.inRows ∧ ox.d.cols = c.cIn)) ++
            onceRead [ow] (decide (k = c.k ∧ n = c.cOut)) ++ onceRead [oy] (decide (oy.d.rows = c.outRows ∧ oy.d.cols = c.cOut)))
    let early := ox.check streamOk ++ ow.check heldOk ++ oy.check outOk ++ s.coreIssues e.ctx ++ need (decide (sp ≤ 16))
    if !allRead [ox, ow, oy] then .fail (early ++ shape ++ s.namedIssues v [m.scale, m.fold]) else
    let shares := sliceUnits sp (List.range units)
    let foldN := foldNeed (rows * macCols p * a) (shares.map (fun u => decide (1 < u.length)))
    let fold := s.regionIssues v m.fold 0xB foldN
    let sc := s.scaleVec v m.scale n (if nGrp ≤ 4096 * a then n else 0)
    let x := s.loadRows e.ctx ox false (fun r => match g with | some c => c.readsIn c.outAt r | none => true)
    let w := s.loadWeight e.ctx ow false
    let y := s.loadRows e.ctx oy true
    match x.2, w.2, y.2 with
    | some tx, some tw, some ty =>
      let seals := s.productSeals e true (tx.all ++ tx.scaleRuns ++ sc.2.1) (tw.all ++ tw.scaleRuns) ty.all
        (fold.2 ++ ty.scaleRuns)
      planUnless fold.1 (early ++ shape ++ sc.1 ++ x.1 ++ w.1 ++ y.1 ++ need (zpVecOk tw) ++ seals) (fun _ =>
        let xs := tx.vals s
        let ws := tw.weight s
        let zx := ox.d.zero fx
        let cols := transpose zeroVal n ws
        let perGrp := ceilDiv nGrp (macCols p * a)
        let slices := placeSlices (s.shareCores e) (shares.map (fun u => u.length * (perGrp * (n / max 1 nGrp))))
        let tile := heldTile false e m.w tw p
        let ends := (List.zip slices shares).map (fun c => (c.1.1, tile (c.2.headD 0 * macRows p) 0,
          tile (c.2.getLastD 0 * macRows p) (n - nGrp + (perGrp - 1) * (macCols p * a))))
        let job : ProdJob := {
          red := Red.mk p sp (unitLens k (macRows p)) (intCommand fx fw ox.d ow.d)
            (decide (ox.d.zpKind ≠ 0 ∨ ow.d.zpKind ≠ 0))
          zx := zx
          zw := tw.zeros n
          groups := match g with
            | none => [(xs, cols)]
            | some c => (List.range c.groups).map (fun i =>
                (c.patches (valOfInt zx) xs i, (cols.drop (i * c.og)).take c.og))
          passes := Passes.mk .west p rows 4096 a slices (reused (· == ·) ends 0 (fun c => (s.core c).held)) none
          seg := macCols p
          both := none }
        let out := s.storeRows e.ctx ty (rowScales ty) (scaleCols sc.2.2 job.totals)
        let r := out.tally.result
        let d := job.effects op (s.writeDelta e out out.tally r.1 r.2)
        { d with
          scratch := scratchOf foldN fold.2
          held := ends.map (fun c => (c.1, some c.2.2))
          scales := slices.map (fun c => (c.1, scaleRegs .west p a nGrp sc.2.2)) })
    | _, _, _ => planStop fold.1 (early ++ shape ++ sc.1 ++ x.1 ++ w.1 ++ y.1)

/-- Read the geometry block of a convolution (R73, R74), which no rule aligns. -/
def State.geometry (s : State) (ctx addr : Nat) : Except Status Geom :=
  match s.readStruct ctx addr 32 1 with
  | .error st => .error st
  | .ok b => if (Geom.parse b).ok then .ok (Geom.parse b) else .error Status.malformed

/-- Run a matrix plan on an operand block whose slots are used as they must be; `units` says what else stands in the way of
the command where the block cannot be read (R236). -/
def State.withBlock (s : State) (e : Entry) (fields : List (Nat × Nat × Nat)) (uses : List SlotUse)
    (units : List Status) (go : MBlock → Plan) : Plan :=
  if s.formatWait e then .wait
  else if !e.clean fields then .fail [Status.malformed]
  else match s.matBlock e with
    | .error st => .fail (st :: units)
    | .ok m => if slotsOk m.list uses then go m else .fail [Status.malformed]

/-- Run a convolution plan on its geometry; where it cannot be read, with what else stands in the way (R236). -/
def State.withGeom (s : State) (e : Entry) (m : MBlock) (go : Geom → Plan) : Plan :=
  match s.geometry e.ctx m.aux with
  | .error st => .fail (st :: s.coreIssues e.ctx ++
      s.namedIssues (s.envOf e) ([m.a, m.b, m.scale, m.fold, m.mask] ++ (if e.wKind then [] else [m.w])) ++
      (s.openDesc (s.envOf e) true m.out).issues)
  | .ok g => go g

/-- MM_FWD (R104). -/
def mmFwdPlan (s : State) (e : Entry) : Plan :=
  s.withBlock e (matFields e true [(0x20, 0, 5)]) [.req, .zero, .req, .req, .opt, .opt, .zero, .zero] (s.coreIssues e.ctx)
    (fun m => forwardPlan .mmFwd s e m none)

/-- MM_CONV_FWD (R75, R76). -/
def mmConvFwdPlan (s : State) (e : Entry) : Plan :=
  s.withBlock e (matFields e true [(0x20, 0, 5)]) [.req, .zero, .req, .req, .opt, .opt, .zero, .req] (s.coreIssues e.ctx)
    (fun m => s.withGeom e m (fun g => forwardPlan .mmConvFwd s e m (some g)))

/-! ## MM_DX and MM_CONV_DX -/

/-- A gating mask (R117): its issues, its runs, and the gate of each element of dy. -/
def State.gate (s : State) (v : Env) (addr rows cols : Nat) :
    List Status × List Run × (List (List Val) → List (List Val)) :=
  if addr = 0 then ([], [], fun x => x) else
  let o := s.openDesc v false addr
  let bad := o.check (fun d _ => decide (d.kind = 2 ∧ d.fmt ≤ 1 ∧ d.rows = rows ∧ d.cols = cols) && !d.orient)
  if !bad.isEmpty then (bad, [], fun x => x) else
  let r := if o.d.handover then ([], (o.d.extents o.fmt).map (fun x => [x]))
    else s.runsOf v.ctx false (o.d.extents o.fmt)
  (r.1, r.2.flatten, fun dy =>
    List.zipWith (fun xs rs => List.zipWith (fun x b => if b = 0 then zeroVal else x) xs
      (unpackBits 1 cols (s.readRuns rs))) dy r.2)

/-- The input gradients (R104, R77, R109). -/
def backwardPlan (op : Op) (s : State) (e : Entry) (m : MBlock) (g : Option Geom) : Plan :=
  let v := s.envOf e
  match s.openHeld v e m.w with
  | none => .wait
  | some ow =>
    let oy := s.openDesc v false m.b
    let ox := s.openDesc v true m.out
    let ref := if g.isNone then s.openOpt v false m.aux else Opened.mk [] none .binary32
    let fy := oy.fmt
    let fw := ow.fmt
    let (k, n) := ow.d.logical
    let rows := match g with | some c => c.inRows | none => oy.d.rows
    let outN := match g with | some c => c.cIn | none => k
    let p := pleatOf fy fw
    let sp := if g.isNone then e.split else 1
    let nGrp := match g with | some c => n / c.groups | none => n
    let perPos := ceilDiv nGrp (macCols p)
    let units := perPos * (match g with | some c => c.kh * c.kw | none => 1)
    let a := dieArrays s.die
    let shape := onceRead [oy, ow] (mixOk fy fw && decide (sp ≤ 16 ∧ sp ≤ units) &&
        !(isInt fy && isInt fw && decide (1048576 < k))) ++
      onceRead [ox] (ref.desc.isNone || ref.fmt == ox.fmt) ++
      (match g with
        | none => onceRead [oy, ow] (decide (oy.d.cols = n)) ++ onceRead [oy, ox] (decide (ox.d.rows = oy.d.rows)) ++
            onceRead [ow, ox] (decide (ox.d.cols = k))
        | some c => onceRead [oy] (decide (oy.d.rows = c.outRows ∧ oy.d.cols = c.cOut)) ++
            onceRead [ow] (decide (k = c.k ∧ n = c.cOut)) ++ onceRead [ox] (decide (ox.d.rows = c.inRows ∧ ox.d.cols = c.cIn)))
    let early := oy.check gradOk ++ ow.check (fun d f => heldOk d f && decide (d.zpKind ≠ 2)) ++
      ox.check gradOutOk ++ ref.check (fun d _ => decide (d.kind = 0 ∧ d.zpKind ≠ 2) && !d.orient) ++
      s.coreIssues e.ctx ++ need (decide (sp ≤ 16))
    if !allRead [oy, ow, ox] then .fail (early ++ shape ++ s.namedIssues v [m.scale, m.fold, m.mask]) else
    let shares := sliceUnits sp (List.range units)
    let across := ceilDiv nGrp (macCols p * a) * (match g with | some c => c.kh * c.kw | none => 1)
    let holds := if sp = 1 then [decide (1 < across)] else shares.map (fun u => decide (1 < u.length))
    let foldN := foldNeed (rows * macRows p) holds
    let fold := s.regionIssues v m.fold 0xB foldN
    let perGroup := match g with | some c => c.cg | none => k
    let sc := s.scaleVec v m.scale outN (if perGroup ≤ 4096 then outN else 0)
    let mask := s.gate v m.mask oy.d.rows oy.d.cols
    let y := s.loadRows e.ctx oy false (fun r => match g with | some c => c.readsIn c.inAt r | none => true)
    let w := s.loadWeight e.ctx ow false
    let x := s.loadRows e.ctx ox true
    match y.2, w.2, x.2 with
    | some ty, some tw, some tx =>
      let seals := s.productSeals e true (ty.all ++ ty.scaleRuns ++ sc.2.1 ++ mask.2.1) (tw.all ++ tw.scaleRuns)
        tx.all (fold.2 ++ tx.scaleRuns)
      planUnless fold.1 (early ++ shape ++ sc.1 ++ mask.1 ++ y.1 ++ w.1 ++ x.1 ++ seals) (fun _ =>
        let dys := mask.2.2 (ty.vals s)
        let ws := tw.weight s
        let kTiles := ceilDiv perGroup (macRows p)
        let slices := placeSlices (s.shareCores e) (shares.map (fun u =>
          (if g.isNone then ceilDiv u.length a else across) * (kTiles * (outN / max 1 perGroup))))
        let firstCol := fun (u : List Nat) => if g.isNone then u.headD 0 * macCols p else 0
        let lastCol := fun (u : List Nat) => if g.isNone then (u.headD 0 + (u.length - 1) / a * a) * macCols p
          else n - nGrp + (ceilDiv nGrp (macCols p * a) - 1) * (macCols p * a)
        let tile := heldTile true e m.w tw p
        let ends := (List.zip slices shares).map (fun c => (c.1.1, tile 0 (firstCol c.2),
          tile (k - perGroup + (kTiles - 1) * macRows p) (lastCol c.2)))
        let job : ProdJob := {
          red := Red.mk p sp
            (match g with
              | none => unitLens n (macCols p)
              | some c => (List.replicate (c.kh * c.kw) (unitLens nGrp (macCols p))).flatten)
            (intCommand fy fw oy.d ow.d) (decide (ow.d.zpKind ≠ 0))
          zx := 0
          zw := List.replicate outN (ow.d.zero fw)
          groups := match g with
            | none => [(dys, ws)]
            | some c => (List.range c.groups).map (fun i => (c.backRows dys i, c.backCols ws i))
          passes := Passes.mk .north p rows 4096 a slices
            (reused (fun f h => if g.isNone then f.is h else f == h) ends 0 (fun c => (s.core c).held)) none
          seg := macRows p
          both := none }
        let out := s.storeRows e.ctx tx (rowScales tx) (scaleCols sc.2.2 job.totals)
        let r := out.tally.result
        { job.effects op (s.writeDelta e out out.tally r.1 r.2) with
          scratch := scratchOf foldN fold.2
          held := ends.map (fun c => (c.1, some c.2.2))
          scales := slices.map (fun c => (c.1, scaleRegs .north p a perGroup sc.2.2)) })
    | _, _, _ => planStop fold.1 (early ++ shape ++ sc.1 ++ mask.1 ++ y.1 ++ w.1 ++ x.1)

/-- MM_DX (R104, R108). -/
def mmDxPlan (s : State) (e : Entry) : Plan :=
  s.withBlock e (matFields e true [(0x20, 0, 5)]) [.zero, .req, .req, .req, .opt, .opt, .opt, .opt] (s.coreIssues e.ctx)
    (fun m => backwardPlan .mmDx s e m none)

/-- MM_CONV_DX (R77). -/
def mmConvDxPlan (s : State) (e : Entry) : Plan :=
  s.withBlock e (matFields e true []) [.zero, .req, .req, .req, .opt, .opt, .opt, .req] (s.coreIssues e.ctx)
    (fun m => s.withGeom e m (fun g => backwardPlan .mmConvDx s e m (some g)))

/-! ## MM_DW and MM_CONV_DW -/

/-- dW rows as a destination's memory rows: transposed under ORIENT 1 (R105). -/
def orientRows {α : Type} (d : α) (orient : Bool) (n : Nat) (m : List (List α)) : List (List α) :=
  if orient then transpose d n m else m

/-- The effects of accumulating totals into a gradient pair buffer (R94, R111, R128). -/
def PairBuf.accumulate (b : PairBuf) (s : State) (e : Entry) (rows : List (List Val)) : Delta × Tally :=
  let acc := List.zipWith (fun ps vs => List.zipWith (fun p v => accumulate64 p (arith binary64 false v)) ps vs)
    (b.pairs s) rows
  let tally := Tally.ofConvs (acc.flatMap (fun r => r.map (fun x => x.2)))
  ({ Delta.none with
     writes := b.rowWrites (acc.map (fun r => r.map (fun x => x.1))), commit := [b.commitItem e] }, tally)

/-- The weight gradients (R104, R78, R92, R111). -/
def weightPlan (op : Op) (s : State) (e : Entry) (m : MBlock) (g : Option Geom) : Plan :=
  let v := s.envOf e
  let ox := s.openDesc v false m.a
  let oy := s.openDesc v false m.b
  let ow := s.openDesc v true m.out
  let fx := ox.fmt
  let fy := oy.fmt
  let (k, n) := ow.d.logical
  let rows := oy.d.rows
  let p := pleatOf fx fy
  let spill := e.spill
  let a := dieArrays s.die
  let nGrp := match g with | some c => n / c.groups | none => n
  let shape := onceRead [ox, oy] (mixOk fx fy && !(isInt fx && isInt fy && decide (1048576 < rows))) ++
    onceRead [ox, oy, ow] (!(isInt fx && isInt fy && decide (1048576 < k))) ++
    (match g with
      | none => onceRead [ox, oy] (decide (oy.d.rows = ox.d.rows)) ++ onceRead [ow, ox] (decide (k = ox.d.cols)) ++
          onceRead [ow, oy] (decide (n = oy.d.cols))
      | some c => onceRead [ox] (decide (ox.d.rows = c.inRows ∧ ox.d.cols = c.cIn)) ++
          onceRead [oy] (decide (oy.d.rows = c.outRows ∧ oy.d.cols = c.cOut)) ++ onceRead [ow] (decide (k = c.k ∧ n = c.cOut)))
  let destOk := fun (d : TDesc) (f : Format) =>
    if e.accum then decide (d.kind = 1) && !d.handover
    else decide (d.kind = 0 ∧ d.zpKind ≠ 2 ∧ Format.code f ≤ 10)
  let early := ox.check streamOk ++ oy.check gradOk ++ ow.check destOk ++ s.coreIssues e.ctx ++
    need (decide (spill ≤ 65536))
  if !allRead [ox, oy, ow] then .fail (early ++ shape ++ s.namedIssues v [m.scale, m.mask]) else
  let sc := s.scaleVec v m.scale n (if nGrp ≤ 4096 * a then n else 0)
  let mask := s.gate v m.mask oy.d.rows oy.d.cols
  let x := s.loadRows e.ctx ox false (fun r => match g with | some c => c.readsIn c.outAt r | none => true)
  let y := s.loadRows e.ctx oy false
  match x.2, y.2 with
  | some tx, some ty =>
    let vals := tx.all ++ tx.scaleRuns ++ ty.all ++ ty.scaleRuns ++ sc.2.1 ++ mask.2.1
    let run := fun (_ : Unit) =>
      let zx := ox.d.zero fx
      let xs := tx.vals s
      let dys := mask.2.2 (ty.vals s)
      let job : ProdJob := {
        red := Red.mk p 1 (unitLens rows spill) (intCommand fx fy ox.d oy.d) (decide (ox.d.zpKind ≠ 0))
        zx := zx
        zw := []
        groups := match g with
          | none => [(transpose zeroVal k xs, transpose zeroVal n dys)]
          | some c => (List.range c.groups).map (fun i =>
              (transpose zeroVal c.k (c.patches (valOfInt zx) xs i),
               ((transpose zeroVal n dys).drop (i * c.og)).take c.og))
        passes := Passes.mk .stationary p rows spill a [(s.firstCore e,
          ceilDiv k (macRows p) * ceilDiv nGrp (macCols p * a) * (n / max 1 nGrp))] [] none
        seg := macCols p
        both := some (macRows p) }
      (job, orientRows zeroVal ow.d.orient n (scaleCols sc.2.2 job.totals))
    let loads := fun (d : Delta) => { d with
      held := [(s.firstCore e, none)], scales := [(s.firstCore e, scaleRegs .stationary p a nGrp sc.2.2)] }
    if e.accum then
      let b := s.openBuffer e.ctx ow.d true
      match b.2 with
      | none => .fail (early ++ shape ++ sc.1 ++ mask.1 ++ x.1 ++ y.1 ++ b.1)
      | some buf =>
        if s.bufferWait e [buf.head] then .wait else
        let outs := buf.new.flatten
        let seals := s.sealIssues e.ctx (vals ++ (if buf.h.cleared then [] else buf.old.flatten)) outs (s.structRuns e)
        planUnless (need (!buf.foreign e.ctx)) (early ++ shape ++ sc.1 ++ mask.1 ++ x.1 ++ y.1 ++ b.1 ++ seals) (fun _ =>
          let j := run ()
          let d := buf.accumulate s e j.2
          let r := d.2.result
          loads (j.1.effects op { d.1 with
            result := r.1, sat := r.2, counts := tallyCounts (s.firstCore e) d.2 }))
    else
      let w := s.loadWeight e.ctx ow true
      match w.2 with
      | none => .fail (early ++ shape ++ sc.1 ++ mask.1 ++ x.1 ++ y.1 ++ w.1)
      | some tw =>
        let seals := s.sealIssues e.ctx vals tw.all (tw.scaleRuns ++ s.structRuns e)
        planOf (early ++ shape ++ sc.1 ++ mask.1 ++ x.1 ++ y.1 ++ w.1 ++ seals) (fun _ =>
          let j := run ()
          let out := s.storeRows e.ctx tw (weightScales tw) j.2
          let r := out.tally.result
          loads (j.1.effects op (s.writeDelta e out out.tally r.1 r.2)))
  | _, _ => .fail (early ++ shape ++ sc.1 ++ mask.1 ++ x.1 ++ y.1)

/-- MM_DW (R104, R111). -/
def mmDwPlan (s : State) (e : Entry) : Plan :=
  s.withBlock e (matFields e false [(0x22, 0, 9), (0x24, 3, 1)])
    [.req, .req, .zero, .req, .opt, .zero, .opt, .zero] (s.coreIssues e.ctx) (fun m => weightPlan .mmDw s e m none)

/-- MM_CONV_DW (R78). -/
def mmConvDwPlan (s : State) (e : Entry) : Plan :=
  s.withBlock e (matFields e false [(0x22, 0, 9), (0x24, 3, 1)])
    [.req, .req, .zero, .req, .opt, .zero, .opt, .req] (s.coreIssues e.ctx)
    (fun m => s.withGeom e m (fun g => weightPlan .mmConvDw s e m (some g)))

/-! ## MM_DIST (R82-R84) -/

/-- Formats of MM_DIST (R82). -/
def distFmt (f : Format) : Bool := f == .int8 || f == .fp8e4m3 || f == .bf16 || f == .binary16

/-- The terms of an element of operations 0, 1 and 4-7 (R83, R84): a zero term takes part. -/
def distTerms (o : Nat) (x w : Val) : List Nat :=
  let d := x.add w.negate
  let exact := fun (v : Val) =>
    match v with
    | .num _ m e => if m = 0 then [0] else termsOf true false m e
    | .inf _ => [arith binary32 false (.inf false)]
    | .nan => [nan32]
  let bit := fun (b : Bool) => [if b then one32 else 0]
  match o with
  | 0 => exact d.abs
  | 1 => exact (d.mul d)
  | 4 => bit (x.eq w)
  | 5 => bit (x.lt w)
  | 6 => bit (x.lt w || x.eq w)
  | _ => bit (!x.eq w)

/-- The greater of two binary32 values under R83: +0 above -0, a NaN stays. -/
def maxOf32 (a b : Nat) : Nat :=
  let x := val32 a
  let y := val32 b
  if x.isNaN || y.isNaN then nan32
  else if x.lt y then b else if y.lt x then a
  else if a = 0 ∨ b = 0 then 0 else a

/-- The lesser of two binary32 values under R83. -/
def minOf32 (a b : Nat) : Nat :=
  let x := val32 a
  let y := val32 b
  if x.isNaN || y.isNaN then nan32
  else if x.lt y then a else if y.lt x then b
  else if a = 0 then b else a

/-- One result of MM_DIST (R82, R83, R89). -/
def distOf (o p : Nat) (x w : List Val) : Val :=
  let ts := List.zip x w
  if o = 2 ∨ o = 3 then
    let sums := ts.map (fun t => arith binary32 false (t.1.add t.2))
    match sums with
    | [] => zeroVal
    | a :: r => val32 (r.foldl (if o = 2 then maxOf32 else minOf32) a)
  else
    val64 (((cutBy (unitLens x.length (macRows p)) ts).map (fun u =>
      kahanAll (u.flatMap (fun t => distTerms o t.1 t.2)))).foldl foldPair 0)

/-- MM_DIST (R82-R84). -/
def mmDistPlan (s : State) (e : Entry) : Plan :=
  s.withBlock e (matFields e true [(0x25, 0, 3)]) [.req, .zero, .req, .req, .zero, .opt, .zero, .zero]
    ((if s.caps.dist then [] else [Status.unitAbsent]) ++ s.coreIssues e.ctx) (fun m =>
    let v := s.envOf e
    let o := e.field 0x25 1 % 8
    match s.openHeld v e m.w with
    | none => .wait
    | some ow =>
      let ox := s.openDesc v false m.a
      let oy := s.openDesc v true m.out
      let plain := fun (d : TDesc) => decide (d.kind = 0 ∧ d.group = 0 ∧ d.zpKind = 0)
      let (k, n) := ow.d.logical
      let p := distPleat o ox.fmt
      let a := dieArrays s.die
      let shape := onceRead [ox, ow] (ox.fmt == ow.fmt && decide (ox.d.cols = k) && !(isInt ox.fmt && decide (1048576 < k))) ++
        onceRead [ox, oy] (decide (oy.d.rows = ox.d.rows)) ++ onceRead [ow, oy] (decide (oy.d.cols = n))
      let early := ox.check (fun d f => plain d && distFmt f && !d.orient) ++
        ow.check (fun d f => plain d && distFmt f) ++
        oy.check (fun d f => plain d && outOk d f && (decide (o < 4) || f == .binary32)) ++
        (if s.caps.dist then [] else [Status.unitAbsent]) ++ s.coreIssues e.ctx
      if !allRead [ox, ow, oy] then .fail (early ++ shape ++ s.namedIssues v [m.fold]) else
      let units := ceilDiv k (macRows p)
      let foldN := foldNeed (ox.d.rows * macCols p * a) [decide (1 < units)]
      let fold := s.regionIssues v m.fold 0xB foldN
      let x := s.loadRows e.ctx ox false
      let w := s.loadWeight e.ctx ow false
      let y := s.loadRows e.ctx oy true
      match x.2, w.2, y.2 with
      | some tx, some tw, some ty =>
        let seals := s.productSeals e true tx.all tw.all ty.all fold.2
        planUnless fold.1 (early ++ shape ++ x.1 ++ w.1 ++ y.1 ++ seals) (fun _ =>
          let cols := transpose zeroVal n (tw.weight s)
          let out := s.storeRows e.ctx ty (rowScales ty) ((tx.vals s).map (fun r => cols.map (fun c => distOf o p r c)))
          let last := heldTile false e m.w tw p ((units - 1) * macRows p) ((ceilDiv n (macCols p * a) - 1) * (macCols p * a))
          let ps := Passes.mk .west p ox.d.rows 4096 a [(s.firstCore e, units * ceilDiv n (macCols p * a))]
            (reused (· == ·) [(s.firstCore e, heldTile false e m.w tw p 0 0, last)] 0 (fun c => (s.core c).held)) none
          let d := s.writeDelta e out out.tally 0 false
          { d with
            counts := d.counts ++ ps.counts, traces := ps.traces .mmDist, scratch := scratchOf foldN fold.2
            held := [(s.firstCore e, some last)] })
      | _, _, _ => planStop fold.1 (early ++ shape ++ x.1 ++ w.1 ++ y.1))

/-! ## MM_SAFE (R79-R81) -/

/-- Core cycles of the pass (R63, R64, R80). -/
def SafeShape.cycles (x : SafeShape) : Nat :=
  match x.flow with
  | .stationary => x.m + (if x.p = 1 then 64 else 0) + macRows x.p + macCols x.p - 1
  | _ => x.tiles * (macRows x.p + x.m) + macRows x.p + macCols x.p - 1

/-- MM_SAFE on its operands: `w` the held operand (codes 0-7), `a` and `b` the streamed ones. -/
def safeRun (s : State) (e : Entry) (x : SafeShape) (core : Nat) (units : List Status) (m : MBlock) (ow : Opened) : Plan :=
  let v := s.envOf e
  let n := x.nOn s.die
  let oa := s.openOpt v false m.a
  let ob := s.openOpt v false m.b
  let oo := s.openDesc v true m.out
  let weightOut := x.flow == .stationary
  let first := if x.flow == .north then ob else oa
  let second := if weightOut then ob else ow
  let firstOk := if x.flow == .north then gradOk else streamOk
  let secondOk := fun (d : TDesc) (f : Format) =>
    if weightOut then gradOk d f else heldOk d f && (x.flow != .north || decide (d.zpKind ≠ 2))
  let destOk := fun (d : TDesc) (f : Format) =>
    f == x.dest && (if x.flow == .west then outOk d f else if weightOut then decide (d.kind = 0 ∧ d.zpKind = 0)
      else gradOutOk d f)
  let early := first.check firstOk ++ second.check secondOk ++ oo.check destOk ++ units
  let p := x.p
  let shape := onceRead [first, second] (mixOk first.fmt second.fmt && decide (pleatOf first.fmt second.fmt = p)) ++
    (match x.flow with
      | .west => onceRead [oa] (decide (oa.d.rows = x.m ∧ oa.d.cols = x.k)) ++ onceRead [ow] (decide (ow.d.logical = (x.k, n))) ++
          onceRead [oo] (decide (oo.d.rows = x.m ∧ oo.d.cols = n))
      | .north => onceRead [ob] (decide (ob.d.rows = x.m ∧ ob.d.cols = n)) ++ onceRead [ow] (decide (ow.d.logical = (x.k, n))) ++
          onceRead [oo] (decide (oo.d.rows = x.m ∧ oo.d.cols = x.k))
      | .stationary => onceRead [oa] (decide (oa.d.rows = x.m ∧ oa.d.cols = x.k)) ++
          onceRead [ob] (decide (ob.d.rows = x.m ∧ ob.d.cols = n)) ++ onceRead [oo] (decide (oo.d.logical = (x.k, n))))
  if !allRead [first, second, oo] then .fail (early ++ shape ++ s.namedIssues v [m.scale]) else
  let outN := if x.flow == .north then x.k else n
  let sc := s.scaleVec v m.scale outN outN
  let f := s.loadRows e.ctx first false
  let g := if weightOut then s.loadRows e.ctx second false else s.loadWeight e.ctx second false
  let o := if weightOut then s.loadWeight e.ctx oo true else s.loadRows e.ctx oo true
  match f.2, g.2, o.2 with
  | some tf, some tg, some tout =>
    let seals := s.productSeals e false (tf.all ++ tf.scaleRuns ++ sc.2.1) (tg.all ++ tg.scaleRuns) tout.all
      tout.scaleRuns
    planOf (early ++ shape ++ sc.1 ++ f.1 ++ g.1 ++ o.1 ++ need (zpVecOk tg) ++ seals) (fun _ =>
      let xs := tf.vals s
      let isI := intCommand first.fmt second.fmt first.d second.d
      let zp := decide (first.d.zpKind ≠ 0 ∨ second.d.zpKind ≠ 0)
      let last := heldTile (x.flow == .north) e m.w tg p ((ceilDiv x.k (macRows p) - 1) * macRows p) 0
      let passes := Passes.mk x.flow p x.m x.m (dieArrays s.die) [(core, x.tiles)]
        [] none
      let job : ProdJob := match x.flow with
        | .west => ProdJob.mk (Red.mk p 1 (unitLens x.k (macRows p)) isI zp) (first.d.zero first.fmt) (tg.zeros n)
            [(xs, transpose zeroVal n (tg.weight s))] passes (macCols p) none
        | .north => ProdJob.mk (Red.mk p 1 (unitLens n (macCols p)) isI zp) 0
            (List.replicate x.k (second.d.zero second.fmt)) [(xs, tg.weight s)] passes (macRows p) none
        | .stationary => ProdJob.mk (Red.mk p 1 [x.m] isI zp) (first.d.zero first.fmt) []
            [(transpose zeroVal x.k xs, transpose zeroVal n (tg.vals s))] passes (macCols p) (some (macRows p))
      let rows := scaleCols sc.2.2 job.totals
      let out := if weightOut then
          s.storeRows e.ctx tout (weightScales tout) (orientRows zeroVal oo.d.orient n rows)
        else s.storeRows e.ctx tout (rowScales tout) rows
      let d := { Delta.none with
        result := BitVec.ofNat 32 x.cycles, writes := out.writes, stats := out.stats
        counts := tallyCounts core out.tally
        held := [(core, if weightOut then none else some last)]
        scales := [(core, scaleRegs x.flow p (dieArrays s.die) outN sc.2.2)] }
      job.effects .mmSafe d)
  | _, _, _ => .fail (early ++ shape ++ sc.1 ++ f.1 ++ g.1 ++ o.1)

/-- MM_SAFE (R79-R81). -/
def mmSafePlan (s : State) (e : Entry) : Plan :=
  let code := e.field 0x26 1 % 16
  let core := e.field 0x27 1 % 128
  let w := decide (code ≤ 7)
  let uses : List SlotUse :=
    [if code = 7 then .opt else .req, if 7 ≤ code ∧ code ≤ 9 then .req else .zero, if w then .req else .zero, .req,
      .opt, .zero, .zero, .zero]
  let units := if s.corePresent core then (if s.coreReady core then [] else [Status.notReady]) else [Status.unitAbsent]
  s.withBlock e (matFields e w [(0x26, 0, 4), (0x27, 0, 7)]) uses (units ++ need (decide (code ≤ 9))) (fun m =>
    match safeShape code with
    | none => .fail [Status.malformed]
    | some x =>
      if !w then safeRun s e x core units m (Opened.mk [] none .binary32) else
      if x.flow == .north && m.a != 0 then .fail [Status.malformed] else
      match s.openHeld (s.envOf e) e m.w with
      | none => .wait
      | some ow => safeRun s e x core units m ow)

/-! ## The rows -/

/-- MM_FWD (R104). -/
def execMmFwd (ctx : Nat) (seq : W32) (faults : List CoreFault) (s : State) : Host.Outcome State Fault Refusal :=
  s.runWork .mmFwd ctx seq faults mmFwdPlan

/-- MM_DX (R104). -/
def execMmDx (ctx : Nat) (seq : W32) (faults : List CoreFault) (s : State) : Host.Outcome State Fault Refusal :=
  s.runWork .mmDx ctx seq faults mmDxPlan

/-- MM_DW (R104). -/
def execMmDw (ctx : Nat) (seq : W32) (faults : List CoreFault) (s : State) : Host.Outcome State Fault Refusal :=
  s.runWork .mmDw ctx seq faults mmDwPlan

/-- MM_CONV_FWD (R75). -/
def execMmConvFwd (ctx : Nat) (seq : W32) (faults : List CoreFault) (s : State) : Host.Outcome State Fault Refusal :=
  s.runWork .mmConvFwd ctx seq faults mmConvFwdPlan

/-- MM_CONV_DX (R77). -/
def execMmConvDx (ctx : Nat) (seq : W32) (faults : List CoreFault) (s : State) : Host.Outcome State Fault Refusal :=
  s.runWork .mmConvDx ctx seq faults mmConvDxPlan

/-- MM_CONV_DW (R78). -/
def execMmConvDw (ctx : Nat) (seq : W32) (faults : List CoreFault) (s : State) : Host.Outcome State Fault Refusal :=
  s.runWork .mmConvDw ctx seq faults mmConvDwPlan

/-- MM_DIST (R82). -/
def execMmDist (ctx : Nat) (seq : W32) (faults : List CoreFault) (s : State) : Host.Outcome State Fault Refusal :=
  s.runWork .mmDist ctx seq faults mmDistPlan

/-- MM_SAFE (R79). -/
def execMmSafe (ctx : Nat) (seq : W32) (faults : List CoreFault) (s : State) : Host.Outcome State Fault Refusal :=
  s.runWork .mmSafe ctx seq faults mmSafePlan

end Sys2Proof.Machine
end

