-- ==== Sys2Proof/Machine/Vector.lean ====
section
/-!
DEFINITION. Sys2Proof/Machine/Vector.lean: the vector unit's opcodes (05, R253-R256): VEC_OP, SOFTMAX_BWD
(R121, R122), NORM_BWD (R124-R126), MASK_PACK (R114-R116) and TIE_SUM (R133). Every operation is binary32
under R119.
-/
namespace Sys2Proof.Machine

/-! ## Operands -/

/-- A plain tensor of a vector command; `orient` where ORIENT 1 is accepted (R253). Zero points per column are
for held operands alone (R275). -/
def vecOk (orient : Bool) (d : TDesc) (f : Format) : Bool :=
  decide (d.kind = 0 ∧ d.zpKind ≠ 2 ∧ Format.code f ≤ 10) && (orient || !d.orient)
/-- A gradient tensor of a vector command (R109). -/
def vecGradOk (d : TDesc) (f : Format) : Bool := vecOk false d f && decide (d.zpKind = 0)
/-- A packed tensor of given codes (R114). -/
def packedOk (codes : List Nat) (d : TDesc) (_ : Format) : Bool :=
  decide (d.kind = 2) && codes.contains d.fmt && !d.orient

/-- Read a plain tensor: groups along each memory row (R39, R471), or along k as R105 indexes them for the operations that
pair elements by logical position (R253; DEDUCED, log 30). -/
def State.loadVec (s : State) (ctx : Nat) (o : Opened) (write : Bool) (logical : Bool := false) :
    List Status × Option Tensor :=
  match o.desc with
  | none => (o.issues, none)
  | some d => if logical then s.loadWeight ctx o write else s.loadTensor ctx o d.rows d.cols d.logical.2 write

/-- The scale bytes of a plain tensor by memory row and column. -/
def vecScales (logical : Bool) (t : Tensor) : Nat → Nat → Nat := if logical then weightScales t else rowScales t

/-- Element values in memory order, zero points taken off (R46, R114). -/
def Tensor.exact (s : State) (t : Tensor) (logical : Bool := false) : List (List Val) :=
  (t.codes s).zipIdx.map (fun r => r.1.zipIdx.map (fun c =>
    minusZero (t.d.zero t.fmt) (scaledVal t.fmt (vecScales logical t r.2 c.2) c.1)))

/-- Values to binary32, with what the conversions count (R52). -/
def widenRows (m : List (List Val)) : List (List Nat) × Tally :=
  let cs := m.map (fun r => r.map widenElem)
  (cs.map (fun r => r.map Conv.code), Tally.ofConvs cs.flatten)

/-- Element values to binary32 in memory order. -/
def Tensor.f32 (s : State) (t : Tensor) (logical : Bool := false) : List (List Nat) × Tally :=
  widenRows (t.exact s logical)

/-- Memory rows by logical position (R105). -/
def orientBack {α : Type} (d : α) (t : TDesc) (m : List (List α)) : List (List α) :=
  if t.orient then transpose d t.cols m else m

/-- The elements of a packed tensor (R115). -/
def packedRows (s : State) (d : TDesc) (runs : List (List Run)) : List (List Nat) :=
  runs.map (fun rs => unpackBits (packedBits d.fmt) d.cols (s.readRuns rs))

/-- The runs of a packed tensor's rows. -/
def State.packedRuns (s : State) (ctx : Nat) (o : Opened) (write : Bool) : List Status × List (List Run) :=
  if o.d.handover then ([], (o.d.extents o.fmt).map (fun x => [x]))
  else s.runsOf ctx write (o.d.extents o.fmt)

/-- The binary32 codes of rows as values. -/
def valRows (m : List (List Nat)) : List (List Val) := m.map (fun r => r.map val32)

/-! ## Element functions (R253, R254) -/

/-- 1/√2 and 1/√(2π) in binary32. -/
def gelu1 : Nat := 0x3F3504F3
def gelu2 : Nat := 0x3ECC422A
/-- One half. -/
def half32 : Nat := 0x3F000000

/-- The normal distribution's cumulative value as GELU forms it. -/
def geluD (p : Nat) : Nat := mul32 (add32 (erf32 (mul32 p gelu1)) one32) half32

/-- GELU. -/
def gelu (x : Nat) : Nat := mul32 x (geluD x)

/-- GELU_BWD. -/
def geluBwd (dy p : Nat) : Nat :=
  let q := mul32 (mul32 p p) 0xBF000000
  let e := mul32 (exp32 q) gelu2
  mul32 dy (add32 (geluD p) (mul32 p e))

/-- The sigmoid as SILU forms it. -/
def sigm (x : Nat) : Nat := div32 one32 (add32 (exp32 (fneg binary32 x)) one32)

/-- SILU. -/
def silu (x : Nat) : Nat := mul32 x (sigm x)

/-- SILU_BWD. -/
def siluBwd (dy p : Nat) : Nat :=
  let g := sigm p
  let t := add32 (mul32 p (sub32 one32 g)) one32
  mul32 dy (mul32 g t)

/-- RELU. -/
def relu (x : Nat) : Nat :=
  let v := val32 x
  if v.isNaN then nan32 else if flt binary32 0 x then x else 0

/-- CLASS_BWD. -/
def classBwd (alpha dy c : Nat) : Nat := if c = 1 then mul32 alpha dy else if c = 3 then nan32 else 0

/-- The element function of an operation 0-10. -/
def vecFn (op alpha beta a b : Nat) : Nat :=
  match op with
  | 0 => a
  | 1 => add32 a b
  | 2 => sub32 a b
  | 3 => mul32 a b
  | 4 => add32 (mul32 alpha a) (mul32 beta b)
  | 5 => relu a
  | 6 => gelu a
  | 7 => geluBwd a b
  | 8 => silu a
  | 9 => siluBwd a b
  | _ => classBwd alpha a b

/-- The sign of a value, zeros included. -/
def Val.neg : Val → Bool
  | .num s _ _ => s
  | .inf s => s
  | .nan => false

/-- The ordering of R116: a NaN above every other value, +0 above -0. -/
def above (a b : Val) : Bool :=
  if a.isNaN then !b.isNaN
  else if b.isNaN then false
  else b.lt a || (a.isZero && b.isZero && !a.neg && b.neg)

/-- The greatest of a list under R116, the first of equals. -/
def greatest : List Nat → Nat
  | [] => 0
  | x :: xs => xs.foldl (fun m v => if above (val32 v) (val32 m) then v else m) x

/-- A row of SOFTMAX (R254). -/
def softmaxRow (alpha : Nat) (xs : List Nat) : List Nat :=
  let mx := greatest xs
  let es := xs.map (fun x => exp32 (mul32 (sub32 x mx) alpha))
  let z := (kahanAll es).value32
  es.map (fun e => div32 e z)

/-- A binary32 value over a count, one division. -/
def overCount (a n : Nat) : Nat := fdivVal binary32 (val32 a) (valOfInt n)

/-- A row of NORM (R254): the result, μ and ρ. -/
def normRow (eps : Nat) (rms : Bool) (gamma beta xs : List Nat) : List Nat × Nat × Nat :=
  let n := xs.length
  let mu := if rms then 0 else overCount (kahanAll xs).value32 n
  let dev := fun x => if rms then x else sub32 x mu
  let var := overCount (kahanAll (xs.map (fun x => mul32 (dev x) (dev x)))).value32 n
  let rho := div32 one32 (sqrt32 (add32 var eps))
  (xs.zipIdx.map (fun x =>
    let y := mul32 (mul32 (dev x.1) rho) (gamma.getD x.2 0)
    if rms then y else add32 y (beta.getD x.2 0)), mu, rho)

/-! ## VEC_OP -/

/-- Whether an operation takes X1. -/
def vecTwo (o : Nat) : Bool := [1, 2, 3, 4, 7, 9, 10, 12, 13].contains o
/-- Whether an operation accepts ORIENT 1 and pairs elements by logical position (R253). -/
def vecLogical (o : Nat) : Bool := decide (o ≤ 4)
/-- Whether X0 and Y are gradients. -/
def vecGrad (o : Nat) : Bool := o == 7 || o == 9 || o == 10 || o == 13

/-- A vector result ready to be written: rows in Y's memory order, what reading counted, further writes. -/
structure VecOut where
  rows : List (List Nat)
  tally : Tally
  extra : List (Nat × Bytes)
  deriving Repr

/-- The effects of a vector command whose result goes to one tensor (R50-R52, R139, R256). -/
def State.vecDelta (s : State) (e : Entry) (t : Tensor) (x : VecOut) (logical : Bool := false) : Delta :=
  let out := s.storeRows e.ctx t (vecScales logical t) (valRows x.rows)
  let all := x.tally.add out.tally
  let r := all.result
  let d := s.writeDelta e out all r.1 r.2
  { d with writes := d.writes ++ x.extra }

/-- Apply an element function by position; a one-row X1 meets every row (R253). -/
def vecZip (f : Nat → Nat → Nat) (a b : List (List Nat)) : List (List Nat) :=
  a.zipIdx.map (fun r => List.zipWith f r.1 (b.getD (if b.length = 1 then 0 else r.2) []))

/-- The statistics tensor of a normalisation (R113). -/
def State.statsRuns (s : State) (ctx addr rows : Nat) (write : Bool) : List Status × List (List Run) :=
  if addr = 0 ∨ addr % 8 ≠ 0 then ([Status.malformed], []) else s.runsOf ctx write [(addr, 8 * rows)]

/-- The gradient of a max-pool (R118). DESIGN CHOICE (log 94): a chain's sum and compensation are added in binary32
before the conversion into dx, as R122 and R125 state for theirs; a code at or above KH × KW, or one that points at a
padding position, contributes nothing. R118 is silent on both. -/
def poolScatter (g : Geom) (dy codes : List (List Nat)) : List (List Nat) :=
  let hits := (List.range g.outRows).flatMap (fun m => (List.range g.cIn).filterMap (fun c =>
    let q := (codes.getD m []).getD c 0
    if q < g.kh * g.kw then
      (g.inAt m (q / g.kw) (q % g.kw)).map (fun r => (r, c, (dy.getD m []).getD c 0))
    else none))
  (List.range g.inRows).map (fun r => (List.range g.cIn).map (fun c =>
    (kahanAll ((hits.filter (fun h => h.1 == r && h.2.1 == c)).map (fun h => h.2.2))).value32))

/-- A pooling geometry (R116): C_OUT and GROUPS equal C_IN, and the codes of a window fit. -/
def poolOk (g : Geom) (fmt : Nat) : Bool :=
  decide (g.cOut = g.cIn ∧ g.groups = g.cIn) && decide (g.kh * g.kw ≤ (if fmt = 3 then 15 else 255))

/-- POOL_SCATTER (R118). -/
def poolPlan (s : State) (e : Entry) (early : List Status) (ox oq oy : Opened) (geom : Nat) : Plan :=
  match s.geometry e.ctx geom with
  | .error st => .fail (early ++ [st])
  | .ok g =>
    let shape := onceRead [oq] (poolOk g oq.d.fmt && decide (oq.d.rows = g.outRows ∧ oq.d.cols = g.cIn)) ++
      onceRead [ox] (decide (ox.d.rows = g.outRows ∧ ox.d.cols = g.cIn)) ++
      onceRead [oy] (decide (oy.d.rows = g.inRows ∧ oy.d.cols = g.cIn))
    if !allRead [ox, oq, oy] then .fail (early ++ shape) else
    let x := s.loadVec e.ctx ox false
    let q := s.packedRuns e.ctx oq false
    let y := s.loadVec e.ctx oy true
    match x.2, y.2 with
    | some tx, some ty =>
      let seals := s.sealIssues e.ctx (tx.all ++ tx.scaleRuns ++ q.2.flatten) ty.all (ty.scaleRuns ++ s.structRuns e)
      planOf (early ++ shape ++ x.1 ++ q.1 ++ y.1 ++ seals) (fun _ =>
        let dy := tx.f32 s
        s.vecDelta e ty (VecOut.mk (poolScatter g dy.1 (packedRows s oq.d q.2)) dy.2 []))
    | _, _ => .fail (early ++ shape ++ x.1 ++ q.1 ++ y.1)

/-- Fields of VEC_OP (R253). -/
def vecFields (o : Nat) : List (Nat × Nat × Nat) :=
  [(0x10, 0, 8), (0x18, 0, 64), (0x20, 0, 64), (0x28, 0, 64), (0x30, 0, 64), (0x38, 0, 32), (0x3C, 0, 32)] ++
  (if o = 12 then [(0x11, 0, 1)] else [])

/-- VEC_OP (R253, R254). -/
def vecOpPlan (s : State) (e : Entry) : Plan :=
  let o := e.field 0x10 1
  let f := fun off => e.field off 8
  let alpha := e.field 0x38 4
  let beta := e.field 0x3C 4
  let rms := (e.field 0x11 1).testBit 0
  if s.formatWait e then .wait
  else if !(e.clean (vecFields o) && decide (o ≤ 13) && decide (f 0x18 ≠ 0 ∧ f 0x30 ≠ 0) &&
      (vecTwo o == decide (f 0x20 ≠ 0)) && (decide (12 ≤ o) == decide (f 0x28 ≠ 0)) &&
      !(o == 11 && !flt binary32 0 alpha)) then .fail [Status.malformed]
  else
  let v := s.envOf e
  let ox := s.openDesc v false (f 0x18)
  let o1 := s.openOpt v false (f 0x20)
  let oy := s.openDesc v true (f 0x30)
  let lg := vecLogical o
  let xOk := if vecGrad o then vecGradOk else vecOk lg
  let yOk := if vecGrad o then vecGradOk else vecOk lg
  let oneOk := if o = 10 then packedOk [2] else if o = 13 then packedOk [3, 4] else vecOk lg
  let early := ox.check xOk ++ o1.check oneOk ++ oy.check yOk ++ s.coreIssues e.ctx
  if o = 13 then poolPlan s e early ox o1 oy (f 0x28) else
  let shape := ox.d.logical
  let flat := !ox.d.orient && !o1.d.orient && !oy.d.orient
  let oneShape := o1.desc.isNone || (if o = 12 then o1.fmt == .binary32 && decide (o1.d.rows = 2 ∧ o1.d.cols = shape.2)
    else o1.d.logical == shape || (decide (1 ≤ o ∧ o ≤ 4) && flat && decide (o1.d.rows = 1 ∧ o1.d.cols = shape.2)))
  let dims := onceRead (if f 0x20 = 0 then [ox] else [ox, o1]) oneShape ++ onceRead [ox, oy] (oy.d.logical == shape)
  if !allRead ([ox, oy] ++ if f 0x20 = 0 then [] else [o1]) then .fail (early ++ dims) else
  let x := s.loadVec e.ctx ox false lg
  let b := if o = 10 then (o1.issues, none) else s.loadVec e.ctx o1 false lg
  let q := if o = 10 then s.packedRuns e.ctx o1 false else ([], [])
  let st := if o = 12 then s.statsRuns e.ctx (f 0x28) shape.1 true else ([], [])
  let y := s.loadVec e.ctx oy true lg
  match x.2, y.2 with
  | some tx, some ty =>
    let bRuns := match b.2 with | some t => t.all ++ t.scaleRuns | none => []
    let seals := s.sealIssues e.ctx (tx.all ++ tx.scaleRuns ++ bRuns ++ q.2.flatten) (ty.all ++ st.2.flatten)
      (ty.scaleRuns ++ s.structRuns e)
    planOf (early ++ dims ++ x.1 ++ b.1 ++ q.1 ++ st.1 ++ y.1 ++ seals) (fun _ =>
      let a := tx.f32 s lg
      let two := match b.2 with
        | some t => t.f32 s lg
        | none => (packedRows s o1.d q.2, Tally.zero)
      let tally := a.2.add two.2
      if o = 11 then s.vecDelta e ty (VecOut.mk (a.1.map (softmaxRow alpha)) tally [])
      else if o = 12 then
        let rs := a.1.map (normRow alpha rms (two.1.getD 0 []) (two.1.getD 1 []))
        s.vecDelta e ty (VecOut.mk (rs.map (fun r => r.1)) tally
          (splitRuns st.2.flatten (rs.flatMap (fun r => leBytes 4 r.2.1 ++ leBytes 4 r.2.2))))
      else
        let la := orientBack 0 ox.d a.1
        let lb := if o1.desc.isNone then la else orientBack 0 o1.d two.1
        let rows := vecZip (vecFn o alpha beta) la lb
        s.vecDelta e ty (VecOut.mk (orientRows 0 oy.d.orient shape.2 rows) tally []) lg)
  | _, _ => .fail (early ++ dims ++ x.1 ++ b.1 ++ q.1 ++ st.1 ++ y.1)

/-! ## SOFTMAX_BWD (R121, R122) -/

/-- D of a row: a chain over terms, then one addition. -/
def rowD (skip : Bool) (ys ps : List Nat) : Nat :=
  (kahanAll ((List.zipWith (fun y p => if skip && (val32 y).isZero then [] else [mul32 y p]) ys ps).flatten)).value32

/-- A row of dS. -/
def dsRow (tau d : Nat) (ys ps : List Nat) : List Nat :=
  List.zipWith (fun y p => if (val32 y).isZero then 0 else mul32 tau (mul32 y (sub32 p d))) ys ps

/-- The tile that the product of a FUSED vector command leaves in its core (R107): the last in the order of R98. -/
def fusedLast (s : State) (e : Entry) (addr : Nat) (od ow : Opened) (tw : Tensor) : HeldTile :=
  let (k, n) := ow.d.logical
  let p := pleatOf od.fmt ow.fmt
  let c := macCols p * dieArrays s.die
  heldTile true e addr tw p ((ceilDiv k (macRows p) - 1) * macRows p) ((ceilDiv n c - 1) * c)

/-- The product of a FUSED vector command by north entry (R121, R124): its values as binary32, its job. -/
def fusedJob (s : State) (e : Entry) (addr : Nat) (od ow : Opened) (td tw : Tensor) : ProdJob :=
  let (k, n) := ow.d.logical
  let p := pleatOf od.fmt ow.fmt
  let a := dieArrays s.die
  ProdJob.mk (Red.mk p 1 (unitLens n (macCols p)) (intCommand od.fmt ow.fmt od.d ow.d) (decide (ow.d.zpKind ≠ 0)))
    0 (List.replicate k (ow.d.zero ow.fmt)) [(td.vals s, tw.weight s)]
    (Passes.mk .north p od.d.rows 4096 a [(s.firstCore e, ceilDiv n (macCols p * a) * ceilDiv k (macRows p))]
      (reused HeldTile.is [(s.firstCore e, heldTile true e addr tw p 0 0, fusedLast s e addr od ow tw)] 0
        (fun c => (s.core c).held)) none)
    (macRows p) none

/-- The fold entries of such a product (R91). -/
def fusedFold (s : State) (od ow : Opened) : Nat :=
  let p := pleatOf od.fmt ow.fmt
  foldNeed (od.d.rows * macRows p) [decide (1 < ceilDiv ow.d.logical.2 (macCols p * dieArrays s.die))]

/-- What such a product requires of its formats (R34, R48). -/
def fusedOk (od ow : Opened) : Bool :=
  mixOk od.fmt ow.fmt && !(isInt od.fmt && isInt ow.fmt && decide (1048576 < ow.d.logical.1))

/-- SOFTMAX_BWD in PLAIN mode. -/
def softPlain (s : State) (e : Entry) (m : MBlock) : Plan :=
  let v := s.envOf e
  let oy := s.openDesc v false m.a
  let od := s.openDesc v false m.b
  let os := s.openDesc v true m.out
  let early := oy.check (vecOk false) ++ od.check vecGradOk ++
    os.check (fun d f => vecGradOk d f && decide (d.group = 0)) ++ s.coreIssues e.ctx
  let dims := onceRead [oy, od] (decide (od.d.rows = oy.d.rows ∧ od.d.cols = oy.d.cols)) ++
    onceRead [oy, os] (decide (os.d.rows = oy.d.rows ∧ os.d.cols = oy.d.cols))
  if !allRead [oy, od, os] then .fail (early ++ dims) else
  let y := s.loadVec e.ctx oy false
  let d := s.loadVec e.ctx od false
  let o := s.loadVec e.ctx os true
  match y.2, d.2, o.2 with
  | some ty, some td, some to_ =>
    let seals := s.sealIssues e.ctx (ty.all ++ ty.scaleRuns ++ td.all ++ td.scaleRuns) to_.all (s.structRuns e)
    planOf (early ++ dims ++ y.1 ++ d.1 ++ o.1 ++ seals) (fun _ =>
      let ys := ty.f32 s
      let ps := td.f32 s
      let tau := e.field 0x28 4
      s.vecDelta e to_ (VecOut.mk (List.zipWith (fun a b => dsRow tau (rowD true a b) a b) ys.1 ps.1)
        (ys.2.add ps.2) []))
  | _, _, _ => .fail (early ++ dims ++ y.1 ++ d.1 ++ o.1)

/-- SOFTMAX_BWD in FUSED mode. -/
def softFused (s : State) (e : Entry) (m : MBlock) : Plan :=
  let v := s.envOf e
  match s.openHeld v e m.w with
  | none => .wait
  | some ow =>
    let oy := s.openDesc v false m.a
    let od := s.openDesc v false m.b
    let oo := s.openDesc v false m.aux
    let os := s.openDesc v true m.out
    let (k, n) := ow.d.logical
    let early := oy.check (vecOk false) ++ od.check gradOk ++ oo.check (vecOk false) ++
      ow.check (fun d f => heldOk d f && decide (d.zpKind ≠ 2)) ++
      os.check (fun d f => vecGradOk d f && decide (d.group = 0)) ++ s.coreIssues e.ctx
    let dims := onceRead [od, ow] (fusedOk od ow && decide (od.d.cols = n)) ++ onceRead [oy, ow] (decide (oy.d.cols = k)) ++
      onceRead [oy, od] (decide (od.d.rows = oy.d.rows)) ++ onceRead [oy, oo] (decide (oo.d.rows = oy.d.rows)) ++
      onceRead [oo, ow] (decide (oo.d.cols = n)) ++ onceRead [oy, os] (decide (os.d.rows = oy.d.rows)) ++
      onceRead [os, ow] (decide (os.d.cols = k))
    if !allRead [oy, od, oo, ow, os] then .fail (early ++ dims ++ s.namedIssues v [m.fold]) else
    let foldN := fusedFold s od ow
    let fold := s.regionIssues v m.fold 0xB foldN
    let y := s.loadVec e.ctx oy false
    let d := s.loadRows e.ctx od false
    let w := s.loadWeight e.ctx ow false
    let a := s.loadVec e.ctx oo false
    let o := s.loadVec e.ctx os true
    match y.2, d.2, w.2, a.2, o.2 with
    | some ty, some td, some tw, some ta, some to_ =>
      let seals := s.sealIssues e.ctx (ty.all ++ ty.scaleRuns ++ td.all ++ td.scaleRuns ++ tw.all ++ tw.scaleRuns ++
        ta.all ++ ta.scaleRuns) to_.all (fold.2 ++ s.structRuns e)
      planUnless fold.1 (early ++ dims ++ y.1 ++ d.1 ++ w.1 ++ a.1 ++ o.1 ++ seals) (fun _ =>
        let job := fusedJob s e m.w od ow td tw
        let ps := widenRows job.totals
        let ys := ty.f32 s
        let ds := widenRows (td.vals s)
        let as := ta.f32 s
        let tau := e.field 0x28 4
        let rows := List.zipWith (fun (yp : List Nat × List Nat) (od : List Nat × List Nat) =>
          dsRow tau (rowD false od.1 od.2) yp.1 yp.2) (List.zip ys.1 ps.1) (List.zip as.1 ds.1)
        let d := job.effects .softmaxBwd (s.vecDelta e to_
          (VecOut.mk rows (((ps.2.add ys.2).add ds.2).add as.2) []))
        { d with scratch := scratchOf foldN fold.2, held := [(s.firstCore e, some (fusedLast s e m.w od ow tw))] })
    | _, _, _, _, _ => planStop fold.1 (early ++ dims ++ y.1 ++ d.1 ++ w.1 ++ a.1 ++ o.1)

/-- SOFTMAX_BWD (R121, R122). -/
def softmaxBwdPlan (s : State) (e : Entry) : Plan :=
  let fused := (e.field 0x25 1).testBit 3
  s.withBlock e (matFields e fused [(0x25, 3, 1), (0x28, 0, 32)])
    (if fused then [.req, .req, .req, .req, .zero, .opt, .zero, .req]
      else [.req, .req, .zero, .req, .zero, .zero, .zero, .zero])
    (s.coreIssues e.ctx) (fun m => if fused then softFused s e m else softPlain s e m)

/-! ## NORM_BWD (R124-R126) -/

/-- What phase 1 and phase 2 make of one row: dx, the terms of the dγ chains, the terms of the dβ chains. -/
def normBwdRow (layer : Bool) (n mu rho : Nat) (gamma xs dys : List Nat) : List Nat × List Nat × List Nat :=
  let m := if layer then mu else 0
  let xh := xs.map (fun x => mul32 (sub32 x m) rho)
  let g := List.zipWith mul32 dys gamma
  let a := if layer then overCount (kahanAll g).value32 n else 0
  let b := overCount (kahanAll (List.zipWith mul32 g xh)).value32 n
  (List.zipWith (fun gk x => mul32 rho (sub32 (sub32 gk a) (mul32 x b))) g xh, List.zipWith mul32 dys xh, dys)

/-- Fold the column chains of one row group into the fold entries (R88, R125). -/
def foldColumns (cols : Nat) (hs : List Nat) (terms : List (List Nat)) : List Nat :=
  (transpose 0 cols terms).zipIdx.map (fun c => foldPair (hs.getD c.2 0) (kahanAll c.1))

/-- The fold entries of all row groups. -/
def foldGroups (cols : Nat) (terms : List (List Nat)) : List Nat :=
  (groupsOf 256 terms.length terms).foldl (foldColumns cols) (List.replicate cols 0)

/-- A gradient pair buffer of NORM_BWD: what stands in its way, whether it waits. -/
structure NormBuf where
  issues : List Status
  nothing : List Status
  buf : Option PairBuf
  /-- the physical address of its header, where the descriptor names one that is mapped. -/
  head : Option Nat
  deriving Repr

/-- Open a buffer of D elements (R124, R130), none for address 0. -/
def State.normBuffer (s : State) (v : Env) (e : Entry) (addr n : Nat) : NormBuf :=
  if addr = 0 then NormBuf.mk [] [] none none else
  let o := s.openDesc v true addr
  let head := o.desc.bind (fun d => s.physOf e.ctx d.base 1)
  let bad := o.check (fun d _ => decide (d.kind = 1 ∧ d.rows * d.cols = n) && !d.orient && !d.handover)
  if !bad.isEmpty then NormBuf.mk bad [] none head else
  let b := s.openBuffer e.ctx o.d true
  NormBuf.mk [] (b.1 ++ (match b.2 with | some x => need (!x.foreign e.ctx) | none => [])) b.2 head

/-- Accumulate fold entries into a buffer, row-major (R94). -/
def PairBuf.addFolds (b : PairBuf) (s : State) (e : Entry) (hs : List Nat) : Delta × Tally :=
  b.accumulate s e ((groupsOf b.d.cols b.d.rows hs).map (fun r => r.map val64))

/-- The effects of NORM_BWD from its operands in binary32; RESULT covers every conversion that it counts (R51, R94,
R256). -/
def normEffects (s : State) (e : Entry) (tx tdx : Tensor) (stats gamma : List Nat) (dys : List (List Nat))
    (counted : Tally) (dg db : Option PairBuf) : Delta :=
  let layer := !(e.field 0x28 1).testBit 0
  let n := tx.d.cols
  let xs := tx.f32 s
  let rows := (List.zip xs.1 dys).zipIdx.map (fun r =>
    normBwdRow layer n (stats.getD (2 * r.2) 0) (stats.getD (2 * r.2 + 1) 0) gamma r.1.1 r.1.2)
  let out := (s.storeRows e.ctx tdx (rowScales tdx) (valRows (rows.map (fun r => r.1)))).tally
  let d := s.vecDelta e tdx (VecOut.mk (rows.map (fun r => r.1)) (xs.2.add counted) [])
  let acc := fun (b : Option PairBuf) (terms : List (List Nat)) =>
    match b with
    | some x => x.addFolds s e (foldGroups n terms)
    | none => (Delta.none, Tally.zero)
  let g := acc dg (rows.map (fun r => r.2.1))
  let b := acc db (rows.map (fun r => r.2.2))
  let r := (((xs.2.add counted).add out).add (g.2.add b.2)).result
  { d with
    result := r.1, sat := r.2
    writes := d.writes ++ g.1.writes ++ b.1.writes, commit := g.1.commit ++ b.1.commit
    counts := d.counts ++ tallyCounts (s.firstCore e) (g.2.add b.2) }

/-- NORM_BWD on its operand block: `ow` the held weight of FUSED mode. -/
def normRun (s : State) (e : Entry) (f : Nat → Nat) (ow : Option Opened) : Plan :=
  let v := s.envOf e
  let layer := !(e.field 0x28 1).testBit 0
  let ox := s.openDesc v false (f 0)
  let og := s.openDesc v false (f 2)
  let od := s.openDesc v false (f 3)
  let oo := s.openDesc v true (f 5)
  let dyOk := if ow.isSome then gradOk else vecGradOk
  let early := ox.check (vecOk false) ++ og.check (fun d fm => vecOk false d fm && fm == .binary32) ++ od.check dyOk ++
    oo.check vecGradOk ++
    (match ow with | some w => w.check (fun d fm => heldOk d fm && decide (d.zpKind ≠ 2)) | none => []) ++
    s.coreIssues e.ctx
  let n := ox.d.cols
  let dg := s.normBuffer v e (f 6) n
  let db := s.normBuffer v e (f 7) n
  let same := match dg.head, db.head with
    | some a, some b => a == b
    | _, _ => decide (f 6 = f 7 ∧ f 6 ≠ 0)
  let dims := need (!same && (layer || decide (f 7 = 0))) ++ onceRead [ox] (decide (1 ≤ n ∧ n ≤ 65535)) ++
    onceRead [ox, od] (decide (od.d.rows = ox.d.rows)) ++ onceRead [ox, og] (decide (og.d.rows * og.d.cols = n)) ++
    onceRead [ox, oo] (decide (oo.d.rows = ox.d.rows ∧ oo.d.cols = n) && oo.fmt == ox.fmt) ++
    (match ow with
      | some w => onceRead [od, w] (fusedOk od w && decide (od.d.cols = w.d.logical.2)) ++
          onceRead [ox, w] (decide (w.d.logical.1 = n))
      | none => onceRead [ox, od] (decide (od.d.cols = n)))
  if !allRead ([ox, og, od, oo] ++ ow.toList) then
    .fail (early ++ dims ++ (if ox.desc.isSome then dg.issues ++ db.issues else []) ++
      s.namedIssues v [e.field 0x20 8, if ow.isSome then e.field 0x30 8 else 0]) else
  let foldN := match ow with | some w => fusedFold s od w | none => 0
  let fold := s.regionIssues v (e.field 0x30 8) 0xB foldN
  let needScratch := if 1024 < n then 256 * n else 0
  let scr := s.regionIssues v (e.field 0x20 8) 0xA needScratch
  let st := s.statsRuns e.ctx (f 1) ox.d.rows false
  let x := s.loadVec e.ctx ox false
  let g := s.loadVec e.ctx og false
  let d := s.loadRows e.ctx od false
  let w : List Status × Option Tensor := match ow with | some w => s.loadWeight e.ctx w false | none => ([], none)
  let o := s.loadVec e.ctx oo true
  let heads := (dg.buf.toList ++ db.buf.toList).map (fun b => b.head)
  if s.bufferWait e heads then .wait else
  match x.2, g.2, d.2, o.2 with
  | some tx, some tg, some td, some tdx =>
    let held := match w.2 with | some t => t.all ++ t.scaleRuns | none => []
    let bufs := dg.buf.toList ++ db.buf.toList
    let seals := s.sealIssues e.ctx (tx.all ++ tx.scaleRuns ++ st.2.flatten ++ tg.all ++ tg.scaleRuns ++ td.all ++
        td.scaleRuns ++ held ++ bufs.flatMap (fun b => if b.h.cleared then [] else b.old.flatten))
      (tdx.all ++ bufs.flatMap (fun b => b.new.flatten)) (tdx.scaleRuns ++ fold.2 ++ scr.2 ++ s.structRuns e)
    planUnless (fold.1 ++ scr.1 ++ dg.nothing ++ db.nothing)
      (early ++ dims ++ dg.issues ++ db.issues ++ st.1 ++ x.1 ++ g.1 ++ d.1 ++ w.1 ++ o.1 ++ seals) (fun _ =>
        let stats := chunk 4 (2 * ox.d.rows) (s.readRuns st.2.flatten)
        let gamma := tg.f32 s
        let scratch := scratchOf foldN fold.2 ++ scratchOf needScratch scr.2
        match ow, w.2 with
        | some w, some tw =>
          let job := fusedJob s e (f 4) od w td tw
          let dys := widenRows job.totals
          let dl := normEffects s e tx tdx stats gamma.1.flatten dys.1 (gamma.2.add dys.2) dg.buf db.buf
          { job.effects .normBwd dl with
            scratch := scratch, held := [(s.firstCore e, some (fusedLast s e (f 4) od w tw))] }
        | _, _ =>
          let dys := td.f32 s
          { normEffects s e tx tdx stats gamma.1.flatten dys.1 (gamma.2.add dys.2) dg.buf db.buf with
            scratch := scratch })
  | _, _, _, _ => planStop (fold.1 ++ scr.1 ++ dg.nothing ++ db.nothing)
      (early ++ dims ++ dg.issues ++ db.issues ++ st.1 ++ x.1 ++ g.1 ++ d.1 ++ w.1 ++ o.1)

/-- NORM_BWD (R124-R126, R255). -/
def normBwdPlan (s : State) (e : Entry) : Plan :=
  let fused := (e.field 0x28 1).testBit 1
  if s.formatWait e then .wait
  else if !e.clean ([(0x10, 0, 64), (0x20, 0, 64), (0x28, 0, 2)] ++
      (if fused then [(0x18, 0, 64), (0x30, 0, 64)] else [])) then .fail [Status.malformed]
  else match s.readStruct e.ctx (e.field 0x10 8) 64 64 with
    | .error st => .fail (st :: s.coreIssues e.ctx ++ s.namedIssues (s.envOf e) [e.field 0x20 8,
        if fused then e.field 0x30 8 else 0])
    | .ok b =>
      let f := fun i => fieldOf b (8 * i) 8
      if !slotsOk ((List.range 8).map f)
        [.req, .req, .req, .req, if fused then .req else .zero, .req, .opt, .opt] then .fail [Status.malformed]
      else if !fused then normRun s e f none
      else match s.readVersion e (f 4) (BitVec.ofNat 64 (e.field 0x18 8)) with
        | .wait => .wait
        | .stop is => normRun s e f (some (Opened.mk is none .binary32))
        | .slot d _ => normRun s e f (some (Opened.mk [] (some d) ((formatOf d.fmt).getD .binary32)))

/-! ## MASK_PACK (R114-R116) -/

/-- Whether a value lies at or below another: false with a NaN. -/
def Val.le (a b : Val) : Bool := a.lt b || a.eq b

/-- The packed value of an element (R114), none where no case of CLASS2 holds (a threshold is a NaN). -/
def packOf (fmt : Nat) (lo hi v : Val) : Option Nat :=
  match fmt with
  | 0 => some (if (Val.num false 0 0).lt v then 1 else 0)
  | 1 => some (if v.isZero then 0 else 1)
  | _ =>
    if v.isNaN then some 3 else if v.lt lo then some 0 else if hi.lt v then some 2
    else if lo.le v && v.le hi then some 1 else none

/-- The element of a window that R116 chooses: its position code and its input row. -/
def windowMax (g : Geom) (x : List (List Val)) (m c : Nat) : Option (Nat × Nat) :=
  (g.kernel.filterMap (fun k => (g.inAt m k.1 k.2).map (fun r => (k.1 * g.kw + k.2, r)))).foldl (fun a b =>
    match a with
    | none => some b
    | some y => if above ((x.getD b.2 []).getD c zeroVal) ((x.getD y.2 []).getD c zeroVal) then some b else a) none

/-- The writes of packed rows (R115). -/
def packedWrites (fmt : Nat) (runs : List (List Run)) (rows : List (List Nat)) : List (Nat × Bytes) :=
  (List.zipWith (fun rs cs => splitRuns rs (packBits (packedBits fmt) cs)) runs rows).flatten

/-- MASK_PACK on SIGN1, MASK1 and CLASS2. -/
def maskPlain (s : State) (e : Entry) (fmt : Nat) (early : List Status) (os od : Opened) : Plan :=
  let dims := need (decide (od.d.rows = os.d.rows ∧ od.d.cols = os.d.cols))
  let x := s.loadVec e.ctx os false
  let d := s.packedRuns e.ctx od true
  match x.2 with
  | none => .fail (early ++ dims ++ x.1 ++ d.1)
  | some tx =>
    let seals := s.sealIssues e.ctx (tx.all ++ tx.scaleRuns) d.2.flatten (s.structRuns e)
    planOf (early ++ dims ++ x.1 ++ d.1 ++ seals) (fun _ =>
      let lo := val32 (e.field 0x38 4)
      let hi := val32 (e.field 0x3C 4)
      let rows := (tx.exact s).zipIdx.map (fun r => r.1.zipIdx.map (fun c =>
        (packOf fmt lo hi c.1).getD ((Config.freeByte (s.free + r.2 * os.d.cols + c.2)).toNat % 4)))
      let want := if fmt = 2 then 3 else 1
      { Delta.none with
        result := (resultCount ((rows.map (fun r => r.count want)).foldl (· + ·) 0)).1
        sat := (resultCount ((rows.map (fun r => r.count want)).foldl (· + ·) 0)).2
        writes := packedWrites fmt d.2 rows
        draws := if lo.isNaN || hi.isNaN then os.d.rows * os.d.cols else 0 })

/-- MASK_PACK on IDX4 and IDX8. DESIGN CHOICE (log 94): a POOLED tensor whose format, group size or zero point differs from
SRC's is MALFORMED, since R116 makes its elements exact copies; under group scales of its own an element is converted by
R471. -/
def maskIndex (s : State) (e : Entry) (fmt : Nat) (early : List Status) (os od op : Opened) : Plan :=
  match s.geometry e.ctx (e.field 0x28 8) with
  | .error st => .fail (early ++ [st])
  | .ok g =>
    let dims := need (poolOk g fmt) ++ onceRead [os] (decide (os.d.rows = g.inRows ∧ os.d.cols = g.cIn)) ++
      onceRead [od] (decide (od.d.rows = g.outRows ∧ od.d.cols = g.cIn)) ++
      onceRead [op] (decide (op.d.rows = g.outRows ∧ op.d.cols = g.cIn)) ++
      onceRead [os, op] (op.fmt == os.fmt && decide (op.d.group = os.d.group) && op.d.zero op.fmt == os.d.zero os.fmt)
    if !allRead ([os, od] ++ if e.field 0x20 8 ≠ 0 then [op] else []) then .fail (early ++ dims) else
    let x := match os.desc with
      | none => (os.issues, none)
      | some sd => s.loadTensor e.ctx os sd.rows sd.cols sd.logical.2 false (g.readsIn g.outAt)
    let d := s.packedRuns e.ctx od true
    let p := s.loadVec e.ctx op true
    match x.2 with
    | none => .fail (early ++ dims ++ x.1 ++ d.1 ++ p.1)
    | some tx =>
      let pRuns := match p.2 with | some t => t.all | none => []
      let pScales := match p.2 with | some t => t.scaleRuns | none => []
      let seals := s.sealIssues e.ctx (tx.all ++ tx.scaleRuns) (d.2.flatten ++ pRuns) (pScales ++ s.structRuns e)
      planOf (early ++ dims ++ x.1 ++ d.1 ++ p.1 ++ seals) (fun _ =>
        let vals := tx.exact s
        let picks := (List.range g.outRows).map (fun m => (List.range g.cIn).map (fun c => windowMax g vals m c))
        let none_ := if fmt = 3 then 15 else 255
        let codes := picks.map (fun r => r.map (fun q => match q with | some w => w.1 | none => none_))
        let base : Delta := { Delta.none with
          result := (resultCount ((codes.map (fun r => r.count none_)).foldl (· + ·) 0)).1
          sat := (resultCount ((codes.map (fun r => r.count none_)).foldl (· + ·) 0)).2
          writes := packedWrites fmt d.2 codes }
        match p.2 with
        | none => base
        | some tp =>
          let rows := picks.zipIdx.map (fun r => r.1.zipIdx.map (fun q => match q.1 with
            | some w => (vals.getD w.2 []).getD q.2 zeroVal
            | none => val32 (leNat ((List.range 4).map (fun i =>
                Config.freeByte (s.free + 4 * (r.2 * g.cIn + q.2) + i))))))
          let out := s.storeRows e.ctx tp (rowScales tp) rows
          { base with
            writes := base.writes ++ out.writes, stats := out.stats
            counts := tallyCounts (s.firstCore e) out.tally
            draws := 4 * g.outRows * g.cIn })

/-- MASK_PACK (R114-R116). -/
def maskPackPlan (s : State) (e : Entry) : Plan :=
  let fmt := e.field 0x30 1 % 8
  let lo := e.field 0x38 4
  let hi := e.field 0x3C 4
  let idx := decide (fmt = 3 ∨ fmt = 4)
  let fields := [(0x10, 0, 64), (0x18, 0, 64), (0x30, 0, 3)] ++
    (if idx then [(0x20, 0, 64), (0x28, 0, 64)] else []) ++
    (if fmt = 2 then [(0x38, 0, 32), (0x3C, 0, 32)] else [])
  if s.formatWait e then .wait
  else if !(e.clean fields && decide (fmt ≤ 4) && decide (e.field 0x10 8 ≠ 0 ∧ e.field 0x18 8 ≠ 0) &&
      (!idx || decide (e.field 0x28 8 ≠ 0)) && !(fmt == 2 && flt binary32 hi lo)) then .fail [Status.malformed]
  else
  let v := s.envOf e
  let os := s.openDesc v false (e.field 0x10 8)
  let od := s.openDesc v true (e.field 0x18 8)
  let op := s.openOpt v true (if idx then e.field 0x20 8 else 0)
  let early := os.check (vecOk false) ++ od.check (packedOk [fmt]) ++ op.check (vecOk false) ++ s.coreIssues e.ctx
  if idx then maskIndex s e fmt early os od op
  else if !allRead [os, od] then .fail early
  else maskPlain s e fmt early os od

/-! ## TIE_SUM (R133) -/

/-- Open a buffer of TIE_SUM, its other epoch for writing if it is the target. -/
def State.tieBuffer (s : State) (v : Env) (addr : Nat) (target clears : Bool) :
    List Status × Option PairBuf :=
  let o := s.openDesc v target addr
  let bad := o.check (fun d _ => decide (d.kind = 1) && !d.handover)
  if !bad.isEmpty then (bad, none) else
  let w : List Status := if clears then
      match s.resolve v.ctx o.d.base 64 true with
      | .error st => [st]
      | .ok _ => []
    else []
  let b := s.openBuffer v.ctx o.d target
  (w ++ b.1, b.2)

/-- The entries that TIE_SUM accumulates: the slots folded in slot order, element by element. -/
def tieFolds (slots : List (List (List Pair))) (rows cols : Nat) : List (List Val) :=
  (List.range rows).map (fun i => (List.range cols).map (fun j =>
    val64 (slots.foldl (fun h m => foldPair h ((m.getD i []).getD j pairZero)) 0)))

/-- TIE_SUM (R133). -/
def tieSumPlan (s : State) (e : Entry) : Plan :=
  let u := e.field 0x20 1 % 32
  let keep := (e.field 0x21 1).testBit 0
  if !(e.clean [(0x10, 0, 64), (0x18, 0, 64), (0x20, 0, 5), (0x21, 0, 1)] && decide (2 ≤ u ∧ u ≤ 16) &&
      decide (e.field 0x10 8 ≠ 0 ∧ e.field 0x18 8 ≠ 0)) then .fail [Status.malformed]
  else
  match s.resolve e.ctx (e.field 0x18 8) (8 * u) false with
  | .error st => .fail (st :: s.coreIssues e.ctx ++ s.namedIssues (s.envOf e) [e.field 0x10 8])
  | .ok rs =>
    let v := s.envOf e
    let addrs := chunk 8 u (s.readRuns rs)
    let t := s.tieBuffer v (e.field 0x10 8) true true
    let slots := addrs.map (fun a => s.tieBuffer v a false (!keep))
    let bufs := slots.filterMap (fun x => x.2)
    let early := t.1 ++ slots.flatMap (fun x => x.1) ++ s.coreIssues e.ctx
    let ds := (e.field 0x10 8 :: addrs).filterMap (fun a => (s.openDesc v false a).desc)
    let named := ds.filterMap (fun d => s.physOf e.ctx d.base 1)
    let shapes := need (ds.all (fun d => decide (d.rows = (ds.headD (TDesc.parse [])).rows ∧
        d.cols = (ds.headD (TDesc.parse [])).cols) && d.orient == (ds.headD (TDesc.parse [])).orient) &&
      named.eraseDups.length == named.length)
    match t.2 with
    | none => .fail (early ++ shapes)
    | some tb =>
      if bufs.length ≠ u then .fail (early ++ shapes) else
      let heads := tb.head :: bufs.map (fun b => b.head)
      if s.bufferWait e heads then .wait else
      let dims := shapes ++ need ((tb :: bufs).all (fun b => !b.foreign e.ctx))
      let seals := s.sealIssues e.ctx ((tb :: bufs).flatMap (fun b => if b.h.cleared then [] else b.old.flatten))
        tb.new.flatten (rs ++ s.structRuns e)
      planOf (early ++ dims ++ seals) (fun _ =>
        let acc := tb.accumulate s e (tieFolds (bufs.map (fun b => b.pairs s)) tb.d.rows tb.d.cols)
        { acc.1 with
          result := BitVec.ofNat 32 u
          commit := acc.1.commit ++ (if keep then [] else bufs.map (fun b => b.clearItem e))
          counts := tallyCounts (s.firstCore e) acc.2 })

/-! ## The rows -/

/-- VEC_OP (R253). -/
def execVecOp (ctx : Nat) (seq : W32) (faults : List CoreFault) (s : State) : Host.Outcome State Fault Refusal :=
  s.runWork .vecOp ctx seq faults vecOpPlan

/-- SOFTMAX_BWD (R122). -/
def execSoftmaxBwd (ctx : Nat) (seq : W32) (faults : List CoreFault) (s : State) : Host.Outcome State Fault Refusal :=
  s.runWork .softmaxBwd ctx seq faults softmaxBwdPlan

/-- NORM_BWD (R125). -/
def execNormBwd (ctx : Nat) (seq : W32) (faults : List CoreFault) (s : State) : Host.Outcome State Fault Refusal :=
  s.runWork .normBwd ctx seq faults normBwdPlan

/-- MASK_PACK (R114). -/
def execMaskPack (ctx : Nat) (seq : W32) (faults : List CoreFault) (s : State) : Host.Outcome State Fault Refusal :=
  s.runWork .maskPack ctx seq faults maskPackPlan

/-- TIE_SUM (R133). -/
def execTieSum (ctx : Nat) (seq : W32) (faults : List CoreFault) (s : State) : Host.Outcome State Fault Refusal :=
  s.runWork .tieSum ctx seq faults tieSumPlan

end Sys2Proof.Machine
end

