-- ==== Sys2Proof/Machine/Stream.lean ====
section
/-!
DEFINITION. Sys2Proof/Machine/Stream.lean: the data-movement opcodes (R243-R248): COPY, the explicit streams of
11 (STREAM_DEFINE, PREFETCH, MULTICAST; R276-R289), GATHER and SCATTER (R244, R245) and the Pocket commands
(R247, R295).
-/
namespace Sys2Proof.Machine

/-! ## COPY -/

/-- COPY (R244, R248). -/
def copyPlan (s : State) (e : Entry) : Plan :=
  let src := e.field 0x10 8
  let dst := e.field 0x18 8
  let n := e.field 0x20 8
  if !(e.clean [(0x10, 0, 64), (0x18, 0, 64), (0x20, 0, 64)] && decide (src ≠ 0 ∧ dst ≠ 0 ∧ 1 ≤ n ∧ n ≤ 1099511627776) &&
      !overlaps src n dst n) then .fail [Status.malformed]
  else
  let a := s.runsOf e.ctx false [(src, n)]
  let b := s.runsOf e.ctx true [(dst, n)]
  planOf (a.1 ++ b.1 ++ s.sealIssues e.ctx a.2.flatten b.2.flatten []) (fun _ =>
    { Delta.none with
      result := (resultCount (linesOf dst n)).1, sat := (resultCount (linesOf dst n)).2
      writes := splitRuns b.2.flatten (s.readRuns a.2.flatten) })

/-! ## Streams (R276-R282) -/

/-- The pieces of one extent that hold its bytes `a` to `a + n - 1`, as virtual extents (R277). -/
def extentPieces (x : Nat × Nat × Nat × Nat) (a n : Nat) : List (Nat × Nat) :=
  let (addr, rb, rows, pitch) := x
  let stop := min (a + n) (rb * rows)
  if stop ≤ a then [] else
  (List.range ((stop - 1) / rb + 1 - a / rb)).map (fun i =>
    let r := a / rb + i
    let lo := max a (r * rb)
    let hi := min stop ((r + 1) * rb)
    (addr + r * pitch + (lo - r * rb), hi - lo))

/-- The pieces of stream bytes `a` to `a + n - 1` over the extents of a stream. -/
def streamPieces : List (Nat × Nat × Nat × Nat) → Nat → Nat → List (Nat × Nat)
  | [], _, _ => []
  | x :: xs, a, n =>
    let size := x.2.1 * x.2.2.1
    if size ≤ a then streamPieces xs (a - size) n
    else
      extentPieces x a n ++ (if a + n ≤ size then [] else streamPieces xs 0 (a + n - size))

/-- The number of the extent that holds a byte of a stream. -/
def entryOf : List (Nat × Nat × Nat × Nat) → Nat → Nat
  | [], _ => 0
  | x :: xs, a => if a < x.2.1 * x.2.2.1 then 0 else entryOf xs (a - x.2.1 * x.2.2.1) + 1

/-- The sleeves on which a stream is active. -/
def Stream.activeOn (x : Stream) : List Nat := (List.range 16).filter (fun k => x.active.getLsbD k)

/-- The stream engines fetch the entries for some blocks of a stream, and the 16 that stay ahead of them (R279). -/
def State.fetchEntries (s : State) (ctx : Nat) (x : Stream) (sleeves : List Nat) (from_ n : Nat) : State :=
  let i := entryOf x.extents (from_ * blockBytes)
  let j := min x.extents.length (entryOf x.extents ((from_ + n) * blockBytes) + 16)
  s.readNamed ctx sleeves [(x.desc + 64 + 32 * i, 32 * (j - i))]

/-- Blocks of a stream. -/
def Stream.blocks (x : Stream) : Nat := ceilDiv x.total blockBytes

/-- The virtual extents of a block. -/
def Stream.pieces (x : Stream) (b : Nat) : List (Nat × Nat) :=
  streamPieces x.extents (b * blockBytes) (min blockBytes (x.total - b * blockBytes))

/-- The physical runs of a block, none where a page stops the fetch (R280). -/
def State.blockRuns (s : State) (ctx : Nat) (x : Stream) (b : Nat) : Option (List Run) :=
  let r := s.runsOf ctx false (x.pieces b)
  if r.1.isEmpty then some r.2.flatten else none

/-- The header and the entries of a block-list descriptor (R276, R278): the stream, or what stands in the way. -/
def State.readStream (s : State) (ctx num addr : Nat) : Except Status Stream :=
  match s.readStruct ctx addr 64 64 with
  | .error st => .error st
  | .ok h =>
    let n := fieldOf h 0 4
    let cls := bitsOf (fieldOf h 4 1) 0 2
    let keep := fieldOf h 5 1
    let ob := bitsOf (fieldOf h 6 1) 0 7
    let rq := bitsOf (fieldOf h 8 2) 0 13
    let home := BitVec.ofNat 128 (fieldOf h 0x10 16)
    let bad := n == 0 || decide (1048576 < n) || decide (cls = 3) ||
      decide (bitsOf (fieldOf h 4 1) 2 6 ≠ 0 ∨ 128 ≤ fieldOf h 6 1 ∨ fieldOf h 7 1 ≠ 0) ||
      (decide (cls = 1) == decide (keep = 0)) || decide (ob = 1 ∨ 64 < ob) ||
      decide (0 < rq ∧ rq < 64 ∨ 4096 < rq) || decide (8192 ≤ fieldOf h 8 2) || decide (fieldOf h 0x0A 6 ≠ 0) ||
      (h.drop 0x20).any (fun b => b != 0) || home == 0 ||
        home &&& ~~~((s.ctx ctx).placement &&& s.caps.cores) != 0
    if bad then .error Status.malformed else
    match s.resolve ctx (addr + 64) (32 * n) false with
    | .error st => .error st
    | .ok rs =>
      let b := s.readRuns rs
      let es := (List.range n).map (fun i => (b.drop (32 * i)).take 32)
      let xs := es.map (fun x => (fieldOf x 0 8, fieldOf x 8 4, fieldOf x 0x0C 4, fieldOf x 0x10 8))
      let total : Nat := (xs.map (fun x => x.2.1 * x.2.2.1)).foldl (· + ·) 0
      if es.any (fun x => (x.drop 0x18).any (fun c => c != 0)) ||
          xs.any (fun x => x.1 == 0 || x.2.1 == 0 || x.2.2.1 == 0 || (decide (1 < x.2.2.1) && decide (x.2.2.2 < x.2.1))) ||
          decide (1099511627776 < total) then .error Status.malformed
      else
        let active := (List.range 16).foldl (fun m k =>
          if (List.range 8).any (fun i => home.getLsbD (8 * k + i)) then m ||| (1#16 <<< k) else m) (0 : BitVec 16)
        .ok (Stream.mk num addr (if cls = 0 then .stream else if cls = 1 then .keepN else .pin) keep
          (if ob = 0 then 8 else ob) (if rq = 0 then 1024 else rq) home xs total 0 0 active)

/-- Whether an earlier command of the context that names a stream has not completed (R246). -/
def State.streamBusy (s : State) (e : Entry) : Bool :=
  (s.entriesOf e.ctx).any (fun x =>
    decide (x.id < e.id) && x.live &&
    (x.op == some .prefetch || x.op == some .multicast || x.op == some .streamDefine) &&
    x.streamNo == e.streamNo)

/-- What R237 and R248 say of STREAM_DEFINE, which needs the sleeves of the placed cores. -/
def State.sleeveIssues (s : State) (ctx : Nat) : List Status :=
  if (s.placed ctx).isEmpty then [Status.unitAbsent]
  else if (s.placed ctx).all s.coreReady then [] else [Status.notReady]

/-- STREAM_DEFINE (R246, R278). A definition beyond the 16,384 descriptors of a sleeve completes as one beyond the context's
quota does (DESIGN CHOICE, log 97). -/
def streamDefineEff (s : State) (e : Entry) : Verdict :=
  let c := s.ctx e.ctx
  let num := e.streamNo
  let done := fun (t : State) => Verdict.done Status.ok (BitVec.ofNat 32 num) false t
  let units := s.sleeveIssues e.ctx
  if !e.clean [(0x10, 0, 16), (0x12, 0, 1), (0x18, 0, 64)] then .fail [Status.malformed] []
  else if (e.field 0x12 1).testBit 0 then
    if e.field 0x18 8 ≠ 0 then .fail [Status.malformed] []
    else if s.streamBusy e then .wait
    else if !(need (c.stream? num).isSome ++ units).isEmpty then .fail (need (c.stream? num).isSome ++ units) []
    else done ((s.setCtx e.ctx { c with streams := c.streams.filter (fun x => x.num != num) }).unpin
      (fun o => o == (e.ctx, false, num)))
  else
    match (s.asRead e).readStream e.ctx num (e.field 0x18 8) with
    | .error st => .fail (need (c.stream? num).isNone ++ units ++ [st]) []
    | .ok x =>
      let full := (List.range 16).any (fun k => x.active.getLsbD k && (decide (c.streamQuota ≤ c.streamsOn k) || decide (16384 ≤ s.streamsOn k)))
      let foreign := s.sealIssues e.ctx [] [] (s.structRuns e)
      let issues := need (c.stream? num).isNone ++ units ++ (if full then [Status.outOfBounds] else []) ++ foreign
      if issues.isEmpty then
        done (s.setCtx e.ctx { c with streams := c.streams ++ [x] })
      else .fail issues []

/-- Blocks from `b` on, `n` at most, that can be fetched, and whether a page stopped the fetch (R280). -/
def State.fetchable (s : State) (ctx : Nat) (x : Stream) : Nat → Nat → List (Nat × List Run) × Bool
  | 0, _ => ([], false)
  | n + 1, b =>
    match s.blockRuns ctx x b with
    | none => ([], true)
    | some rs =>
      let r := State.fetchable s ctx x n (b + 1)
      ((b, rs) :: r.1, r.2)

/-- Replace a stream of a context. -/
def State.setStream (s : State) (ctx : Nat) (x : Stream) : State :=
  let c := s.ctx ctx
  s.setCtx ctx { c with streams := c.streams.map (fun y => if y.num = x.num then x else y) }

/-- The owner under which the traffic of a stream pins lines (R313). -/
def Stream.pinner (x : Stream) (ctx : Nat) : Nat × Bool × Nat := (ctx, false, x.num)

/-- The pages of some blocks of a stream. -/
def Stream.pagesOf (x : Stream) (from_ n : Nat) : List Nat :=
  pagesIn ((List.range n).flatMap (fun i => x.pieces (from_ + i)))

/-- Fetch lines into a sleeve's L2 under a stream's class (R285, R286): those that miss are read from memory. -/
def State.fetchL2 (s : State) (k ctx : Nat) (x : Stream) (rs : List Run) : State :=
  let lines := linesIn rs
  let miss := (s.fabric.cache k).missing lines
  ((s.lookLines k lines false).askLines ctx miss).fillLines k x.cls x.keepN (x.pinner ctx) false lines

/-- Whether an operand queue of the context is fetching some line of a block into the L2 of a sleeve at this moment
(R282). -/
def State.inFlight (s : State) (k ctx : Nat) (rs : List Run) : Bool :=
  let miss := (s.fabric.cache k).missing (linesIn rs)
  (List.range 6).any (fun m => ((s.fabric.port m).slots ++ (s.fabric.port m).waits).any (fun r =>
    r.ctx == ctx && !r.write && r.core / 8 == k && miss.contains r.line))

/-- A core takes a block from its sleeve's L2 into its stage (R285, R288): lines that the L2 lacks are fetched first. -/
def State.takeBlock (s : State) (c ctx : Nat) (x : Stream) (b : Nat × List Run) : State :=
  let lines := linesIn b.2
  let miss := (s.fabric.cache (c / 8)).missing lines
  (((s.lookLines (c / 8) lines).fillLines (c / 8) x.cls x.keepN (x.pinner ctx) true miss).askLines ctx miss).stageBlock
    c ctx x.num b.1 b.2

/-- Run-ahead of a stream has stopped at a block (R280): counted and traced at some cores. -/
def State.stopAt (s : State) (ctx : Nat) (seq : W32) (x : Stream) (b : Nat) (cores : List Nat) : State :=
  cores.foldl (fun t c => (t.count (.stream c 0) 1).traceRec 13 (.core c) ctx seq (x.num + b * 65536)) s

/-- PREFETCH (R285). -/
def prefetchEff (s : State) (e : Entry) : Verdict :=
  let level1 := (e.field 0x12 1).testBit 0
  let units := s.coreIssues e.ctx
  match (s.ctx e.ctx).stream? e.streamNo with
  | none => .fail [Status.malformed] []
  | some x =>
    if !e.clean [(0x10, 0, 16), (0x12, 0, 1), (0x14, 0, 32)] then .fail [Status.malformed] []
    else if !units.isEmpty then .fail units []
    else if !s.mayWork .prefetch e then .wait
    else
      let from_ := if level1 then x.point1 else x.point0
      let left := x.blocks - from_
      let n := if e.field 0x14 4 = 0 then left else min left (e.field 0x14 4)
      let got := s.fetchable e.ctx x n from_
      let homes := (coreList x.home).filter s.coreReady
      let sleeves := x.activeOn.filter (fun k => s.ready.sleeves.getLsbD k)
      if got.1.any (fun b => (if level1 then sleevesOf homes else sleeves).any (fun k => s.inFlight k e.ctx b.2)) then .wait else
      let units := if level1 then homes.length else sleeves.length
      let s := sleeves.foldl (fun t k => t.xlate k e.ctx (x.pagesOf from_ n)) (s.fetchEntries e.ctx x sleeves from_ n)
      let s := got.1.foldl (fun t b =>
        if level1 then homes.foldl (fun t c => t.takeBlock c e.ctx x b) t
        else sleeves.foldl (fun t k => t.fetchL2 k e.ctx x b.2) t) s
      let p := from_ + got.1.length
      let stops := if level1 then homes else sleeves.filterMap (fun k => homes.find? (fun c => c / 8 == k))
      let s := if got.2 then s.stopAt e.ctx e.seq x p stops else s
      let s := s.setStream e.ctx (if level1 then { x with point1 := p } else { x with point0 := p })
      let r := resultCount (got.1.length * units)
      .done Status.ok r.1 r.2 s

/-- Whether a command of a context that runs on a core has a demand in some runs (R281, R287). -/
def State.wantsRuns (s : State) (e : Entry) (c : Nat) (rs : List Run) : Bool :=
  s.journal.entries.any (fun x => x.ctx == e.ctx && x.id != e.id && x.state == .dispatched && !x.decided &&
    (match x.op with | some op => op.isCoreWork | none => false) && (s.queueCores x).contains c &&
    (s.feeds x).any (fun f => (s.runAhead x.ctx f.rows).1.any (fun r => touches rs r.1 r.2)))

/-- The receivers detached at `n` blocks from `b` on, each with the first block that it did not receive (R287). `slow` are
the receivers whose windows fill, each with the first block for which it has returned no credit of the eight before it. Those
attached that hold 8 blocks go at once where an attached receiver wants the next one; else the group waits until they have
returned the credit for that block. -/
def detachFrom (wants : Nat → Nat → Bool) : Nat → Nat → List Nat → List (Nat × Nat) → List (Nat × Nat)
  | 0, _, _, _ => []
  | n + 1, b, cores, slow =>
    let full := cores.filter (fun c => slow.any (fun d => d.1 == c && decide (max d.2 8 ≤ b)))
    if full.isEmpty then detachFrom wants n (b + 1) cores slow
    else if cores.any (fun c => wants c b) then
      full.map (fun c => (c, b)) ++ detachFrom wants n (b + 1) (cores.filter (fun c => !full.contains c)) slow
    else detachFrom wants n (b + 1) cores (slow.map (fun d => if full.contains d.1 then (d.1, b + 1) else d))

/-- MULTICAST (R286-R289): `slow` are the receivers whose windows the timing lets fill, each with the first block before
which it keeps eight credits back. A receiver that has retired since the start has left the group. -/
def multicastEff (slow : List (Nat × Nat)) (s : State) (e : Entry) : Verdict :=
  let named := coreList e.receivers
  let outside := e.receivers &&& ~~~((s.ctx e.ctx).placement) != 0
  match (s.ctx e.ctx).stream? e.streamNo with
  | none => .fail [Status.malformed] []
  | some x =>
    let issues := need (e.clean [(0x10, 0, 16), (0x18, 0, 64), (0x20, 0, 64)] && !outside && !named.isEmpty) ++
      (if e.working || named.all s.corePresent then [] else [Status.unitAbsent]) ++
      (if named.all (fun c => !s.corePresent c || s.coreReady c) then [] else [Status.notReady])
    if !issues.isEmpty then .fail issues []
    else if !s.mayWork .multicast e then .wait
    else
      let cores := named.filter s.corePresent
      let got := s.fetchable e.ctx x x.blocks 0
      let sleeves := sleevesOf cores
      let gone := detachFrom (fun c b => (got.1.lookup b).any (fun rs => s.wantsRuns e c rs)) got.1.length 0 cores slow
      let s := sleeves.foldl (fun t k => t.xlate k e.ctx (x.pagesOf 0 x.blocks)) (s.fetchEntries e.ctx x sleeves 0 x.blocks)
      let s := got.1.foldl (fun t b =>
        let t := sleeves.foldl (fun t k => t.fillLines k x.cls x.keepN (x.pinner e.ctx) false (linesIn b.2))
          (t.askLines e.ctx (linesIn b.2))
        cores.foldl (fun t c => if (gone.lookup c).any (fun d => decide (d ≤ b.1))
          then t.takeBlock c e.ctx x b else t.stageBlock c e.ctx x.num b.1 b.2) t) s
      let s := if got.2 then s.stopAt e.ctx e.seq x got.1.length cores else s
      let cut := cores.filter (fun c => (gone.lookup c).isSome)
      let s := cut.foldl (fun t c => (t.count (.stream c 1) 1).traceRec 14 (.core c) e.ctx e.seq x.num) s
      .done Status.ok (BitVec.ofNat 32 cut.length) false s

/-! ## GATHER and SCATTER (R244, R245) -/

/-- The row indices of a command: one for each row of DATA. -/
def State.indices (s : State) (ctx addr n : Nat) : List Status × List Run × List Nat :=
  if addr = 0 then ([Status.malformed], [], []) else
  let r := s.runsOf ctx false [(addr, 4 * n)]
  (r.1, r.2.flatten, if r.1.isEmpty then chunk 4 n (s.readRuns r.2.flatten) else [])

/-- The extents of given memory rows of a tensor. -/
def TDesc.rowExtents (d : TDesc) (f : Format) (rows : List Nat) : List (Nat × Nat) :=
  rows.map (fun i => (d.base + i * d.pitch, d.rowLen f))

/-- A tensor whose rows are copied unaltered. -/
def rowsOk (d : TDesc) (f : Format) : Bool := decide (d.kind = 2 ∨ (d.kind = 0 ∧ d.zpKind ≠ 2 ∧ Format.code f ≤ 10))

/-- The runs of some rows, a link's included. -/
def State.rowRuns (s : State) (ctx : Nat) (o : Opened) (write : Bool) (rows : List Nat) :
    List Status × List (List Run) :=
  if o.d.handover then ([], (o.d.rowExtents o.fmt rows).map (fun x => [x]))
  else s.runsOf ctx write (o.d.rowExtents o.fmt rows)

/-- Two tensors of the same format and row length (R244). -/
def sameRows (a b : Opened) : Bool :=
  decide (a.d.kind = b.d.kind ∧ a.d.cols = b.d.cols) && (if a.d.kind = 2 then a.d.fmt == b.d.fmt else a.fmt == b.fmt)

/-- GATHER in FORWARD mode and SCATTER: `scatter` copies rows of DATA into TABLE. -/
def rowCopyPlan (scatter : Bool) (s : State) (e : Entry) : Plan :=
  let v := s.envOf e
  let table := s.openDesc v scatter (e.field 0x10 8)
  let data := s.openDesc v (!scatter) (e.field 0x20 8)
  let early := table.check rowsOk ++ data.check (fun d f => rowsOk d f && (scatter || !d.orient)) ++
    need (e.field 0x18 8 != 0)
  let units := s.coreIssues e.ctx
  if !early.isEmpty then .fail (early ++ units) else
  let idx := s.indices e.ctx (e.field 0x18 8) data.d.rows
  let wild := idx.2.2.any (fun i => decide (table.d.rows ≤ i))
  let shape := need (sameRows table data) ++ idx.1
  if wild then .refuse (shape ++ units ++ [Status.outOfBounds])
  else if !(shape ++ units).isEmpty then .fail (shape ++ units)
  else
  let t := s.rowRuns e.ctx table scatter idx.2.2
  let d := s.rowRuns e.ctx data (!scatter) (List.range data.d.rows)
  let src := if scatter then d else t
  let dst := if scatter then t else d
  let seals := s.sealIssues e.ctx src.2.flatten dst.2.flatten (idx.2.1 ++ s.structRuns e)
  planOf (t.1 ++ d.1 ++ seals) (fun _ =>
    { Delta.none with
      result := BitVec.ofNat 32 data.d.rows
      writes := (List.zipWith (fun a b => splitRuns b (s.readRuns a)) src.2 dst.2).flatten })

/-- Set bits of a bit string (R115). -/
def setBits (bs : Bytes) (ones : List Nat) : Bytes :=
  bs.zipIdx.map (fun b => ones.foldl (fun (x : Byte) i => if i / 8 = b.2 then x ||| (1#8 <<< (i % 8)) else x) b.1)

/-- Add the rows of DATA into pairs, in order (R245). -/
def gatherPairs (pairs : List (List Pair)) (idx : List Nat) (rows : List (List Nat)) : List (List Pair) :=
  (List.zip idx rows).foldl (fun ps r =>
    ps.set r.1 (List.zipWith kahan (ps.getD r.1 []) r.2)) pairs

/-- GATHER in GRAD mode (R245). RESULT counts the rows of the buffer: the other epoch is written in full (R245, R248). -/
def gatherGradPlan (s : State) (e : Entry) : Plan :=
  let v := s.envOf e
  let table := s.openDesc v true (e.field 0x10 8)
  let data := s.openDesc v false (e.field 0x20 8)
  let early := table.check (fun d _ => decide (d.kind = 1) && !d.handover) ++ data.check vecGradOk ++
    need (e.field 0x18 8 != 0 && e.field 0x28 8 != 0)
  let units := s.coreIssues e.ctx
  if !early.isEmpty then .fail (early ++ units) else
  let dims := need (decide (table.d.cols = data.d.cols))
  let idx := s.indices e.ctx (e.field 0x18 8) data.d.rows
  let wild := if idx.2.2.any (fun i => decide (table.d.rows ≤ i)) then [Status.outOfBounds] else []
  let x := s.loadVec e.ctx data false
  let b := s.openBuffer e.ctx table.d true
  let bm := s.runsOf e.ctx true [(e.field 0x28 8, (table.d.rows + 7) / 8)]
  match x.2, b.2 with
  | some tx, some buf =>
    if s.bufferWait e [buf.head] then .wait else
    let seals := s.sealIssues e.ctx (tx.all ++ tx.scaleRuns ++ (if buf.h.cleared then [] else buf.old.flatten))
      buf.new.flatten (idx.2.1 ++ bm.2.flatten ++ s.structRuns e)
    let issues := dims ++ units ++ idx.1 ++ wild ++ x.1 ++ b.1 ++ bm.1 ++ need (!buf.foreign e.ctx) ++ seals
    if !issues.isEmpty then .refuse issues else
    let vals := tx.f32 s
    let bits := setBits (s.readRuns bm.2.flatten) idx.2.2
    .done { Delta.none with
      result := BitVec.ofNat 32 table.d.rows
      writes := buf.rowWrites (gatherPairs (buf.pairs s) idx.2.2 vals.1)
      commit := (splitRuns bm.2.flatten bits).map (fun w => .write w.1 w.2) ++ [buf.commitItem e]
      counts := tallyCounts (s.countCore e.ctx) vals.2 }
  | _, _ => .refuse (dims ++ units ++ idx.1 ++ x.1 ++ b.1)

/-- GATHER (R244, R245). -/
def gatherPlan (s : State) (e : Entry) : Plan :=
  let grad := (e.field 0x30 1).testBit 0
  if s.formatWait e then .wait
  else if !e.clean ([(0x10, 0, 64), (0x18, 0, 64), (0x20, 0, 64), (0x30, 0, 1)] ++
      (if grad then [(0x28, 0, 64)] else [])) then .fail [Status.malformed]
  else if grad then gatherGradPlan s e
  else rowCopyPlan false s e

/-- SCATTER (R244). -/
def scatterPlan (s : State) (e : Entry) : Plan :=
  if s.formatWait e then .wait
  else if !e.clean [(0x10, 0, 64), (0x18, 0, 64), (0x20, 0, 64)] then .fail [Status.malformed]
  else rowCopyPlan true s e

/-! ## The Pocket path (R247, R295) -/

/-- An extent that crosses a 64 KiB page boundary. -/
def crossesPage (a n : Nat) : Bool := decide (65536 < a % 65536 + n)

/-- LENGTH of a Pocket command. -/
def Entry.pocketLen (e : Entry) : Nat := e.field 0x20 2 % 512

/-- POCKET_WRITE (R243, R247). -/
def pocketWritePlan (s : State) (e : Entry) : Plan :=
  let dst := e.field 0x10 8
  let src := e.field 0x18 8
  let n := e.pocketLen
  if !(e.clean [(0x10, 0, 64), (0x18, 0, 64), (0x20, 0, 9), (0x28, 0, 192)] && decide (dst ≠ 0 ∧ 1 ≤ n ∧ n ≤ 256) &&
      (decide (src ≠ 0) || decide (n ≤ 24)) && !crossesPage dst n && (decide (src = 0) || !crossesPage src n)) then
    .fail [Status.malformed]
  else
  let a := if src = 0 then ([], []) else s.runsOf e.ctx false [(src, n)]
  let b := s.runsOf e.ctx true [(dst, n)]
  planOf (a.1 ++ b.1 ++ s.sealIssues e.ctx a.2.flatten b.2.flatten []) (fun _ =>
    { Delta.none with
      result := BitVec.ofNat 32 n
      writes := splitRuns b.2.flatten
        (if src = 0 then (e.packet.drop 0x28).take n else s.readRuns a.2.flatten) })

/-- POCKET_READ (R243, R247). -/
def pocketReadPlan (s : State) (e : Entry) : Plan :=
  let src := e.field 0x10 8
  let dst := e.field 0x18 8
  let n := e.pocketLen
  if !(e.clean [(0x10, 0, 64), (0x18, 0, 64), (0x20, 0, 9)] && decide (src ≠ 0 ∧ 1 ≤ n ∧ n ≤ 256) &&
      (decide (dst ≠ 0) || decide (n ≤ 4)) && !crossesPage src n && (decide (dst = 0) || !crossesPage dst n)) then
    .fail [Status.malformed]
  else
  let a := s.runsOf e.ctx false [(src, n)]
  let b := if dst = 0 then ([], []) else s.runsOf e.ctx true [(dst, n)]
  let seals := (if s.anySealed a.2.flatten then [Status.isSealed] else []) ++
    s.sealIssues e.ctx [] b.2.flatten []
  planOf (a.1 ++ b.1 ++ seals) (fun _ =>
    let bs := s.readRuns a.2.flatten
    { Delta.none with
      result := BitVec.ofNat 32 (leNat (bs.take 4)), writes := splitRuns b.2.flatten bs })

/-! ## The rows -/

/-- COPY (R244). -/
def execCopy (ctx : Nat) (seq : W32) (s : State) : Host.Outcome State Fault Refusal :=
  s.runWork .copy ctx seq [] copyPlan

/-- STREAM_DEFINE (R246). -/
def execStreamDefine (ctx : Nat) (seq : W32) (s : State) : Host.Outcome State Fault Refusal :=
  s.runOp .streamDefine ctx seq streamDefineEff

/-- PREFETCH (R285). -/
def execPrefetch (ctx : Nat) (seq : W32) (s : State) : Host.Outcome State Fault Refusal :=
  s.runOp .prefetch ctx seq prefetchEff

/-- MULTICAST (R286). -/
def execMulticast (ctx : Nat) (seq : W32) (detached : List (Nat × Nat)) (s : State) :
    Host.Outcome State Fault Refusal :=
  s.runOp .multicast ctx seq (multicastEff detached)

/-- GATHER (R244). -/
def execGather (ctx : Nat) (seq : W32) (faults : List CoreFault) (s : State) : Host.Outcome State Fault Refusal :=
  s.runWork .gather ctx seq faults gatherPlan

/-- SCATTER (R244). -/
def execScatter (ctx : Nat) (seq : W32) (faults : List CoreFault) (s : State) : Host.Outcome State Fault Refusal :=
  s.runWork .scatter ctx seq faults scatterPlan

/-- POCKET_WRITE (R247). -/
def execPocketWrite (ctx : Nat) (seq : W32) (s : State) : Host.Outcome State Fault Refusal :=
  s.runWork .pocketWrite ctx seq [] pocketWritePlan

/-- POCKET_READ (R247). -/
def execPocketRead (ctx : Nat) (seq : W32) (s : State) : Host.Outcome State Fault Refusal :=
  s.runWork .pocketRead ctx seq [] pocketReadPlan

end Sys2Proof.Machine
end

