-- ==== Sys2Proof/Machine/Update.lean ====
section
/-!
DEFINITION. Sys2Proof/Machine/Update.lean: parameter update (07): UPDATE with its rules (R160-R169), UPDATE_ROWS
(R181-R183), PRECOND_FACTOR (R170-R172), the version slots and their commit (R173-R180) and VERSION_RELEASE
(R179).
-/
namespace Sys2Proof.Machine

/-! ## Literals (R161) -/

/-- The literal block. -/
structure Literals where
  lr : Nat
  wd : Nat
  b1 : Nat
  b2 : Nat
  eps : Nat
  gscale : Nat
  trust : Nat
  step : Nat
  norm : Nat
  normOut : Nat
  resv : Bool
  deriving DecidableEq, Repr

/-- The block in 64 bytes. -/
def Literals.parse (b : Bytes) : Literals where
  lr := fieldOf b 0 4
  wd := fieldOf b 4 4
  b1 := fieldOf b 8 4
  b2 := fieldOf b 0x0C 4
  eps := fieldOf b 0x10 4
  gscale := fieldOf b 0x14 4
  trust := fieldOf b 0x18 4
  step := fieldOf b 0x20 8
  norm := fieldOf b 0x28 8
  normOut := fieldOf b 0x30 8
  resv := fieldOf b 0x1C 4 != 0 || fieldOf b 0x38 8 != 0

/-- The literals recorded at acceptance, or what stands in the way (R161). -/
def State.literals (s : State) (e : Entry) : List Status × Literals :=
  let l := Literals.parse e.literal
  if e.literal.isEmpty then
    match s.readStruct e.ctx (e.field 0x18 8) 64 1 with
    | .error st => ([st], l)
    | .ok _ => ([Status.outOfBounds], l)
  else (need (!l.resv), l)

/-- The values that a rule uses, formed once per command or per row (R163, R167). -/
structure RuleVals where
  l : Literals
  ob1 : Nat
  ob2 : Nat
  c1 : Nat
  c2 : Nat
  tau : Nat
  deriving Repr

/-- The values for update count `t`. -/
def RuleVals.at (l : Literals) (t tau : Nat) : RuleVals where
  l := l
  ob1 := sub32 one32 l.b1
  ob2 := sub32 one32 l.b2
  c1 := sub32 one32 (pow32 l.b1 t)
  c2 := sub32 one32 (pow32 l.b2 t)
  tau := tau

/-! ## The rules of one element (R164, R167) -/

/-- An element's master and moments. -/
structure Elem where
  w : Nat
  m : Nat
  v : Nat
  deriving DecidableEq, Repr

/-- Subtract a step from a weight: b = LR × d, w = w − b. -/
def stepBack (lr w d : Nat) : Nat := sub32 w (mul32 lr d)

/-- The element rules, `g` after GSCALE. -/
def ruleElem (rule : Nat) (k : RuleVals) (x : Elem) (g : Nat) : Elem :=
  let l := k.l
  match rule with
  | 0 => { x with w := stepBack l.lr x.w (add32 g (mul32 l.wd x.w)) }
  | 1 =>
    let m := add32 (mul32 l.b1 x.m) (add32 g (mul32 l.wd x.w))
    { x with w := stepBack l.lr x.w m, m := m }
  | 2 =>
    let d := add32 g (mul32 l.wd x.w)
    let m := add32 (mul32 l.b1 x.m) d
    { x with w := stepBack l.lr x.w (add32 (mul32 l.b1 m) d), m := m }
  | 3 | 4 =>
    let d := if rule = 3 then add32 g (mul32 l.wd x.w) else g
    let m := add32 (mul32 l.b1 x.m) (mul32 k.ob1 d)
    let v := add32 (mul32 l.b2 x.v) (mul32 k.ob2 (mul32 d d))
    let u := div32 (div32 m k.c1) (add32 (sqrt32 (div32 v k.c2)) l.eps)
    let u := if rule = 3 then u else add32 u (mul32 l.wd x.w)
    Elem.mk (stepBack l.lr x.w u) m v
  | 6 =>
    let c := add32 (mul32 l.b1 x.m) (mul32 k.ob1 g)
    let st := add32 (sign32 c) (mul32 l.wd x.w)
    { x with w := stepBack l.lr x.w st, m := add32 (mul32 l.b2 x.m) (mul32 k.ob2 g) }
  | _ =>
    let d := mul32 k.tau (add32 g (mul32 l.wd x.w))
    let m := add32 (mul32 l.b1 x.m) d
    { x with w := stepBack l.lr x.w m, m := m }

/-- Whether a rule needs the first moment, the second, AUX1 and AUX2 (R163). -/
def ruleNeeds : Nat → Bool × Bool × Bool × Bool
  | 1 | 2 | 6 | 7 => (true, false, false, false)
  | 3 | 4 => (true, true, false, false)
  | 5 => (false, false, true, false)
  | 8 => (true, false, true, true)
  | _ => (false, false, false, false)

/-- The trust ratio of a norm record (R167), with what its conversions count. -/
def trustRatio (l : Literals) (rec_ : Bytes) : Nat × Tally :=
  let g2 := to32 (val64 (fieldOf rec_ 0 8))
  let w2 := to32 (val64 (fieldOf rec_ 8 8))
  let flags := fieldOf rec_ 0x18 1
  let w := sqrt32 w2.code
  let g := mul32 (sqrt32 g2.code) (fabs binary32 l.gscale)
  let x := add32 (add32 g (mul32 l.wd w)) l.eps
  (if !(flags.testBit 0) || !(flags.testBit 1) || w == 0 || g == 0 || fieldOf rec_ 0x10 8 != l.step then one32
    else div32 (mul32 l.trust w) x, Tally.ofConvs [g2, w2])

/-! ## Stochastic rounding (R53) -/

/-- The conversion of R53: `u` the 16 random bits. -/
def stochastic (f : Format) (u : Nat) (v : Val) : Conv :=
  match v with
  | .num neg m e =>
    if m = 0 then convert f v else
    let q : Int := match floatFmt f with
      | some ff => max (valExp m e) (1 - (ff.bias : Int)) - ff.mbits
      | none => 0
    if q ≤ e then convert f v else
    let sh := (q - e).toNat
    let lo := m / 2 ^ sh
    let t := m % 2 ^ sh * 65536 / 2 ^ sh
    let n := if 65536 ≤ t + u then lo + 1 else lo
    let c := convert f (.num neg n q)
    { c with und := c.und || n == 0 }
  | v => convert f v

/-- The random bits of an element (R53). -/
def roundBits (seed : W64) (step idx : Nat) : Nat :=
  let p := philox (idx % 2 ^ 32) (idx / 2 ^ 32) (step % 2 ^ 32) (step / 2 ^ 32) (seed.toNat % 2 ^ 32)
    (seed.toNat / 2 ^ 32)
  p.1 / 65536

/-! ## Descriptors and slots -/

/-- Physical runs of bytes `off` to `off + n - 1` of some runs. -/
def subRuns : List Run → Nat → Nat → List Run
  | [], _, _ => []
  | (a, k) :: rs, off, n =>
    if k ≤ off then subRuns rs (off - k) n
    else
      let t := min n (k - off)
      if t = 0 then [] else (a + off, t) :: subRuns rs 0 (n - t)

/-- Writes of bytes at an offset of some runs. -/
def writesAt (rs : List Run) (off : Nat) (bs : Bytes) : List (Nat × Bytes) := splitRuns (subRuns rs off bs.length) bs

/-- Commit items of bytes at an offset of some runs. -/
def itemsAt (rs : List Run) (off : Nat) (bs : Bytes) : List CommitItem :=
  (writesAt rs off bs).map (fun w => .write w.1 w.2)

/-- References on a version, transient and retained (R176, R177). -/
def State.referenced (s : State) (pa : Nat) (v : W64) : Bool :=
  s.retained.any (fun r => r.1.param == pa && r.1.version == v) ||
  s.journal.entries.any (fun e => e.live && e.refs.any (fun r => r.param == pa && r.version == v))

/-- The slot with the smallest version of some. -/
def smallestVersion : List (Nat × VSlot) → Option Nat
  | [] => none
  | x :: xs => some (xs.foldl (fun a y => if y.2.version.toNat < a.2.version.toNat then y else a) x).1

/-- The engine's bytes of a descriptor as a commit leaves them (R173): the byte at 0x00 and those from 0x02. -/
def PDesc.headBytes (p : PDesc) : Bytes × Bytes :=
  (leBytes 1 (p.stateEpoch.toNat + 2 * p.rootEpoch.toNat + 4 * p.zeroState.toNat),
    leBytes 2 p.lastCtx ++ leBytes 4 p.lastSeq.toNat ++ leBytes 8 p.count.toNat ++ leBytes 8 p.lastStep.toNat ++
      leBytes 8 p.newest)

/-- Commit items of a descriptor's engine bytes; FROZEN at 0x01 is never written (R157). -/
def PDesc.items (p : PDesc) (rs : List Run) : List CommitItem :=
  itemsAt rs 0 p.headBytes.1 ++ itemsAt rs 2 p.headBytes.2

/-- Commit items that make a slot HELD (R173): VERSION, FMT and STATE. -/
def slotItems (rs : List Run) (slot : Nat) (version : W64) (fmt : Nat) : List CommitItem :=
  itemsAt rs (0x68 + 0x20 * slot) (leBytes 8 version.toNat ++ leBytes 1 (fmt % 16 + 16))

/-- The byte of a slot entry that holds FMT and STATE (R157), with the slot's FMT. -/
def slotByte (p : PDesc) (rs : List Run) (slot : Nat) : Option (Nat × Nat) :=
  match subRuns rs (0x70 + 0x20 * slot) 1 with
  | x :: _ => some (x.1, (p.slots.getD slot (VSlot.parse [])).fmt)
  | [] => none

/-- A parameter descriptor as an update-family command finds it: its physical runs and its fields. -/
structure Param where
  p : PDesc
  runs : List Run
  pa : Nat
  deriving Repr

/-- The slot that a writing command takes (R177): the one that it took before it stopped goes first (R174). -/
def State.takeSlot (s : State) (e : Entry) (x : Param) : Option Nat :=
  let slots := x.p.slots.zipIdx.map (fun y => (y.2, y.1))
  let own := fun (i : Nat) => (slotByte x.p x.runs i).any (fun b => e.taken.any (fun t => t.1 == b.1))
  match slots.find? (fun y => y.2.state == 2 && own y.1), slots.find? (fun y => y.2.state == 0) with
  | some y, _ => some y.1
  | none, some y => some y.1
  | none, none => smallestVersion (slots.filter (fun y =>
      y.2.state == 1 && y.1 != x.p.newest && !s.referenced x.pa y.2.version))

/-- Open the descriptor of an update-family command, for writing. -/
def State.openParam (s : State) (ctx addr : Nat) : Except Status Param :=
  match s.readStruct ctx addr 256 64, s.resolve ctx addr 256 true with
  | .ok b, .ok rs => .ok (Param.mk (PDesc.parse b) rs ((rs.map (fun r => r.1)).headD 0))
  | .error st, _ => .error st
  | _, .error st => .error st

/-- What R158 and R159 say to a command of a context. -/
def Param.issues (x : Param) (ctx : Nat) : List Status :=
  x.p.issues ++ need (!(x.p.count != 0 && x.p.lastCtx != ctx))

/-- Read and write runs of a state tensor: committed epoch, other epoch. -/
structure StateTensor where
  issues : List Status
  old : List (List Run)
  new : List (List Run)
  deriving Repr

/-- Open a state tensor. -/
def State.openState (s : State) (ctx : Nat) (p : PDesc) (base : Nat) (read : Bool) : StateTensor :=
  let e := p.stateEpoch.toNat
  let o := if read then s.runsOf ctx false (p.epochRows base e) else ([], [])
  let n := s.runsOf ctx true (p.epochRows base (1 - e))
  StateTensor.mk (o.1 ++ n.1) o.2 n.2

/-- Its committed values; +0 where it was not read. -/
def StateTensor.vals (t : StateTensor) (s : State) (rows cols : Nat) : List (List Nat) :=
  if t.old.isEmpty then List.replicate rows (List.replicate cols 0)
  else t.old.map (fun rs => chunk 4 cols (s.readRuns rs))

/-- The bytes of binary32 codes. -/
def bytes32 (xs : List Nat) : Bytes := xs.flatMap (leBytes 4)

/-- Writes of rows of binary32 codes. -/
def rowWrites32 (runs : List (List Run)) (rows : List (List Nat)) : List (Nat × Bytes) :=
  (List.zipWith (fun rs r => splitRuns rs (bytes32 r)) runs rows).flatten

/-- The format of the stored copy that a command writes (R173, R136), none where no ladder governs it. -/
def State.copyFormat (s : State) (ctx : Nat) (p : PDesc) : Option Format :=
  if p.gov then (if p.layer = 0 then none else (s.ctx ctx).currentFormat p.layer 1) else formatOf p.storedFmt

/-- What a stored copy comes to: bytes of each memory row, counts, statistics. -/
structure CopyOut where
  rows : List Bytes
  tally : Tally
  stat : StatRec
  deriving Repr

/-- Convert master rows into a stored copy (R173, R53, R139): `rows` pairs each row's number with its values. -/
def copyRows (p : PDesc) (f : Format) (sr : Bool) (step : Nat) (govStep : W64) (rows : List (Nat × List Nat)) :
    CopyOut :=
  let idx := fun (i j : Nat) => if p.orient then j * p.rowsN + i else i * p.colsN + j
  let conv := rows.map (fun r => (r.1, r.2.zipIdx.map (fun c =>
    let v := val32 c.1
    (v, if sr then stochastic f (roundBits p.seed step (idx r.1 c.2)) v else convert f v))))
  CopyOut.mk (conv.map (fun r => packRow f (r.2.map (fun x => x.2.code))))
    (conv.foldl (fun t r => r.2.foldl (fun t x => t.addConv x.2) t) Tally.zero)
    (conv.foldl (fun a r =>
      let sm := sampledRow r.1 p.layer govStep
      r.2.foldl (fun a x => a.conv sm x.1 x.2 (fmtVal f x.2.code)) a) (StatRec.empty p.layer 1))

/-- The statistics of a stored copy (R139). -/
def copyStats (p : PDesc) (f : Format) (sealedBy : Bool) (r : StatRec) : List StatRec :=
  if p.layer = 0 ∨ f = .binary32 then [] else [{ r with sealedBy := sealedBy }]

/-- Elements that are not finite (R165). -/
def notFinite (rows : List (List Nat)) : Nat :=
  (rows.map (fun r => (r.filter (fun w => !isFinite binary32 w)).length)).foldl (· + ·) 0

/-- The sum of squares of R168: rows apart, then added. -/
def sumSquares (rows : List (List Nat)) : Nat :=
  (rows.map (fun r => r.foldl (fun a w => add64 a (mul64 (widen w) (widen w))) 0)).foldl add64 0

/-! ## FACTORED (R166) -/

/-- Bytes of an epoch of the factor region. -/
def factorBytes (p : PDesc) : Nat := ceilDiv (4 * (p.rowsN + p.colsN)) 64 * 64

/-- What one FACTORED update comes to: master rows, row factors, column factors, counts. -/
structure Factored where
  w : List (List Nat)
  rf : List Nat
  cf : List Nat
  tally : Tally
  deriving Repr

/-- One row: its new master, its new row factor and the terms of the column chains. -/
def factoredRow (k : RuleVals) (sh : List Nat) (rf : Nat) (ws gs : List Nat) : List Nat × Nat × List Nat :=
  let qs := gs.map (fun g => add32 (mul32 g g) k.l.eps)
  let mean := overCount (kahanAll qs).value32 gs.length
  let r := add32 (mul32 k.l.b2 rf) (mul32 k.ob2 mean)
  let w := (List.zip ws (List.zip gs sh)).map (fun x =>
    let d := sqrt32 (div32 (mul32 r x.2.2) k.c2)
    stepBack k.l.lr x.1 (add32 (div32 x.2.1 d) (mul32 k.l.wd x.1)))
  (w, r, qs)

/-- The update of a tensor. -/
def factored (k : RuleVals) (rf cf : List Nat) (w g : List (List Nat)) : Factored :=
  let cols := cf.length
  let total := (kahanAll cf).value32
  let sh := cf.map (fun c => if total = 0 then one32 else div32 (mul32 c (arith binary32 false (valOfInt cols))) total)
  let rows := (List.zip rf (List.zip w g)).map (fun x => factoredRow k sh x.1 x.2.1 x.2.2)
  let sums := (foldGroups cols (rows.map (fun r => r.2.2))).map (fun h => to32 (val64 h))
  let cf' := List.zipWith (fun c (t : Conv) =>
    add32 (mul32 k.l.b2 c) (mul32 k.ob2 (overCount t.code rows.length))) cf sums
  Factored.mk (rows.map (fun r => r.1)) (rows.map (fun r => r.2.1)) cf' (Tally.ofConvs sums)

/-! ## PRECOND (R169) -/

/-- A product of matrices as the Gusset forms it: exact products summed in binary64, then binary32. DESIGN CHOICE (log 94):
these conversions and those of R170 to R172 count in no core's NUMERIC counters, for the manual names no core for the
Gusset; those of R166 and R167 count as a core's conversions do. -/
def gussetMul (n : Nat) (a b : List (List Nat)) : List (List Nat) :=
  let bt := transpose 0 n b
  a.map (fun r => bt.map (fun c =>
    (to32 (val64 ((List.zipWith (fun x y => mul64 (widen x) (widen y)) r c).foldl add64 0))).code))

/-- The identity of order n. -/
def identity32 (n : Nat) : List (List Nat) :=
  (List.range n).map (fun i => (List.range n).map (fun j => if i = j then one32 else 0))

/-- A block of the grid: first row and column, rows and columns. -/
structure Block where
  k0 : Nat
  n0 : Nat
  bk : Nat
  bn : Nat
  deriving DecidableEq, Repr

/-- Logical K × N of a descriptor. -/
def PDesc.logical (p : PDesc) : Nat × Nat := if p.orient then (p.colsN, p.rowsN) else (p.rowsN, p.colsN)

/-- The grid in row-major order. -/
def PDesc.grid (p : PDesc) : List Block :=
  let (k, n) := p.logical
  let b := max 1 p.blockSide
  (List.range (ceilDiv k b)).flatMap (fun i => (List.range (ceilDiv n b)).map (fun j =>
    Block.mk (i * b) (j * b) (min b (k - i * b)) (min b (n - j * b))))

/-- Bytes of a block's two matrices. -/
def Block.bytes (b : Block) : Nat := 4 * (b.bk * b.bk + b.bn * b.bn)

/-- Bytes of the matrices of a grid. -/
def gridBytes (g : List Block) : Nat := (g.map Block.bytes).foldl (· + ·) 0

/-- Bytes of an epoch of the statistics region (R169): rounded up to a multiple of 64 (DEDUCED, log 39). -/
def statsBytes (g : List Block) : Nat := ceilDiv (gridBytes g) 64 * 64
/-- Bytes of an epoch of the root region, its block status table at the end (R169; DEDUCED, log 39). -/
def rootBytes (g : List Block) : Nat := ceilDiv (gridBytes g + 16 * g.length) 64 * 64

/-- Cut binary32 codes into a square matrix. -/
def square (n : Nat) (xs : List Nat) : List (List Nat) := groupsOf n n xs

/-- The matrices of a grid from the bytes of an epoch: left and right of each block. -/
def gridMats : List Block → Bytes → List (List (List Nat) × List (List Nat))
  | [], _ => []
  | b :: g, bs =>
    let l := 4 * b.bk * b.bk
    (square b.bk (chunk 4 (b.bk * b.bk) bs), square b.bn (chunk 4 (b.bn * b.bn) (bs.drop l))) ::
      gridMats g (bs.drop b.bytes)

/-- The bytes of the matrices of a grid. -/
def matsBytes (ms : List (List (List Nat) × List (List Nat))) : Bytes :=
  ms.flatMap (fun m => bytes32 m.1.flatten ++ bytes32 m.2.flatten)

/-- A block status entry (R169). -/
structure BlockStatus where
  left : Bool
  right : Bool
  leftFalls : Nat
  rightFalls : Nat
  count : Nat
  deriving DecidableEq, Repr

/-- The table from its bytes. -/
def statusTable (n : Nat) (bs : Bytes) : List BlockStatus :=
  (List.range n).map (fun i =>
    let b := bs.drop (16 * i)
    BlockStatus.mk ((fieldOf b 0 1).testBit 0) ((fieldOf b 0 1).testBit 1) (fieldOf b 4 4) (fieldOf b 8 4)
      (fieldOf b 0x0C 4))

/-- Its bytes. -/
def BlockStatus.bytes (b : BlockStatus) : Bytes :=
  leBytes 4 (b.left.toNat + 2 * b.right.toNat) ++ leBytes 4 b.leftFalls ++ leBytes 4 b.rightFalls ++
  leBytes 4 b.count

/-- The part of a matrix that a block covers. -/
def Block.cut (b : Block) (m : List (List Nat)) : List (List Nat) :=
  ((m.drop b.k0).take b.bk).map (fun r => (r.drop b.n0).take b.bn)

/-- Statistics after a gradient: BETA2 × old + ob2 × new, entry by entry. -/
def mixStats (k : RuleVals) (old new : List (List Nat)) : List (List Nat) :=
  List.zipWith (List.zipWith (fun a b => add32 (mul32 k.l.b2 a) (mul32 k.ob2 b))) old new

/-- What one block of PRECOND comes to. -/
structure BlockOut where
  p : List (List Nat)
  stats : List (List Nat) × List (List Nat)
  checks : List GussetCheck
  deriving Repr

/-- One block of PRECOND: P, the new statistics, and the checksums of its products (R372). -/
def precondBlock (k : RuleVals) (b : Block) (st : List (List Nat) × List (List Nat))
    (roots : List (List Nat) × List (List Nat)) (v : BlockStatus) (g : List (List Nat)) : BlockOut :=
  let ql := if v.left then roots.1 else identity32 b.bk
  let qr := if v.right then roots.2 else identity32 b.bn
  let gt := transpose 0 b.bn g
  let t := gussetMul b.bn ql g
  BlockOut.mk (gussetMul b.bn t qr)
    (mixStats k st.1 (gussetMul b.bk g gt), mixStats k st.2 (gussetMul b.bn gt g))
    (gussetChecks ql g ++ gussetChecks t qr ++ gussetChecks g gt ++ gussetChecks gt g)

/-- The element of a logical matrix that blocks make up. -/
def gridElem (g : List Block) (ps : List (List (List Nat))) (i j : Nat) : Nat :=
  match (List.zip g ps).find? (fun x => decide (x.1.k0 ≤ i ∧ i < x.1.k0 + x.1.bk ∧ x.1.n0 ≤ j ∧ j < x.1.n0 + x.1.bn)) with
  | some x => (x.2.getD (i - x.1.k0) []).getD (j - x.1.n0) 0
  | none => 0

/-- The element rule of PRECOND. -/
def precondElem (k : RuleVals) (x : Elem) (p : Nat) : Elem :=
  let m := add32 (mul32 k.l.b1 x.m) p
  { x with w := stepBack k.l.lr x.w (add32 m (mul32 k.l.wd x.w)), m := m }

/-- The Gusset units that a command of a context needs (R237): those of the sleeves of its placed cores, present and
ready. -/
def State.gussetIssues (s : State) (ctx : Nat) : List Status :=
  let ks := sleevesOf (s.placed ctx)
  if !ks.all (fun k => s.caps.gusset.getLsbD k) then [Status.unitAbsent]
  else if !ks.all (fun k => s.ready.sleeves.getLsbD k) then [Status.notReady] else []

/-- Charge a fault to a Gusset (R372): the first is retried, the second retires it. -/
def chargeGusset (c : Charged) (k : Nat) : Charged :=
  if c.stop || !c.s.caps.gusset.getLsbD k then c else
  let v := c.s.sleeve k
  let n := match v.gussetCharge with
    | some (x, q, n) => if x = c.e.ctx ∧ q = c.e.seq then n else 0
    | none => 0
  let s := c.s.count (.cache k 9) 1
  let e : Entry := { c.e with faulted := true, energy := { c.e.energy with reexecuted := true } }
  if n = 0 then
    let s := s.traceFault .gusset 0 (.sleeve k) e.ctx e.seq
    Charged.mk (s.setSleeve k { s.sleeve k with gussetCharge := some (e.ctx, e.seq, 1) })
      { e with notes := e.notes ++ [Status.faultRetried] } false
  else
    let s := (s.traceFault .gusset 1 (.sleeve k) e.ctx e.seq).retireGusset k
    Charged.mk (s.setSleeve k { s.sleeve k with gussetCharge := none }) e true

/-- Charge Gusset faults to a command (R372); whether a Gusset that it needs retired. -/
def State.chargeGussets (s : State) (e : Entry) (faults : List Nat) : Charged :=
  faults.foldl chargeGusset (Charged.mk s e false)

/-! ## UPDATE -/

/-- Where the gradient of an UPDATE comes from, opened (R160). -/
structure GradIn where
  wait : Bool
  issues : List Status
  buf : Option PairBuf
  /-- g values of a round, in element order, and the buffers that RY_OWN read for them. -/
  round : Option (List W32)
  reads : List Run
  deriving Repr

/-- The members of the chain of an entry whose CHAIN packet an entry names: whether its producer is RY_OWN. -/
def State.roundMember (s : State) (e : Entry) : Option Nat :=
  match e.member, s.chainOf e with
  | some m, some c =>
    let own := s.journal.entries.any (fun x => x.ctx == e.ctx && x.chain == e.chain && x.member == some 0 &&
      x.op == some .ryOwn)
    if own && decide (c.stages = 2 ∧ 1 ≤ m) then some (m - 1) else none
  | _, _ => none

/-- Open the gradient source. -/
def State.openGrad (s : State) (e : Entry) (p : PDesc) (round : Bool) (use : Nat → Bool := fun _ => true) : GradIn :=
  if round then
    match s.roundMember e, s.chainOf e with
    | some i, some c =>
      let g := c.gvals.getD i []
      GradIn.mk false (need (decide (e.field 0x20 8 = 0 ∧ g.length = p.rowsN * p.colsN))) none (some g) c.greads
    | _, _ => GradIn.mk false [Status.malformed] none none []
  else
    let o := s.openDesc (s.envOf e) false (e.field 0x20 8)
    let bad := o.check (fun d _ => decide (d.kind = 1 ∧ d.rows = p.rowsN ∧ d.cols = p.colsN) && !d.handover &&
      d.orient == p.orient)
    if !bad.isEmpty then GradIn.mk false bad none none [] else
    let b := s.openBuffer e.ctx o.d false use
    let w := match s.resolve e.ctx o.d.base 64 true with
      | .error st => [st]
      | .ok _ => []
    match b.2 with
    | none => GradIn.mk false (b.1 ++ w) none none []
    | some x => GradIn.mk (s.bufferWait e [x.head]) (b.1 ++ w ++ need (!x.foreign e.ctx)) (some x) none []

/-- The gradient, memory rows, before GSCALE. -/
def GradIn.vals (g : GradIn) (s : State) (p : PDesc) : List (List Nat) :=
  match g.buf, g.round with
  | some b, _ => (b.pairs s).map (fun r => r.map Pair.value32)
  | none, some r => groupsOf p.colsN p.rowsN (r.map BitVec.toNat)
  | none, none => []

/-- The clear of a consumed buffer (R173, R180). -/
def GradIn.clears (g : GradIn) (e : Entry) (keep : Bool) : List CommitItem :=
  match g.buf with
  | some b => if keep then [] else [b.clearItem e]
  | none => []

/-- Runs of the gradient that a command reads. -/
def GradIn.runs (g : GradIn) : List Run :=
  match g.buf with
  | some b => if b.h.cleared then [] else b.old.flatten
  | none => g.reads

/-- The regions of AUX1 and AUX2 that a rule reads and writes. -/
structure AuxIn where
  issues : List Status
  read1 : List Run
  write1 : List Run
  read2 : List Run
  deriving Repr

/-- Open them (R166, R169). -/
def State.openAux (s : State) (ctx : Nat) (p : PDesc) (rule : Nat) : AuxIn :=
  let e := p.stateEpoch.toNat
  if rule = 5 then
    let n := 4 * (p.rowsN + p.colsN)
    let r := if p.zeroState then ([], []) else s.runsOf ctx false [(p.aux1 + e * factorBytes p, n)]
    let w := s.runsOf ctx true [(p.aux1 + (1 - e) * factorBytes p, n)]
    AuxIn.mk (r.1 ++ w.1) r.2.flatten w.2.flatten []
  else if rule = 8 then
    let g := p.grid
    let r := if p.zeroState then ([], []) else s.runsOf ctx false [(p.aux1 + e * statsBytes g, gridBytes g)]
    let w := s.runsOf ctx true [(p.aux1 + (1 - e) * statsBytes g, gridBytes g)]
    let q := s.runsOf ctx false [(p.aux2 + p.rootEpoch.toNat * rootBytes g, gridBytes g + 16 * g.length)]
    AuxIn.mk (r.1 ++ w.1 ++ q.1) r.2.flatten w.2.flatten q.2.flatten
  else AuxIn.mk [] [] [] []

/-- The new state of a tensor: master rows, first moments, second moments, bytes of AUX1, counts. -/
structure NewState where
  w : List (List Nat)
  m : List (List Nat)
  v : List (List Nat)
  aux1 : Bytes
  tally : Tally
  /-- the checksums of its Gusset products (R372). -/
  checks : List GussetCheck := []
  deriving Repr

/-- Evaluate a rule over a tensor, `g` after GSCALE. -/
def evalRule (s : State) (p : PDesc) (rule : Nat) (k : RuleVals) (aux : AuxIn) (w m v g : List (List Nat)) : NewState :=
  let elems : List (List Elem) := List.zipWith (fun (ws : List Nat) (mv : List Nat × List Nat) =>
    List.zipWith (fun x (y : Nat × Nat) => Elem.mk x y.1 y.2) ws (List.zip mv.1 mv.2)) w (List.zip m v)
  let out := fun (es : List (List Elem)) (aux : Bytes) =>
    { w := es.map (fun r => r.map Elem.w), m := es.map (fun r => r.map Elem.m), v := es.map (fun r => r.map Elem.v),
      aux1 := aux, tally := Tally.zero : NewState }
  if rule = 5 then
    let bs := s.readRuns aux.read1
    let rf := if p.zeroState then List.replicate p.rowsN 0 else chunk 4 p.rowsN bs
    let cf := if p.zeroState then List.replicate p.colsN 0 else chunk 4 p.colsN (bs.drop (4 * p.rowsN))
    let f := factored k rf cf w g
    { w := f.w, m := m, v := v, aux1 := bytes32 f.rf ++ bytes32 f.cf, tally := f.tally }
  else if rule = 8 then
    let grid := p.grid
    let gl := if p.orient then transpose 0 p.colsN g else g
    let stats := gridMats grid (if p.zeroState then zeroBytes (gridBytes grid) else s.readRuns aux.read1)
    let rb := s.readRuns aux.read2
    let table := statusTable grid.length (rb.drop (gridBytes grid))
    let outs := (List.zip grid (List.zip stats (List.zip (gridMats grid rb) table))).map (fun x =>
      precondBlock k x.1 x.2.1 x.2.2.1 x.2.2.2 (x.1.cut gl))
    let ps := outs.map (fun o => o.p)
    let pm := (List.range p.rowsN).map (fun i => (List.range p.colsN).map (fun j =>
      if p.orient then gridElem grid ps j i else gridElem grid ps i j))
    { out (List.zipWith (List.zipWith (precondElem k)) elems pm) (matsBytes (outs.map (fun o => o.stats))) with
      checks := outs.flatMap (fun o => o.checks) }
  else out (List.zipWith (List.zipWith (ruleElem rule k)) elems g) []

/-- RESULT of UPDATE (R258). -/
def updateResult (rule tau bad : Nat) : W32 × Bool :=
  if rule = 7 then (BitVec.ofNat 32 (min bad 65535 + tau / 65536 * 65536), decide (65535 < bad))
  else resultCount bad

/-- The commit of an update (R173): the clear, then the descriptor with its new slot. -/
def Param.commit (x : Param) (e : Entry) (slot : Nat) (fmt : Format) (step : Nat) (before : List CommitItem) :
    List CommitItem :=
  let p := x.p
  let t := p.count + 1
  before ++ slotItems x.runs slot t (Format.code fmt) ++
  PDesc.items { p with
    stateEpoch := !p.stateEpoch, zeroState := false, count := t, lastStep := BitVec.ofNat 64 step
    lastSeq := e.seq, lastCtx := e.ctx, newest := slot } x.runs

/-- UPDATE once its descriptor and gradient stand ready and it is not frozen. -/
def updateRun (s : State) (e : Entry) (x : Param) (l : Literals) (g : GradIn) (rule : Nat) (sr keep : Bool)
    (issues : List Status) : Plan :=
  let p := x.p
  match s.copyFormat e.ctx p with
  | none => .refuse (issues ++ [Status.malformed])
  | some f =>
    if issues.contains Status.malformed then .fail issues else
    match s.takeSlot e x with
    | none => if issues.isEmpty then .hold Status.versionWait else .fail issues
    | some i =>
      let slot := p.slots.getD i (VSlot.parse [])
      let n := ruleNeeds rule
      let master := s.openState e.ctx p p.master true
      let m1 := if n.1 then s.openState e.ctx p p.mom1 (!p.zeroState) else StateTensor.mk [] [] []
      let m2 := if n.2.1 then s.openState e.ctx p p.mom2 (!p.zeroState) else StateTensor.mk [] [] []
      let aux := s.openAux e.ctx p rule
      let rec_ := if rule = 7 then s.runsOf e.ctx false [(l.norm, 32)] else ([], [])
      let nOut := if l.normOut = 0 then ([], []) else s.runsOf e.ctx true [(l.normOut, 8)]
      let copy := s.runsOf e.ctx true ((List.range p.rowsN).map (fun r => (slot.base + r * slot.pitch, rowBytes f p.colsN)))
      let pitchOk := if slot.pitch < rowBytes f p.colsN then [Status.outOfBounds] else []
      let reads := master.old.flatten ++ m1.old.flatten ++ m2.old.flatten ++ aux.read1 ++ aux.read2 ++ g.runs ++
        rec_.2.flatten
      let outs := master.new.flatten ++ m1.new.flatten ++ m2.new.flatten ++ aux.write1 ++ nOut.2.flatten ++
        copy.2.flatten
      let seals := s.sealIssues e.ctx reads outs (s.structRuns e)
      planOf (issues ++ pitchOk ++ master.issues ++ m1.issues ++ m2.issues ++ aux.issues ++ rec_.1 ++ nOut.1 ++ copy.1 ++ seals)
        (fun _ =>
          let t := (p.count + 1).toNat
          let tau := if rule = 7 then trustRatio l (s.readRuns rec_.2.flatten) else (one32, Tally.zero)
          let k := RuleVals.at l t tau.1
          let gs := (g.vals s p).map (fun r => r.map (fun y => mul32 y l.gscale))
          let ns := evalRule s p rule k aux (master.vals s p.rowsN p.colsN) (m1.vals s p.rowsN p.colsN)
            (m2.vals s p.rowsN p.colsN) gs
          let c := copyRows p f sr l.step (s.ctx e.ctx).step (ns.w.zipIdx.map (fun r => (r.2, r.1)))
          let r := updateResult rule tau.1 (notFinite ns.w)
          { Delta.none with
            result := r.1, sat := r.2
            writes := rowWrites32 master.new ns.w ++ rowWrites32 m1.new ns.m ++ rowWrites32 m2.new ns.v ++
              splitRuns aux.write1 ns.aux1 ++ (List.zipWith splitRuns copy.2 c.rows).flatten ++
              splitRuns nOut.2.flatten (leBytes 8 (sumSquares ns.w))
            commit := x.commit e i f l.step (g.clears e keep)
            counts := tallyCounts (s.countCore e.ctx) ((c.tally.add ns.tally).add tau.2)
            slot := slotByte p x.runs i
            gussets := ns.checks
            stats := copyStats p f (s.anySealed copy.2.flatten) c.stat })

/-- What R159, R163 and R166-R169 say of a rule on a descriptor. -/
def ruleIssues (p : PDesc) (rule : Nat) (l : Literals) (rows : Bool) : List Status :=
  let n := ruleNeeds rule
  need (decide (rule ≤ 8) && p.rowsOnly == rows && decide (p.master ≠ 0) && (!n.1 || decide (p.mom1 ≠ 0)) &&
    (!n.2.1 || decide (p.mom2 ≠ 0)) && (!n.2.2.1 || decide (p.aux1 ≠ 0)) && (!n.2.2.2 || decide (p.aux2 ≠ 0)) &&
    (!(rule == 5) || (decide (2 ≤ p.rowsN ∧ 2 ≤ p.colsN ∧ p.colsN ≤ 65536) && !(flt binary32 l.eps 1 && !flt binary32 0 l.eps))) &&
    (!(rule == 7) || decide (l.norm ≠ 0)) && (!(rule == 8) || decide (p.blockSide ≠ 0)) &&
    !(rows && (rule == 5 || rule == 7 || rule == 8 || p.aux1 == 0)) &&
    decide (p.lastStep.toNat < l.step))

/-- UPDATE (R160-R174, R180). DESIGN CHOICE (log 95): a frozen descriptor whose GOV is 1 and which no ladder governs gives
SKIPPED_FROZEN (R180), for it resolves no format; R136 would make it MALFORMED. UPDATE_ROWS does the same. -/
def updatePlan (s : State) (e : Entry) : Plan :=
  let rule := e.field 0x28 1 % 16
  let round := (e.field 0x28 1).testBit 4
  let sr := (e.field 0x28 1).testBit 5
  let keep := (e.field 0x28 1).testBit 6
  if s.formatWait e then .wait
  else if !(e.clean [(0x10, 0, 64), (0x18, 0, 64), (0x20, 0, 64), (0x28, 0, 7)] && decide (rule ≤ 8) &&
      decide (e.field 0x10 8 ≠ 0 ∧ e.field 0x18 8 ≠ 0) && (round || decide (e.field 0x20 8 ≠ 0))) then
    .fail [Status.malformed]
  else
  let units := s.coreIssues e.ctx ++ (if rule = 8 then s.gussetIssues e.ctx else [])
  match s.openParam e.ctx (e.field 0x10 8) with
  | .error st => .fail (st :: units)
  | .ok x =>
    if s.paramWait e x.pa then .wait else
    let l := s.literals e
    let g := s.openGrad e x.p round
    if g.wait then .wait else
    let issues := l.1 ++ x.issues e.ctx ++ ruleIssues x.p rule l.2 false ++ g.issues ++ units
    if x.p.frozen then
      planOf (issues ++ s.sealIssues e.ctx [] [] (s.structRuns e)) (fun _ =>
        { Delta.none with notes := [Status.skippedFrozen], commit := g.clears e keep })
    else updateRun s e x l.2 g rule sr keep issues

/-! ## UPDATE_ROWS (R181-R183) -/

/-- A row header (R181). -/
structure RowHead where
  step : Nat
  n : Nat
  epoch : Nat
  deriving DecidableEq, Repr

/-- The header in 16 bytes. -/
def RowHead.parse (b : Bytes) : RowHead :=
  RowHead.mk (fieldOf b 0 8) (fieldOf b 8 4) (bitsOf (fieldOf b 0x0C 1) 0 1)

/-- Its bytes. -/
def RowHead.bytes (h : RowHead) : Bytes := leBytes 8 h.step ++ leBytes 4 h.n ++ leBytes 4 h.epoch

/-- A row extent in an epoch. -/
def PDesc.rowAt (p : PDesc) (base i epoch : Nat) : Nat × Nat :=
  (base + epoch * p.epochBytes + i * p.statePitch, 4 * p.colsN)

/-- The lazy decay of a row's moments (R182). -/
def lazyDecay (rule : Nat) (l : Literals) (k : Nat) (m v : List Nat) : List Nat × List Nat :=
  if k = 0 then (m, v) else
  let b := if rule = 6 then l.b2 else l.b1
  (m.map (fun x => mul32 (pow32 b k) x), v.map (fun x => mul32 (pow32 l.b2 k) x))

/-- The update of a touched row: its new master and moments. -/
def touchRow (rule : Nat) (l : Literals) (h : RowHead) (w m v g : List Nat) : List Elem :=
  let k := if h.n = 0 then 0 else l.step - h.step - 1
  let d := lazyDecay rule l k m v
  let vals := RuleVals.at l (h.n + 1) one32
  List.zipWith (ruleElem rule vals)
    (List.zipWith (fun x (y : Nat × Nat) => Elem.mk x y.1 y.2) w (List.zip d.1 d.2))
    (g.map (fun y => mul32 y l.gscale))

/-- The runs of a touched row that UPDATE_ROWS changes. -/
structure RowIO where
  i : Nat
  h : RowHead
  touched : Bool
  issues : List Status
  w : List Run
  m : List Run
  v : List Run
  wNew : List Run
  mNew : List Run
  vNew : List Run
  copy : List Run
  from_ : List Run
  deriving Repr

/-- One extent's runs, none for no extent. -/
def State.runs1 (s : State) (ctx : Nat) (write use : Bool) (x : Nat × Nat) : List Status × List Run :=
  if use then ((s.runsOf ctx write [x]).1, (s.runsOf ctx write [x]).2.flatten) else ([], [])

/-- Open a row: `same` says that the new copy has the format of the NEWEST version. -/
def State.openRow (s : State) (ctx : Nat) (p : PDesc) (rule step : Nat) (f : Format) (slot newest : VSlot) (same : Bool)
    (i : Nat) (h : RowHead) (touched : Bool) : RowIO :=
  let n := ruleNeeds rule
  let apply := touched && h.step != step
  let w := s.runs1 ctx false (touched || !same) (p.rowAt p.master i h.epoch)
  let m := s.runs1 ctx false (apply && n.1 && h.n != 0) (p.rowAt p.mom1 i h.epoch)
  let v := s.runs1 ctx false (apply && n.2.1 && h.n != 0) (p.rowAt p.mom2 i h.epoch)
  let w' := s.runs1 ctx true apply (p.rowAt p.master i (1 - h.epoch))
  let m' := s.runs1 ctx true (apply && n.1) (p.rowAt p.mom1 i (1 - h.epoch))
  let v' := s.runs1 ctx true (apply && n.2.1) (p.rowAt p.mom2 i (1 - h.epoch))
  let c := s.runs1 ctx true true (slot.base + i * slot.pitch, rowBytes f p.colsN)
  let o := s.runs1 ctx false (!touched && same) (newest.base + i * newest.pitch, rowBytes f p.colsN)
  RowIO.mk i h touched (w.1 ++ m.1 ++ v.1 ++ w'.1 ++ m'.1 ++ v'.1 ++ c.1 ++ o.1) w.2 m.2 v.2 w'.2 m'.2 v'.2 c.2 o.2

/-- What a row comes to: master row for the stored copy, or its bytes as they are; state writes; header. -/
structure RowOut where
  master : Option (List Nat)
  raw : Bytes
  writes : List (Nat × Bytes)
  head : Option RowHead
  deriving Repr

/-- Work one row. DESIGN CHOICE (log 98): the row count n_r goes on at 0 after 2³² − 1; the manual gives it 32 bits. -/
def RowIO.run (r : RowIO) (s : State) (p : PDesc) (rule : Nat) (l : Literals) (g : List Nat) : RowOut :=
  let read := fun (rs : List Run) => if rs.isEmpty then List.replicate p.colsN 0 else chunk 4 p.colsN (s.readRuns rs)
  if !r.touched && !r.from_.isEmpty then RowOut.mk none (s.readRuns r.from_) [] none
  else if !r.touched || r.h.step = l.step then RowOut.mk (some (read r.w)) [] [] none
  else
    let es := touchRow rule l r.h (read r.w) (read r.m) (read r.v) g
    let ws := es.map Elem.w
    RowOut.mk (some ws) []
      (splitRuns r.wNew (bytes32 ws) ++ splitRuns r.mNew (bytes32 (es.map Elem.m)) ++
        splitRuns r.vNew (bytes32 (es.map Elem.v)))
      (some (RowHead.mk l.step ((r.h.n + 1) % 2 ^ 32) (1 - r.h.epoch)))

/-- Commit items of zeros over some runs. -/
def zeroItems (rs : List Run) : List CommitItem := rs.map (fun r => .write r.1 (zeroBytes r.2))

/-- UPDATE_ROWS once its descriptor and gradient stand ready and it is not frozen. -/
def updateRowsRun (s : State) (e : Entry) (x : Param) (l : Literals) (g : GradIn) (rule : Nat) (sr keep : Bool)
    (bits : List Run) (issues : List Status) : Plan :=
  let p := x.p
  match s.copyFormat e.ctx p with
  | none => .refuse (issues ++ [Status.malformed])
  | some f =>
    if issues.contains Status.malformed then .fail issues else
    match s.takeSlot e x with
    | none => if issues.isEmpty then .hold Status.versionWait else .fail issues
    | some i =>
      let slot := p.slots.getD i (VSlot.parse [])
      let newest := p.slots.getD p.newest (VSlot.parse [])
      let same := decide (newest.fmt = Format.code f)
      let heads := s.runsOf e.ctx true [(p.aux1, 16 * p.rowsN)]
      let hb := s.readRuns heads.2.flatten
      let mask := unpackBits 1 p.rowsN (s.readRuns bits)
      let rows := if !heads.1.isEmpty then [] else (List.range p.rowsN).map (fun j =>
        s.openRow e.ctx p rule l.step f slot newest same j (RowHead.parse (hb.drop (16 * j))) (mask.getD j 0 != 0))
      let pitchOk := if slot.pitch < rowBytes f p.colsN then [Status.outOfBounds] else []
      let reads := g.runs ++ rows.flatMap (fun r => r.w ++ r.m ++ r.v ++ r.from_)
      let outs := rows.flatMap (fun r => r.wNew ++ r.mNew ++ r.vNew ++ r.copy)
      let seals := s.sealIssues e.ctx reads outs (heads.2.flatten ++ bits ++ s.structRuns e)
      planOf (issues ++ pitchOk ++ heads.1 ++ rows.flatMap (fun r => r.issues) ++ seals) (fun _ =>
        let gs := g.vals s p
        let outs := rows.map (fun r => (r, r.run s p rule l (gs.getD r.i [])))
        let conv := outs.filterMap (fun o => o.2.master.map (fun w => (o.1.i, w)))
        let c := copyRows p f sr l.step (s.ctx e.ctx).step conv
        let copies := (List.zip conv c.rows).map (fun y => (y.1.1, y.2))
        let copyWrites := outs.flatMap (fun o =>
          splitRuns o.1.copy (match copies.find? (fun y => y.1 == o.1.i) with
            | some y => y.2
            | none => o.2.raw))
        let headWrites := fun (o : RowIO × RowOut) => match o.2.head with
          | some h => writesAt heads.2.flatten (16 * o.1.i) h.bytes
          | none => []
        let applied := (outs.filter (fun o => o.2.head.isSome)).length
        { Delta.none with
          result := (resultCount applied).1, sat := (resultCount applied).2
          writes := copyWrites
          steps := outs.filterMap (fun o => if o.2.head.isSome then some (o.1.i, o.2.writes ++ headWrites o) else none)
          commit := x.commit e i f l.step (g.clears e keep ++ zeroItems bits)
          counts := tallyCounts (s.countCore e.ctx) c.tally
          slot := slotByte p x.runs i
          stats := if conv.isEmpty && !s.anySealed (outs.flatMap (fun o => o.1.copy)) then [] else copyStats p f (s.anySealed (outs.flatMap (fun o => o.1.copy))) c.stat })

/-- UPDATE_ROWS (R181-R183, R180). -/
def updateRowsPlan (s : State) (e : Entry) : Plan :=
  let rule := e.field 0x30 1 % 16
  let sr := (e.field 0x30 1).testBit 5
  let keep := (e.field 0x30 1).testBit 6
  if s.formatWait e then .wait
  else if !(e.clean [(0x10, 0, 64), (0x18, 0, 64), (0x20, 0, 64), (0x28, 0, 64), (0x30, 0, 4), (0x30, 5, 2)] &&
      decide (rule ≤ 8) && decide (e.field 0x10 8 ≠ 0 ∧ e.field 0x18 8 ≠ 0 ∧ e.field 0x20 8 ≠ 0 ∧ e.field 0x28 8 ≠ 0)) then
    .fail [Status.malformed]
  else
  match s.openParam e.ctx (e.field 0x10 8) with
  | .error st => .fail (st :: s.coreIssues e.ctx)
  | .ok x =>
    if s.paramWait e x.pa then .wait else
    let l := s.literals e
    let bits := s.runsOf e.ctx true [(e.field 0x28 8, (x.p.rowsN + 7) / 8)]
    let g := s.openGrad e x.p false (leNat (s.readRuns bits.2.flatten)).testBit
    if g.wait then .wait else
    let issues := l.1 ++ x.issues e.ctx ++ ruleIssues x.p rule l.2 true ++ g.issues ++ bits.1 ++ s.coreIssues e.ctx
    if x.p.frozen then
      planOf (issues ++ s.sealIssues e.ctx [] [] (s.structRuns e)) (fun _ =>
        { Delta.none with
          notes := [Status.skippedFrozen]
          commit := g.clears e keep ++ (if keep then [] else zeroItems bits.2.flatten) })
    else updateRowsRun s e x l.2 g rule sr keep bits.2.flatten issues

/-! ## PRECOND_FACTOR (R170-R172) -/

/-- The state of a Cholesky factorisation by columns: columns done, in order, and the pivots. -/
structure Chol where
  cols : List (List Nat)
  pivots : List Nat
  deriving Repr

/-- Σ of products of two rows of the factor so far, in binary64, ascending. -/
def cholSum (cols : List (List Nat)) (i j : Nat) : Nat :=
  cols.foldl (fun a c => add64 a (mul64 (widen (c.getD i 0)) (widen (c.getD j 0)))) 0

/-- One column (R170 step 3). -/
def cholColumn (a : List (List Nat)) (n : Nat) (c : Chol) (j : Nat) : Chol :=
  let at_ := fun (i k : Nat) => widen ((a.getD i []).getD k 0)
  let d := sub64 (at_ j j) (cholSum c.cols j j)
  let ljj := (to32 (val64 (sqrt64 d))).code
  let col := (List.range n).map (fun i =>
    if i < j then 0 else if i = j then ljj
    else (to32 (val64 (div64 (sub64 (at_ i j) (cholSum c.cols i j)) (widen ljj)))).code)
  Chol.mk (c.cols ++ [col]) (c.pivots ++ [d])

/-- A = S + λ × I. -/
def damped (st : List (List Nat)) (damp : Nat) : List (List Nat) :=
  st.zipIdx.map (fun r => r.1.zipIdx.map (fun c => if r.2 = c.2 then add32 c.1 damp else c.1))

/-- a ≥ b in a format; false with a NaN. -/
def fge (f : FloatFmt) (a b : Nat) : Bool := (floatVal f b).le (floatVal f a)

/-- The test of R170. -/
def sidePasses (a : List (List Nat)) (n eps : Nat) : Bool :=
  let tr := (List.range n).foldl (fun t i => add64 t (widen ((a.getD i []).getD i 0))) 0
  let c := (List.range n).foldl (cholColumn a n) (Chol.mk [] [])
  let bound := div64 (mul64 (widen eps) tr) (arith binary64 false (valOfInt n))
  flt binary64 0 tr && c.pivots.all (fun d => flt binary64 0 d && fge binary64 d bound)

/-- A Newton iteration at work: X, M, and the checksums of its products so far (R172, R372). -/
structure Newton where
  x : List (List Nat)
  m : List (List Nat)
  checks : List GussetCheck
  deriving Repr

/-- One Newton step (R172). -/
def newtonStep (z n : Nat) (x : Newton) : Newton :=
  let zv := arith binary32 false (valOfInt z)
  let z1 := arith binary32 false (valOfInt (z + 1))
  let t := x.m.zipIdx.map (fun r => r.1.zipIdx.map (fun c =>
    div32 (sub32 (if r.2 = c.2 then z1 else 0) c.1) zv))
  let t2 := gussetMul n t t
  let tz := if z = 2 then t2 else gussetMul n t2 t2
  Newton.mk (gussetMul n x.x t) (gussetMul n tz x.m)
    (x.checks ++ gussetChecks x.x t ++ gussetChecks t t ++ (if z = 2 then [] else gussetChecks t2 t2) ++ gussetChecks tz x.m)

/-- Iterate a function. -/
def iter {α : Type} (f : α → α) : Nat → α → α
  | 0, x => x
  | n + 1, x => iter f n (f x)

/-- The root of a side that passes (R172). -/
def newtonRoot (a : List (List Nat)) (n z nit : Nat) : Newton :=
  let f := sqrt64 (a.flatten.foldl (fun t v => add64 t (mul64 (widen v) (widen v))) 0)
  let alpha := if z = 2 then sqrt64 f else sqrt64 (sqrt64 f)
  let d := (to32 (val64 (div64 (widen one32) alpha))).code
  let x := (identity32 n).map (fun r => r.map (fun v => if v = 0 then 0 else d))
  let m := a.map (fun r => r.map (fun v => (to32 (val64 (div64 (widen v) f))).code))
  iter (newtonStep z n) nit (Newton.mk x m [])

/-- What one side comes to (R170-R172). -/
structure SideOut where
  root : List (List Nat)
  passed : Bool
  checks : List GussetCheck
  deriving Repr

/-- One side (R170-R172): its new root where it passes, else the committed one. -/
def factorSide (st root : List (List Nat)) (n damp eps z nit : Nat) : SideOut :=
  let a := damped st damp
  if sidePasses a n eps then
    let r := newtonRoot a n z nit
    SideOut.mk r.x true r.checks
  else SideOut.mk root false []

/-- The entry of the block status table after both sides (R171, R172). DESIGN CHOICE (log 98): FACTOR_COUNT holds COUNT modulo
2³², and a side's fallback count goes on at 0 after 2³² − 1; the manual gives both fields 32 bits and says nothing of more. -/
def BlockStatus.after (b : BlockStatus) (l r : SideOut) (count : W64) : BlockStatus :=
  BlockStatus.mk (b.left || l.passed) (b.right || r.passed)
    (if l.passed then b.leftFalls else (b.leftFalls + 1) % 2 ^ 32)
    (if r.passed then b.rightFalls else (b.rightFalls + 1) % 2 ^ 32)
    (if l.passed || r.passed then count.toNat % 2 ^ 32 else b.count)

/-- PRECOND_FACTOR (R170-R173, R180). -/
def precondPlan (s : State) (e : Entry) : Plan :=
  let damp := e.field 0x18 4
  let eps := e.field 0x1C 4
  let z := e.field 0x20 1 % 8
  let nit := e.field 0x21 1 % 128
  if !(e.clean [(0x10, 0, 64), (0x18, 0, 32), (0x1C, 0, 32), (0x20, 0, 3), (0x21, 0, 7)] && fge binary32 damp 0 &&
      flt binary32 0 eps && decide (z = 2 ∨ z = 4) && decide (1 ≤ nit ∧ nit ≤ 64)) then .fail [Status.malformed]
  else
  let units := s.coreIssues e.ctx ++ s.gussetIssues e.ctx
  match s.openParam e.ctx (e.field 0x10 8) with
  | .error st => .fail (st :: units)
  | .ok x =>
    if s.paramWait e x.pa then .wait else
    let p := x.p
    let issues := x.issues e.ctx ++ need (decide (p.master ≠ 0 ∧ p.blockSide ≠ 0 ∧ p.aux1 ≠ 0 ∧ p.aux2 ≠ 0)) ++ units
    if issues.contains Status.malformed then .fail issues else
    if p.frozen then planOf issues (fun _ => { Delta.none with notes := [Status.skippedFrozen] }) else
    let g := p.grid
    let n := gridBytes g + 16 * g.length
    let st := if p.zeroState then ([], []) else
      s.runsOf e.ctx false [(p.aux1 + p.stateEpoch.toNat * statsBytes g, gridBytes g)]
    let old := s.runsOf e.ctx false [(p.aux2 + p.rootEpoch.toNat * rootBytes g, n)]
    let new := s.runsOf e.ctx true [(p.aux2 + (1 - p.rootEpoch.toNat) * rootBytes g, n)]
    let seals := s.sealIssues e.ctx (st.2.flatten ++ old.2.flatten) new.2.flatten (s.structRuns e)
    planOf (issues ++ st.1 ++ old.1 ++ new.1 ++ seals) (fun _ =>
      let stats := gridMats g (if p.zeroState then zeroBytes (gridBytes g) else s.readRuns st.2.flatten)
      let ob := s.readRuns old.2.flatten
      let table := statusTable g.length (ob.drop (gridBytes g))
      let outs := (List.zip g (List.zip stats (List.zip (gridMats g ob) table))).map (fun y =>
        (factorSide y.2.1.1 y.2.2.1.1 y.1.bk damp eps z nit, factorSide y.2.1.2 y.2.2.1.2 y.1.bn damp eps z nit,
          y.2.2.2))
      let status := outs.map (fun o => o.2.2.after o.1 o.2.1 p.count)
      let failed := (outs.map (fun o => (!o.1.passed).toNat + (!o.2.1.passed).toNat)).foldl (· + ·) 0
      { Delta.none with
        notes := if failed = 0 then [] else [Status.fallbackPrecond]
        result := (resultCount failed).1, sat := (resultCount failed).2
        writes := splitRuns new.2.flatten
          (matsBytes (outs.map (fun o => (o.1.root, o.2.1.root))) ++ status.flatMap BlockStatus.bytes)
        gussets := outs.flatMap (fun o => o.1.checks ++ o.2.1.checks)
        commit := PDesc.items { p with rootEpoch := !p.rootEpoch, lastSeq := e.seq, lastCtx := e.ctx } x.runs })

/-! ## VERSION_RELEASE (R179) -/

/-- VERSION_RELEASE. -/
def versionReleaseEff (s : State) (e : Entry) : Verdict :=
  if !e.clean [(0x10, 0, 64), (0x18, 0, 64), (0x20, 0, 16)] then .fail [Status.malformed] [] else
  match s.readVersion e (e.field 0x10 8) (BitVec.ofNat 64 (e.field 0x18 8)) with
  | .wait => .wait
  | .stop is => .fail is []
  | .slot _ r =>
    let seals := s.sealIssues e.ctx [] [] (s.structRuns e)
    if !seals.isEmpty then .fail seals [] else
    let held := s.retainedOf r
    let n := e.field 0x20 2
    let left := if n = 0 then 0 else held - min n held
    .done Status.ok (BitVec.ofNat 32 left) false (s.setRetained r left)

/-! ## The rows -/

/-- The Gussets whose checksums fail in a command's work (R372): those of the sleeves that it works in. -/
def State.gussetFails (s : State) (ctx : Nat) (d : Delta) (seen : List GussetFault) : List Nat :=
  (seen.filter (fun f => (sleevesOf (s.usable ctx)).contains f.sleeve &&
    (d.gussets[f.check]?).any (fun c => c.fails f.sum))).map (fun f => f.sleeve)

/-- Run a command with Gusset work: work whose checksum fails is discarded, before any of its cores is charged, and runs
again (R366, R372). -/
def State.runGusset (s : State) (op : Op) (ctx : Nat) (seq : W32) (faults : List CoreFault) (gussets : List GussetFault)
    (plan : State → Entry → Plan) : Host.Outcome State Fault Refusal :=
  match s.runnable op ctx seq with
  | none => .next s
  | some e =>
    if (s.brokenFor e).isSome || !s.producerDone e || !s.mayWork op e then s.runWork op ctx seq faults plan
    else match plan (s.viewFor e) e with
      | .done d =>
        let faulty := s.gussetFails ctx d gussets
        if faulty.isEmpty || !s.hasStarted op e || !s.commitRoom e d then s.runWork op ctx seq faults plan else
        let c := (s.bitErrors faults).chargeGussets e faulty
        if c.stop then .next ((c.s.markSlot d.slot 0).failWork c.e [Status.unitAbsent] d.overwrites)
        else .next (c.s.setEntry c.e)
      | _ => s.runWork op ctx seq faults plan

/-- UPDATE (R160). -/
def execUpdate (ctx : Nat) (seq : W32) (faults : List CoreFault) (gussetFaults : List GussetFault) (s : State) :
    Host.Outcome State Fault Refusal :=
  s.runGusset .update ctx seq faults gussetFaults updatePlan

/-- UPDATE_ROWS (R182). -/
def execUpdateRows (ctx : Nat) (seq : W32) (faults : List CoreFault) (s : State) : Host.Outcome State Fault Refusal :=
  s.runWork .updateRows ctx seq faults updateRowsPlan

/-- PRECOND_FACTOR (R170). -/
def execPrecondFactor (ctx : Nat) (seq : W32) (faults : List CoreFault) (gussetFaults : List GussetFault) (s : State) :
    Host.Outcome State Fault Refusal :=
  s.runGusset .precondFactor ctx seq faults gussetFaults precondPlan

/-- VERSION_RELEASE (R179). -/
def execVersionRelease (ctx : Nat) (seq : W32) (s : State) : Host.Outcome State Fault Refusal :=
  s.runOp .versionRelease ctx seq versionReleaseEff

end Sys2Proof.Machine
end

