-- ==== Sys2Proof/Machine/Exchange.lean ====
section
/-!
DEFINITION. Sys2Proof/Machine/Exchange.lean: gradient exchange with Ryround (08): the round descriptor and its
shards (R184-R189), the ready phase (R190-R192), blocks and hops (R193-R195), forecasts (R196-R198), replay
(R199), the owner and norms (R201), backups (R202), the close (R203), and the parameter lap (R204, R205, R407).
-/
namespace Sys2Proof.Machine

/-! ## Descriptors (R189) -/

/-- A channel word. -/
def RyChan.parse (v : Nat) : RyChan := RyChan.mk (bitsOf v 0 2) (v.testBit 2) (bitsOf v 16 16)

/-- A round descriptor in 128 bytes. A non-zero bit outside every field of the table counts as a reserved bit that is not
zero, of which the manual speaks for 0x60-0x7F and the channel words (DESIGN CHOICE, log 98). -/
def RyDesc.parse (b : Bytes) : RyDesc where
  group := bitsOf (fieldOf b 0 1) 0 4
  vc := bitsOf (fieldOf b 0 1) 4 4
  size := bitsOf (fieldOf b 2 2) 0 11
  position := bitsOf (fieldOf b 4 2) 0 10
  guard := (fun g => if g = 0 then 2 else g) (bitsOf (fieldOf b 6 1) 0 4)
  steps := bitsOf (fieldOf b 7 1) 0 7
  initExp := signedCode 8 (fieldOf b 8 1)
  listN := bitsOf (fieldOf b 0x0A 2) 0 12
  round := BitVec.ofNat 64 (fieldOf b 0x10 8)
  step := BitVec.ofNat 64 (fieldOf b 0x18 8)
  deadline := BitVec.ofNat 64 (fieldOf b 0x20 8)
  up := RyChan.parse (fieldOf b 0x28 4)
  down := RyChan.parse (fieldOf b 0x2C 4)
  backupIn := RyChan.parse (fieldOf b 0x30 4)
  backupOut := RyChan.parse (fieldOf b 0x34 4)
  backsPos := bitsOf (fieldOf b 0x38 2) 0 10
  list := fieldOf b 0x40 8
  forecast := fieldOf b 0x48 8
  work := fieldOf b 0x50 8
  record := fieldOf b 0x58 8
  resv := fieldOf b 1 1 != 0 || bitsOf (fieldOf b 2 2) 11 5 != 0 || bitsOf (fieldOf b 4 2) 10 6 != 0 ||
    bitsOf (fieldOf b 6 1) 4 4 != 0 || bitsOf (fieldOf b 7 1) 7 1 != 0 || fieldOf b 9 1 != 0 ||
    bitsOf (fieldOf b 0x0A 2) 12 4 != 0 || fieldOf b 0x0C 4 != 0 ||
    [0x28, 0x2C, 0x30, 0x34].any (fun o => bitsOf (fieldOf b o 4) 3 13 != 0) ||
    bitsOf (fieldOf b 0x38 2) 10 6 != 0 || (b.drop 0x3A).take 6 != zeroBytes 6 ||
    (b.drop 0x60).any (fun x => x != 0)

/-- The ranges of the fields. -/
def RyDesc.ok (d : RyDesc) : Bool :=
  !d.resv && decide (2 ≤ d.size ∧ d.size ≤ 1024 ∧ d.position < d.size ∧ 1 ≤ d.steps ∧ d.steps ≤ 64) &&
  decide (-126 ≤ d.initExp ∧ 1 ≤ d.listN ∧ d.list ≠ 0 ∧ d.forecast ≠ 0 ∧ d.record ≠ 0) &&
  d.up.valid && d.down.valid && (!d.backupOut.valid || decide (d.backsPos < d.size))

/-- An entry of the round list in 64 bytes. -/
def RyTensor.parse (b : Bytes) : RyTensor where
  buffer := fieldOf b 0x00 8
  backup := fieldOf b 0x08 8
  owner := fieldOf b 0x10 8
  replica := fieldOf b 0x18 8
  norm := fieldOf b 0x20 8
  normPart := fieldOf b 0x28 8
  rows := fieldOf b 0x30 4
  cols := fieldOf b 0x34 4
  resv := fieldOf b 0x38 8 != 0

/-! ## Shards and blocks (R185, R186) -/

/-- Blocks of a memory row. -/
def RyTensor.rowBlocks (t : RyTensor) : Nat := ceilDiv t.cols 32
/-- First row of shard `j` of `size`. -/
def RyTensor.lo (t : RyTensor) (size j : Nat) : Nat := j * t.rows / size
/-- Rows of a shard. -/
def RyTensor.shardRows (t : RyTensor) (size j : Nat) : Nat := t.lo size (j + 1) - t.lo size j
/-- Blocks of a shard. -/
def RyTensor.shardBlocks (t : RyTensor) (size j : Nat) : Nat := t.shardRows size j * t.rowBlocks
/-- Bytes of the first `n` blocks of a shard as binary32 g, padding removed (R201). -/
def RyTensor.valueBytes (t : RyTensor) (n : Nat) : Nat :=
  4 * (n / t.rowBlocks * t.cols + min t.cols (32 * (n % t.rowBlocks)))
/-- Blocks of a tensor. -/
def RyTensor.blocks (t : RyTensor) : Nat := t.rows * t.rowBlocks
/-- Block groups of a shard. -/
def RyTensor.shardGroups (t : RyTensor) (size j : Nat) : Nat := ceilDiv (t.shardBlocks size j) 64
/-- Block groups of a tensor. -/
def RyTensor.groups (t : RyTensor) (size : Nat) : Nat :=
  ((List.range size).map (t.shardGroups size)).foldl (· + ·) 0

/-- Blocks of the shard stream of shard `j`. -/
def shardCount (ts : List RyTensor) (size j : Nat) : Nat :=
  (ts.map (fun t => t.shardBlocks size j)).foldl (· + ·) 0

/-- A block: tensor, memory row, block of the row, and its index in the natural order of the round list. -/
structure RyAt where
  tensor : Nat
  row : Nat
  blk : Nat
  natural : Nat
  deriving DecidableEq, Repr

/-- The `n`-th block of a shard stream, tensors from number `i` on, `base` blocks before them. -/
def blockAt (size j : Nat) : List RyTensor → Nat → Nat → Nat → Option RyAt
  | [], _, _, _ => none
  | t :: ts, i, base, n =>
    if n < t.shardBlocks size j then
      let r := t.lo size j + n / t.rowBlocks
      some (RyAt.mk i r (n % t.rowBlocks) (base + r * t.rowBlocks + n % t.rowBlocks))
    else blockAt size j ts (i + 1) (base + t.blocks) (n - t.shardBlocks size j)

/-- The number of a block of a shard stream among the groups of the round: group index in the natural order,
tensors from number `i` on, `base` groups before them. -/
def groupAt (size j : Nat) : List RyTensor → Nat → Nat → Option Nat
  | [], _, _ => none
  | t :: ts, base, n =>
    if n < t.shardBlocks size j then
      some (base + ((List.range j).map (t.shardGroups size)).foldl (· + ·) 0 + n / 64)
    else groupAt size j ts (base + t.groups size) (n - t.shardBlocks size j)

/-- Blocks of a shard stream on this round. -/
def RyGroup.count (g : RyGroup) (j : Nat) : Nat := shardCount g.tensors g.d.size j
/-- A block of a shard stream on this round. -/
def RyGroup.block (g : RyGroup) (j n : Nat) : Option RyAt := blockAt g.d.size j g.tensors 0 0 n
/-- The shard that this position starts (R186). -/
def RyGroup.first (g : RyGroup) : Nat := (g.d.position + g.d.size - 1) % g.d.size
/-- The non-empty shards in the order in which they come from UP, the own shard last (R186). -/
def RyGroup.incoming (g : RyGroup) : List Nat :=
  ((List.range (g.d.size - 1)).map (fun i => (g.d.position + 2 * g.d.size - 2 - i) % g.d.size)).filter
    (fun j => g.count j != 0)
/-- The non-empty shards in the order in which a backup serves position `q` (DEDUCED, log 44: the order in
which that position adds them). -/
def RyGroup.serving (g : RyGroup) (q : Nat) : List Nat :=
  ((List.range g.d.size).map (fun i => (q + 2 * g.d.size - 1 - i) % g.d.size)).filter
    (fun j => g.count j != 0)
/-- q of a block (R197): SCALE − 127. -/
def RyGroup.scale (g : RyGroup) (natural : Nat) : Nat := (g.scales.getD natural 0).toNat
/-- Blocks of the round. -/
def blocksAll (ts : List RyTensor) : Nat := (ts.map RyTensor.blocks).foldl (· + ·) 0
/-- Block groups of the round. -/
def groupsAll (ts : List RyTensor) (size : Nat) : Nat := (ts.map (fun t => t.groups size)).foldl (· + ·) 0

/-! ## Wire blocks (R193) -/

/-- A YB16 or YB32 block. -/
structure YBlock where
  scale : Nat
  esc : Bool
  backup : Bool
  last : Bool
  sat : Bool
  resv : Bool
  seq : Nat
  lo : Nat
  hi : Nat
  ms : List Int
  deriving DecidableEq, Repr

/-- CHK_LO of some mantissas. -/
def chkLo (ms : List Int) : Nat := (ms.foldl (· + ·) 0 % 65536).toNat
/-- CHK_HI of some mantissas. -/
def chkHi (ms : List Int) : Nat :=
  ((ms.zipIdx.map (fun (m : Int × Nat) => ((m.2 : Int) + 1) * m.1)).foldl (· + ·) 0 % 65536).toNat

/-- A block from its bytes, if its length fits its header. -/
def YBlock.parse (b : Bytes) : Option YBlock :=
  let h := fieldOf b 0 8
  let esc := h.testBit 8
  let w := if esc then 4 else 2
  if b.length = 8 + 32 * w then
    some (YBlock.mk (bitsOf h 0 8) esc (h.testBit 9) (h.testBit 10) (h.testBit 11) (bitsOf h 12 4 != 0)
      (bitsOf h 16 16) (bitsOf h 32 16) (bitsOf h 48 16)
      ((chunk w 32 (b.drop 8)).map (signedCode (8 * w))))
  else none

/-- The bytes of a block. -/
def YBlock.bytes (y : YBlock) : Bytes :=
  let w := if y.esc then 4 else 2
  leBytes 8 (y.scale + 256 * y.esc.toNat + 512 * y.backup.toNat + 1024 * y.last.toNat + 2048 * y.sat.toNat +
    65536 * y.seq + 2 ^ 32 * y.lo + 2 ^ 48 * y.hi) ++ y.ms.flatMap (fun m => leBytes w (intCode (8 * w) m))

/-- The payload type of a block (R193). -/
def YBlock.type (y : YBlock) : Nat := if y.esc then 2 else 1

/-- A sum needs int32 (R195 step 3). -/
def wideSum (m : Int) : Bool := decide (m < -32768 ∨ 32767 < m)

/-- A block of some mantissas, its checksums formed. -/
def YBlock.of (scale seq : Nat) (esc backup last sat : Bool) (ms : List Int) : YBlock :=
  YBlock.mk scale esc backup last sat false (seq % 65536) (chkLo ms) (chkHi ms) ms

/-! ## Contributions (R194) -/

/-- A contribution to a block: 32 integers, contributions clamped, and those infinite or NaN. -/
structure Contrib where
  ms : List Int
  sat : Nat
  nonfinite : Nat
  deriving DecidableEq, Repr

/-- The largest contribution. -/
def ryMax : Int := 2 ^ 21 - 1

/-- One element at scale q: its integer, whether it was clamped, whether it was not finite. -/
def ryElem (q : Int) (p : Pair) : Int × Bool × Bool :=
  match (val32 p.sum).add (val32 p.comp) with
  | .nan => (0, false, true)
  | .inf neg => (if neg then -ryMax else ryMax, false, true)
  | .num neg m e =>
    let z := roundInt neg m (e - q)
    if z < -ryMax then (-ryMax, true, false) else if ryMax < z then (ryMax, true, false) else (z, false, false)

/-- The contribution of some pairs, padding 0. -/
def contribOf (q : Int) (ps : List Pair) : Contrib :=
  let xs := ps.map (ryElem q)
  Contrib.mk (xs.map (fun x => x.1) ++ List.replicate (32 - xs.length) 0)
    (xs.filter (fun x => x.2.1)).length (xs.filter (fun x => x.2.2)).length

/-- The contribution of a buffer's rows to a block; a cleared buffer, whose rows are not listed, gives zeros. -/
def State.contrib (s : State) (g : RyGroup) (rows : List (List (List Run))) (a : RyAt) : Contrib :=
  let t := g.tensors.getD a.tensor (RyTensor.parse [])
  let n := min 32 (t.cols - 32 * a.blk)
  let q := (g.scale a.natural : Int) - 127
  match (rows.getD a.tensor [])[a.row]? with
  | none => contribOf q (List.replicate n pairZero)
  | some rs => contribOf q (pairsOf (chunk 4 (2 * n) (s.readRuns (subRuns rs (256 * a.blk) (8 * n)))))

/-! ## Groups -/

/-- Replace a group. -/
def State.setGroup (s : State) (k : Nat) (g : RyGroup) : State := { s with groups := smSet s.groups k g }

/-- A command of a group's context, for which a packet moves (R353). -/
def RyGroup.for_ (g : RyGroup) (q : Option W32) : Option (Nat × W32) := q.map (fun x => (g.ctx, x))

/-- Send a Ryround packet on a channel of a group, in the sending direction, for the command `q` of its context. -/
def State.sendRy (s : State) (g : RyGroup) (q : Option W32) (c : RyChan) (type : Nat) (bs : Bytes) : State :=
  s.send c.port (Packet.mk .msg g.d.vc true c.ep type 0 0 0 bs) (g.for_ q)

/-- The command that takes the blocks of a shard: RY_OWN those of the own shard, else RY_HOP (R195, R201). -/
def RyGroup.taker (g : RyGroup) (j : Nat) : Option W32 := if j = g.d.position then g.own else g.hop

/-- A packet of a group has been dealt with for a command: the traffic since `s` is that command's (R353). -/
def State.meteredFor (s t : State) (who : Option (Nat × W32)) : State :=
  match who with
  | some x => s.metered t x.1 x.2
  | none => t

/-- The open group to which a port, a far endpoint and a virtual channel belong in a part that `chan` names. -/
def State.groupAt (s : State) (chan : RyDesc → RyChan) (p ep vc : Nat) : Option (Nat × RyGroup) :=
  s.groups.find? (fun (x : Nat × RyGroup) =>
    let c := chan x.2.d
    x.2.isOpen && x.2.d.vc == vc && c.valid && c.port == p && c.ep == ep)

/-- The payload of an acknowledgement of a block. -/
def ackBytes (j n : Nat) : Bytes := Config.ryPayload Config.ackType.toNat [j, n % 65536]

/-- Acknowledge a block to the position that sent it (R199). -/
def State.sendAck (s : State) (g : RyGroup) (j n : Nat) : State :=
  s.sendRy g (g.taker j) g.d.up Config.ackType.toNat (ackBytes j n)

/-- Keep the last 256 of some blocks (R199). -/
def lastBlocks {α : Type} (xs : List α) : List α := xs.drop (xs.length - 256)

/-- The payload of a ready token. -/
def tokenBytes (t : ReadyToken) : Bytes :=
  Config.ryPayload 3 [t.lap, t.digest.toNat, t.backups.toNat, t.missing.toNat, t.mismatch.toNat]

/-! ## The ready phase (R190-R192) -/

/-- Lap 1's token after this position: its digest checked, its state marked (R191). -/
def RyGroup.mark (g : RyGroup) (t : ReadyToken) : ReadyToken :=
  { t with
    backups := if g.settled = some 1 then t.backups ||| (1#1024 <<< g.d.position) else t.backups
    missing := t.missing || g.settled == some 2
    mismatch := t.mismatch || t.digest != g.digest }

/-- Pass a token on. -/
def State.passToken (s : State) (g : RyGroup) (t : ReadyToken) : State := s.sendRy g g.primary g.d.down 3 (tokenBytes t)

/-- Settle a position (R190): position 0 then starts lap 1, another passes on the token that waits. A position
that would be substituted without a WORK address ends its round, which was never opened (R202). -/
def State.settleAs (s : State) (k : Nat) (g : RyGroup) (how : Nat) : State :=
  if how = 1 ∧ g.d.work = 0 then s.setGroup k { g with isOpen := false } else
  let s := if how = 1 then s.count (.exchange 1) 1 else s
  let g := { g with settled := some how }
  if g.d.position = 0 then
    (s.setGroup k g).passToken g (g.mark (ReadyToken.mk 1 g.digest 0 false false))
  else
    match g.token with
    | none => s.setGroup k g
    | some t => (s.setGroup k { g with token := none }).passToken g (g.mark t)

/-- Settle at DEADLINE. -/
def State.settleLate (s : State) (k : Nat) (g : RyGroup) : State :=
  s.settleAs k g (if g.backupReady then 1 else 2)

/-- A ROUND trace record (R450). -/
def State.traceRound (s : State) (k event : Nat) (g : RyGroup) (seq : W32) (esc : Nat) : State :=
  s.traceRec 9 .collar g.ctx seq (event + 256 * k + 2 ^ 32 * esc)

/-- Abort a round (R191, R192). -/
def State.abortRound (s : State) (k : Nat) (g : RyGroup) (why : Nat) : State :=
  ((s.setGroup k { g with phase := .aborted, why := why }).count (.exchange 3) 1).traceRound k 2 g 0 0

/-! ## Hops (R195, R199) -/

/-- What the incoming check says of a block. -/
inductive RyCheck where
  | take (y : YBlock)
  | duplicate
  /-- a transit fault on a block of a shard stream. -/
  | fault (shard idx : Nat)
  deriving DecidableEq, Repr

/-- The 256 blocks behind block `n` of the stream that comes in, the shards of the streams given in their order. -/
def RyGroup.ahead (g : RyGroup) (x : RyIn) (order : List Nat) (n : Nat) : List (Nat × Nat) :=
  (((order.drop x.stream).zipIdx.flatMap (fun (j : Nat × Nat) =>
    (List.range' (if j.2 = 0 then n + 1 else 0) (min 256 (g.count j.1 - (if j.2 = 0 then n + 1 else 0)))).map
      (fun i => (j.1, i)))).take 256)

/-- The incoming check (R195 step 1, R199): block `n` of shard `j` is expected. A block that is not the expected one is a
duplicate of one that has been accepted, or it is discarded as a transit fault on the block that it is: one that came ahead of
the expected block, or one accepted with another checksum; else on the block expected (DEDUCED, log 44). -/
def RyGroup.check (g : RyGroup) (x : RyIn) (order : List Nat) (j n natural : Nat) (b : Bytes) : RyCheck :=
  match YBlock.parse b with
  | none => .fault j n
  | some y =>
    if y.resv || y.lo != chkLo y.ms || y.hi != chkHi y.ms then .fault j n
    else if y.seq = n % 65536 ∧ y.scale = g.scale natural then .take y
    else if x.accepted.any (fun a => a.2.1 == y.seq && a.2.2 == y.lo + 65536 * y.hi) then .duplicate
    else
      match (g.ahead x order n).find? (fun a => a.2 % 65536 == y.seq &&
        (match g.block a.1 a.2 with | some r => g.scale r.natural == y.scale | none => false)) with
      | some a => .fault a.1 a.2
      | none =>
        match x.accepted.find? (fun a => a.2.1 == y.seq) with
        | some a => if y.seq = n % 65536 then .fault j n else .fault a.1 a.2.1
        | none => .fault j n

/-- The stream and block that a receiver expects, `order` its shards. -/
def RyIn.expects (x : RyIn) (order : List Nat) : Option (Nat × Nat) :=
  (order[x.stream]?).map (fun j => (j, x.next))

/-- The receiver after block `n` of shard `j`, which has `count` blocks. -/
def RyIn.advance (x : RyIn) (j n count chk : Nat) : RyIn :=
  { x with
    stream := if n + 1 = count then x.stream + 1 else x.stream
    next := if n + 1 = count then 0 else n + 1
    faulted := x.faulted.filter (fun f => f != (j, n))
    accepted := lastBlocks (x.accepted ++ [(j, n % 65536, chk)]) }

/-- A transit fault on a block that came in on a channel (R199): RESEND, and at the second on the same block
a lane group of the channel's port is removed (R373). -/
def State.transitFault (s : State) (g : RyGroup) (c : RyChan) (x : RyIn) (j n : Nat) : State × RyIn :=
  let s := s.sendRy g (g.taker j) c 9 (Config.ryPayload 9 [j, n % 65536])
  if x.faulted.contains (j, n) then
    let t := s.keepGroups c.port (s.seam c.port).tx (lessGroup (s.seam c.port).rx)
    (if (t.seam c.port).state = .failed then t.examineRegions else t,
      { x with faulted := x.faulted.filter (fun f => f != (j, n)) })
  else (s, { x with faulted := x.faulted ++ [(j, n)] })

/-- This position's share of a block: its own contribution or its backup's, none while that has not come. -/
def State.share (s : State) (g : RyGroup) (rows : List (List (List Run))) (j n : Nat) (a : RyAt) :
    Option (Contrib × Bool) :=
  if g.settled = some 1 then
    (g.subs.find? (fun x => x.shard == j && x.idx == n)).map (fun x => (Contrib.mk x.ms x.sat.toNat 0, x.sat))
  else
    let c := s.contrib g rows a
    some (c, decide (0 < c.sat + c.nonfinite))

/-- The counts of a contribution (R194): those of a substituted block belong to its backup. -/
def RyGroup.addShare (g : RyGroup) (c : Contrib) (j n : Nat) : RyGroup :=
  if g.settled = some 1 then { g with subs := g.subs.filter (fun x => !(x.shard == j && x.idx == n)) }
  else { g with n := { g.n with sat := g.n.sat + c.sat, nonfinite := g.n.nonfinite + c.nonfinite } }

/-- Send a block on DOWN: it stays in the replay window until it is acknowledged (R199). -/
def State.sendBlock (s : State) (k : Nat) (g : RyGroup) (j n : Nat) (y : YBlock) (escHere : Bool) (sat : Nat) :
    State :=
  let g := { g with
    window := g.window ++ [(j, n, y.bytes)]
    hopBackup := g.hopBackup || y.backup
    n := { g.n with blocksOut := g.n.blocksOut + 1, escHere := g.n.escHere + escHere.toNat }
    tData := s.stamp }
  let s := if escHere then s.count (.exchange 0) 1 else s
  let s := if sat = 0 || g.settled = some 1 then s else s.count (.exchange 5) sat
  (s.setGroup k g).sendRy g g.hop g.d.down y.type y.bytes

/-- An RY_HOP or RY_OWN that fails is no longer at work on its round. -/
def State.leaveRound (s : State) (e : Entry) : State :=
  let k := e.field 0x10 1 % 16
  match smGet? s.groups k with
  | none => s
  | some g => if g.ctx ≠ e.ctx then s else s.setGroup k { g with
      hop := if g.hop = some e.seq then none else g.hop
      own := if g.own = some e.seq then none else g.own }

/-- Charge adder faults to an exchange command (R195 step 4); where R368 or a placement without cores says so it ends with
UNIT_ABSENT and adds no block. -/
def State.adderFaults (s : State) (ctx : Nat) (q : Option W32) (faults : List Nat) : State :=
  match q.bind (s.entry? ctx) with
  | none => s
  | some e =>
    if faults.isEmpty || e.decided then s else
    let c := s.charge e (faults.map (fun c => (.adder, c)))
    if c.stop then ((c.s.leaveRound c.e).conclude c.e Status.unitAbsent 0 false).memberEnd c.e Status.unitAbsent
    else c.s.setEntry c.e

/-- Write the cursor of an exchange command after every 256 blocks acknowledged (R199, R379): the shard stream and its blocks
acknowledged, `before` blocks in the streams before it. -/
def State.ryCursor (s : State) (ctx : Nat) (q : Option W32) (stream before rows : Nat) : State :=
  match q.bind (s.entry? ctx) with
  | none => s
  | some e =>
    if (before + rows) % 256 = 0 ∧ e.decided = false then
      s.setEntry { e with tileCursor := BitVec.ofNat 32 stream, rowCursor := BitVec.ofNat 32 rows }
    else s

/-- Blocks of the shard streams that go out on DOWN before the stream of a shard (R186). -/
def RyGroup.outBefore (g : RyGroup) (j : Nat) : Nat :=
  (((g.first :: g.incoming).takeWhile (fun i => i != j)).map g.count).foldl (· + ·) 0

/-- Start one block of shard p − 1 (R186, R195). -/
def State.ryStart (s : State) (k : Nat) (g : RyGroup) : Option State :=
  let j := g.first
  let n := g.started
  if g.hop.isNone || !s.vectorFree g.ctx g.hop || decide (g.count j ≤ n ∨ 256 ≤ g.window.length) then none else
  match g.block j n with
  | none => none
  | some a =>
    match s.share g g.hopRows j n a with
    | none => none
    | some (c, sat) =>
      let esc := c.ms.any wideSum
      let y := YBlock.of (g.scale a.natural) n esc (g.settled == some 1) (decide (n + 1 = g.count j)) sat c.ms
      let g := { g.addShare c j n with started := n + 1 }
      some (s.sendBlock k g j n y esc c.sat)

/-- Add a block that came from UP and send it on, or keep its final sums at the owner (R195, R201). -/
def State.ryAdd (s : State) (k : Nat) (g : RyGroup) (j n : Nat) (y : YBlock) (c : Contrib) (sat : Bool) :
    State :=
  let ms := List.zipWith (· + ·) y.ms c.ms
  let g := { g.addShare c j n with
    up := g.up.advance j n (g.count j) (y.lo + 65536 * y.hi)
    n := { (g.addShare c j n).n with blocksIn := g.n.blocksIn + 1 } }
  let backup := y.backup || g.settled == some 1
  if j = g.d.position then
    let g := { g with
      finals := g.finals ++ [(y.esc, ms)]
      ownBackup := g.ownBackup || backup
      n := { g.n with escFinal := g.n.escFinal + y.esc.toNat }
      tData := s.stamp }
    let s := if c.sat = 0 || g.settled = some 1 then s else s.count (.exchange 5) c.sat
    ((s.setGroup k g).sendAck g j n).ryCursor g.ctx g.own j 0 (n + 1)
  else
    let esc := y.esc || ms.any wideSum
    let out := YBlock.of y.scale y.seq esc backup y.last (y.sat || sat) ms
    s.sendBlock k g j n out (esc && !y.esc) c.sat

/-- Bytes that the first `n` blocks of the own shard put into the link of RY_OWN's chain: those of tensors without a norm
record, whose values the Hems do not hold (R201). -/
def ownLinkBytes (size j : Nat) : List RyTensor → Nat → Nat
  | [], _ => 0
  | t :: ts, n =>
    (if t.norm = 0 then t.valueBytes (min n (t.shardBlocks size j)) else 0) +
      ownLinkBytes size j ts (n - t.shardBlocks size j)

/-- Whether RY_OWN's link takes the sums of one more block (R293): it has promised blocks for them, or the sums go on to an
UPDATE that runs. -/
def State.ownRoom (s : State) (g : RyGroup) : Bool :=
  match (g.own.bind (s.entry? g.ctx)).bind s.chainOf with
  | none => true
  | some c =>
    decide (ceilDiv (ownLinkBytes g.d.size g.d.position g.tensors (g.finals.length + 1)) blockBytes ≤ s.linkRoom c 0) ||
      s.consumerRuns c 0

/-- Whether the command that takes a block of shard `j` is at work, its vector units free, and may take it: RY_OWN with room
for its sums (R293), RY_HOP with its own shard sent and room in the replay window (R186, R199). -/
def State.mayTake (s : State) (g : RyGroup) (j : Nat) : Bool :=
  s.vectorFree g.ctx (g.taker j) &&
  if j = g.d.position then g.own.isSome && s.ownRoom g
  else g.hop.isSome && decide (g.count g.first ≤ g.started ∧ g.window.length < 256)

/-- Take one block from the inbox, if its command is at work. -/
def State.ryTake (s : State) (k : Nat) (g : RyGroup) : Option State :=
  match g.inbox with
  | [] => none
  | (b, faults) :: rest =>
    match g.up.expects g.incoming with
    | none => some (s.setGroup k { g with inbox := rest })
    | some (j, n) =>
      let q := g.taker j
      if !s.mayTake g j then none else
      match g.block j n with
      | none => none
      | some a =>
        match g.check g.up g.incoming j n a.natural b with
        | .duplicate => some (s.setGroup k { g with inbox := rest })
        | .fault i m =>
          let r := s.transitFault g g.d.up g.up i m
          some (r.1.setGroup k { g with inbox := rest, up := r.2 })
        | .take y =>
          match s.share g (if j = g.d.position then g.ownRows else g.hopRows) j n a with
          | none => none
          | some (c, sat) =>
            let t := s.adderFaults g.ctx q faults
            match smGet? t.groups k with
            | none => none
            | some h =>
              if h.taker j = q then some (t.ryAdd k { h with inbox := rest } j n y c sat)
              else some t

/-! ## The owner (R201) -/

/-- The final sums as binary32 g: g = S × 2^q under R50 and R51, padding removed; with its counts. -/
def RyGroup.values (g : RyGroup) : List (List Nat) × Tally :=
  let j := g.d.position
  let cut := cutBy (g.tensors.map (fun t => t.shardBlocks g.d.size j)) g.finals.zipIdx
  let conv := (List.zip g.tensors cut).map (fun (x : RyTensor × List ((Bool × List Int) × Nat)) =>
    x.2.flatMap (fun f =>
      match g.block j f.2 with
      | none => []
      | some a => (f.1.2.take (x.1.cols - 32 * a.blk)).map (fun m =>
          to32 ((valOfInt m).scale ((g.scale a.natural : Int) - 127)))))
  (conv.map (fun cs => cs.map (fun c => c.code)), Tally.ofConvs conv.flatten)

/-- Every block of the own shard has been delivered. -/
def RyGroup.ownDone (g : RyGroup) : Bool := g.own.isSome && decide (g.finals.length = g.count g.d.position)

/-- G2_p of a shard: squares in binary64, added in order (R201). -/
def sumSq64 (xs : List Nat) : W64 :=
  BitVec.ofNat 64 (xs.foldl (fun a x => add64 a (mul64 (widen x) (widen x))) 0)

/-- Send a norm token. -/
def State.sendNorm (s : State) (g : RyGroup) (lap tensor : Nat) (v : W64) : State :=
  s.sendRy g g.own g.d.down 5 (Config.ryPayload 5 [lap, tensor, v.toNat])

/-- The norm records that a position's G2 is ready for: form each, and start or pass on its token. -/
def State.beginNorms (s : State) (k : Nat) (g : RyGroup) : State :=
  if !g.ownDone || g.normsBegun || g.phase != .data then s else
  let v := g.values.1
  let mine := (g.tensors.zipIdx.filter (fun (t : RyTensor × Nat) => t.1.norm != 0)).map
    (fun t => (t.2, sumSq64 (v.getD t.2 [])))
  let s := s.setGroup k { g with normsBegun := true, normOwn := mine, normHeld := [] }
  mine.foldl (fun s m =>
    if g.d.position = 0 then s.sendNorm g 1 m.1 m.2
    else match g.normHeld.find? (fun h => h.1 == m.1) with
      | some h => s.sendNorm g 1 m.1 (BitVec.ofNat 64 (add64 h.2.toNat m.2.toNat))
      | none => s) s

/-- Write G2, STEP and G_VALID into a norm record (R167, R201). -/
def State.writeNorm (s : State) (k : Nat) (g : RyGroup) (tensor : Nat) (v : W64) : State :=
  match g.normAt.find? (fun x => x.1 == tensor) with
  | none => s
  | some (_, rs) =>
    let flags := fieldOf ((s.readRuns rs).drop 0x18) 0 1
    let ws := writesAt rs 0 (leBytes 8 v.toNat) ++ writesAt rs 0x10 (leBytes 8 g.d.step.toNat) ++
      writesAt rs 0x18 (leBytes 1 (flags ||| 1))
    let s := ws.foldl (fun t w => t.bounceStore g.ctx w.1 w.2) s
    ((s.dropCopies rs).l2Invalidate rs).setGroup k { g with normDone := g.normDone ++ [tensor] }

/-! ## Moving blocks -/

/-- Do what can be done on a group, a block at a time. -/
def State.ryPump (k : Nat) : Nat → State → State
  | 0, s => s
  | n + 1, s =>
    match smGet? s.groups k with
    | none => s
    | some g =>
      if !g.isOpen || g.phase != .data then s else
      match s.ryStart k g with
      | some t => State.ryPump k n t
      | none =>
        match s.ryTake k g with
        | some t => State.ryPump k n t
        | none => s.beginNorms k g

/-- Do what can be done on a group now. -/
def State.ryRun (s : State) (k : Nat) : State :=
  match smGet? s.groups k with
  | none => s
  | some g => State.ryPump k (g.count g.first - g.started + g.inbox.length + 1) s

/-- An acknowledgement arrives on DOWN (R199): the block leaves the replay window, and one that came from UP is acknowledged
there. -/
def State.ryAcked (s : State) (p ep vc : Nat) (payload : Bytes) : State :=
  match s.groups.find? (fun (x : Nat × RyGroup) =>
    x.2.phase == .data && x.2.d.vc == vc && x.2.d.down.port == p && x.2.d.down.ep == ep) with
  | none => s
  | some (k, g) =>
    let is := fun (x : Nat × Nat × Bytes) => ackBytes x.1 x.2.1 == payload
    let s := s.setGroup k { g with window := g.window.filter (fun x => !is x) }
    let s := (g.window.filter is).foldl (fun t x =>
      (if x.1 = g.first then t else t.sendAck g x.1 x.2.1).ryCursor g.ctx g.hop x.1 (g.outBefore x.1) (x.2.1 + 1)) s
    s.ryRun k

/-- A block arrives on UP, or a backup's contribution on BACKUP_IN (R195, R202). -/
def State.ryBlockIn (s : State) (p ep vc : Nat) (block : Bytes) (adderFaults : List Nat) : State :=
  match s.groupAt RyDesc.up p ep vc with
  | some (k, g) =>
    if g.phase = .aborted then s
    else ((s.setGroup k { g with inbox := g.inbox ++ [(block, adderFaults)] }).ryRun k)
  | none =>
    match s.groupAt RyDesc.backupIn p ep vc with
    | none => s
    | some (k, g) =>
      if g.phase != .data || g.settled != some 1 then s else
      match g.back.expects (g.serving g.d.position) with
      | none => s
      | some (j, n) =>
        match g.block j n with
        | none => s
        | some a =>
          match g.check g.back (g.serving g.d.position) j n a.natural block with
          | .duplicate => s
          | .fault i m =>
            let r := s.transitFault g g.d.backupIn g.back i m
            (r.1.setGroup k { g with back := r.2 })
          | .take y =>
            let chk := y.lo + 65536 * y.hi
            let ws := writesAt g.work (4 * a.natural) (leBytes 4 chk)
            let s := ws.foldl (fun t w => t.bounceStore g.ctx w.1 w.2) s
            let rs := ws.map (fun w => (w.1, w.2.length))
            let g := { g with
              back := g.back.advance j n (g.count j) chk
              subs := g.subs ++ [RySub.mk j n y.ms y.sat]
              n := { g.n with blocksIn := g.n.blocksIn + 1 } }
            ((((s.dropCopies rs).l2Invalidate rs).setGroup k g).ryRun k)

/-- The command for which a block arrives (R353): the one that takes its shard, or the PRIMARY RY_CONTRIBUTE that a backup
stands in for. -/
def State.blockFor (s : State) (p ep vc : Nat) : Option (Nat × W32) :=
  match s.groupAt RyDesc.up p ep vc, s.groupAt RyDesc.backupIn p ep vc with
  | some (_, g), _ => g.for_ (match g.up.expects g.incoming with | some (j, _) => g.taker j | none => g.hop)
  | none, some (_, g) => g.for_ g.primary
  | none, none => none

/-- RY_BLOCK (R195). -/
def execRyBlock (p ep vc : Nat) (block : Bytes) (adderFaults : List Nat) (s : State) :
    Host.Outcome State Fault Refusal :=
  let who := s.blockFor p ep vc
  .next (s.meteredFor
    ((s.takeRx p .msg vc ep (if block.length = 136 then 2 else 1) who).ryBlockIn p ep vc block adderFaults) who)

/-- The BACKUP RY_CONTRIBUTE at work on a group. -/
def State.backer (s : State) (k ctx : Nat) : Option Entry :=
  (s.entriesOf ctx).find? (fun x => x.op == some .ryContribute && x.working && !x.decided && x.field 0x10 1 % 32 == k + 16)

/-- RESEND (R199): the named block is sent again from the replay window of the channel's direction. -/
def execResend (p ep vc stream blockSeq : Nat) (s : State) : Host.Outcome State Fault Refusal :=
  let s := s.takeRx p .msg vc ep 9
  let find := fun (w : List (Nat × Nat × Bytes)) =>
    w.find? (fun x => x.1 == stream && x.2.1 % 65536 == blockSeq % 65536)
  let again := fun (k : Nat) (g : RyGroup) (q : Option W32) (c : RyChan) (b : Bytes) =>
    let s := (s.setGroup k { g with n := { g.n with resends := g.n.resends + 1 } }).count (.exchange 4) 1
    s.sendRy g q c (if b.length = 136 then 2 else 1) b
  let viaBackup := match s.groupAt RyDesc.backupOut p ep vc with
    | none => s
    | some (k, g) => match find g.served_ with
      | some x => again k g ((s.backer k g.ctx).map (fun e => e.seq)) g.d.backupOut x.2.2
      | none => s
  match s.groupAt RyDesc.down p ep vc with
  | none => .next viaBackup
  | some (k, g) => match find g.window with
    | some x => .next (again k g g.hop g.d.down x.2.2)
    | none => .next viaBackup

/-! ## Tokens and deadlines -/

/-- Leave the ready phase at lap 2 (R191); a substituted position asks its backup for the copy (R202). -/
def State.leaveReady (s : State) (k : Nat) (g : RyGroup) (t : ReadyToken) : State :=
  let g := { g with lap2 := some t, tReady := s.stamp }
  if t.missing then s.abortRound k g 1
  else if t.mismatch then s.abortRound k g 2
  else
    let g := { g with phase := .data }
    let s := (s.setGroup k g).traceRound k 1 g 0 0
    let s := if g.settled = some 1 then
        s.sendRy g g.primary g.d.backupIn Config.backupRequestType.toNat (Config.ryPayload Config.backupRequestType.toNat [])
      else s
    s.ryRun k

/-- The command of the open group that a channel belongs to. -/
def State.channelFor (s : State) (chan : RyDesc → RyChan) (p ep vc : Nat) (q : RyGroup → Option W32) :
    Option (Nat × W32) :=
  (s.groupAt chan p ep vc).bind (fun x => x.2.for_ (q x.2))

/-- READY_TOKEN (R191). -/
def execReadyToken (p ep vc : Nat) (t : ReadyToken) (s : State) : Host.Outcome State Fault Refusal :=
  let s := s.takeRx p .msg vc ep 3 (s.channelFor RyDesc.up p ep vc RyGroup.primary)
  match s.groupAt RyDesc.up p ep vc with
  | none => .next s
  | some (k, g) =>
    if g.phase != .ready then .next s
    else if t.lap = 1 then
      if g.d.position = 0 then
        if g.settled.isNone then .next s
        else .next ((s.passToken g { t with lap := 2 }).leaveReady k g { t with lap := 2 })
      else if g.settled.isSome then .next (s.passToken g (g.mark t))
      else .next (s.setGroup k { g with token := some t })
    else if g.d.position = 0 || g.settled.isNone then .next s
    else .next ((if g.d.position + 1 = g.d.size then s else s.passToken g t).leaveReady k g t)

/-- BACKUP_READY (R190). -/
def execBackupReady (p ep vc : Nat) (s : State) : Host.Outcome State Fault Refusal :=
  let s := s.takeRx p .msg vc ep 4 (s.channelFor RyDesc.backupIn p ep vc RyGroup.primary)
  match s.groupAt RyDesc.backupIn p ep vc with
  | none => .next s
  | some (k, g) => .next (s.setGroup k { g with backupReady := true })

/-- RY_DEADLINE (R190): the time base has reached DEADLINE. -/
def execRyDeadline (group : Nat) (s : State) : Host.Outcome State Fault Refusal :=
  match smGet? s.groups group with
  | none => .next s
  | some g =>
    if g.isOpen && g.phase == .ready && g.settled.isNone && decide (g.d.deadline.toNat ≤ s.stamp.toNat) then
      .next (s.settleLate group g)
    else .next s

/-- The blocks that a backup serves, in order, with their counts (R202). -/
def State.copyBlocks (s : State) (g : RyGroup) (rows : List (List (List Run))) :
    List (Nat × Nat × YBlock × Contrib) :=
  (g.serving g.d.backsPos).flatMap (fun j => (List.range (g.count j)).filterMap (fun n =>
    (g.block j n).map (fun a =>
      let c := s.contrib g rows a
      (j, n, YBlock.of (g.scale a.natural) n (c.ms.any wideSum) false (decide (n + 1 = g.count j))
        (decide (0 < c.sat + c.nonfinite)) c.ms, c))))

/-- The cursor of the BACKUP RY_CONTRIBUTE at work on a group, whose blocks are the copy's (R379). -/
def State.backupCursor (s : State) (k ctx : Nat) (bs : List (Nat × Nat × YBlock × Contrib)) : State :=
  match s.backer k ctx with
  | none => s
  | some e => bs.zipIdx.foldl (fun t (b : (Nat × Nat × YBlock × Contrib) × Nat) =>
      t.ryCursor ctx (some e.seq) b.1.1 (b.2 - b.1.2.1) (b.1.2.1 + 1)) s

/-- BACKUP_REQUEST (R202): the backup's copy is sent as blocks that carry only contributions; the request stays where it is
while the vector units that form them wait for their steps or stand still for a trip (R340, R349). -/
def execBackupRequest (p ep vc : Nat) (s : State) : Host.Outcome State Fault Refusal :=
  match s.groupAt RyDesc.backupOut p ep vc with
  | none => .next (s.takeRx p .msg vc ep Config.backupRequestType.toNat)
  | some (k, g) =>
    let q := (s.backer k g.ctx).map (fun e => e.seq)
    if !s.vectorFree g.ctx q then .next s else
    let s := s.takeRx p .msg vc ep Config.backupRequestType.toNat (g.for_ q)
    match g.copy, g.served with
    | some rows, none =>
      let bs := s.copyBlocks g rows
      let sat := (bs.map (fun b => b.2.2.2.sat)).foldl (· + ·) 0
      let bad := (bs.map (fun b => b.2.2.2.nonfinite)).foldl (· + ·) 0
      let g := { g with
        served := some bs.length
        served_ := lastBlocks (bs.map (fun b => (b.1, b.2.1, b.2.2.1.bytes)))
        tData := if bs.isEmpty then g.tData else s.stamp
        n := { g.n with
          sat := g.n.sat + sat, nonfinite := g.n.nonfinite + bad, blocksOut := g.n.blocksOut + bs.length } }
      let s := if sat = 0 then s else s.count (.exchange 5) sat
      let s := s.backupCursor k g.ctx bs
      .next (bs.foldl (fun s b => s.sendRy g q g.d.backupOut b.2.2.1.type b.2.2.1.bytes) (s.setGroup k g))
    | _, _ => .next s

/-- NORM_TOKEN (R201). -/
def execNormToken (p ep vc lap tensor : Nat) (value : BitVec 64) (s : State) : Host.Outcome State Fault Refusal :=
  let s := s.takeRx p .msg vc ep 5 (s.channelFor RyDesc.up p ep vc RyGroup.own)
  match s.groupAt RyDesc.up p ep vc with
  | none => .next s
  | some (k, g) =>
    if g.phase != .data || g.normDone.contains tensor then .next s
    else if lap = 1 then
      match g.normOwn.find? (fun x => x.1 == tensor) with
      | none => .next (if g.d.position = 0 then s
          else s.setGroup k { g with normHeld := g.normHeld ++ [(tensor, value)] })
      | some (_, mine) =>
        if g.d.position = 0 then .next ((s.sendNorm g 2 tensor value).writeNorm k g tensor value)
        else .next (s.sendNorm g 1 tensor (BitVec.ofNat 64 (add64 value.toNat mine.toNat)))
    else if g.d.position = 0 then .next s
    else .next ((if g.d.position + 1 = g.d.size then s else s.sendNorm g 2 tensor value).writeNorm k g tensor value)

/-! ## RY_ROUND_OPEN (R189, R196, R197) -/

/-- ceil(log₂ P). -/
def log2Up (p : Nat) : Nat := if p ≤ 1 then 0 else Nat.log2 (p - 1) + 1

/-- SCALE of the first exchange (R197). -/
def firstScale (d : RyDesc) : Nat :=
  (min 127 (max (-127) (d.initExp + 1 + (log2Up d.size : Int) + 1 - 15)) + 127).toNat

/-- The rows of a gradient pair buffer that the list names by its tensor descriptor, none listed when it is
cleared; its header's address. -/
structure RyBuf where
  issues : List Status
  rows : List (List Run)
  head : Nat
  buf : Option PairBuf
  deriving Repr

/-- Open a buffer of the list. -/
def State.openRyBuf (s : State) (ctx : Nat) (t : RyTensor) (addr : Nat) (write : Bool) : RyBuf :=
  let o := s.openDesc (Env.mk ctx none none) false addr
  let bad := o.check (fun d _ => decide (d.kind = 1 ∧ d.rows = t.rows ∧ d.cols = t.cols) && !d.handover)
  if !bad.isEmpty then RyBuf.mk bad [] 0 none else
  let b := s.openBuffer ctx o.d false
  let w := if write then (match s.resolve ctx o.d.base 64 true with
      | .error st => [st]
      | .ok _ => []) else []
  match b.2 with
  | none => RyBuf.mk (b.1 ++ w) [] 0 none
  | some x => RyBuf.mk (b.1 ++ w ++ need (!x.foreign ctx)) (if x.h.cleared then [] else x.old) x.head (some x)

/-- Whether the shape of a parameter descriptor differs from some rows and columns. -/
def State.shapeIssues (s : State) (ctx addr rows cols : Nat) : List Status :=
  if addr = 0 then [] else
  match s.readStruct ctx addr 256 64 with
  | .error st => [st]
  | .ok b => need (decide ((PDesc.parse b).rowsN = rows ∧ (PDesc.parse b).colsN = cols))

/-- What stands in the way of an entry of the list (R189). -/
def State.tensorIssues (s : State) (ctx : Nat) (d : RyDesc) (t : RyTensor) : List Status :=
  let shape := fun (addr : Nat) =>
    (s.openDesc (Env.mk ctx none none) false addr).check (fun x _ =>
      decide (x.kind = 1 ∧ x.rows = t.rows ∧ x.cols = t.cols) && !x.handover)
  need (!t.resv && decide (t.rows ≠ 0 ∧ t.cols ≠ 0)) ++ shape t.buffer ++
  (if t.backup = 0 then [] else shape t.backup) ++
  s.shapeIssues ctx t.owner (t.shardRows d.size d.position) t.cols ++
  s.shapeIssues ctx t.replica t.rows t.cols

/-- Earlier rounds of a group whose RY_ROUND_OPEN, or a contribution that names them, has no outcome yet. -/
def State.pastRounds (s : State) (k : Nat) : List RyPast :=
  match smGet? s.groups k with
  | none => []
  | some g => (g.asPast (g.closeId.getD 0) :: g.past).filter (fun r => (s.entriesOf r.ctx).any (fun x =>
      x.live && !x.decided && (x.id == r.openId ||
        (x.op == some .ryContribute && x.field 0x10 1 % 16 == k && decide (r.openId < x.id ∧ x.id < r.closeId)))))

/-- A new round. -/
def RyGroup.fresh (e : Entry) (d : RyDesc) (ts : List RyTensor) (table : Bytes) (work : List Run) (now : W64)
    (past : List RyPast) : RyGroup where
  ctx := e.ctx
  openId := e.id
  closeId := none
  d := d
  tensors := ts
  tableBlocks := fieldOf table 8 8
  scales := if (fieldOf table 0 1).testBit 0 then (table.drop 64).take (fieldOf table 8 8)
    else List.replicate (blocksAll ts) (BitVec.ofNat 8 (firstScale d))
  guards := table.drop (64 + fieldOf table 8 8)
  digest := hashValue table
  work := work
  isOpen := true
  phase := .ready
  why := 0
  settled := none
  backupReady := false
  primary := none
  mine := []
  copy := none
  served := none
  token := none
  lap2 := none
  given := 0
  hop := none
  hopRows := []
  own := none
  ownRows := []
  ownChain := none
  started := 0
  up := RyIn.mk 0 0 [] []
  back := RyIn.mk 0 0 [] []
  inbox := []
  subs := []
  window := []
  served_ := []
  finals := []
  hopBackup := false
  ownBackup := false
  normAt := []
  normOwn := []
  normHeld := []
  normDone := []
  normsBegun := false
  n := RyCounts.mk 0 0 0 0 0 0 0 0
  tOpen := now
  tReady := 0
  tData := 0
  recv := none
  replicas := []
  heads := []
  early := []
  recvErr := none
  sent := false
  forward := []
  past := past

/-- A port that a command needs is absent (R237, R373). -/
def State.portGone (s : State) (ps : List Nat) : Bool := ps.any (fun p => !s.caps.seam.getLsbD p)

/-- Ports that a command needs (R237). -/
def State.portIssues (s : State) (ps : List Nat) : List Status :=
  if s.portGone ps then [Status.unitAbsent]
  else if ps.any (fun p => !s.ready.seam.getLsbD p) then [Status.notReady] else []

/-- Another open group uses the virtual channel on one of the ports (R189, R260). -/
def State.vcTaken (s : State) (d : RyDesc) : Bool :=
  s.groups.any (fun (x : Nat × RyGroup) =>
    x.1 != d.group && x.2.isOpen && x.2.d.vc == d.vc && x.2.d.ports.any (fun p => d.ports.contains p))

/-- The round descriptor that a packet names. -/
def State.roundDesc (s : State) (e : Entry) : Except Status RyDesc :=
  match (s.asRead e).readStruct e.ctx (e.field 0x10 8) 128 64 with
  | .error st => .error st
  | .ok b => .ok (RyDesc.parse b)

/-- A command that is at work on a round waits, unless a port of the round has failed: then it ends with UNIT_ABSENT
(R373). -/
def State.ryWait (s : State) (ps : List Nat) : Verdict :=
  if s.portGone ps then .fail [Status.unitAbsent] [] else .wait

/-- The forecast table: its bytes, or what stands in the way (R196). -/
def State.forecastTable (s : State) (ctx : Nat) (d : RyDesc) (ts : List RyTensor) : List Status × Bytes :=
  match s.readStruct ctx d.forecast 64 1 with
  | .error st => ([st], [])
  | .ok h =>
    let n := fieldOf h 8 8
    let m := fieldOf h 0x10 8
    if n < blocksAll ts ∨ m < groupsAll ts d.size ∨ 2 ^ 48 ≤ n + m then ([Status.outOfBounds], [])
    else match s.resolve ctx d.forecast (64 + n + m) false with
      | .error st => ([st], [])
      | .ok rs => ([], s.readRuns rs)

/-- RY_ROUND_OPEN's start (R189). -/
def State.openRound (s : State) (e : Entry) (d : RyDesc) : List Status × State :=
  let units := s.coreIssues e.ctx ++ s.portIssues d.ports
  if !d.ok || s.vcTaken d then (Status.malformed :: units, s) else
  match (s.asRead e).readStruct e.ctx d.list (64 * d.listN) 1 with
  | .error st => (st :: units, s)
  | .ok lb =>
    let ts := (List.range d.listN).map (fun i => RyTensor.parse ((lb.drop (64 * i)).take 64))
    let tb := s.forecastTable e.ctx d ts
    let work := if d.backupIn.valid ∧ d.work ≠ 0 then s.runsOf e.ctx true [(d.work, 4 * blocksAll ts)] else ([], [])
    let normed := ((ts.filter (fun t => t.norm != 0)).map
      (fun t => t.shardRows d.size d.position * t.cols)).foldl (· + ·) 0
    let issues := units ++ ts.flatMap (s.tensorIssues e.ctx d) ++ tb.1 ++ work.1 ++
      need (decide (normed ≤ 524288 * (s.usable e.ctx).length)) ++
      s.sealIssues e.ctx [] [] (s.structRuns e ++ work.2.flatten)
    if !issues.isEmpty then (issues, s) else
    let g := RyGroup.fresh e d ts tb.2 work.2.flatten s.stamp (s.pastRounds d.group)
    ([], ((s.setGroup d.group g).setEntry { e with working := true }).traceRound d.group 0 g e.seq 0)

/-- RY_ROUND_OPEN (R189-R192): it opens the round, and completes when this position leaves the ready phase. -/
def ryRoundOpenWork (s : State) (e : Entry) : Verdict :=
  if !e.clean [(0x10, 0, 64)] then .fail [Status.malformed] [] else
  if e.working then
    match s.groups.find? (fun (x : Nat × RyGroup) => x.2.openId == e.id) with
    | some (_, g) =>
      match g.phase with
      | .ready => if g.isOpen then s.ryWait g.d.ports else .fail [Status.malformed] []
      | .data => .done Status.ok (BitVec.ofNat 32 g.d.size) false s
      | .aborted => .done Status.roundAborted (BitVec.ofNat 32 g.d.size) false s
    | none =>
      -- its round is over, and the group has been opened again.
      match (s.groups.flatMap (fun (x : Nat × RyGroup) => x.2.past)).find? (fun r => r.openId == e.id) with
      | none => .fail [Status.malformed] []
      | some r =>
        if r.closeId = 0 then .fail [Status.malformed] []
        else .done (if r.aborted then Status.roundAborted else Status.ok) (BitVec.ofNat 32 r.size) false s
  else
    match s.roundDesc e with
    | .error st => .fail (st :: s.coreIssues e.ctx) []
    | .ok d =>
      match smGet? s.groups d.group with
      | some g => if g.isOpen then .wait else .fail (s.openRound e d).1 []
      | none => .fail (s.openRound e d).1 []

/-- RY_ROUND_OPEN. -/
def execRyRoundOpen (ctx : Nat) (seq : W32) (s : State) : Host.Outcome State Fault Refusal :=
  match s.runnable .ryRoundOpen ctx seq with
  | none => .next s
  | some e =>
    match e.working, s.roundDesc e with
    | false, .ok d =>
      let free := match smGet? s.groups d.group with | some g => !g.isOpen | none => true
      let r := s.openRound e d
      if e.clean [(0x10, 0, 64)] && free && r.1.isEmpty then .next r.2
      else s.runOp .ryRoundOpen ctx seq ryRoundOpenWork
    | _, _ => s.runOp .ryRoundOpen ctx seq ryRoundOpenWork

/-! ## The commands of an open round -/

/-- The open group that a command of a context names (R259), with its number: one opened before the command. -/
def State.openGroup (s : State) (e : Entry) : Option (Nat × RyGroup) :=
  let k := e.field 0x10 1 % 16
  match smGet? s.groups k with
  | some g => if g.isOpen && g.ctx == e.ctx && decide (g.openId < e.id) then some (k, g) else none
  | none => none

/-- Open every buffer of the list that `which` names. -/
def State.ryBuffers (s : State) (e : Entry) (ts : List RyTensor) (which : RyTensor → Nat) (write : Bool) : List RyBuf :=
  ts.map (fun t => s.openRyBuf e.ctx t (which t) write)

/-- What stands in the way of a command of a round that reads some buffers (R237, R261): its cores, the ports of its round,
and the buffers. -/
def State.bufIssues (s : State) (e : Entry) (ports : List Nat) (bs : List RyBuf) : List Status :=
  s.coreIssues e.ctx ++ s.portIssues ports ++ bs.flatMap (fun b => b.issues) ++ s.sealIssues e.ctx [] [] (bs.flatMap (fun b => b.rows.flatten))

/-- A command of an aborted round completes with ROUND_ABORTED (R191, R192), a PRIMARY RY_CONTRIBUTE with SETTLED (R261), 2
where its position never settled (DESIGN CHOICE, log 98); another does its work. -/
def State.roundWork (s : State) (e : Entry) (work : State → Entry → Verdict) : Verdict :=
  if s.ryAborted e then
    let settled := ((s.ryRoundOf e).bind (fun r => r.settled)).getD 2
    .done Status.roundAborted
      (BitVec.ofNat 32 (if e.op = some .ryContribute ∧ (e.field 0x10 1).testBit 4 = false then settled else 0)) false s
  else work s e

/-- A command completes with OK and a count (R223). -/
def doneCount (n : Nat) (s : State) : Verdict := .done Status.ok (resultCount n).1 (resultCount n).2 s

/-- PRIMARY RY_CONTRIBUTE (R190, R202). -/
def primaryWork (s : State) (e : Entry) (k : Nat) (g : RyGroup) : Verdict :=
  if g.primary = some e.seq then
    -- it has found its buffers committed; it completes as the ready phase ends.
    match g.phase, g.settled with
    | .data, some 1 => .done Status.backupTaken 1 false s
    | .data, x => .done Status.ok (BitVec.ofNat 32 (x.getD 0)) false s
    | _, _ => s.ryWait g.d.ports
  else if g.given.getLsbD 0 then .fail [Status.malformed] []
  else
    let bs := s.ryBuffers e g.tensors RyTensor.buffer false
    if s.bufferWait e (bs.map (fun b => b.head)) then .wait else
    let issues := s.bufIssues e g.d.ports bs
    if !issues.isEmpty then .fail issues [] else
    let g := { g with given := g.given ||| 1#4, primary := some e.seq, mine := bs.map (fun b => b.rows) }
    let s := s.setGroup k g
    .done Status.accepted 0 false
      (if g.settled.isSome then s
       else if s.stamp.toNat < g.d.deadline.toNat then s.settleAs k g 0 else s.settleLate k g)

/-- BACKUP RY_CONTRIBUTE (R190, R202): it serves the copy when lap 2 says that its position was substituted. -/
def backupWork (s : State) (e : Entry) (k : Nat) (g : RyGroup) : Verdict :=
  if g.copy.isSome ∧ e.working then
    match g.phase, g.served with
    | .data, some n => doneCount n s
    | .data, none =>
      if (match g.lap2 with | some t => t.backups.getLsbD g.d.backsPos | none => false) then s.ryWait g.d.ports
      else .done Status.ok 0 false s
    | _, _ => s.ryWait g.d.ports
  else if g.given.getLsbD 1 || !g.d.backupOut.valid then .fail [Status.malformed] []
  else
    let bs := s.ryBuffers e g.tensors RyTensor.backup false
    if s.bufferWait e (bs.map (fun b => b.head)) then .wait else
    let issues := s.bufIssues e g.d.ports bs
    if !issues.isEmpty then .fail issues [] else
    let g := { g with given := g.given ||| 2#4, copy := some (bs.map (fun b => b.rows)) }
    .done Status.accepted 0 false ((s.setGroup k g).sendRy g (some e.seq) g.d.backupOut 4 [])

/-- Blocks that a command at work could not take before are taken as soon as there is room (R199, R293). -/
def State.ryAgain (s : State) (e : Entry) : State :=
  match s.openGroup e with
  | some (k, g) => if g.hop = some e.seq ∨ g.own = some e.seq then s.ryRun k else s
  | none => s

/-- Take a verdict of ACCEPTED for a start: the command goes on, its work begun on the cores of its placement (R338; DESIGN
CHOICE, log 55), which take blocks as soon as they may. -/
def State.startOrSettle (s : State) (e : Entry) (v : Verdict) : State :=
  match v with
  | .wait => s
  | .fail issues lost =>
    (((s.leaveRound e).settle e (.fail issues lost)).memberEnd e ((Status.first issues).getD Status.malformed)).endSteps
      (some (e.ctx, e.seq))
  | .done st r sat t =>
    if st = Status.accepted then
      let e := { (t.entryAt e.id).getD e with working := true }
      let t := t.setEntry e
      (if e.addsBlocks then (t.usable e.ctx).foldl (fun t c => t.beginSteps e c) t else t).ryAgain e
    else s.metered (((s.settle e (.done st r sat t)).memberEnd e st).endSteps (some (e.ctx, e.seq))) e.ctx e.seq

/-- The PRIMARY RY_CONTRIBUTE of a round that is over has been given (R259). -/
def State.giveLate (s : State) (k openId : Nat) : State :=
  match smGet? s.groups k with
  | none => s
  | some g =>
    if g.openId = openId then s.setGroup k { g with given := g.given ||| 1#4 }
    else s.setGroup k { g with
      past := g.past.map (fun r => if r.openId = openId then { r with given := r.given ||| 1#4 } else r) }

/-- RY_CONTRIBUTE on a round that closed after it was accepted (R202, R259): one at work has its outcome; a PRIMARY that
settles only now compares nothing; a BACKUP one names no open round. -/
def lateContribute (s : State) (e : Entry) (r : RyPast) : Verdict :=
  if (e.field 0x10 1).testBit 4 then
    if e.working then doneCount (r.served.getD 0) s else .fail [Status.malformed] []
  else if e.working then
    if r.settled = some 1 then .done Status.backupTaken 1 false s
    else .done Status.ok (BitVec.ofNat 32 (r.settled.getD 0)) false s
  else if r.given.getLsbD 0 then .fail [Status.malformed] []
  else
    let bs := s.ryBuffers e r.tensors RyTensor.buffer false
    if s.bufferWait e (bs.map (fun b => b.head)) then .wait else
    let issues := s.bufIssues e r.ports bs
    if issues.isEmpty then .done Status.backupTaken 1 false (s.giveLate (e.field 0x10 1 % 16) r.openId)
    else .fail issues []

/-- RY_CONTRIBUTE (R190, R202, R259). -/
def ryContributeWork (s : State) (e : Entry) : Verdict :=
  if !e.clean [(0x10, 0, 5)] then .fail [Status.malformed] [] else
  match s.openGroup e, s.ryRoundOf e with
  | some (k, g), _ => if (e.field 0x10 1).testBit 4 then backupWork s e k g else primaryWork s e k g
  | none, some r => lateContribute s e r
  | none, none => .fail [Status.malformed] []

/-- RY_CONTRIBUTE. -/
def execRyContribute (ctx : Nat) (seq : W32) (s : State) : Host.Outcome State Fault Refusal :=
  match s.runnable .ryContribute ctx seq with
  | none => .next s
  | some e => .next (s.startOrSettle e (s.roundWork e ryContributeWork))

/-- The notes of a command that sent or delivered blocks (R202). -/
def State.noteRound (s : State) (e : Entry) (esc backup : Bool) : State :=
  let ns := (if esc then [Status.escalated] else []) ++ (if backup then [Status.backupTaken] else [])
  let e := (s.entryAt e.id).getD e
  if ns.isEmpty then s else s.setEntry { e with notes := e.notes ++ ns }

/-- RY_HOP (R186, R195). -/
def ryHopWork (s : State) (e : Entry) (adderFaults : List Nat) : Verdict :=
  if !e.clean [(0x10, 0, 4)] then .fail [Status.malformed] [] else
  match s.openGroup e with
  | none => .fail [Status.malformed] []
  | some (k, g) =>
    if g.hop = some e.seq then
      if g.started = g.count g.first ∧
          (match g.up.expects g.incoming with | none => true | some (j, _) => j == g.d.position) = true then
        doneCount g.n.escHere (s.noteRound e (decide (0 < g.n.escHere)) g.hopBackup)
      else s.ryWait g.d.ports
    else if g.given.getLsbD 2 then .fail [Status.malformed] []
    else
      if g.phase != .data then .wait else
        let bs := if g.settled = some 1 then [] else s.ryBuffers e g.tensors RyTensor.buffer false
        if s.bufferWait e (bs.map (fun b => b.head)) then .wait else
        let issues := s.bufIssues e g.d.ports bs
        if !issues.isEmpty then .fail issues [] else
        let s := s.setGroup k { g with given := g.given ||| 4#4, hop := some e.seq, hopRows := bs.map (fun b => b.rows) }
        .done Status.accepted 0 false (s.adderFaults e.ctx (some e.seq) adderFaults)

/-- RY_HOP. -/
def execRyHop (ctx : Nat) (seq : W32) (adderFaults : List Nat) (s : State) : Host.Outcome State Fault Refusal :=
  match s.runnable .ryHop ctx seq with
  | none => .next s
  | some e =>
    let s := s.ryAgain e
    match s.runnable .ryHop ctx seq with
    | none => .next s
    | some e => .next (s.startOrSettle e (s.roundWork e (fun s e => ryHopWork s e adderFaults)))

/-- The chain of an RY_OWN is as R259 asks. -/
def State.ownChainOk (s : State) (e : Entry) (g : RyGroup) : Bool :=
  match e.member, s.chainOf e with
  | some 0, some c => decide (c.stages = 2 ∧ c.lastMembers = g.d.listN)
  | _, _ => false

/-- Deliver the values of the own shard to the chain (R201, R290). -/
def State.deliver (s : State) (e : Entry) (g : RyGroup) : State :=
  let v := g.values
  let s := (tallyCounts (s.countCore e.ctx) v.2).foldl (fun t c => t.count c.1 c.2) s
  match s.chainOf e with
  | none => s
  | some c => s.setChain { c with
      gvals := v.1.map (fun r => r.map (BitVec.ofNat 32)), greads := g.ownRows.flatten.flatten }

/-- RY_OWN (R201). -/
def ryOwnWork (s : State) (e : Entry) : Verdict :=
  if !e.clean [(0x10, 0, 4)] then .fail [Status.malformed] [] else
  match s.openGroup e with
  | none => .fail [Status.malformed] []
  | some (k, g) =>
    if g.own = some e.seq then
      if g.ownDone ∧ (g.tensors.zipIdx.all (fun (t : RyTensor × Nat) => t.1.norm == 0 || g.normDone.contains t.2)) = true then
        doneCount g.n.escFinal ((s.deliver e g).noteRound e false g.ownBackup)
      else s.ryWait g.d.ports
    else if g.given.getLsbD 3 || !s.ownChainOk e g then .fail [Status.malformed] []
    else
      if g.phase != .data then .wait else
        let bs := if g.settled = some 1 then [] else s.ryBuffers e g.tensors RyTensor.buffer false
        if s.bufferWait e (bs.map (fun b => b.head)) then .wait else
        let norms := g.tensors.zipIdx.filter (fun (t : RyTensor × Nat) => t.1.norm != 0)
        let runs := norms.map (fun t => (t.2, s.runsOf e.ctx true [(t.1.norm, 32)]))
        let rows := bs.map (fun b => b.rows)
        let issues := s.bufIssues e g.d.ports bs ++ runs.flatMap (fun r => r.2.1) ++
          s.sealIssues e.ctx (if norms.isEmpty then [] else rows.flatten.flatten) (runs.flatMap (fun r => r.2.2.flatten)) []
        if !issues.isEmpty then .fail issues [] else
        let g := { g with
          given := g.given ||| 8#4, own := some e.seq, ownRows := rows, ownChain := some e.chain
          normAt := runs.map (fun r => (r.1, r.2.2.flatten)) }
        .done Status.accepted 0 false (s.setGroup k g)

/-- RY_OWN. -/
def execRyOwn (ctx : Nat) (seq : W32) (s : State) : Host.Outcome State Fault Refusal :=
  match s.runnable .ryOwn ctx seq with
  | none => .next s
  | some e =>
    let s := s.ryAgain e
    match s.runnable .ryOwn ctx seq with
    | none => .next s
    | some e => .next (s.startOrSettle e (s.roundWork e ryOwnWork))

/-! ## RY_ROUND_CLOSE (R198, R202, R203) -/

/-- The natural index of each block of the own shard. -/
def RyGroup.ownBlocks (g : RyGroup) : List Nat :=
  (List.range (g.count g.d.position)).filterMap (fun n => (g.block g.d.position n).map (fun a => a.natural))

/-- The block groups of the own shard, in order: group index and the blocks of each. -/
def RyGroup.ownGroups (g : RyGroup) : List (Nat × List Nat) :=
  let j := g.d.position
  let ns := (List.range (g.count j)).map (fun n => ((groupAt g.d.size j g.tensors 0 n).getD 0, n))
  ns.foldl (fun (acc : List (Nat × List Nat)) (x : Nat × Nat) =>
    match acc.getLast? with
    | some l => if l.1 = x.1 then acc.dropLast ++ [(l.1, l.2 ++ [x.2])] else acc ++ [(x.1, [x.2])]
    | none => [(x.1, [x.2])]) []

/-- The new guard byte of a group (R198 step 1). -/
def RyGroup.newGuard (g : RyGroup) (x : Nat × List Nat) : Nat :=
  let old := (g.guards.getD x.1 0).toNat
  if x.2.any (fun n => (g.finals.getD n (false, [])).1) then min (old + 1) 8 else old - 1

/-- The new scale byte of a block (R198 step 2), `x` its group's guard. -/
def RyGroup.newScale (g : RyGroup) (n natural x : Nat) : Nat :=
  let m := ((g.finals.getD n (false, [])).2.map Int.natAbs).foldl max 0
  if m = 0 then g.scale natural else
  let e : Int := (Nat.log2 m : Int) + ((g.scale natural : Int) - 127)
  (min 127 (max (-127) (e + 1 + (g.d.guard : Int) + (x : Int) - 15)) + 127).toNat

/-- The pending forecast bytes: scales of the owned blocks, then guards of the owned groups. -/
def RyGroup.pendingBytes (g : RyGroup) : Bytes :=
  let gs := g.ownGroups
  let scales := gs.flatMap (fun x => x.2.map (fun n =>
    g.newScale n (g.ownBlocks.getD n 0) (g.newGuard x)))
  (scales ++ gs.map g.newGuard).map (BitVec.ofNat 8)

/-- Blocks whose primary and backup checksums differ (R202): nothing is compared unless the own contribution
became READY after its substitution. -/
def State.divergent (s : State) (g : RyGroup) : Nat :=
  if g.settled ≠ some 1 ∨ g.primary.isNone then 0 else
  let work := s.readRuns g.work
  ((List.range g.d.size).flatMap (fun j => (List.range (g.count j)).filter (fun n =>
    match g.block j n with
    | none => false
    | some a =>
      let c := s.contrib g g.mine a
      fieldOf work (4 * a.natural) 4 != chkLo c.ms + 65536 * chkHi c.ms))).length

/-- BACKUPS of the final token. -/
def RyGroup.backupsN (g : RyGroup) : Nat :=
  match g.lap2 with
  | some t => popCount1024 t.backups
  | none => 0
where
  /-- bits set. -/
  popCount1024 (m : BitVec 1024) : Nat := ((List.range 1024).filter (fun i => m.getLsbD i)).length

/-- The round record (R203). SETTLED of a position that had not settled when the host ended its round is 2 MISSING (DESIGN
CHOICE, log 98). -/
def RyGroup.record (g : RyGroup) (st : Status) (div : Nat) (now : W64) : Bytes :=
  leBytes 8 g.d.round.toNat ++ leBytes 1 st.toNat ++
  leBytes 1 (g.settled.getD 2 + 4 * (decide (0 < div)).toNat + 8 * g.why) ++ leBytes 2 g.d.position ++
  leBytes 2 g.d.size ++ leBytes 2 g.backupsN ++ leBytes 8 g.n.blocksIn ++ leBytes 8 g.n.blocksOut ++
  leBytes 8 g.n.escHere ++ leBytes 8 g.n.escFinal ++ leBytes 8 g.n.sat ++ leBytes 8 g.n.nonfinite ++
  leBytes 8 g.n.resends ++ leBytes 8 div ++ leBytes 8 g.tOpen.toNat ++ leBytes 8 g.tReady.toNat ++
  leBytes 8 g.tData.toNat ++ leBytes 8 now.toNat ++ zeroBytes 16

/-- RESULT of RY_ROUND_CLOSE (R261). -/
def RyGroup.closeResult (g : RyGroup) (div : Nat) : W32 × Bool :=
  (BitVec.ofNat 32 (min div 65535 + 65536 * g.backupsN), decide (65535 < div))

/-- Whether RY_HOP or RY_OWN of the round is still to complete (R203): one that was accepted before the close. A close with
none accepted before it waits for none (DESIGN CHOICE, log 98). -/
def State.hopsLive (s : State) (e : Entry) (g : RyGroup) : Bool :=
  (s.entriesOf e.ctx).any (fun x => decide (x.id < e.id) && decide (g.openId < x.id) && x.live &&
    (x.op == some .ryHop || x.op == some .ryOwn) && x.field 0x10 1 % 16 == e.field 0x10 1 % 16)

/-- RY_ROUND_CLOSE of an aborted round (R203): it writes the round record and nothing else, and completes with ROUND_ABORTED
whatever else applies to it (R229); a record that cannot be written is left out. -/
def abortedClose (s : State) (e : Entry) (g : RyGroup) : Plan :=
  let rs := s.runsOf e.ctx true [(g.d.record, 128)]
  let bad := s.portIssues g.d.ports ++ rs.1 ++ s.sealIssues e.ctx [] [] rs.2.flatten
  let r := g.closeResult 0
  .done { Delta.none with
    notes := [Status.roundAborted], result := r.1, sat := r.2
    commit := if bad.isEmpty then itemsAt rs.2.flatten 0 (g.record Status.roundAborted 0 s.stamp) else [] }

/-- RY_ROUND_CLOSE once nothing of its round is at work (R203). -/
def roundClosePlan (s : State) (e : Entry) : Plan :=
  match s.openGroup e with
  | none => .fail [Status.malformed]
  | some (_, g) =>
    if g.phase != .aborted && !e.clean [(0x10, 0, 4), (0x10, 5, 1)] then .fail [Status.malformed]
    else if s.hopsLive e g then .wait
    else if g.phase == .aborted then abortedClose s e g else
    let keep := (e.field 0x10 1).testBit 5
    let bs := if keep then [] else s.ryBuffers e g.tensors RyTensor.buffer true
    if s.bufferWait e (bs.map (fun b => b.head)) then .wait else
    let pending := g.pendingBytes
    let rs := s.runsOf e.ctx true [(g.d.record, 128 + pending.length)]
    let issues := s.bufIssues e g.d.ports bs ++ rs.1 ++ s.sealIssues e.ctx [] [] (s.structRuns e ++ rs.2.flatten)
    planOf issues (fun _ =>
      let div := s.divergent g
      let notes :=
        (if 0 < g.n.escHere + g.n.escFinal then [Status.escalated] else []) ++
        (if g.settled = some 1 ∨ g.hopBackup = true ∨ g.ownBackup = true then [Status.backupTaken] else [])
      let st := ({ e with notes := e.notes ++ notes } : Entry).finalStatus Status.ok
      let r := g.closeResult div
      { Delta.none with
        notes := notes, result := r.1, sat := r.2
        commit := bs.filterMap (fun b => b.buf.map (fun x => x.clearItem e)) ++
          itemsAt rs.2.flatten 0 (g.record st div s.stamp ++ pending)
        counts := if div = 0 then [] else [(Counter.exchange 2, div)] })

/-- What follows a committed close: the round is over, and every divergence fault is written (R202). -/
def State.afterClose (s t : State) (e : Entry) : State :=
  match s.openGroup e, t.entryAt e.id with
  | some (k, g), some x =>
    if x.decided && Status.completed x.status then
      let div := if g.phase = .data then s.divergent g else 0
      let g := { g with isOpen := false, closeId := some e.id, n := { g.n with divergences := div }, inbox := [], subs := [] }
      let t := (t.setGroup k g).traceRound k 3 g e.seq g.n.escHere
      (List.range div).foldl (fun t _ => t.traceFault .divergence 4 .collar g.ctx (g.primary.getD 0)) t
    else t
  | _, _ => t

/-- RY_ROUND_CLOSE (R192, R203): in the ready phase it ends the round, whose commands then complete with
ROUND_ABORTED. -/
def execRyRoundClose (ctx : Nat) (seq : W32) (s : State) : Host.Outcome State Fault Refusal :=
  match s.runnable .ryRoundClose ctx seq with
  | none => .next s
  | some e =>
    let s := match e.clean [(0x10, 0, 4), (0x10, 5, 1)], s.openGroup e with
      | true, some (k, g) => if g.phase == RyPhase.ready then s.abortRound k g 3 else s
      | _, _ => s
    match s.runWork .ryRoundClose ctx seq [] roundClosePlan with
    | .next t => .next (s.afterClose t e)
    | x => x

/-! ## The parameter lap (R204, R205, R407, R260) -/

/-- The round that a parameter command names: its group, once closed without abort; `none` when it has to wait
for an earlier RY_ROUND_CLOSE. Of an aborted round it is MALFORMED by R260, not ROUND_ABORTED by R191 (DESIGN CHOICE,
log 98). -/
def State.lapGroup (s : State) (e : Entry) (d : RyDesc) : Option (Except Status (Nat × RyGroup)) :=
  let closing := (s.entriesOf e.ctx).any (fun x => decide (x.id < e.id) && x.live && !x.decided &&
    x.op == some .ryRoundClose && x.field 0x10 1 % 16 == d.group)
  match smGet? s.groups d.group with
  | none => some (.error Status.malformed)
  | some g =>
    if g.isOpen then (if closing then none else some (.error Status.malformed))
    else if g.ctx ≠ e.ctx ∨ g.phase ≠ .data ∨ g.d.round ≠ d.round ∨ s.vcTaken g.d = true then
      some (.error Status.malformed)
    else some (.ok (d.group, g))

/-- The key of a sealed parameter stream (R407). -/
def Seal.ringKey (x : Seal) : Bytes := hkdf384 (leBytes 32 x.key.toNat) (asciiBytes "G5 ring") 32

/-- Its IV. -/
def ringIv (round : W64) (tensor shard : Nat) : Bytes := leBytes 8 round.toNat ++ leBytes 2 tensor ++ leBytes 2 shard

/-- Payloads of 64 bytes, the last padded with zeros. -/
def payloads (bs : Bytes) : List Bytes :=
  (List.range (ceilDiv bs.length 64)).map (fun i =>
    let p := (bs.drop (64 * i)).take 64
    p ++ zeroBytes (64 - p.length))

/-- A tensor's own shard ready to send. -/
structure LapOut where
  issues : List Status
  head : RyHead
  rows : List Bytes
  runs : List Run
  seal_ : Option Seal
  /-- its stored copy is known, so its header takes part in the comparison of R205. -/
  known : Bool
  deriving Repr

/-- Scale and guard bytes of a tensor in the pending bytes of the own shard (R203, R204). -/
def RyGroup.tensorPending (g : RyGroup) (tensor : Nat) (pending : Bytes) : Bytes :=
  let j := g.d.position
  let before := (g.tensors.take tensor)
  let t := g.tensors.getD tensor (RyTensor.parse [])
  let groupsBefore := (before.map (fun x => x.shardGroups g.d.size j)).foldl (· + ·) 0
  (pending.drop (shardCount before g.d.size j)).take (t.shardBlocks g.d.size j) ++
  (pending.drop (g.count j + groupsBefore)).take (t.shardGroups g.d.size j)

/-- The shard of a tensor that has no row here: a header with no data (R204), FMT and VERSION 0 (DESIGN CHOICE, log 48). -/
def State.lapEmpty (s : State) (e : Entry) (g : RyGroup) (i : Nat) (t : RyTensor) : LapOut :=
  let part := if t.normPart = 0 then ([], []) else s.runsOf e.ctx false [(t.normPart, 8)]
  LapOut.mk part.1
    (RyHead.mk i g.d.position 0 0 (BitVec.ofNat 64 (leNat (s.readRuns part.2.flatten))) 0 0 0 []) [] [] none true

/-- Read the NEWEST stored copy of an owner descriptor; one that is sent needs a fresh ROUND where it is sealed
(R407). -/
def State.lapTensor (s : State) (e : Entry) (g : RyGroup) (i : Nat) (t : RyTensor) (pending : Bytes) (sent : Bool) :
    LapOut :=
  if t.shardRows g.d.size g.d.position = 0 then s.lapEmpty e g i t else
  let none_ := fun (st : List Status) => LapOut.mk st (RyHead.mk i g.d.position 0 0 0 0 0 0 []) [] [] none false
  match s.readStruct e.ctx t.owner 256 64 with
  | .error st => none_ [st]
  | .ok b =>
    let p := PDesc.parse b
    let v := p.slots.getD p.newest (VSlot.parse [])
    match formatOf v.fmt with
    | none => none_ [Status.malformed]
    | some f =>
      if v.state ≠ 1 ∨ p.newest = 3 then none_ [Status.outOfBounds] else
      let n := t.shardRows g.d.size g.d.position
      let rb := rowBytes f t.cols
      let rs := s.runsOf e.ctx false ((List.range n).map (fun r => (v.base + r * v.pitch, rb)))
      let part := if t.normPart = 0 then ([], []) else s.runsOf e.ctx false [(t.normPart, 8)]
      let seals := s.sealsOf rs.2.flatten
      let foreign := seals.any (fun x => x.ctx != e.ctx || !s.sealedUnder e.ctx x.sealId rs.2.flatten)
      let fb := g.tensorPending i pending
      LapOut.mk (p.issues ++ need (decide (p.rowsN = n ∧ p.colsN = t.cols)) ++ rs.1 ++ part.1 ++
          (if foreign then [Status.isSealed] else []) ++
          (match seals.head? with
            | some x => need (!sent || (match x.lastRound with | some r => decide (r < g.d.round.toNat) | none => true))
            | none => []))
        (RyHead.mk i g.d.position v.fmt v.version (BitVec.ofNat 64 (leNat (s.readRuns part.2.flatten))) (n * rb) fb.length 0 fb)
        (rs.2.map s.readRuns) rs.2.flatten seals.head? true

/-- The own shard of a tensor that RY_PARAM_RECV neither copies nor adds: only its pending forecast bytes count (R205). -/
def RyGroup.lapBare (g : RyGroup) (i : Nat) (pending : Bytes) : LapOut :=
  LapOut.mk [] (RyHead.mk i g.d.position 0 0 0 0 (g.tensorPending i pending).length 0 (g.tensorPending i pending)) [] [] none
    false

/-- A parameter header (R204). -/
def RyHead.bytes64 (h : RyHead) : Bytes :=
  leBytes 2 h.tensor ++ leBytes 2 h.shard ++ leBytes 4 h.fmt ++ leBytes 8 h.version.toNat ++
  leBytes 8 h.part.toNat ++ leBytes 8 h.dataBytes ++ leBytes 8 h.forecastBytes ++ zeroBytes 24

/-- The packets of a tensor: header, rows, forecast bytes; a sealed shard goes encrypted with its tag (R407). -/
def LapOut.packets (o : LapOut) (round : W64) : List (Nat × Bytes) :=
  let data := match o.seal_ with
    | none => o.rows.flatMap payloads
    | some x =>
      let ct := gcmEncrypt x.ringKey (ringIv round o.head.tensor o.head.shard) [] o.rows.flatten
      ((groupsOf (o.rows.headD []).length o.rows.length ct.1).flatMap payloads) ++ payloads ct.2
  (6, o.head.bytes64) :: data.map (fun d => (7, d)) ++ (payloads o.head.bytes).map (fun d => (8, d))

/-- The pending bytes of a closed round, as they stand at RECORD (R203). -/
def State.lapPending (s : State) (e : Entry) (g : RyGroup) : List Status × List Run :=
  let n := g.count g.d.position + ((g.tensors.map (fun t => t.shardGroups g.d.size g.d.position)).foldl (· + ·) 0)
  let r := s.runsOf e.ctx false [(g.d.record + 128, n)]
  (r.1, r.2.flatten)

/-- RY_PARAM_SEND (R204, R260, R407). -/
def ryParamSendWork (s : State) (e : Entry) : Verdict :=
  if !e.clean [(0x10, 0, 64)] then .fail [Status.malformed] [] else
  match s.roundDesc e with
  | .error st => .fail (st :: s.coreIssues e.ctx) []
  | .ok d =>
    match s.lapGroup e d with
    | none => .wait
    | some (.error st) => .fail (st :: s.coreIssues e.ctx) []
    | some (.ok (k, g)) =>
      if (s.entriesOf e.ctx).any (fun x => some x.chain == g.ownChain && decide (0 < x.member.getD 0) && x.live && !x.decided)
      then .wait else
      let pend := s.lapPending e g
      let outs := g.tensors.zipIdx.map (fun (t : RyTensor × Nat) => s.lapTensor e g t.2 t.1 (s.readRuns pend.2) true)
      let issues := s.coreIssues e.ctx ++ s.portIssues g.d.ports ++ pend.1 ++ outs.flatMap (fun o => o.issues) ++
        s.sealIssues e.ctx [] [] (s.structRuns e)
      if !issues.isEmpty then .fail issues [] else
      let used := outs.filterMap (fun o => o.seal_.map (fun x => x.handle))
      let s := (outs.flatMap (fun o => o.packets g.d.round) ++ g.forward).foldl (fun t x => t.sendRy g (some e.seq) g.d.down x.1 x.2)
        (s.setGroup k { g with sent := true, forward := [] })
      .done Status.ok (BitVec.ofNat 32 outs.length) false
        { s with lining := { s.lining with seals := s.lining.seals.map (fun x =>
            if used.contains x.handle then { x with lastRound := some g.d.round.toNat } else x) } }

/-- RY_PARAM_SEND. -/
def execRyParamSend (ctx : Nat) (seq : W32) (s : State) : Host.Outcome State Fault Refusal :=
  s.runOp .ryParamSend ctx seq ryParamSendWork

/-- The closed group whose UP channel a packet of the parameter lap comes in on. -/
def State.lapAt (s : State) (p ep vc : Nat) : Option (Nat × RyGroup) :=
  s.groups.find? (fun (x : Nat × RyGroup) =>
    !x.2.isOpen && x.2.phase == .data && x.2.d.vc == vc && x.2.d.up.port == p && x.2.d.up.ep == ep)

/-- Pass a packet of the lap on, unless its stream belongs to the downstream neighbour: behind the own stream, which goes
first on the link (R204). -/
def State.passLap (s : State) (k shard type : Nat) (b : Bytes) : State :=
  match smGet? s.groups k with
  | none => s
  | some g =>
    if shard = (g.d.position + 1) % g.d.size then s
    else if g.sent then s.sendRy g g.recv g.d.down type b
    else s.setGroup k { g with forward := g.forward ++ [(type, b)] }

/-- The rows of a replica slot that a shard covers. -/
def RyReplica.rowsOf (r : RyReplica) (t : RyTensor) (size shard rb : Nat) : List (Nat × Nat) :=
  (List.range (t.shardRows size shard)).map (fun i => (r.base + (t.lo size shard + i) * r.pitch, rb))

/-- Store bytes of a replica slot by virtual address. -/
def State.lapStore (s : State) (k : Nat) (g : RyGroup) (va : Nat) (bs : Bytes) : State :=
  match s.resolve g.ctx va bs.length true with
  | .error st => s.setGroup k { g with recvErr := some (g.recvErr.getD st) }
  | .ok rs =>
    if (s.sealsOf rs).any (fun x => x.ctx != g.ctx) then
      s.setGroup k { g with recvErr := some (g.recvErr.getD Status.isSealed) }
    else (((splitRuns rs bs).foldl (fun t w => t.bounceStore g.ctx w.1 w.2) s).dropCopies rs).l2Invalidate rs

/-- A data payload after its header: a piece of a row, or the tag of a sealed stream (R205, R407). -/
def State.lapData (s : State) (k : Nat) (g : RyGroup) (h : RyHead) (b : Bytes) : State :=
  let t := g.tensors.getD h.tensor (RyTensor.parse [])
  match g.replicas.find? (fun r => r.tensor == h.tensor), formatOf h.fmt with
  | some r, some f =>
    let rb := rowBytes f t.cols
    let per := ceilDiv rb 64
    let row := h.got / max 1 per
    if r.pitch < rb then s.setGroup k { g with recvErr := some (g.recvErr.getD Status.outOfBounds) }
    else if row < t.shardRows g.d.size h.shard then
      let off := 64 * (h.got % max 1 per)
      s.lapStore k g (r.base + (t.lo g.d.size h.shard + row) * r.pitch + off) (b.take (rb - off))
    else
      let rs := s.runsOf g.ctx true (r.rowsOf t g.d.size h.shard rb)
      let seal_ := (s.sealsOf rs.2.flatten).head?
      let plain := match seal_ with
        | some x => if s.sealedUnder g.ctx x.sealId rs.2.flatten then
            gcmDecrypt x.ringKey (ringIv g.d.round h.tensor h.shard) [] (rs.2.flatMap s.readRuns) (b.take 16)
          else none
        | none => none
      match plain with
      | none => s.setGroup k { g with recvErr := some (g.recvErr.getD Status.isSealed) }
      | some bs =>
        (((splitRuns rs.2.flatten bs).foldl (fun t w => t.bounceStore g.ctx w.1 w.2) s).dropCopies
          rs.2.flatten).l2Invalidate rs.2.flatten
  | _, _ => s

/-- Put a changed last header back. -/
def RyGroup.setLast (g : RyGroup) (h : RyHead) : RyGroup := { g with heads := g.heads.dropLast ++ [h] }

/-- One packet of the lap, once an RY_PARAM_RECV is at work. -/
def State.lapStep (s : State) (k : Nat) (x : Nat × Bytes) : State :=
  match smGet? s.groups k with
  | none => s
  | some g =>
    if x.1 = 6 then
      let h := RyHead.mk (bitsOf (fieldOf x.2 0 2) 0 12) (bitsOf (fieldOf x.2 2 2) 0 10) (bitsOf (fieldOf x.2 4 1) 0 4)
        (BitVec.ofNat 64 (fieldOf x.2 8 8)) (BitVec.ofNat 64 (fieldOf x.2 0x10 8)) (fieldOf x.2 0x18 8)
        (fieldOf x.2 0x20 8) 0 []
      if h.tensor < g.tensors.length ∧ h.shard < g.d.size ∧ h.shard ≠ g.d.position then
        (s.setGroup k { g with heads := g.heads ++ [h] }).passLap k h.shard 6 x.2
      else s
    else
      match g.heads.getLast? with
      | none => s
      | some h =>
        let s := s.passLap k h.shard x.1 x.2
        let g := (smGet? s.groups k).getD g
        if x.1 = 7 then
          let s := s.lapData k g h x.2
          let g := (smGet? s.groups k).getD g
          s.setGroup k (g.setLast { h with got := h.got + 1 })
        else
          s.setGroup k (g.setLast { h with bytes := h.bytes ++ x.2.take (h.forecastBytes - h.bytes.length) })

/-- A packet of the lap arrives: it waits for an RY_PARAM_RECV where none is at work. -/
def State.lapPacket (s : State) (p ep vc type : Nat) (b : Bytes) : State :=
  match s.lapAt p ep vc with
  | none => s
  | some (k, g) =>
    if g.recv.isSome then s.lapStep k (type, b) else s.setGroup k { g with early := g.early ++ [(type, b)] }

/-- Take a packet of the lap, for the RY_PARAM_RECV at work if any (R353). -/
def State.lapIn (s : State) (p ep vc type : Nat) (data : Bytes) : State :=
  let who := (s.lapAt p ep vc).bind (fun x => x.2.for_ x.2.recv)
  s.meteredFor ((s.takeRx p .msg vc ep type who).lapPacket p ep vc type data) who

/-- PARAMETER_HEADER (R204). -/
def execParameterHeader (p ep vc : Nat) (data : Bytes) (s : State) : Host.Outcome State Fault Refusal :=
  .next (s.lapIn p ep vc 6 data)

/-- PARAMETER_DATA (R205). -/
def execParameterData (p ep vc : Nat) (data : Bytes) (s : State) : Host.Outcome State Fault Refusal :=
  .next (s.lapIn p ep vc 7 data)

/-- FORECAST_DATA (R205). -/
def execForecastData (p ep vc : Nat) (data : Bytes) (s : State) : Host.Outcome State Fault Refusal :=
  .next (s.lapIn p ep vc 8 data)

/-- The replicas that an RY_PARAM_RECV writes, each with the slot that it takes (R177, R205): none while one has
no free slot or an earlier writer is at work. -/
def State.lapReplicas (s : State) (e : Entry) (g : RyGroup) : List Status × Option (Option (List RyReplica)) :=
  g.tensors.zipIdx.foldl (fun (acc : List Status × Option (Option (List RyReplica))) (t : RyTensor × Nat) =>
    if t.1.replica = 0 then acc else
    match s.openParam e.ctx t.1.replica with
    | .error st => (acc.1 ++ [st], acc.2)
    | .ok x =>
      let bad := x.p.issues ++ need (decide (x.p.master = 0 ∧ x.p.rowsN = t.1.rows ∧ x.p.colsN = t.1.cols))
      if s.paramWait e x.pa then (acc.1 ++ bad, none) else
      match s.takeSlot e x with
      | none => (acc.1 ++ bad, acc.2.map (fun _ => none))
      | some i =>
        let v := x.p.slots.getD i (VSlot.parse [])
        (acc.1 ++ bad, acc.2.map (fun l => l.map (fun l => l ++ [RyReplica.mk t.2 x.runs i v.base v.pitch]))))
    ([], some (some []))

/-- Whether every stream of the lap has come in whole, its header also where the shard has no row (R204). -/
def RyGroup.lapWhole (g : RyGroup) : Bool :=
  g.tensors.zipIdx.all (fun (t : RyTensor × Nat) => (List.range g.d.size).all (fun j =>
    j == g.d.position ||
    g.heads.any (fun h => h.tensor == t.2 && h.shard == j && h.bytes.length == h.forecastBytes &&
      (match formatOf h.fmt with
        | some f => decide (t.1.shardRows g.d.size j * ceilDiv (rowBytes f t.1.cols) 64 ≤ h.got)
        | none => true))))

/-- The headers of a tensor with its own, in ascending shard order. -/
def RyGroup.headsOf (g : RyGroup) (own : List RyHead) (tensor : Nat) : List RyHead :=
  (List.range g.d.size).filterMap (fun j => (g.heads ++ own).find? (fun h => h.tensor == tensor && h.shard == j))

/-- The headers of a tensor whose shards have rows: those that name a stored copy (log 48). -/
def RyGroup.copiesOf (g : RyGroup) (own : List RyHead) (tensor : Nat) : List RyHead :=
  (g.headsOf own tensor).filter (fun h => (g.tensors.getD tensor (RyTensor.parse [])).shardRows g.d.size h.shard != 0)

/-- All headers of every tensor carry one version and one FMT (R205). -/
def RyGroup.lapAgrees (g : RyGroup) (own : List RyHead) : Bool :=
  (List.range g.tensors.length).all (fun i =>
    match g.copiesOf own i with
    | [] => true
    | h :: hs => hs.all (fun x => x.version == h.version && x.fmt == h.fmt))

/-- Forecast bytes of a shard of a tensor: where its scale bytes and its guard bytes go in the table (R196). -/
def RyGroup.tablePlaces (g : RyGroup) (tensor shard : Nat) : Nat × Nat × Nat :=
  let before := g.tensors.take tensor
  let t := g.tensors.getD tensor (RyTensor.parse [])
  (64 + blocksAll before + t.lo g.d.size shard * t.rowBlocks,
    64 + g.tableBlocks + groupsAll before g.d.size + ((List.range shard).map (t.shardGroups g.d.size)).foldl (· + ·) 0,
    t.shardBlocks g.d.size shard)

/-- The end of the lap (R205), `own` the own shard's tensors. -/
def State.lapCommit (s : State) (e : Entry) (g : RyGroup) (own : List LapOut) : Plan :=
  let hs := own.map (fun o => o.head)
  let table := s.runsOf e.ctx true [(g.d.forecast, 64 + g.tableBlocks + groupsAll g.tensors g.d.size)]
  let norms := g.tensors.zipIdx.filter (fun (t : RyTensor × Nat) => t.1.norm != 0)
  let nr := norms.map (fun t => (t.2, s.runsOf e.ctx true [(t.1.norm, 32)]))
  let copies := g.replicas.map (fun r =>
    let t := g.tensors.getD r.tensor (RyTensor.parse [])
    match own.find? (fun o => o.head.tensor == r.tensor) with
    | none => (([], []), [])
    | some o =>
      let rb := match formatOf o.head.fmt with | some f => rowBytes f t.cols | none => 0
      (s.runsOf e.ctx true (r.rowsOf t g.d.size g.d.position rb), o.rows))
  let vals := own.flatMap (fun o => o.runs)
  let outs := copies.flatMap (fun c => c.1.2.flatten)
  planOf (table.1 ++ nr.flatMap (fun x => x.2.1) ++ copies.flatMap (fun c => c.1.1) ++ s.sealIssues e.ctx vals outs [])
    (fun _ =>
      let tr := table.2.flatten
      { Delta.none with
        result := BitVec.ofNat 32 g.replicas.length
        writes := copies.flatMap (fun c => (List.zipWith splitRuns c.1.2 c.2).flatten)
        commit :=
          g.replicas.flatMap (fun r =>
            match g.copiesOf hs r.tensor with
            | [] => []
            | h :: _ => slotItems r.runs r.slot h.version h.fmt ++ itemsAt r.runs 0x18 (leBytes 8 r.slot)) ++
          nr.flatMap (fun x =>
            match (g.headsOf hs x.1).map (fun h => h.part.toNat) with
            | [] => []
            | v :: vs =>
              let flags := fieldOf ((s.readRuns x.2.2.flatten).drop 0x18) 0 1
              itemsAt x.2.2.flatten 8 (leBytes 8 (vs.foldl add64 v)) ++ itemsAt x.2.2.flatten 0x18 (leBytes 1 (flags ||| 2))) ++
          (g.heads ++ hs).flatMap (fun h =>
            let p := g.tablePlaces h.tensor h.shard
            itemsAt tr p.1 (h.bytes.take p.2.2) ++ itemsAt tr p.2.1 (h.bytes.drop p.2.2)) ++
          itemsAt tr 0 (leBytes 1 1) ++ itemsAt tr 0x18 (leBytes 8 (g.d.round + 1).toNat) })

/-- The write that gives a replica's slot a STATE: 0 EMPTY, 2 WRITING (R157, R175). -/
def RyReplica.stateWrites (r : RyReplica) (s : State) (state : Nat) : List (Nat × Bytes) :=
  let a := 0x70 + 0x20 * r.slot
  writesAt r.runs a (leBytes 1 (fieldOf (s.readRuns r.runs) a 1 % 16 + 16 * state))

/-- Give the slots of some replicas a STATE; staged blocks that cover them go (R284). -/
def State.markReplicas (s : State) (rs : List RyReplica) (state : Nat) : State :=
  let ws := rs.flatMap (fun r => r.stateWrites s state)
  (ws.foldl (fun t w => t.put w.1 w.2) s).dropCopies (ws.map (fun w => (w.1, w.2.length)))

/-- RY_PARAM_RECV's work on its round (R205). -/
def ryParamRecvPlan (s : State) (e : Entry) : Plan :=
  if !e.clean [(0x10, 0, 64)] then .fail [Status.malformed] else
  match s.roundDesc e with
  | .error st => .fail (st :: s.coreIssues e.ctx)
  | .ok d =>
    match s.lapGroup e d with
    | none => .wait
    | some (.error st) => .fail (st :: s.coreIssues e.ctx)
    | some (.ok (_, g)) =>
      if g.recv ≠ some e.seq then
        let r := s.lapReplicas e g
        let issues := s.coreIssues e.ctx ++ s.portIssues g.d.ports ++ r.1 ++ s.sealIssues e.ctx [] [] (s.structRuns e)
        if !issues.isEmpty then .fail issues
        else match r.2 with
          | some none => .hold Status.versionWait
          | _ => .wait
      else
        if s.portGone g.d.ports then .fail [Status.unitAbsent]
        else if !g.lapWhole then .wait else
        let pend := s.lapPending e g
        let own := g.tensors.zipIdx.map (fun (t : RyTensor × Nat) =>
          if t.1.shardRows g.d.size g.d.position == 0 || t.1.owner != 0 || t.1.replica != 0 || t.1.norm != 0 then
            s.lapTensor e g t.2 t.1 (s.readRuns pend.2) false
          else g.lapBare t.2 (s.readRuns pend.2))
        let issues := g.recvErr.toList ++ pend.1 ++ own.flatMap (fun o => o.issues)
        if !g.lapAgrees ((own.filter (fun o => o.known)).map (fun o => o.head)) then
          .done { Delta.none with
            notes := [Status.roundAborted]
            writes := g.replicas.flatMap (fun r => r.stateWrites s 0) }
        else if !issues.isEmpty then .fail issues
        else s.lapCommit e g own

/-- The start of an RY_PARAM_RECV: it takes its slots, which it is to write (R175), and the packets that came before it
follow. -/
def State.lapBegin (s : State) (e : Entry) : Option State :=
  match s.roundDesc e with
  | .error _ => none
  | .ok d =>
    match s.lapGroup e d with
    | some (.ok (k, g)) =>
      let r := s.lapReplicas e g
      let issues := s.coreIssues e.ctx ++ s.portIssues g.d.ports ++ r.1 ++ s.sealIssues e.ctx [] [] (s.structRuns e)
      match r.2 with
      | some (some l) =>
        if e.clean [(0x10, 0, 64)] && issues.isEmpty && g.recv != some e.seq then
          let h := { g with recv := some e.seq, replicas := l, heads := [], early := [], recvErr := none }
          let taken := s.takenWith e ((l.flatMap (fun x => x.stateWrites s 2)).map (fun w => w.1))
          some (g.early.foldl (fun t x => t.lapStep k x)
            (((s.markReplicas l 2).setEntry { e with taken := taken }).setGroup k h))
        else none
      | _ => none
    | _ => none

/-- An RY_PARAM_RECV that failed at its work, its slots EMPTY again, writes no replica any more. -/
def State.lapFailed (s : State) (e : Entry) : State :=
  match s.entryAt e.id, s.groups.find? (fun (x : Nat × RyGroup) => x.2.ctx == e.ctx && x.2.recv == some e.seq) with
  | some x, some (k, g) =>
    if x.decided && Status.failed x.status then s.setGroup k { g with replicas := [] } else s
  | _, _ => s

/-- RY_PARAM_RECV (R205). -/
def execRyParamRecv (ctx : Nat) (seq : W32) (s : State) : Host.Outcome State Fault Refusal :=
  match s.runnable .ryParamRecv ctx seq with
  | none => .next s
  | some e =>
    match s.lapBegin e with
    | some t => .next t
    | none =>
      match s.runWork .ryParamRecv ctx seq [] ryParamRecvPlan with
      | .next t => .next (t.lapFailed e)
      | x => x

end Sys2Proof.Machine
end

