-- ==== Sys2Proof/Machine/Governor.lean ====
section
/-!
DEFINITION. Sys2Proof/Machine/Governor.lean: the precision governor (06): GOV_BOUNDS (R135, R147, R148), GOV_READ
(R263) and GOV_STEP with its decisions (R143-R154) and ledger records (R155, R156). Gathering and merging are in
Operands and Ledger; the context's `area`, `lastRecs`, `waiting` and `ladders` are what the governor region holds.
-/
namespace Sys2Proof.Machine

/-! ## Predictions and thresholds (R149, R150) -/

/-- The figures that a decision looks at. -/
structure Figures where
  sat : Nat
  und : Nat
  r : Val
  deriving Repr

/-- The error estimate r of a record, as a binary64 code (R141). -/
def StatRec.errEst (x : StatRec) : Nat :=
  if (val64 x.eDen.toNat).isZero then 0 else div64 (fabs binary64 x.eNum.toNat) x.eDen.toNat

/-- The figures as measured. -/
def StatRec.measured (x : StatRec) : Figures := Figures.mk x.nSat x.nUnd (val64 x.errEst)

/-- Bin b lies wholly above an exponent: its smallest exponent is greater (R149). -/
def binAbove (emax : Int) (b : Nat) : Bool := decide (0 < b ∧ emax < (b : Int) - 40)
/-- Bin b lies wholly at or below an exponent. -/
def binBelow (lim : Int) (b : Nat) : Bool := decide (b < 63 ∧ (b : Int) - 40 ≤ lim)

/-- The elements in the bins that a test picks. -/
def StatRec.inBins (x : StatRec) (p : Nat → Bool) : Nat :=
  ((x.hist.zipIdx.filter (fun (h : Nat × Nat) => p h.2)).map (fun h => h.1)).foldl (· + ·) 0

/-- The figures predicted for a format from a record measured at another (R149). -/
def StatRec.predict (x : StatRec) (used target : Format) : Figures :=
  Figures.mk (x.nSat + x.inBins (binAbove (fmtEmax target))) (x.nUnd + x.inBins (binBelow (fmtEsub target - 2)))
    ((val64 x.errEst).scale ((fmtF used : Int) - (fmtF target : Int)))

/-- The thresholds of R150 on `n` elements. -/
def Ladder.meets (l : Ladder) (n : Nat) (f : Figures) : Bool :=
  decide (f.sat * 2 ^ l.tSat < n) && decide (f.und * 2 ^ l.tUnd < n) && f.r.lt (.num false 1 (-(l.tErr : Int)))

/-! ## Decisions (R151, R152, R154) -/

/-- The format of a rung. -/
def Ladder.fmtAt (l : Ladder) (rung : Nat) : Format := (formatOf (l.code rung)).getD .binary32

/-- The figures of a record for a rung: as measured at the current one, else predicted (R152). -/
def Ladder.figures (l : Ladder) (x : StatRec) (rung : Nat) : Figures :=
  if rung = l.rung then x.measured else x.predict (l.fmtAt l.rung) (l.fmtAt rung)

/-- One run of R151 from rung `cur`: the rung, q and need after it, and whether it narrowed or widened, or could
not widen. -/
structure Run151 where
  rung : Nat
  q : Nat
  need : Nat
  event : GovEvent
  deriving DecidableEq, Repr

/-- R151. -/
def Ladder.run151 (l : Ladder) (x : StatRec) (cur : Nat) : Run151 :=
  if x.n = 0 then Run151.mk cur l.q l.need .none
  else if !l.meets x.n (l.figures x cur) then
    if 0 < cur then Run151.mk (cur - 1) 0 (2 * l.h) .widened else Run151.mk cur 0 (2 * l.h) .atWidest
  else if cur + 1 < l.rungs.length && l.meets x.n (x.predict (l.fmtAt l.rung) (l.fmtAt (cur + 1))) then
    if l.need ≤ l.q + 1 then Run151.mk (cur + 1) 0 l.h .narrowed else Run151.mk cur (l.q + 1) l.need .none
  else Run151.mk cur 0 l.need .none

/-- The automatic mode (R151), under an armed schedule (R154). -/
def Ladder.decideAuto (l : Ladder) (x : StatRec) (armed : Bool) : Ladder × GovEvent :=
  let r := l.run151 x l.rung
  match l.pending with
  | some t =>
    if l.rung < t && decide (x.n ≠ 0) && !l.meets x.n x.measured then
      ({ l with q := 0, need := 2 * l.h, pending := if 0 < l.rung then some (l.rung - 1) else none }, .pendingCancelled)
    else (l, .none)
  | none =>
    if armed && r.rung != l.rung then
      ({ l with q := r.q, need := r.need, pending := some r.rung },
        if r.event = .widened then .pendingWiden else .pendingNarrow)
    else ({ l with rung := r.rung, advised := r.rung, q := r.q, need := r.need }, r.event)

/-- The advisory mode (R152). -/
def Ladder.decideAdvised (l : Ladder) (x : StatRec) : Ladder × GovEvent :=
  let r := l.run151 x l.advised
  ({ l with advised := r.rung, q := r.q, need := r.need },
    match r.event with
    | .narrowed => .advisedNarrow
    | .widened => .advisedWiden
    | e => e)

/-- The decision of action 2 (R143): frozen mode decides nothing. -/
def Ladder.decide_ (l : Ladder) (x : StatRec) (armed : Bool) : Ladder × GovEvent :=
  match l.mode with
  | 0 => l.decideAuto x armed
  | 1 => l.decideAdvised x
  | _ => (l, .none)

/-! ## GOV_BOUNDS (R135, R147, R148) -/

/-- The fields of a GOV_BOUNDS, defaults taken: the ladder that it sets, as it takes effect. A change that was pending
for its (layer, role) is dropped: R148 and R154 do not say whether it stands (DESIGN CHOICE, log 95). -/
def Entry.boundsLadder (e : Entry) : Ladder :=
  let dflt := fun (v d : Nat) => if v = 0 then d else v
  let n := bitsOf (e.field 0x12 2) 4 3
  let mode := bitsOf (e.field 0x12 2) 2 2
  let h := dflt (bitsOf (e.field 0x18 1) 0 7) 8
  let rung := if mode = 0 then 0 else bitsOf (e.field 0x12 2) 7 3
  { layer := bitsOf (e.field 0x10 2) 0 12
    role := bitsOf (e.field 0x12 2) 0 2
    mode := mode
    rungs := (List.range n).map (fun i => bitsOf (e.field 0x14 3) (4 * i) 4)
    rung := rung
    advised := rung
    h := h
    tSat := dflt (bitsOf (e.field 0x19 1) 0 5) 16
    tUnd := dflt (bitsOf (e.field 0x1A 1) 0 5) 10
    tErr := dflt (bitsOf (e.field 0x1B 1) 0 5) 7
    q := 0
    need := h
    pending := none
    past := [] }

/-- Whether no element equals a later one. -/
def distinct : List Nat → Bool
  | [] => true
  | x :: xs => !xs.contains x && distinct xs

/-- Whether widths do not increase along a list. -/
def widthsFall : List Format → Bool
  | f :: g :: r => decide (fmtWidth g ≤ fmtWidth f) && widthsFall (g :: r)
  | _ => true

/-- The constraints of R135. -/
def ladderOk (codes : List Nat) : Bool :=
  let fs := codes.filterMap formatOf
  codes.all (fun c => decide (c ≤ 9)) && distinct codes && (fs.all isInt || fs.all (fun f => !isInt f)) && widthsFall fs

/-- The fields of GOV_BOUNDS. -/
def boundsFields : List (Nat × Nat × Nat) :=
  [(0x10, 0, 12), (0x12, 0, 10), (0x14, 0, 24), (0x18, 0, 7), (0x19, 0, 5), (0x1A, 0, 5), (0x1B, 0, 5)]

/-- The ranges of R147 and the constraints of R135. -/
def Entry.boundsOk (e : Entry) : Bool :=
  let l := e.boundsLadder
  let n := l.rungs.length
  e.clean boundsFields && decide (1 ≤ l.layer ∧ l.role ≤ 2 ∧ l.mode ≤ 2 ∧ 1 ≤ n ∧ n ≤ 6) &&
  decide (bitsOf (e.field 0x12 2) 7 3 < n) && decide (e.field 0x14 3 < 2 ^ (4 * n)) && ladderOk l.rungs &&
  decide (l.h ≤ 64 ∧ 4 ≤ l.tSat ∧ l.tSat ≤ 30 ∧ 4 ≤ l.tUnd ∧ l.tUnd ≤ 30 ∧ 2 ≤ l.tErr ∧ l.tErr ≤ 30)

/-- Whether a command resolves a format of one (layer, role) (R148). -/
def State.resolvesRole (s : State) (e : Entry) (layer role : Nat) : Bool :=
  (s.descs e).any (fun d => d.2.gov && d.2.layer == layer && d.2.role == role) ||
  (role == 1 && (e.op == some .update || e.op == some .updateRows) && (s.named e).any (fun n =>
    n.kind == 2 &&
    (match s.readStruct e.ctx n.addr 256 64 with
      | .ok b => (PDesc.parse b).gov && (PDesc.parse b).layer == layer
      | .error _ => false)))

/-- Whether an earlier command of the context holds a governor command back. -/
def State.govWait (s : State) (e : Entry) (which : Entry → Bool) : Bool :=
  (s.entriesOf e.ctx).any (fun x => decide (x.id < e.id) && x.live && !x.decided && which x)

/-- Whether the governor region and the ledger of a context can be used; lost memory holds its commands back
(R387). -/
def Ctx.govLost (c : Ctx) : Bool :=
  (match c.gov with | some r => r.lost | none => false) || (match c.ledger with | some r => r.lost | none => false)

/-- The BOUNDS record that a GOV_BOUNDS writes at its own completion (R148). -/
def Ladder.boundsRec (l : Ladder) (step : W64) (sealedBy : Bool) (seq : W32) : LedgerRec :=
  let f := l.code l.rung
  LedgerRec.mk step l.layer l.role l.mode .bounds false sealedBy f f f l.q l.need 0 0 0 0 seq

/-- GOV_BOUNDS (R148). -/
def govBoundsWork (s : State) (e : Entry) : Verdict :=
  let c := s.ctx e.ctx
  let l := e.boundsLadder
  if c.gov.isNone || !e.boundsOk then .fail [Status.malformed] []
  else if c.govLost || s.govWait e (fun x => x.op == some .govStep || x.op == some .govBounds ||
      s.resolvesRole x l.layer l.role) then .wait
  else
    match c.ladder? l.layer l.role with
    | some _ => .done Status.ok 0 false (s.setCtx e.ctx { c with bounds := c.bounds ++ [(e.seq, l)] })
    | none =>
      let stops := s.regionStops c.ledger
      if !stops.isEmpty then .fail stops [] else
      if s.ledgerRoom e.ctx < 1 then .wait else
      let s := s.setCtx e.ctx { c with ladders := setLadder c.ladders l }
      .done Status.ok 0 false (s.ledgerPut e.ctx (l.boundsRec c.step (c.sealedRole l.layer l.role) e.seq) false)

/-- GOV_BOUNDS. -/
def execGovBounds (ctx : Nat) (seq : W32) (s : State) : Host.Outcome State Fault Refusal :=
  s.runOp .govBounds ctx seq govBoundsWork

/-! ## GOV_READ (R263) -/

/-- A record from its bytes (R140, R146). -/
def StatRec.parse (layer role : Nat) (b : Bytes) : StatRec where
  layer := layer
  role := role
  n := fieldOf b 0x00 8
  nSat := fieldOf b 0x08 8
  nUnd := fieldOf b 0x10 8
  nZero := fieldOf b 0x18 8
  nSpecial := fieldOf b 0x20 8
  eNum := BitVec.ofNat 64 (fieldOf b 0x28 8)
  eDen := BitVec.ofNat 64 (fieldOf b 0x30 8)
  nSampled := fieldOf b 0x38 8
  hist := (List.range 64).map (fun i => fieldOf b (0x80 + 8 * i) 8)
  sealedBy := false

/-- GOV_READ (R263, R264): the record, the ladder and the governor's variables are those that the last committed GOV_STEP
left, as the committed state epoch holds them (R145). -/
def govReadWork (s : State) (e : Entry) : Verdict :=
  let c := s.ctx e.ctx
  let layer := bitsOf (e.field 0x10 2) 0 12
  let role := bitsOf (e.field 0x12 1) 0 2
  let dest := e.field 0x18 8
  if c.gov.isNone || !e.clean [(0x10, 0, 12), (0x12, 0, 2), (0x18, 0, 64)] ||
      decide (layer = 0 ∨ role = 3 ∨ dest = 0) then .fail [Status.malformed] []
  else if c.govLost || s.govWait e (fun x => x.op == some .govStep) then .wait
  else
    match s.resolve e.ctx dest 704 true with
    | .error st => .fail (st :: s.regionStops c.gov) []
    | .ok rs =>
      let issues := s.sealIssues e.ctx [] rs [] ++ s.regionStops c.gov
      if !issues.isEmpty then .fail issues [] else
      let x := (c.lastRecs.find? (fun r => r.layer == layer && r.role == role)).getD (StatRec.empty layer role)
      let l := c.lastLadders.find? (fun l => l.layer == layer && l.role == role)
      let bs := (if x.sealedBy then zeroBytes 640 else x.bytes) ++
        govTail l x.sealedBy (if c.step = 0 then 0 else c.step - 1)
      let s := (splitRuns rs bs).foldl (fun t w => t.bounceStore e.ctx w.1 w.2) s
      .done Status.ok (match l with
          | some l => BitVec.ofNat 32 (l.code l.rung + 16 * l.code l.advised)
          | none => 0xFF) false
        (((s.dropCopies rs).l2Invalidate rs).setEntry { e with wrote := rs })

/-- GOV_READ. -/
def execGovRead (ctx : Nat) (seq : W32) (s : State) : Host.Outcome State Fault Refusal :=
  s.runOp .govRead ctx seq govReadWork

/-! ## GOV_STEP (R143) -/

/-- What GOV_STEP makes of one (layer, role): its ladder afterwards and its ledger record. -/
structure StepOut where
  ladder : Ladder
  rec_ : Option LedgerRec
  deriving Repr

/-- Actions 2 and 3 for one ladder: the decision, and the GOV_BOUNDS of this step that overrides it; with the
ledger record of R155. -/
def Ladder.stepOut (l : Ladder) (x : StatRec) (bound : Option Ladder) (armed merged : Bool) (step : W64) (seq : W32) :
    StepOut :=
  let d := l.decide_ x armed
  let n := match bound with
    | some b => b
    | none => d.1
  let event := match bound with
    | some _ => GovEvent.bounds
    | none => d.2
  let mode := match bound with
    | some b => b.mode
    | none => l.mode
  StepOut.mk n
    (if x.n = 0 ∧ event = .none then none
    else some (LedgerRec.mk step l.layer l.role mode event merged x.sealedBy (l.code l.rung) (n.code n.rung)
      (n.code n.advised) n.q n.need x.n x.nSat x.nUnd (BitVec.ofNat 64 x.errEst) seq))

/-- Records of the merge tensor that hold anything (R146), in order. -/
def mergeRecs (b : Bytes) : List StatRec :=
  (groupsOf 640 12285 b).zipIdx.filterMap (fun (r : Bytes × Nat) =>
    if r.1.any (fun x => x != 0) then some (StatRec.parse (r.2 / 3 + 1) (r.2 % 3) r.1) else none)

/-- The record of a (layer, role) among some. -/
def findRec (rs : List StatRec) (layer role : Nat) : StatRec :=
  (rs.find? (fun r => r.layer == layer && r.role == role)).getD (StatRec.empty layer role)

/-- Action 1 (R143, R146, R156): the step area, or the merge tensor but for sealed roles. -/
def stepRecs (area : List StatRec) (tensor : Option (List StatRec)) : List StatRec :=
  match tensor with
  | none => area
  | some ts =>
    let seald := area.filter (fun r => r.sealedBy)
    (ts.filter (fun t => !seald.any (fun r => r.layer == t.layer && r.role == t.role)) ++ seald).foldl mergeRec []

/-- The last of the GOV_BOUNDS that name a (layer, role) (R148). -/
def lastBound (bs : List (W32 × Ladder)) (layer role : Nat) : Option Ladder :=
  ((bs.filter (fun b => b.2.layer == layer && b.2.role == role)).getLast?).map (fun b => b.2)

/-- The entries of a state epoch (R145): the record, the fields of GOV_READ, the rest; one for each (layer, role) with a
ladder or a record, the others zero (DESIGN CHOICE, log 50). -/
def epochEntries (ladders : List Ladder) (recs : List StatRec) (step : W64) : List (Nat × Bytes) :=
  let keys := ladders.map (fun l => (l.layer, l.role)) ++
    (recs.filter (fun r => !ladders.any (fun l => l.layer == r.layer && l.role == r.role))).map
      (fun r => (r.layer, r.role))
  keys.map (fun k =>
    let x := findRec recs k.1 k.2
    let l := ladders.find? (fun l => l.layer == k.1 && l.role == k.2)
    (govIndex k.1 k.2, x.bytes ++ govTail l x.sealedBy step ++ govTailOpen l))

/-- Write the private state epoch (R128, R144). -/
def State.putEpoch (s : State) (g : Region) (epoch : Bool) (es : List (Nat × Bytes)) : State :=
  es.foldl (fun t x => t.putRegion g (govEpochAt epoch + 768 * x.1) x.2) (s.zeroRegion g (govEpochAt epoch) 144)

/-- The items of a GOV_STEP's commit (R144, R145, R155): the ledger's HEAD and the header of the governor region, the
step area empty. -/
def Ctx.stepItems (c : Ctx) (e : Entry) (lines : Nat) : List CommitItem :=
  (match c.ledger with
    | some r => r.items 8 (leBytes 8 (c.ledgerHead + lines))
    | none => []) ++
  (match c.gov with
    | some g => g.items 0 (govHeader (!c.govEpoch) true (c.step + 1) c.mergedSeq e.seq)
    | none => [])

/-- The actions of a GOV_STEP whose records are at hand (R143 actions 2-5): the other state epoch and the ledger records
are written, then they commit together (R128, R144). -/
def State.closeStep (s : State) (e : Entry) (recs : List StatRec) (merged : Bool) : Verdict :=
  let c := s.ctx e.ctx
  let stops := s.regionStops c.gov ++ s.regionStops c.ledger
  if !stops.isEmpty then .fail stops [] else
  let outs := c.ladders.map (fun l =>
    let x := findRec recs l.layer l.role
    l.stepOut x (lastBound c.bounds l.layer l.role) c.armed.isSome (merged && !x.sealedBy) c.step e.seq)
  let lines := outs.filterMap (fun o => o.rec_)
  let items := c.stepItems e lines.length
  if 0 < lines.length ∧ s.ledgerRoom e.ctx < lines.length then .wait
  else if e.journalled && !s.journalRoom (commitLines items) then .wait else
  let ladders := outs.map (fun o => o.ladder)
  let s := match c.gov with
    | some g => s.putEpoch g (!c.govEpoch) (epochEntries ladders recs c.step)
    | none => s
  let s := lines.zipIdx.foldl (fun t r => t.ledgerLine e.ctx (c.ledgerHead + r.2) r.1) s
  let s := s.govCommit e.ctx e.seq e.journalled items
  let s := s.setCtx e.ctx { s.ctx e.ctx with
    ladders := ladders, ledgerHead := (c.ledgerHead + lines.length) % 2 ^ 64
    area := [], lastRecs := recs, lastLadders := ladders, bounds := [], step := c.step + 1, govEpoch := !c.govEpoch, govSeq := e.seq
    waiting := c.waiting.filter (fun w => decide (e.id < w.id)) }
  let s := lines.foldl (fun t r => t.ledgerTrace e.ctx r) s
  .done Status.ok (BitVec.ofNat 32 lines.length) false (s.setEntry { e with state := .committed, commit := items })

/-- GOV_STEP (R143-R146). -/
def govStepWork (s : State) (e : Entry) : Verdict :=
  let c := s.ctx e.ctx
  let merge := (e.field 0x10 1).testBit 0
  let mt := e.field 0x18 8
  if c.gov.isNone || !e.clean [(0x10, 0, 1), (0x18, 0, 64)] || (merge == decide (mt = 0)) then
    .fail [Status.malformed] []
  else if c.govLost || !s.layersDone e.ctx e.id then .wait
  else
    let area := (c.waiting.filter (fun w => decide (w.id < e.id))).foldl (fun a w => w.recs.foldl mergeRec a) c.area
    if merge then
      match s.resolve e.ctx mt 7862400 false with
      | .error st => .fail [st] []
      | .ok rs =>
        if s.anySealed rs then .fail [Status.isSealed] []
        else s.closeStep e (stepRecs area (some (mergeRecs (s.readRuns rs)))) true
    else s.closeStep e area false

/-- GOV_STEP. -/
def execGovStep (ctx : Nat) (seq : W32) (s : State) : Host.Outcome State Fault Refusal :=
  s.runOp .govStep ctx seq govStepWork

end Sys2Proof.Machine
end

