-- ==== Sys2Proof/Machine/I3c.lean ====
section
/-!
DEFINITION. Sys2Proof/Machine/I3c.lean: the Tag port (R433), an I3C Basic target: private transfers to the aperture
and its common command codes.
-/
namespace Sys2Proof.Machine

/-- The target takes part in transfers (R419): the Tag is ready and no reset holds the engine. -/
def State.i3cUp (s : State) : Bool := !s.inReset && s.pins.warmResetN && s.ready.tag

/-- The static address (R421, R433). -/
def State.i3cStatic (s : State) : BitVec 7 := 0x50 + (s.pins.straps &&& 7#6).setWidth 7

/-- Write words in ascending order (R433, R457). -/
def State.i3cWords (s : State) (off : Nat) : List W32 → State
  | [] => s
  | w :: ws => State.i3cWords (s.regWrite .i3c off w).2 (off + 4) ws

/-- Read words in ascending order (R433, R460). -/
def State.i3cRead (s : State) : Nat → Nat → Bytes × State
  | _, 0 => ([], s)
  | off, n + 1 =>
    let r := s.readWord .i3c off
    let rest := State.i3cRead r.2 (off + 4) n
    (leBytes 4 r.1.toNat ++ rest.1, rest.2)

/-- Answer a read with bytes. -/
def State.i3cAnswer (s : State) (bs : Bytes) : State := { s with i3c := { s.i3c with out := bs } }

/-- I3C_PRIVATE_WRITE (R433): a header, then words to write, boot bundle bytes, or a read to come. -/
def execI3cPrivateWrite (data : List (BitVec 8)) (s : State) : Host.Outcome State Fault Refusal :=
  if !s.i3cUp || decide (data.length < 4) then .next s else
  let off := fieldOf data 0 3
  let h := fieldOf data 3 1
  let n := bitsOf h 0 6 + 1
  let body := data.drop 4
  if h.testBit 7 then .next { s with i3c := { s.i3c with read := some (off, n) } }
  else if body.length < 4 * n then .next s
  else if h.testBit 6 then
    .next (if s.bootSource .i3c then s.bootBytes off (body.take (4 * n)) else s)
  else .next (s.i3cWords off ((List.range n).map (fun i => BitVec.ofNat 32 (fieldOf body (4 * i) 4))))

/-- I3C_PRIVATE_READ (R433): the words that the preceding header names. -/
def execI3cPrivateRead (count : Nat) (s : State) : Host.Outcome State Fault Refusal :=
  match s.i3c.read with
  | none => .next s
  | some (off, n) =>
    if !s.i3cUp || count != 4 * n then .next s else
    let r := s.i3cRead off n
    .next ((({ r.2 with i3c := { r.2.i3c with read := none } } : State)).i3cAnswer r.1)

/-- Set the dynamic address. -/
def State.i3cAddress (s : State) (a : Option (BitVec 7)) : State := { s with i3c := { s.i3c with dynamic := a } }

/-- ENTDAA (R433): a target without a dynamic address takes the one offered. -/
def execEntdaa (address : BitVec 7) (s : State) : Host.Outcome State Fault Refusal :=
  if s.i3cUp && s.i3c.dynamic.isNone then .next (s.i3cAddress (some address)) else .next s

/-- SETDASA (R433). -/
def execSetdasa (staticAddress address : BitVec 7) (s : State) : Host.Outcome State Fault Refusal :=
  if s.i3cUp && s.i3c.dynamic.isNone && staticAddress == s.i3cStatic then .next (s.i3cAddress (some address))
  else .next s

/-- SETNEWDA (R433): a new address for a target that has one. -/
def execSetnewda (address : BitVec 7) (s : State) : Host.Outcome State Fault Refusal :=
  if s.i3cUp && s.i3c.dynamic.isSome then .next (s.i3cAddress (some address)) else .next s

/-- RSTDAA (R433). -/
def execRstdaa (s : State) : Host.Outcome State Fault Refusal :=
  if s.i3cUp then .next (s.i3cAddress none) else .next s

/-- GETPID (R433): the six bytes of the provisioned ID, most significant first. -/
def execGetpid (s : State) : Host.Outcome State Fault Refusal :=
  if s.i3cUp then .next (s.i3cAnswer (beBytes 6 Config.i3cPid.toNat)) else .next s

/-- GETBCR (R433). -/
def execGetbcr (s : State) : Host.Outcome State Fault Refusal :=
  if s.i3cUp then .next (s.i3cAnswer [Config.i3cBcr]) else .next s

/-- GETDCR (R433). -/
def execGetdcr (s : State) : Host.Outcome State Fault Refusal :=
  if s.i3cUp then .next (s.i3cAnswer [Config.i3cDcr]) else .next s

/-- GETSTATUS (R433): the manual gives no layout of the status word. -/
def execGetstatus (s : State) : Host.Outcome State Fault Refusal :=
  if s.i3cUp then
    let t := s.i3cAnswer (beBytes 2 (Config.i3cStatus s.i3c.draws).toNat)
    .next { t with i3c := { t.i3c with draws := t.i3c.draws + 1 } }
  else .next s

/-- GETMWL (R433). -/
def execGetmwl (s : State) : Host.Outcome State Fault Refusal :=
  if s.i3cUp then .next (s.i3cAnswer (beBytes 2 Config.i3cMwl.toNat)) else .next s

/-- GETMRL (R433). -/
def execGetmrl (s : State) : Host.Outcome State Fault Refusal :=
  if s.i3cUp then .next (s.i3cAnswer (beBytes 2 Config.i3cMrl.toNat)) else .next s

/-- ENEC (R433): bit 0 of the events enables in-band interrupts. -/
def execEnec (events : BitVec 8) (s : State) : Host.Outcome State Fault Refusal :=
  if s.i3cUp && events.getLsbD 0 then .next { s with i3c := { s.i3c with ibiEnabled := true } } else .next s

/-- DISEC (R433): one that waits is withdrawn. -/
def execDisec (events : BitVec 8) (s : State) : Host.Outcome State Fault Refusal :=
  if s.i3cUp && events.getLsbD 0 then
    .next { s with i3c := { s.i3c with ibiEnabled := false, ibiPending := false } }
  else .next s

end Sys2Proof.Machine
end

