-- ==== Sys2Proof/Machine/Idle.lean ====
section
/-!
DEFINITION. Sys2Proof/Machine/Idle.lean: what passes with time (R320, R324): the count of the time base, the waits of the
cores (R25, R333, R446) and of the links (R294). Its rows are TIME_SYNC_EDGE, SYNC_LOST and TIME_BASE_SLEW; a tick passes on
an empty queue.
-/
namespace Sys2Proof.Machine

/-- What a core does while time passes: a pass or vector work, whose cycles its command counts when it is done; a wait for
work that cannot start, with its cause, none where POWER_SLEW is counted at the grant; or nothing. -/
inductive Wait where
  /-- a pass or vector work goes on, with the cause of other work that cannot start meanwhile (R446). -/
  | busy (other : Option Nat)
  | cause (n : Option Nat)
  /-- the start of a slot holds it for some ticks (R333). -/
  | held (left : Nat)
  | idle
  deriving DecidableEq, Repr

/-- The wait of one command on a core that it runs on (R446): that of a hand-over link counts as R293 says, the rest by what
the command waits for. -/
def State.waitOn (s : State) (c : Nat) (e : Entry) : Wait :=
  if !e.working && e.notes.contains Status.versionWait then .cause (some 8)
  else if (match e.op with | some op => op.isExchange | none => false) then
    .cause (some (if e.op = some .ryRoundOpen ∧ e.working = false then 7 else 12))
  else if !s.producerDone e then .cause (some (if s.queuesOk e then 0 else 7))
  else if s.queuesOk e && !s.linkFree e then .cause (some 1)
  else if e.working && s.holdsQueues e c then
    (if s.stepsOn e c then .cause none else .busy none)
  else .cause (some 7)

/-- The ticks for which the start of its slot alone holds back the next command of a context (R333), 0 where it does not: a
stopped command dispatches again without its slot. -/
def State.slotHolds (s : State) (ctx : Nat) : Nat :=
  if (s.ctx ctx).state ≠ .opened then 0 else
  match s.candidate ctx with
  | none => 0
  | some e => match (if e.state == .accepted then s.slotOf e else none) with
    | none => 0
    | some i => if !i.free && s.mayDispatch e (some { i with free := true }) then i.start - s.stamp.toNat else 0

/-- The cause of the work of a core that cannot go on, the first of R446: a link without a block or without room, then
POWER_SLEW, RY_WAIT, VERSION_WAIT and DEPENDENCY_WAIT. -/
def firstCause (ws : List Wait) : Option (Option Nat) :=
  ([some 0, some 1, none, some 12, some 8, some 7] : List (Option Nat)).find? (fun k => ws.contains (.cause k))

/-- What a core does (R446): work that goes on, work that cannot start, a slot that holds it, or nothing. -/
def pickWait (ws : List Wait) (held : Nat) : Wait :=
  if ws.contains (.busy none) then .busy ((firstCause ws).getD none)
  else match firstCause ws with
    | some k => .cause k
    | none => if held = 0 then .idle else .held held

/-- Count `n` ticks of a core (R445, R446): whole core cycles, the fraction carried. A core that has no work and that
nothing holds is clock-gated (DESIGN CHOICE, log 26). While its work goes on, a free number of its cycles, no more than the
ticks that pass, finds no block of it held and counts the work that cannot start. -/
def State.passCore (n : Nat) (s : State) (w : Nat × Wait) : State :=
  let gate := fun (t : State) (k : Nat) => if k = 0 then t else
    ({ t with trace := { t.trace with gated := t.trace.gated ||| (1#128 <<< w.1) } } : State).count (.util w.1 5) k
  let hold := fun (t : State) (k : Nat) (c : Option Nat) =>
    let u := t.core w.1
    let units := u.phase + waitUnits k t.belt.step
    let t := (t.setCore w.1 { u with phase := units % 14000 }).countIf (.util w.1 0) (units / 14000)
    match c with
    | some i => t.countIf (.stall w.1 i) (units / 14000)
    | none => t
  match w.2 with
  | .busy none => s
  | .busy (some k) => { s with free := s.free + 1 }.countIf (.stall w.1 k) (Config.freeCount s.free % (n + 1))
  | .idle => gate s n
  | .held left => gate (hold s (min n left) (some 11)) (n - left)
  | .cause k => hold s n k

/-- Whether a VERSION_RELEASE waits for the commit of its version (R179). -/
def State.releaseWaits (s : State) (e : Entry) : Bool :=
  match s.readVersion e (e.field 0x10 8) (BitVec.ofNat 64 (e.field 0x18 8)) with
  | .wait => true
  | _ => false

/-- What every ready core does now. The wait of a VERSION_RELEASE, which runs on no core, counts at the first core of its
context's placement (DESIGN CHOICE, log 98). -/
def State.waits (s : State) : List (Nat × Wait) :=
  let works := (s.journal.entries.filter Entry.inWork).filterMap (fun e => match e.op with
    | some op => if op.usesQueues then some (e, s.queueCores e)
      else if op.isExchange then some (e, s.usable e.ctx)
      else if op == .versionRelease && s.releaseWaits e then some (e, (s.usable e.ctx).take 1) else none
    | none => none)
  let held := (s.ctxs.map (fun c => (s.slotHolds c.1, s.usable c.1))).filter (fun h => h.1 != 0)
  ((List.range 128).filter s.coreReady).map (fun c =>
    (c, pickWait ((works.filter (fun w => w.2.contains c)).map (fun w => s.waitOn c w.1))
      (((held.filter (fun h => h.2.contains c)).map (fun h => h.1)).foldl max 0)))

/-! ## What commands earn while time passes (R352, R354) -/

/-- Work of a command on a core: the tick at which it began there, context, SEQ. -/
def workBefore (a b : Nat × Nat × W32) : Bool :=
  decide (a.1 < b.1) || (a.1 == b.1 && (decide (a.2.1 < b.2.1) || (a.2.1 == b.2.1 && decide (a.2.2.toNat < b.2.2.toNat))))

/-- The work that began first (R352). -/
def firstWork : List (Nat × Nat × W32) → Option (Nat × Nat × W32)
  | [] => none
  | x :: xs =>
    match firstWork xs with
    | none => some x
    | some y => if workBefore y x then some y else some x

/-- The work that goes on on a core (R352): that of commands which hold queues there and whose steps are granted, of
exchange commands that add blocks there, and of those for which it is held up. -/
def State.worksOn (s : State) (c : Nat) : List (Nat × Nat × W32) :=
  ((s.core c).queues.filter (fun q => match s.entry? q.ctx q.seq with
      | some e => e.inWork && !s.stepsOn e c
      | none => false)).map (fun q => (q.began, q.ctx, q.seq)) ++
  ((s.journal.entries.filter (fun e => s.addsOn e c && !s.stepsOn e c)).map
    (fun e => ((e.tStarted.getD e.tAccepted).toNat, e.ctx, e.seq))) ++
  ((s.belt.running.filter (fun r => r.core == c && s.belt.holdUp.contains (c, r.array))).map
    (fun r => (r.since, r.ctx, r.seq)))

/-- Whether a command has work for Gussets (R21, R169, R170): PRECOND_FACTOR, and an UPDATE under RULE 8 (R160). -/
def Entry.usesGusset (e : Entry) : Bool :=
  e.op == some .precondFactor || (e.op == some .update && e.field 0x28 1 % 16 == 8)

/-- The units that commands earn now, by sleeve (R352): one for each core that works, one for each Gusset whose command
works in its sleeve. -/
def State.earners (s : State) : List (Nat × Nat × W32) :=
  ((List.range 128).filterMap (fun c => (firstWork (s.worksOn c)).map (fun w => (c / 8, w.2)))) ++
  ((List.range 16).filterMap (fun k =>
    if !s.caps.gusset.getLsbD k then none else
    (firstWork (((List.range 8).flatMap (fun i => s.worksOn (8 * k + i))).filter (fun w =>
      match s.entry? w.2.1 w.2.2 with | some e => e.usesGusset | none => false))).map (fun w => (k, w.2))))

/-- Commands in progress (R354): dispatched once and without a record, unless their context is PREEMPTED. -/
def State.inProgress (s : State) : List Entry :=
  s.journal.entries.filter (fun e => e.live && e.dispatchedOnce && (s.ctx e.ctx).state != .preempted)

/-- The metering intervals in which the ticks of the next `n` ns fall, by their ends, with their ticks. -/
def State.ticksIn (s : State) (n : Nat) : List (Nat × Nat) :=
  let a := s.tb.now.toNat
  let b := (s.tb.advance n).now.toNat
  ((List.range (b / 10000 + 1 - a / 10000)).map (fun i =>
    ((a / 10000 + i + 1) * 10000, min b ((a / 10000 + i + 1) * 10000) - max a ((a / 10000 + i) * 10000)))).filter
    (fun x => x.2 != 0)

/-- The accounts of the commands after the next `n` ns. -/
def State.earn (s : State) (n : Nat) : List WorkShare :=
  let units := s.earners
  let live := s.inProgress
  if units.isEmpty && live.isEmpty then s.belt.meter else
  (s.ticksIn n).foldl (fun ms x =>
    live.foldl (fun ms e => addShare (WorkShare.mk x.1 26 e.ctx e.seq x.2) ms)
      (units.foldl (fun ms u => addShare (WorkShare.mk x.1 u.1 u.2.1 u.2.2 x.2) ms) ms)) s.belt.meter

/-- `n` ns pass. -/
def State.pass (s : State) (n : Nat) : State :=
  let stuck := if s.chains.any s.chainStarved then some (s.starved.getD s.stamp) else none
  let meter := s.earn n
  let t := s.waits.foldl (State.passCore n) s
  { t with starved := stuck, tb := t.tb.advance n, belt := { t.belt with meter := meter } }

/-- One tick with no command waiting (DESIGN CHOICE, log 2). -/
def tick (s : State) : State := if s.inReset then s else s.pass 1

/-- TIME_SYNC_EDGE (R321, R322): an edge, `elapsed` ns after the last command. -/
def execTimeSyncEdge (elapsed : Nat) (s : State) : Host.Outcome State Fault Refusal :=
  if s.inReset then .next s else
  let t := s.pass elapsed
  .next { t with tb := t.tb.edge }

/-- SYNC_LOST (R321): `elapsed` ns pass, and 8,000 ns have gone without an edge in ACQUIRING or LOCKED. -/
def execSyncLost (elapsed : Nat) (s : State) : Host.Outcome State Fault Refusal :=
  if s.inReset then .next s else
  let t := s.pass elapsed
  .next { t with tb := if t.tb.lapsed then t.tb.lose else t.tb }

/-- TIME_BASE_SLEW (R321): the next correction of the slew in progress falls due. -/
def execTimeBaseSlew (s : State) : Host.Outcome State Fault Refusal :=
  if s.inReset || s.tb.slewLeft == 0 then .next s else .next (s.pass s.tb.slewIn)

end Sys2Proof.Machine
end

