-- ==== Sys2Proof/Machine/Schedule.lean ====
section
/-!
DEFINITION. Sys2Proof/Machine/Schedule.lean: SCHED_LOAD and SCHED_ARM (R262-R264, R327-R329). Slots govern
dispatch, and are part of it (Collar.lean, R330-R334).
-/
namespace Sys2Proof.Machine

/-- Slot entries of an image, each with its OFFSET, from the bytes after the header: in range, reserved bits zero,
offsets not falling (R327). `last` is the OFFSET before. -/
def imageSlotsOk : Nat → Nat → Bytes → Bool
  | 0, _, _ => true
  | n + 1, last, b =>
    decide (last ≤ fieldOf b 0 6) && decide (fieldOf b 6 1 < 4) && fieldOf b 7 1 == 0 && fieldOf b 0xC 4 == 0 &&
    imageSlotsOk n (fieldOf b 0 6) (b.drop 16)

/-- The header of an image is in range (R327); the OFFSET of its last slot is given. -/
def schedHeadOk (b : Bytes) (lastOffset : Nat) : Bool :=
  let period := fieldOf b 0x10 8
  fieldOf b 0 2 == 1 && fieldOf b 2 2 == 0 && decide (1 ≤ fieldOf b 4 4 ∧ fieldOf b 4 4 ≤ 1048576) &&
  (if period = 0 then fieldOf b 0xC 4 == 1 else decide (lastOffset < period)) &&
  ((b.drop 0x20).take 0x20).all (fun x => x == 0)

/-- Whether all runs lie in stack memory. -/
def inStacks (rs : List Run) : Bool :=
  rs.all (fun r => match placeOf r.1 with | .stack _ => true | _ => false)

/-- SCHED_LOAD (R262, R328). -/
def schedLoadWork (s : State) (e : Entry) : Verdict :=
  let c := s.ctx e.ctx
  let num := e.field 0x10 1
  let image := e.field 0x18 8
  let bytes := e.field 0x20 8
  let armed := match c.armed with | some a => decide (a.num = num) | none => false
  let pre := need (e.clean [(0x10, 0, 8), (0x18, 0, 64), (0x20, 0, 64)] &&
    decide (image ≠ 0 ∧ image % 64 = 0) && !armed)
  if !pre.isEmpty then .fail pre [] else
  if bytes < 64 ∨ 2 ^ 48 < bytes then .fail [Status.outOfBounds] [] else
  match s.resolve e.ctx image bytes false with
  | .error st => .fail [st] []
  | .ok rs =>
    let b := (s.asRead e).readRuns rs
    let slots := fieldOf b 4 4
    let fits := decide (64 + 16 * slots ≤ bytes)
    let seen := min slots ((bytes - 64) / 16)
    let last := fieldOf b (64 + 16 * (seen - 1)) 6
    let issues := need (schedHeadOk b (if fits then last else 0) && imageSlotsOk seen 0 (b.drop 64)) ++
      (if fits && inStacks rs then [] else [Status.outOfBounds]) ++ s.sealIssues e.ctx [] [] rs
    if !issues.isEmpty then .fail issues [] else
    let x := Schedule.mk num image bytes slots (BitVec.ofNat 32 (fieldOf b 8 4)) (fieldOf b 0xC 4) (fieldOf b 0x10 8)
      (BitVec.ofNat 64 (fieldOf b 0x18 8)) (digest384 b)
    .done Status.ok (BitVec.ofNat 32 slots) false
      (s.setCtx e.ctx { c with schedules := c.schedules.filter (fun y => y.num != num) ++ [x] })

/-- SCHED_LOAD. -/
def execSchedLoad (ctx : Nat) (seq : W32) (s : State) : Host.Outcome State Fault Refusal :=
  s.runOp .schedLoad ctx seq schedLoadWork

/-- ARM of a loaded schedule (R329). -/
def State.armSched (s : State) (e : Entry) (x : Schedule) (start : Nat) : Verdict :=
  let c := s.ctx e.ctx
  let d := (x.firstSeq - e.seq).toNat
  let ok := c.armed.isNone && decide ((e.tStarted.getD 0).toNat + 10000 ≤ start) && decide (1 ≤ d ∧ d ≤ 2 ^ 31)
  match s.resolve e.ctx x.image x.bytes false with
  | .error st => .fail (need ok ++ [st]) []
  | .ok rs =>
    if !ok || digest384 (s.readRuns rs) != x.digest then .fail [Status.malformed] []
    else
      let s := s.setCtx e.ctx { c with armed := some (Armed.mk x.num start 0) }
      .done Status.ok 0 false (s.traceRec 11 .collar e.ctx e.seq x.compileId.toNat)

/-- SCHED_ARM (R262, R329, R334): a DISARM, for which START is unused, with changes pending waits until the steps before it are decided and the
ledger has room for its APPLIED records. -/
def schedArmWork (s : State) (e : Entry) : Verdict :=
  let c := s.ctx e.ctx
  let num := e.field 0x10 1
  let off := (e.field 0x11 1).testBit 0
  if !e.clean ([(0x10, 0, 8), (0x11, 0, 1)] ++ if off then [] else [(0x18, 0, 64)]) then .fail [Status.malformed] []
  else if off then
    if c.armed.isNone then .done Status.ok 0 false s
    else if !s.govSettled e || !s.pendingRoom e.ctx then .wait
    else .done Status.ok 0 false (s.disarm e.ctx e.id e.seq)
  else
    match c.schedules.find? (fun x => x.num == num) with
    | none => .fail [Status.malformed] []
    | some x => s.armSched e x (e.field 0x18 8)

/-- SCHED_ARM. -/
def execSchedArm (ctx : Nat) (seq : W32) (s : State) : Host.Outcome State Fault Refusal :=
  s.runOp .schedArm ctx seq schedArmWork

end Sys2Proof.Machine
end

