-- ==== Sys2Proof/Machine/Lining.lean ====
section
/-!
DEFINITION. Sys2Proof/Machine/Lining.lean: sessions (R396, R397), sealing (R402, R403), attestation (R415), the
maker profile (R268, R437), channel key exchange (R409), SPDM and bounce windows (R412, R413), and the Lining's
self-test (R435).
-/
namespace Sys2Proof.Machine

/-! ## Sessions (R396, R397) -/

/-- Ticks that a challenge stays open. -/
def challengeTicks : Nat := 60000000000
/-- Ticks that an endpoint is locked out after its eighth failure. -/
def lockoutTicks : Nat := 1000000000

/-- Failures of an endpoint that still count at a time: those before a lockout that is over do not. -/
def Lining.failuresOf (l : Lining) (ep now : Nat) : Nat × Option Nat :=
  match l.failures.find? (fun f => f.1 == ep) with
  | none => (0, none)
  | some f =>
    match f.2.2 with
    | some t => if t + lockoutTicks ≤ now then (0, none) else f.2
    | none => f.2

/-- An endpoint is locked out. -/
def Lining.locked (l : Lining) (ep now : Nat) : Bool := (l.failuresOf ep now).2.isSome

/-- A failed RESPOND (R397): counted, and for its endpoint; the eighth starts a lockout. -/
def Lining.failRespond (l : Lining) (ep now : Nat) : Lining :=
  let f := l.failuresOf ep now
  let n := f.1 + 1
  { l with
    authFails := l.authFails + 1
    failures := l.failures.filter (fun x => x.1 != ep) ++
      [(ep, n, match f.2 with | some t => some t | none => if 8 ≤ n then some now else none)] }

/-- Sessions that one of a role at an endpoint may not stand beside (R392). -/
def rivals (role ep : Nat) (v : Session) : Bool := v.role == role && (role != 2 || v.endpoint == ep)

/-- The slot reserved for a challenge: the lowest that no session and no other challenge holds, else that of a
session that would be replaced. -/
def Lining.reserve (l : Lining) (role ep : Nat) : Option Nat :=
  let others := l.challenges.filter (fun c => c.role != role || c.endpoint != ep)
  match (List.range 16).find? (fun i => (l.sessions.getD i none).isNone && !others.any (fun c => c.slot == i)) with
  | some i => some i
  | none => (List.range 16).find? (fun i => match l.sessions.getD i none with
      | some v => rivals role ep v
      | none => false)

/-- The challenge that is open for a role and endpoint at a time. -/
def Lining.openChallenge (l : Lining) (role ep now : Nat) : Option Challenge :=
  l.challenges.find? (fun c => c.role == role && c.endpoint == ep && decide (now < c.t.toNat + challengeTicks))

/-- The 128 bytes of a challenge (R396). -/
def challengeBytes (role ep no : Nat) (nonce boot device : Bytes) : Bytes :=
  leBytes 2 1 ++ leBytes 2 role ++ leBytes 4 ep ++ leBytes 8 no ++ nonce ++ boot ++ device.take 16

/-- CHALLENGE (R396, R397). -/
def State.challenge (s : State) (e : Entry) (role ep buf : Nat) : Verdict :=
  let l := s.lining
  match s.resolve e.ctx buf 128 true with
  | .error st => .fail ((if l.locked ep s.stamp.toNat then [Status.deniedRole] else []) ++ [st]) []
  | .ok rs =>
    let issues := (if l.locked ep s.stamp.toNat then [Status.deniedRole] else []) ++ s.sealIssues e.ctx [] rs [] ++
      (if (l.reserve role ep).isNone then [Status.outOfBounds] else [])
    if !issues.isEmpty then .fail issues [] else
    let slot := (l.reserve role ep).getD 0
    let no := l.challengeNo + 1
    let bs := challengeBytes role ep no.toNat (leBytes 48 (Config.random384 l.draws).toNat) (bootHash l.bootNonce)
      (deviceId s.rootOf)
    let s : State := { s with lining := { l with
      challengeNo := no, draws := l.draws + 1
      challenges := l.challenges.filter (fun c => c.role != role || c.endpoint != ep) ++
        [Challenge.mk role ep bs s.stamp slot] } }
    let s := (splitRuns rs bs).foldl (fun t w => t.bounceStore e.ctx w.1 w.2) s
    .done Status.ok (BitVec.ofNat 32 slot) false
      (((s.dropCopies rs).l2Invalidate rs).setEntry { e with wrote := rs })

/-- The public key enrolled for a role under an index (R397). -/
def State.roleKey (s : State) (role i : Nat) : Option Bytes :=
  match role with
  | 0 => if i = 0 ∧ s.boot.profile.isSome then s.boot.makerKey else none
  | 1 => s.lining.instKeys.getD i none
  | _ => s.lining.opKeys.getD i none

/-- Open a session in a slot, in place of those that may not stand beside it, with the audit entries (R397, R398). -/
def State.openSession (s : State) (role ep key slot : Nat) : State :=
  let s := s.closeSessions (rivals role ep)
  let v := Session.mk role key ep
  let s : State := { s with lining := { s.lining with
    sessions := s.lining.sessions.set slot (some v)
    challenges := s.lining.challenges.filter (fun c => c.role != role || c.endpoint != ep) } }
  s.audited 3 role ep (sessionReg slot) 0 (BitVec.ofNat 64 (role + 4 + 8 * key + 65536 * ep))

/-- Audit entries that opening a session needs. -/
def State.openEntries (s : State) (role ep : Nat) : Nat :=
  1 + (s.lining.sessions.filter (fun x => match x with | some v => rivals role ep v | none => false)).length

/-- RESPOND (R397). -/
def State.respond (s : State) (e : Entry) (role ep buf : Nat) : Verdict :=
  let now := s.stamp.toNat
  let denied := Verdict.done Status.deniedRole 0 false { s with lining := s.lining.failRespond ep now }
  let room := if s.auditRoomFor (s.openEntries role ep) then [] else [Status.deniedRole]
  match s.lining.openChallenge role ep now with
  | none => denied
  | some c =>
    match s.resolve e.ctx buf 128 false with
    | .error st => .fail (room ++ [st]) []
    | .ok rs =>
      let b := (s.asRead e).readRuns rs
      let i := fieldOf b 0 1 % 32
      let passes := match s.roleKey role i with
        | some k => ecdsaVerify k c.bytes (beNat ((b.drop 0x20).take 48)) (beNat ((b.drop 0x50).take 48))
        | none => false
      let issues := room ++ need (decide (fieldOf b 0 1 < 32) && ((b.drop 1).take 31).all (fun x => x == 0)) ++
        s.sealIssues e.ctx [] [] rs
      if !passes then denied
      else if !issues.isEmpty then .fail issues []
      else .done Status.ok (BitVec.ofNat 32 c.slot) false (s.openSession role ep i c.slot)

/-- CLOSE (R397). -/
def State.closeRole (s : State) (role ep : Nat) : Verdict :=
  let mine := fun (v : Session) => v.role == role && v.endpoint == ep
  match s.lining.sessions.findIdx? (fun x => match x with | some v => mine v | none => false) with
  | none => .done Status.ok 0 false s
  | some i =>
    if s.auditRoom then .done Status.ok (BitVec.ofNat 32 i) false (s.closeSessions mine)
    else .fail [Status.deniedRole] []

/-- ROLE_SESSION (R267, R396, R397). -/
def roleSessionWork (s : State) (e : Entry) : Verdict :=
  let role := bitsOf (e.field 0x10 1) 0 2
  let action := bitsOf (e.field 0x10 1) 2 2
  let buf := e.field 0x18 8
  let ep := s.endpointOf e.ctx
  if !e.clean [(0x10, 0, 4), (0x18, 0, 64)] || decide (role = 3 ∨ action = 3) ||
      (if action = 2 then decide (buf ≠ 0) else decide (buf = 0)) then .fail [Status.malformed] []
  else if !s.liningIssues.isEmpty then .fail s.liningIssues []
  else match action with
    | 0 => s.challenge e role ep buf
    | 1 => s.respond e role ep buf
    | _ => s.closeRole role ep

/-- ROLE_SESSION. -/
def execRoleSession (ctx : Nat) (seq : W32) (s : State) : Host.Outcome State Fault Refusal :=
  s.runOp .roleSession ctx seq roleSessionWork

/-- CHALLENGE_EXPIRY (R396). -/
def execChallengeExpiry (endpoint role : Nat) (s : State) : Host.Outcome State Fault Refusal :=
  .next { s with lining := { s.lining with challenges := s.lining.challenges.filter (fun c =>
    c.role != role || c.endpoint != endpoint || decide (s.stamp.toNat < c.t.toNat + challengeTicks)) } }

/-- AUTH_LOCKOUT_END (R397). -/
def execAuthLockoutEnd (endpoint : Nat) (s : State) : Host.Outcome State Fault Refusal :=
  .next { s with lining := { s.lining with failures := s.lining.failures.filter (fun f =>
    f.1 != endpoint || (match f.2.2 with
      | some t => decide (s.stamp.toNat < t + lockoutTicks)
      | none => true)) } }

/-! ## SEAL_IMPORT (R402, R403) -/

/-- The bytes of a blob that are not reserved are in range, and reserved ones zero (R402). -/
def blobOk (b : Bytes) : Bool :=
  let zeros := fun (o n : Nat) => ((b.drop o).take n).all (fun x => x == 0)
  fieldOf b 0 2 == 1 && decide (fieldOf b 2 1 < 4) && zeros 3 5 && zeros 0x81 7 && zeros 0xD4 12 &&
  decide (fieldOf b 8 8 % 65536 = 0 ∧ 0 < fieldOf b 8 8 ∧ fieldOf b 8 8 ≤ 2 ^ 35) &&
  (!(fieldOf b 2 1).testBit 0 || zeros 0xB8 16)

/-- The tensor key of a blob (R402). -/
def State.unwrap (s : State) (b : Bytes) : Option Bytes :=
  match ecdh (dskPrivate s.rootOf) ((b.drop 0x20).take 97) with
  | none => none
  | some z =>
    let kek := hkdf384 z (asciiBytes "G5 seal" ++ (b.drop 0x10).take 16 ++ deviceId s.rootOf) 32
    gcmDecrypt kek (zeroBytes 12) (b.take 32) ((b.drop 0x88).take 32) ((b.drop 0xA8).take 16)

/-- The lowest free handle, 1-256. -/
def Lining.freeHandle (l : Lining) : Option Nat :=
  ((List.range 256).map (fun i => i + 1)).find? (fun h => !l.seals.any (fun x => x.handle == h))

/-- Write bytes over physical runs inside the engine. -/
def State.putRuns (s : State) (rs : List Run) (bs : Bytes) : State :=
  (((splitRuns rs bs).foldl (fun t w => t.put w.1 w.2) s).dropCopies rs).l2Invalidate rs

/-- Steps 2-5 of R403, the blob's signature having passed and the region's pages at hand. -/
def State.importSeal (s : State) (e : Entry) (b key : Bytes) (rs : List Run) (h : Nat) : Verdict :=
  let id := (b.drop 0x10).take 16
  let n := fieldOf b 8 8
  let plain := if (fieldOf b 2 1).testBit 0 then some (zeroBytes n)
    else gcmDecrypt key ((b.drop 0xC8).take 12) id (s.readRuns rs) ((b.drop 0xB8).take 16)
  match plain with
  | none => .done Status.malformed 0 false ((s.putRuns rs (zeroBytes n)).setEntry { e with wrote := rs })
  | some p =>
    let s := s.putRuns rs p
    let x := Seal.mk h e.ctx (BitVec.ofNat 128 (leNat id)) (BitVec.ofNat 256 (leNat key)) ((fieldOf b 2 1).testBit 1)
      (pagesOf rs) none
    let s : State := { s with lining := { s.lining with seals := s.lining.seals ++ [x] } }
    let s := s.audited 6 2 (s.endpointOf e.ctx) (BitVec.ofNat 32 (pkOpcode e.packet + e.ctx * 65536)) e.seq (hashValue b)
    .done Status.ok (BitVec.ofNat 32 h) false (s.setEntry { e with wrote := rs })

/-- SEAL_IMPORT (R267, R403). -/
def sealImportWork (s : State) (e : Entry) : Verdict :=
  let region := e.field 0x18 8
  let bytes := e.field 0x20 8
  let anchor := e.field 0x28 1
  let ok := e.clean [(0x10, 0, 64), (0x18, 0, 64), (0x20, 0, 64), (0x28, 0, 8)] &&
    decide (region ≠ 0 ∧ region % 65536 = 0 ∧ 0 < bytes ∧ bytes % 65536 = 0 ∧ bytes ≤ 2 ^ 35 ∧ anchor < 32)
  let denied := if s.auditRoom then [] else [Status.deniedRole]
  if !ok || !denied.isEmpty then .fail (denied ++ need ok) [] else
  match (s.asRead e).readStruct e.ctx (e.field 0x10 8) 320 1, s.runsOf e.ctx false [(e.field 0x10 8, 320)] with
  | .error st, _ => .fail (s.liningIssues ++ [st]) []
  | .ok b, blobRuns =>
    let signed := match s.lining.anchors.getD anchor none with
      | some k => verifyBytes k (b.take 0xE0) (b.drop 0xE0)
      | none => false
    let key := if signed && blobOk b then s.unwrap b else none
    let id : BitVec 128 := BitVec.ofNat 128 (fieldOf b 0x10 16)
    let same := match key with
      | some k => s.lining.seals.all (fun x => x.ctx != e.ctx || x.sealId != id || x.key.toNat == leNat k)
      | none => false
    let place := s.resolve e.ctx region bytes true
    let rs := match place with | .ok rs => rs | .error _ => []
    let issues := need (same && fieldOf b 8 8 == bytes) ++ s.liningIssues ++
      (match place with
        | .error st => [st]
        | .ok rs => if inStacks rs && (s.sealsOf rs).isEmpty then [] else [Status.outOfBounds]) ++
      (if s.lining.freeHandle.isNone then [Status.outOfBounds] else []) ++
      s.sealIssues e.ctx [] [] blobRuns.2.flatten
    if !issues.isEmpty then .fail issues []
    else s.importSeal e b (key.getD []) rs (s.lining.freeHandle.getD 0)

/-- SEAL_IMPORT. -/
def execSealImport (ctx : Nat) (seq : W32) (s : State) : Host.Outcome State Fault Refusal :=
  s.runOp .sealImport ctx seq sealImportWork

/-! ## ATTEST (R415, R416) -/

/-- The digest of the staged firmware, zero where none is staged. -/
def State.stagedDigest (s : State) : BitVec 384 :=
  match s.boot.fwStaged with
  | some b => digest384 b
  | none => 0

/-- Bytes 0x000-0x29F of a report. -/
def State.reportBytes (s : State) (nonce : Bytes) : Bytes :=
  let l := s.lining
  let has := fun (r : Nat) => l.sessions.any (fun x => match x with | some v => v.role == r | none => false)
  leBytes 2 1 ++
  leBytes 2 (s.boot.fwStaged.isSome.toNat + 2 * s.boot.profile.isNone.toNat + 4 * l.auditFull.toNat) ++
  leBytes 4 (s.idRead 0).toNat ++ leBytes 4 s.capUnits.toNat ++ leBytes 4 0 ++ leBytes 8 s.stamp.toNat ++
  leBytes 4 l.audit.length ++ leBytes 4 ((has 0).toNat + 2 * (has 1).toNat + 4 * (has 2).toNat) ++ nonce ++
  bootHash l.bootNonce ++ leBytes 48 s.boot.fwRunningDigest.toNat ++ leBytes 48 s.stagedDigest.toNat ++
  leBytes 48 (s.boot.profile.getD 0).toNat ++ leBytes 48 l.auditHead.toNat ++
  leBytes 48 (Config.tableHash l.anchors l.opKeys).toNat ++ leBytes 16 s.collar.retired.toNat ++ zeroBytes 16 ++
  p384Public (dikPrivate s.rootOf) ++ zeroBytes 31 ++ p384Public (dskPrivate s.rootOf) ++ zeroBytes 63

/-- ATTEST (R267, R415). -/
def attestWork (s : State) (e : Entry) : Verdict :=
  let dest := e.field 0x10 8
  let ok := e.clean [(0x10, 0, 64), (0x18, 0, 256)] && decide (dest ≠ 0)
  let ready := if s.lining.measured then s.liningIssues else [Status.notReady]
  match s.resolve e.ctx dest 768 true with
  | .error st => .fail (need ok ++ ready ++ [st]) []
  | .ok rs =>
    let issues := need ok ++ ready ++ s.sealIssues e.ctx [] rs []
    if !issues.isEmpty then .fail issues [] else
    let body := s.reportBytes ((e.packet.drop 0x18).take 32)
    let bs := body ++ signBytes (dikPrivate s.rootOf) body
    let s := (splitRuns rs bs).foldl (fun t w => t.bounceStore e.ctx w.1 w.2) s
    .done Status.ok 768 false (((s.dropCopies rs).l2Invalidate rs).setEntry { e with wrote := rs })

/-- ATTEST. -/
def execAttest (ctx : Nat) (seq : W32) (s : State) : Host.Outcome State Fault Refusal :=
  s.runOp .attest ctx seq attestWork

/-! ## PROFILE_LOAD (R4, R268, R337, R397, R424, R437, R442) -/

/-- Units that a profile disables: sleeves, stacks, Seam ports, cores, Gussets, MM_DIST. -/
structure Disabled where
  sleeves : BitVec 16
  stks : BitVec 6
  seam : BitVec 4
  cores : BitVec 128
  gusset : BitVec 16
  dist : Bool
  deriving DecidableEq, Repr

/-- The units that the profile with a digest disables; a sleeve takes its cores and its Gusset with it (R4). -/
def profileDisabled (d : BitVec 384) : Disabled :=
  let w := fun n => (Config.profileWord d n).toNat
  let sl : BitVec 16 := BitVec.ofNat 16 (w 13)
  let own := ((List.range 128).filter (fun c => sl.getLsbD (c / 8))).foldl (fun (m : BitVec 128) c => m ||| (1#128 <<< c)) 0
  Disabled.mk sl (BitVec.ofNat 6 (w 13 / 2 ^ 16)) (BitVec.ofNat 4 (w 13 / 2 ^ 22))
    (own ||| BitVec.ofNat 128 (joinBits 32 [w 14, w 15, w 16, w 17])) (sl ||| BitVec.ofNat 16 (w 18)) ((w 13).testBit 26)

/-- Whether the profile would disable every ACTIVE Seam port (R437). -/
def State.cutsOff (s : State) (x : Disabled) : Bool :=
  let act := (List.range 4).filter (fun p => (s.seam p).state == .active)
  !act.isEmpty && act.all (fun p => x.seam.getLsbD p)

/-- Take the units that a profile disables out of service (R4, R437, R442): the block of one that has retired or failed before
reads as zero too (R465, R467, R468). -/
def State.disable (s : State) (x : Disabled) : State :=
  let old := s.caps
  let caps := { old with
    sleeves := old.sleeves &&& ~~~x.sleeves, stks := old.stks &&& ~~~x.stks, seam := old.seam &&& ~~~x.seam
    cores := old.cores &&& ~~~x.cores, gusset := old.gusset &&& ~~~x.gusset, dist := old.dist && !x.dist }
  let s : State := { s with
    caps := caps
    sleeves := s.sleeves.zipIdx.map (fun (v : Sleeve × Nat) =>
      if x.sleeves.getLsbD v.2 then { v.1 with retired := false } else v.1)
    ready := { s.ready with
      sleeves := s.ready.sleeves &&& ~~~x.sleeves, stks := s.ready.stks &&& ~~~x.stks
      seam := s.ready.seam &&& ~~~x.seam }
    cores := s.cores.filter (fun c => !x.cores.getLsbD c.1)
    stks := s.stks.zipIdx.map (fun (v : StackPort × Nat) =>
      if x.stks.getLsbD v.2 then { v.1 with state := .off, capacity := 0, height := 0, rate := 0 } else v.1)
    seams := s.seams.zipIdx.map (fun (v : SeamPort × Nat) =>
      if x.seam.getLsbD v.2 then { v.1 with state := .disabled, tx := 0, rx := 0 } else v.1) }
  if caps = old then s else s.capChange

/-- The Belt's profile values (R337, R360), loaded at a tick: the values before it hold until its window and its interval
end. -/
def Belt.profiled (b : Belt) (d : BitVec 384) (t : Nat) : Belt :=
  let w := fun n => Config.profileWord d n
  { b with
    defaults := false, prior := some (t, b.values)
    slewLimit := (w 0).setWidth 16, peakCap := (w 1).setWidth 16, susMax := (w 2).setWidth 16
    powerCap := (w 2).setWidth 16, capNext := none
    tLimit := (w 3).setWidth 16, tTrip := (w 4).setWidth 16
    thDp := w 5, thPc := w 6, thCi := w 7, cD := w 8, cP := w 9, cC := w 10
    gainMin := (w 11).setWidth 16, gainMax := ((w 11) >>> 16).setWidth 16, offsMax := (w 12).setWidth 16 }

/-- Load a verified profile: Belt values, lane maps, data rates, installer keys, disabled units (R300, R337, R397, R424,
R437). -/
def State.loadProfile (s : State) (d : BitVec 384) : State :=
  let s : State := { s with
    boot := { s.boot with profile := some d }
    belt := s.belt.profiled d s.stamp.toNat
    lining := { s.lining with instKeys := (List.range 4).map (fun i =>
      (Config.profileKey d i).map (fun k => leBytes 97 k.toNat)) }
    seams := s.seams.zipIdx.map (fun (v : SeamPort × Nat) =>
      { v.1 with laneMap := (Config.profileWord d (19 + v.2)).setWidth 8 })
    stks := s.stks.map (fun x => { x with rate := BitVec.ofNat 8 (min x.rate.toNat (profileRate d)) }) }
  s.disable (profileDisabled d)

/-- PROFILE_LOAD (R268, R437): the last 96 bytes are the maker's signature over what comes before. -/
def profileLoadWork (s : State) (e : Entry) : Verdict :=
  let bytes := e.field 0x18 4
  let ok := e.clean [(0x10, 0, 64), (0x18, 0, 32)] && decide (96 < bytes) && s.boot.profile.isNone
  if !ok then .fail [Status.malformed] [] else
  match (s.asRead e).readStruct e.ctx (e.field 0x10 8) bytes 1, s.runsOf e.ctx false [(e.field 0x10 8, bytes)] with
  | .error st, _ => .fail (s.liningIssues ++ [st]) []
  | .ok b, rs =>
    let body := b.take (bytes - 96)
    let signed := match s.boot.makerKey with
      | some k => verifyBytes k body (b.drop (bytes - 96))
      | none => false
    let bound := Config.profileBound body (BitVec.ofNat 776 (leNat (p384Public (dikPrivate s.rootOf))))
    let d := digest384 body
    let issues := need (signed && bound && !s.cutsOff (profileDisabled d)) ++ s.liningIssues ++
      s.sealIssues e.ctx [] [] rs.2.flatten
    if !issues.isEmpty then .fail issues []
    else .done Status.ok 0 false ((s.loadProfile d).auditCommand e (some body))

/-- PROFILE_LOAD. -/
def execProfileLoad (ctx : Nat) (seq : W32) (s : State) : Host.Outcome State Fault Refusal :=
  s.runOp .profileLoad ctx seq profileLoadWork

/-! ## Channel key exchange (R409) -/

/-- Whether the engine accepts a peer: its key signed the transcript, and it is another engine's identity key under
the Elvom root or a host-die key that the profile lists (R409). -/
def State.peerOk (s : State) (m : KeyxMsg) (transcript : BitVec 384) : Bool :=
  let id : BitVec 776 := BitVec.ofNat 776 (leNat m.peerIdentity)
  let listed := match s.boot.profile with
    | some d => Config.profilePeer d id
    | none => false
  (Config.certifiedKey m.peerChain == some id || listed) &&
  ecdsaVerifyHash m.peerIdentity (leBytes 48 transcript.toNat) m.sigR m.sigS

/-- The key and salt of a virtual channel and direction (R409). -/
def channelKey (secret : Bytes) (vc : Nat) (out : Bool) : DirKey :=
  let k := hkdf384 secret (leBytes 8 (Config.keyxInfo vc out).toNat) 36
  DirKey.mk (k.take 32) (k.drop 32) 0

/-- Commands of other engines and hosts that needed a channel whose peer has failed (R409): exchange commands of a
group on it, and commands of its endpoint that wrote to its window. -/
def State.channelDenied (s : State) (p ep : Nat) : State :=
  let on := fun (c : RyChan) => c.valid && c.port == p && c.ep == ep
  let s := s.setSeam p { s.seam p with
    txQueue := (s.seam p).txQueue.filter (fun k => k.endpoint != ep || k.kind.clear) }
  let groups := s.groups.filter (fun g => on g.2.d.up || on g.2.d.down || on g.2.d.backupIn || on g.2.d.backupOut)
  s.journal.entries.foldl (fun t e =>
    if !e.live || e.state == .accepted then t
    else if (match e.op with | some op => op.isExchange | none => false) && e.working && !e.decided &&
        !t.ryAborted e && groups.any (fun g => g.2.ctx == e.ctx) then
      t.conclude e Status.unitAbsent 0 false
    else if e.decided && e.state != .completing && t.endpointOf e.ctx == ep &&
        e.wrote.any (fun r => placeOf r.1 == .host p) then
      t.setEntry { e with status := Status.unitAbsent, result := 0 }
    else t) s

/-- KEYX (R409, R411): a key exchange with a far endpoint. -/
def execKeyx (p ep : Nat) (m : KeyxMsg) (s : State) : Host.Outcome State Fault Refusal :=
  if !s.ready.lining || (s.seam p).state != .active then .next s else
  let s := s.takeRx p .keyx 17 ep 0
  let d := (Config.random384 s.lining.draws).toNat % (p384N - 1) + 1
  let own := p384Public d
  let transcript := Config.keyxTranscript own m.peerEphemeral
  let s : State := { s with lining := { s.lining with draws := s.lining.draws + 1 } }
  match s.peerOk m transcript, ecdh d m.peerEphemeral with
  | true, some z =>
    let s := (List.range 18).foldl (fun (t : State) vc =>
      t.setChannel (Channel.mk p vc ep (channelKey z vc true) (channelKey z vc false)
        ((t.channel? p vc ep).map (fun c => c.recv)) false)) s
    .next (s.send p (Packet.mk .keyx 17 false ep 0 0 0 0 (Config.keyxMessage own transcript)))
  | _, _ => .next (s.channelDenied p ep)

/-! ## SPDM (R412) and bounce windows (R413) -/

/-- Answer an SPDM request: a body of the DSP0274 layout, which the manual does not give. -/
def State.spdmAnswer (s : State) (p ep code : Nat) : State :=
  let n := s.lining.draws
  let s : State := { s with lining := { s.lining with draws := n + 1 } }
  s.send p (Packet.mk .spdm 17 (s.channel? p 17 ep).isSome ep 0 0 0 0 (leBytes 8 (Config.spdmBody code n).toNat))

/-- Negotiation stage of a port and endpoint: 0 none, 1 version, 2 capabilities, 3 algorithms. -/
def Lining.spdmStage (l : Lining) (p ep : Nat) : Nat :=
  match l.conns.find? (fun c => c.port == p && c.endpoint == ep) with
  | some c => c.stage
  | none => 0

/-- Set it. -/
def Lining.setStage (l : Lining) (p ep n : Nat) : Lining :=
  { l with conns := l.conns.filter (fun c => c.port != p || c.endpoint != ep) ++ [SpdmConn.mk p ep n] }

/-- The session of a port and endpoint with a number. -/
def Lining.spdmSession (l : Lining) (p ep id : Nat) : Option Spdm :=
  l.spdm.find? (fun x => x.id == id && x.port == p && x.endpoint == ep)

/-- End a session: the bounce windows bound in it end too (R413). -/
def State.endSpdm (s : State) (id : Nat) : State :=
  { s with
    lining := { s.lining with spdm := s.lining.spdm.filter (fun x => x.id != id) }
    ctxs := s.ctxs.map (fun c => (c.1, match c.2.bounce with
      | some b => if b.session = id then { c.2 with bounce := none } else c.2
      | none => c.2)) }

/-- Code of an ERROR answer. -/
def spdmError : Nat := 0x7F

/-- SPDM_REQUEST (R412): the responder; a request outside the subset or out of turn is answered by an error and
changes nothing. -/
def execSpdmRequest (p ep : Nat) (r : SpdmReq) (s : State) : Host.Outcome State Fault Refusal :=
  if !s.ready.lining || (s.seam p).state != .active then .next s else
  let s := s.takeRx p .spdm 17 ep 0
  let l := s.lining
  let stage := l.spdmStage p ep
  let step := fun (n code : Nat) => ({ s with lining := l.setStage p ep n }).spdmAnswer p ep code
  let plain := fun (ok : Bool) (code : Nat) => s.spdmAnswer p ep (if ok then code else spdmError)
  let inSession := fun (id : Nat) => match l.spdmSession p ep id with | some x => x.finished | none => false
  .next (match r with
    | .getVersion => step 1 0x04
    | .getCapabilities => if 1 ≤ stage then step (max stage 2) 0x61 else s.spdmAnswer p ep spdmError
    | .negotiateAlgorithms a b c =>
      if 2 ≤ stage ∧ a = true ∧ b = true ∧ c = true then step 3 0x63 else s.spdmAnswer p ep spdmError
    | .getDigests => plain (decide (3 ≤ stage)) 0x01
    | .getCertificate slot => plain (decide (3 ≤ stage ∧ slot = 0)) 0x02
    | .challenge slot _ => plain (decide (3 ≤ stage ∧ slot = 0)) 0x03
    | .getMeasurements i _ _ => plain (decide (3 ≤ stage ∧ (i ≤ 5 ∨ i = 0xFF))) 0x60
    | .keyExchange slot share =>
      if 3 ≤ stage ∧ slot = 0 ∧ l.spdm.length < 4 ∧ (p384Point share).isSome = true then
        ({ s with lining := { l with spdm := l.spdm ++ [Spdm.mk l.draws p ep false] } }).spdmAnswer p ep 0x64
      else s.spdmAnswer p ep spdmError
    | .finish id =>
      match l.spdmSession p ep id with
      | none => s.spdmAnswer p ep spdmError
      | some _ =>
        let done := l.spdm.map (fun (x : Spdm) => if x.id = id then { x with finished := true } else x)
        ({ s with lining := { l with spdm := done } }).spdmAnswer p ep 0x65
    | .keyUpdate id => plain (inSession id) 0x69
    | .endSession id =>
      match l.spdmSession p ep id with
      | none => s.spdmAnswer p ep spdmError
      | some _ => (s.endSpdm id).spdmAnswer p ep 0x6C
    | .chunk id => plain (inSession id) 0x05
    | .other _ => s.spdmAnswer p ep spdmError)

/-- Whether an extent of a context lies within host windows, page by page. -/
def State.inHost (s : State) (ctx va n : Nat) : Bool :=
  (List.range ((va + n - 1) / 0x10000 + 1 - va / 0x10000)).all (fun i =>
    match s.translate ctx (max va ((va / 0x10000 + i) * 0x10000)) with
    | .page pa _ => (match placeOf pa with | .host _ => true | _ => false)
    | .stop _ _ => false)

/-- BOUNCE_BIND (R413): a later binding of a context replaces the earlier; its counter goes on. -/
def execBounceBind (p ep session ctx base pages tags : Nat) (s : State) : Host.Outcome State Fault Refusal :=
  if !s.ready.lining || (s.seam p).state != .active then .next s else
  let s := s.takeRx p .spdm 17 ep 0
  let c := s.ctx ctx
  let ok := (match s.lining.spdmSession p ep session with | some x => x.finished | none => false) &&
    c.state != .closed && decide (1 ≤ pages ∧ pages ≤ 2 ^ 20) && s.inHost ctx base (4096 * pages) &&
    s.inHost ctx tags (32 * pages)
  if !ok then .next (s.spdmAnswer p ep spdmError) else
  let secret := leBytes 48 (Config.spdmExport session).toNat
  let key := fun (label : String) => hkdfExpand secret (asciiBytes label ++ leBytes 2 ctx) 32
  let n := match c.bounce with | some b => b.counter | none => 1
  let b := Bounce.mk session p base pages tags (key "G5 bounce h2e") (key "G5 bounce e2h") n []
  .next ((s.setCtx ctx { c with bounce := some b }).spdmAnswer p ep 0x7E)

/-! ## Self-test (R435) -/

/-- LINING_SELF_TEST (R435). -/
def execLiningSelfTest (s : State) : Host.Outcome State Fault Refusal :=
  if s.inReset || !s.ready.tag || s.ready.lining then .next s
  else .next ({ s with ready := { s.ready with lining := true } }.ibi)

end Sys2Proof.Machine
end

