-- ==== Sys2Proof/Machine/Recovery.lean ====
section
/-!
DEFINITION. Sys2Proof/Machine/Recovery.lean: the Collar soft reset (R381), recovery (R383-R385), the sleeve fault
(R371), and the firmware commands (R268, R437).
-/
namespace Sys2Proof.Machine

/-! ## The soft reset (R381) -/

/-- A command that had dispatched before the reset and has no record yet: its record is to carry REPLAYED (R384). -/
def Entry.carried (e : Entry) : Bool :=
  e.dispatchedOnce && (match e.state with
    | .accepted | .completed | .cancelled | .released => false
    | _ => true)

/-- An entry after a Collar soft reset: work in flight is discarded, exchange commands keep their cursors (R379,
R381). -/
def Entry.afterReset (e : Entry) : Entry :=
  if !e.carried then e else
  let ex := match e.op with | some op => op.isExchange | none => false
  { e with
    replayed := true
    status := if e.decided && Status.completed e.status then Status.highest [e.status, Status.wasReplayed] else e.status
    working := e.working && ex
    asked := if ex then e.asked else []
    energy := { e.energy with
      reexecuted := e.energy.reexecuted || (e.working && !e.decided && e.state == .dispatched && !ex) } }

/-- A core without its work in flight (R381): no queue, no half of the Hem, no staged block that a queue reads. -/
def CoreUnit.idle (u : CoreUnit) : CoreUnit :=
  { u with queues := [], hem := [], stage := u.stage.map (fun b => { b with owner := none }) }

/-- The queues of every core are released, with what they have asked for (R381). -/
def State.freeQueues (s : State) : State :=
  ({ s with
    cores := s.cores.map (fun u => (u.1, u.2.idle))
    fabric := s.fabric.dropRequests (fun _ => true) } : State).endSteps

/-- A Collar soft reset (R381): the Lining is to measure the firmware again and the Collar to recover. -/
def State.softReset (s : State) : State :=
  let s : State := { s with
    journal := { s.journal with entries := s.journal.entries.map Entry.afterReset }
    ready := { s.ready with collar := false }
    boot := { s.boot with stage := .measuring }
    lining := { s.lining with measured := false } }
  s.freeQueues.ibi

/-- COLLAR_SOFT_RESET (R361, R381): the watchdog or a memory error. -/
def execCollarSoftReset (cause : SoftCause) (s : State) : Host.Outcome State Fault Refusal :=
  match cause with
  | .watchdog | .memoryEcc =>
    if !s.ready.collar then .next s else .next (s.softReset.traceFault .collar 4 .collar 0 0)

/-! ## Recovery (R383-R385) -/

/-- Whether the Collar can read its journal: a port that holds a region in use is ready (R383). -/
def State.journalReady (s : State) : Bool :=
  match s.journal.state with
  | 1 => s.ready.stks.getLsbD 0 || s.ready.stks.getLsbD 3
  | 2 => s.ready.stks.getLsbD 0
  | 3 => s.ready.stks.getLsbD 3
  | _ => true

/-- The journal regions in use (R374, R386), M0's first. -/
def State.journalBases (s : State) : List Nat :=
  match s.journal.state with
  | 1 => [s.journal.base.toNat, s.journal.mirror.toNat]
  | 2 => [s.journal.base.toNat]
  | 3 => [s.journal.mirror.toNat]
  | _ => []

/-- Bytes of one region, if they can be read. -/
def State.journalRead (s : State) (off n base : Nat) : Option Bytes :=
  if (s.physIssue (base + off) n).isSome then none else some (memRead s.mem (base + off) n)

/-- Offset of a line in a region. -/
def lineOffset (pos : Nat) : Nat := (ringStart + pos % ringLines) * 64

/-- Whether a line is the one that its position expects: its CRC and its GEN hold (R375). -/
def lineGood (pos : Nat) (b : Bytes) : Bool :=
  fieldOf b 0x3C 4 == crc32c (b.take 60) && fieldOf b 0x38 4 == lineGen pos % 2 ^ 32

/-- The header or commit line at a position (R375): the copy that is present, M0's where both are; none where it is absent. -/
def State.lineAt (s : State) (pos : Nat) : Option Bytes :=
  (s.journalBases.filterMap (s.journalRead (lineOffset pos) 64)).find? (lineGood pos)

/-- Whether a region holds lines 1 to 3 of an entry with the CRC that its header names (R376). -/
def State.bodyIn (s : State) (line crc base : Nat) : Bool :=
  match [line + 1, line + 2, line + 3].mapM (fun p => s.journalRead (lineOffset p) 64 base) with
  | some bs => crc32c bs.flatten == crc
  | none => false

/-- Whether an entry stands in the ring (R375, R376): its header is present, and the lines whose CRC that names. One that
was never journalled stands in the Collar alone (R374; DESIGN CHOICE, log 87). -/
def State.entryPresent (s : State) (e : Entry) : Bool :=
  !e.journalled || (match s.lineAt e.line with
    | none => false
    | some h => fieldOf h 0 1 == 1 && s.journalBases.any (s.bodyIn e.line (fieldOf h 0x34 4)))

/-- What the ring does not hold is lost to recovery (R383): it reads every present line. -/
def State.readRing (s : State) : State :=
  { s with journal := { s.journal with
    entries := s.journal.entries.filter s.entryPresent
    commits := s.journal.commits.filter (fun c => (s.lineAt c.1).isSome) } }

/-- SEQ and SQ_COUNT of a context's context-table record, if it names one of the commands accepted since its opening. -/
def State.tableOf (s : State) (n : Nat) (c : Ctx) : Option (W32 × W32) :=
  match s.journalBases.filterMap (s.journalRead (256 * n) 9) with
  | b :: _ =>
    let q : W32 := BitVec.ofNat 32 (fieldOf b 0 4)
    if fieldOf b 8 1 = 1 ∧ (q - c.initialSeq).toNat < (c.acceptSeq + 1 - c.initialSeq).toNat then
      some (q, BitVec.ofNat 32 (fieldOf b 4 4))
    else none
  | [] => none

/-- The count behind the records of a completion ring from a count on (R383): the slots that hold the expected PHASE
(R224); CTX_CQ_TAIL stays where the ring cannot be read (DEDUCED, log 87). -/
def State.scanTail (s : State) (n : Nat) : Nat → W32 → W32
  | 0, t => t
  | k + 1, t =>
    let c := s.ctx n
    if !s.cqSlotOk n t then c.cqTail
    else if (fieldOf (s.readRegion c.cq (32 * (t.toNat % max 1 c.cqEntries)) 32) 5 1).testBit 0 == phaseOf c.cqEntries t then
      State.scanTail s n k (t + 1)
    else t

/-- The highest CQ_COUNT journalled of a context, CTX_CQ_HEAD where none is. -/
def State.cqFrom (s : State) (n : Nat) (c : Ctx) : W32 :=
  ((s.entriesOf n).filter (fun e => e.state == .completing || e.state == .completed)).foldl
    (fun m e => if (m - c.cqHead).toNat < (e.cqCount - c.cqHead).toNat ∧ (e.cqCount - c.cqHead).toNat ≤ c.cqEntries
      then e.cqCount else m) c.cqHead

/-- The context page as recovery rebuilds it (R383): CTX_ACCEPT_SEQ and CTX_SQ_HEAD from the newest entry, else from the
context-table record; packets behind the last accepted one are fetched again; CTX_CQ_TAIL from the ring. -/
def State.rebuiltCtx (s : State) (n : Nat) (c : Ctx) : Ctx :=
  if c.state = .closed then c else
  let at_ : W32 × W32 := match ((s.entriesOf n).filter (fun e => e.journalled)).getLast? with
    | some e => (e.seq, e.sqCount)
    | none => (s.tableOf n c).getD (c.acceptSeq, c.acceptHead)
  { c with
    acceptSeq := at_.1, acceptHead := at_.2, sqHead := at_.2, dup := 0
    cqTail := s.scanTail n c.cqEntries (s.cqFrom n c) }

/-- What recovery does with an entry (R383, R268, R416). -/
def State.recoverEntry (s : State) (e : Entry) : State :=
  match e.state with
  | .dispatched =>
    if e.decided then s
    else if s.boot.commitBy = some (e.ctx, e.seq) then s.conclude e Status.ok 0 false
    else if e.op = some .attest then s.conclude e Status.notReady 0 false
    else (s.setEntry e).traceRec 2 .collar e.ctx e.seq (pkOpcode e.packet)
  | .committed | .completing =>
    if !e.decided || !s.statsRoom e || !(s.flushPorts e).isEmpty ||
        decide (256 ≤ s.signalling ∧ pkSignalEn e.packet = true) then s
    else s.complete e
  | _ => s

/-- The slots in WRITING of the parameter descriptors that a command without a commit record writes (R174): the byte
that holds STATE, and FMT. -/
def State.writingSlots (s : State) (e : Entry) : List (Nat × Nat) :=
  if !e.live || e.state == .committed || e.state == .completing then [] else
  (s.writesParams e).flatMap (fun pa => (List.range 3).filterMap (fun i =>
    let a := pa + 0x70 + 0x20 * i
    let b := (memGet s.mem a).toNat
    if bitsOf b 4 2 = 2 then some (a, bitsOf b 0 4) else none))

/-- Slots in WRITING with no commit record become EMPTY (R174, R383), whatever they held before. -/
def State.emptySlots (s : State) : State :=
  let t := (s.journal.entries.flatMap s.writingSlots).foldl (fun t x => t.markSlot (some x) 0) s
  { t with journal := { t.journal with entries := t.journal.entries.map (fun e => { e with taken := [] }) } }

/-- The ledgers' HEAD again after old commit records have been applied: records of epochs and bounds came later. -/
def State.restoreHeads (s : State) : State :=
  s.ctxs.foldl (fun t c => match c.2.ledger with
    | some g => if g.lost then t else t.putRegion g 8 (leBytes 8 c.2.ledgerHead)
    | none => t) s

/-- Apply commit records again in ring order (R383): copies of the lines written go (R284, R311). -/
def State.applyCommits (s : State) : State :=
  s.journal.commits.foldl (fun t c =>
    let rs := c.2.2.2.map (fun i => match i with
      | .write a bs => (a, bs.length)
      | .copy a _ n => (a, n))
    (((t.applyItems c.2.2.2).dropCopies rs).l2Invalidate rs)) s

/-- Recovery resumes the exchange commands (R199, R379): the blocks in the replay windows of the rounds at work go out
again, the same bits, which the receivers discard as duplicates. -/
def State.replayWindows (s : State) : State :=
  s.groups.foldl (fun t (x : Nat × RyGroup) =>
    if x.2.isOpen && x.2.phase == .data && x.2.hop.isSome then
      x.2.window.foldl (fun t w => t.sendRy x.2 x.2.hop x.2.d.down (if w.2.2.length = 136 then 2 else 1) w.2.2) t
    else t) s

/-- Recovery (R383): the ring is read, commits are applied in ring order, then each entry is seen to in order of acceptance. -/
def State.recover (s : State) : State :=
  let s := s.readRing
  let s : State := { s with ctxs := s.ctxs.map (fun c => (c.1, s.rebuiltCtx c.1 c.2)) }
  let s := (s.applyCommits.restoreHeads).emptySlots
  let s := (s.journal.entries.foldl (fun t e => t.recoverEntry e) s).replayWindows
  ({ s with boot := { s.boot with commitBy := none } } : State).setFault .recovered

/-- RECOVERY (R383, R438): the Lining has measured the firmware again, and the Collar recovers. -/
def execRecovery (s : State) : Host.Outcome State Fault Refusal :=
  if s.inReset || !s.pins.warmResetN || s.boot.stage != .measuring || !s.ready.lining || !s.journalReady then .next s
  else .next s.recover.releaseCollar

/-! ## Sleeve faults (R371) -/

/-- Commands at work on a sleeve. -/
def State.atWorkOn (s : State) (k : Nat) : List Entry :=
  s.journal.entries.filter (fun e => e.inWork &&
    (List.range 8).any (fun i => s.holdsQueues e (8 * k + i)))

/-- The first core of a sleeve on which a command holds queues. -/
def State.coreAtWork (s : State) (k : Nat) (e : Entry) : Nat :=
  ((List.range 8).map (fun i => 8 * k + i)).find? (fun c =>
    s.holdsQueues e c) |>.getD (8 * k)

/-- A sleeve reset (R381): the queues, L1 and Hem of its cores, its L2, its translation cache and its streams; what its
cores have asked for is dropped. -/
def State.resetSleeve (s : State) (k : Nat) : State :=
  let clear := fun (u : CoreUnit) => { u with queues := [], stage := [], hem := [], held := none }
  let streams := fun (c : Ctx) => { c with streams := c.streams.map (fun x =>
    { x with active := x.active &&& ~~~(1#16 <<< k) }) }
  let s : State := { s with
    cores := s.cores.map (fun u => (u.1, if u.1 / 8 = k then clear u.2 else u.2))
    ctxs := s.ctxs.map (fun c => (c.1, streams c.2))
    fabric := (s.fabric.setCache k Cache.init).dropRequests (fun r => r.core / 8 == k && r.ctx != 1024) }
  s.endSteps

/-- A command whose work a sleeve fault discards: it is the first retry, on the core where it ran (R371). -/
def State.hitEntry (s : State) (c : Nat) (e : Entry) : State :=
  ((s.count (.fault c 1) 1).endWork e).setEntry { e with
    shares := if e.sliced then s.shareCores e else []
    asked := [], faulted := true, working := false, faultCore := some c, faults := 1
    notes := e.notes ++ [Status.faultRetried], energy := { e.energy with reexecuted := true } }

/-- SLEEVE_FAULT (R371): the sleeve is reset and checked; a second fault during one command retires it. -/
def execSleeveFault (sleeve : Nat) (cause : SleeveCause) (s : State) : Host.Outcome State Fault Refusal :=
  match cause with
  | .fabricEcc | .handshakeStall =>
    if !s.ready.collar || !s.caps.sleeves.getLsbD sleeve then .next s else
    let es := s.atWorkOn sleeve
    let v := s.sleeve sleeve
    let second := es.any (fun e => v.hit.any (fun h => h.1 == e.id))
    let at_ := es.map (fun e => (s.coreAtWork sleeve e, e))
    let kept := v.hit.filter (fun h => s.journal.entries.any (fun e => e.id == h.1 && e.live))
    let s := s.setSleeve sleeve { v with
      faults := v.faults + 1
      hit := kept ++ es.map (fun e => (e.id, ((List.range 8).map (fun i => 8 * sleeve + i)).filter (s.holdsQueues e))) }
    let s := s.traceFault .sleeve (if second then 1 else 0) (.sleeve sleeve) 0 0
    let s := at_.foldl (fun t x => t.hitEntry x.1 x.2) s
    let s := s.resetSleeve sleeve
    if second then
      let s := s.retireSleeve sleeve
      let s : State := { s with boot := { s.boot with checking := s.boot.checking &&& ~~~(1#16 <<< sleeve) } }
      .next (s.strand (List.range' (8 * sleeve) 8) (es.map (fun e => e.id)))
    else .next (s.startChecks (1#16 <<< sleeve))

/-! ## Firmware (R268, R437) -/

/-- FW_STAGE (R268): the image is verified and held; one that fails leaves an earlier image in place. -/
def fwStageWork (s : State) (e : Entry) : Verdict :=
  let bytes := e.field 0x18 4
  let ok := e.clean [(0x10, 0, 64), (0x18, 0, 32)]
  match (s.asRead e).readStruct e.ctx (e.field 0x10 8) bytes 1, s.runsOf e.ctx false [(e.field 0x10 8, bytes)] with
  | .error st, _ => .fail (need ok ++ (if s.ready.lining then [] else [Status.notReady]) ++ [st]) []
  | .ok b, rs =>
    let body := signedBody (s.boot.makerKey.getD []) b
    let issues := need (ok && body.isSome) ++ (if s.ready.lining then [] else [Status.notReady]) ++
      s.sealIssues e.ctx [] [] rs.2.flatten
    if !issues.isEmpty then .fail issues []
    else
      let t : State := { s with boot := { s.boot with fwStaged := body } }
      .done Status.ok 0 false (t.auditCommand e body)

/-- FW_STAGE. -/
def execFwStage (ctx : Nat) (seq : W32) (s : State) : Host.Outcome State Fault Refusal :=
  s.runOp .fwStage ctx seq fwStageWork

/-- Whether every earlier command of context 0 has completed (R268). -/
def State.firstOfZero (s : State) (e : Entry) : Bool :=
  (s.entriesOf 0).all (fun x => decide (e.id ≤ x.id) || !x.live)

/-- FW_COMMIT with COMMIT (R268): the soft reset into the staged image, whose recovery writes the record. -/
def State.commitFirmware (s : State) (e : Entry) (body : Bytes) : State :=
  let s := s.auditCommand e none
  let s : State := { s with boot := { s.boot with
    fwRunning := body, fwRunningDigest := digest384 body, fwStaged := none, commitBy := some (e.ctx, e.seq) } }
  s.softReset

/-- FW_COMMIT on its entry. -/
def State.fwCommitStep (s : State) (e : Entry) : State :=
  if !e.clean [(0x10, 0, 1)] then s.conclude e Status.malformed 0 false
  else if !(e.field 0x10 1).testBit 0 && !s.firstOfZero e then s
  else
    match s.boot.fwStaged with
    | none => s.conclude e Status.malformed 0 false
    | some body =>
      if (e.field 0x10 1).testBit 0 then
        let t : State := { s with boot := { s.boot with fwStaged := none } }
        (t.auditCommand e none).conclude e Status.ok 0 false
      else s.commitFirmware e body

/-- FW_COMMIT (R268). -/
def execFwCommit (ctx : Nat) (seq : W32) (s : State) : Host.Outcome State Fault Refusal :=
  match s.runnable .fwCommit ctx seq with
  | none => .next s
  | some e => .next (s.fwCommitStep e)

end Sys2Proof.Machine
end

