-- ==== Sys2Proof/Machine/Pins.lean ====
section
/-!
DEFINITION. Sys2Proof/Machine/Pins.lean: the reset and power pins (R381, R382, R419-R421) and ALIVE (R419).
-/
namespace Sys2Proof.Machine

/-- Host memory, which no reset of the engine touches. -/
def hostCells (m : List Host.Cell) : List Host.Cell :=
  m.filter (fun c => match placeOf c.1 with | .host _ => true | _ => false)

/-- What a cold reset leaves (R381, R382, R421, R461): all state at its reset values. Host memory, the test access port
and the numbers of the draws made stay. -/
def State.afterCold (s : State) (straps : BitVec 6) : State :=
  { State.cold s.die straps s.lining.draws s.free with
    mem := hostCells s.mem
    i3c := I3c.mk none false false none [] s.i3c.draws
    tap := s.tap
    pending := s.pending }

/-- The engine held in cold reset (R419, R420): no unit is ready. -/
def State.held (s : State) (pwrGood coldResetN : Bool) : State :=
  let t := s.afterCold 0
  { t with
    pins := Pins.mk pwrGood coldResetN s.pins.warmResetN false 0
    ready := Ready.mk false false false 0 0 0 }

/-- COLD_RESET (R420, R421, R435): COLD_RESET_N rises after PWR_GOOD. The straps are sampled; the Tag is ready, and the
Lining, the ports and the boot begin. -/
def execColdReset (straps : BitVec 6) (s : State) : Host.Outcome State Fault Refusal :=
  .next (s.afterCold straps)

/-- POWER_FAIL (R420): PWR_GOOD falls. -/
def execPowerFail (s : State) : Host.Outcome State Fault Refusal := .next (s.held false s.pins.coldResetN)

/-- COLD_RESET_ASSERT (R420): COLD_RESET_N falls while PWR_GOOD is high. -/
def execColdResetAssert (s : State) : Host.Outcome State Fault Refusal :=
  if s.pins.pwrGood then .next (s.held true false) else .next s

/-! ## Warm reset (R381, R420) -/

/-- A Seam port in warm reset: its lanes idle; packets and frames that have not been acknowledged are kept (R381). -/
def SeamPort.warm (x : SeamPort) : SeamPort :=
  if x.state = .disabled ∨ x.state = .failed then x else
  { x with
    state := .idle, tx := 0, rx := 0, detTx := 0, detRx := 0, trainFails := 0, replays := 0, nak := false
    credits := List.replicate 18 0, owed := List.replicate 18 0, partialRx := [] }

/-- A stack port in warm reset: its stack in self-refresh (R300, R420). -/
def StackPort.warm (x : StackPort) : StackPort :=
  if x.state = .off ∨ x.state = .failed then x
  else { x with state := .selfRefresh, repeats := [], trainFails := 0, allBank := true }

/-- A core after a warm reset: its stores are empty (R314). -/
def CoreUnit.warm (u : CoreUnit) : CoreUnit := { u with queues := [], stage := [], hem := [], held := none }

/-- An entry after a warm reset that falls when the intervals up to `closed` have closed: its accumulators are lost (R355);
its receipt carries PARTIAL where its span is not over, and REEXECUTED where its work has been discarded (R359). The reads
that its completion waited for are made again. -/
def Entry.warm (closed : Nat) (e : Entry) : Entry :=
  { e with
    energy := { Energy.zero with
      partial_ := e.live || decide (closed ≤ e.tRecord.toNat), reexecuted := e.energy.reexecuted }
    flushed := e.flushed && !e.live }

/-- A producer of a chain whose link lay in L1 and whose record has not been written (R292, R314, R383): it delivers its
output again (DEDUCED, log 15). -/
def State.delivers (s : State) (e : Entry) : Bool :=
  match e.member, s.chainOf e with
  | some m, some c => e.state == .dispatched && e.decided && !(Status.failed e.status) && e.op != some .ryOwn &&
    !c.overflow && decide (c.stageOf m + 1 < c.stages)
  | _, _ => false

/-- An entry after a warm reset, a producer that delivers again undecided. -/
def State.warmEntry (s : State) (e : Entry) : Entry :=
  let w := e.warm s.belt.lastInterval
  if s.delivers e then { w with decided := false, status := 0, result := 0, wrote := [], stats := [] } else w

/-- A chain after a warm reset: the links that a producer delivers again are empty. -/
def State.warmChain (s : State) (c : ChainState) : ChainState :=
  let again := (s.journal.entries.filter (fun e => e.ctx == c.ctx && e.chain == c.seq && s.delivers e)).map
    (fun e => c.stageOf (e.member.getD 0))
  { c with
    links := c.links.zipIdx.map (fun l => if again.contains l.2 then [] else l.1)
    whole := c.whole.zipIdx.map (fun w => w.1 && !again.contains w.2) }

/-- What a warm reset loses besides a soft reset (R314, R381): caches, tickets, requests, energy accumulators and job
records. -/
def State.warmLoss (s : State) : State :=
  { s with
    journal := { s.journal with entries := s.journal.entries.map s.warmEntry }
    chains := s.chains.map s.warmChain
    starved := none
    fabric := s.fabric.warm
    ctxs := s.ctxs.map (fun c => (c.1, { c.2 with jobs := [] }))
    cores := s.cores.map (fun u => (u.1, u.2.warm))
    stks := s.stks.map StackPort.warm
    seams := s.seams.map SeamPort.warm
    hostReads := []
    boot := { s.boot with checking := 0 }
    ready := { s.ready with stks := 0, seam := 0, sleeves := 0 }
    pins := { s.pins with warmResetN := false, alive := false } }

/-- WARM_RESET (R381, R420): ignored in cold reset, and noted before the Collar has first become ready. -/
def execWarmReset (s : State) : Host.Outcome State Fault Refusal :=
  if s.inReset || !s.pins.warmResetN then .next s
  else if !s.boot.everReady then .next { s with boot := { s.boot with warmIgnored := true } }
  else .next s.softReset.warmLoss

/-- WARM_RESET_RELEASE (R420): every port trains again. -/
def execWarmResetRelease (s : State) : Host.Outcome State Fault Refusal :=
  if s.inReset || s.pins.warmResetN then .next s
  else .next { s with
    pins := { s.pins with warmResetN := true }
    stks := s.stks.map (fun x => if x.state = .selfRefresh then { x with state := .retraining } else x) }

/-- ALIVE_TOGGLE (R419): Collar firmware drives the pin; it holds its level while the Collar is not ready. -/
def execAliveToggle (s : State) : Host.Outcome State Fault Refusal :=
  if s.ready.collar then .next { s with pins := { s.pins with alive := !s.pins.alive } } else .next s

end Sys2Proof.Machine
end

