-- ==== Sys2Proof/Machine/Preempt.lean ====
section
/-!
DEFINITION. Sys2Proof/Machine/Preempt.lean: PREEMPT (R231): where a command can stop (R65, R98), what its resume state takes
of the save area (R99, R126, R174), and what a stopped command leaves behind (R129).
-/
namespace Sys2Proof.Machine

/-! ## Where a command can stop (R65, R98) -/

/-- The plan of a command that works on cores and has an interruption point. -/
def Op.plan : Op → Option (State → Entry → Plan)
  | .mmFwd => some mmFwdPlan
  | .mmDx => some mmDxPlan
  | .mmDw => some mmDwPlan
  | .mmConvFwd => some mmConvFwdPlan
  | .mmConvDx => some mmConvDxPlan
  | .mmConvDw => some mmConvDwPlan
  | .mmDist => some mmDistPlan
  | .mmSafe => some mmSafePlan
  | .vecOp => some vecOpPlan
  | .softmaxBwd => some softmaxBwdPlan
  | .normBwd => some normBwdPlan
  | .maskPack => some maskPackPlan
  | .tieSum => some tieSumPlan
  | .update => some updatePlan
  | .updateRows => some updateRowsPlan
  | .precondFactor => some precondPlan
  | .gather => some gatherPlan
  | .scatter => some scatterPlan
  | _ => none

/-- Whether an UPDATE runs the rule PRECOND, whose row groups are the block rows of its grid (R169). -/
def Entry.byBlocks (e : Entry) : Bool := e.op == some .update && decide (e.field 0x28 1 % 16 = 8)

/-- The rows of one row group of a command (R65, R169): 256, or one block row of the grid. -/
def State.groupRows (s : State) (e : Entry) : Nat :=
  match e.byBlocks, s.paramOf e with
  | true, some p => max 1 p.blockSide
  | _, _ => 256

/-- The rows that a vector or an update-family command goes through in row groups (R65, R126, R174): those of the tensor that
it reads first, or of its parameter; the logical rows of the grid of a PRECOND update (R169). -/
def State.vectorRows (s : State) (e : Entry) : Nat :=
  match (if e.op == some .normBwd then none else s.paramOf e) with
  | some p => if e.byBlocks && p.orient then p.colsN else p.rowsN
  | none => match (s.descs e).find? (fun d => d.1 == Slot.input) with
    | some d => d.2.rows
    | none => 0

/-- Tiles of each slice of a product, in the order of R98. -/
def State.sliceTiles (s : State) (e : Entry) (x : Shape) : List Nat :=
  let n := max 1 e.split
  let a := dieArrays s.die
  (List.range n).map (fun j => match x.flow with
    | .west => x.tiles * shareOf x.units n j
    | .stationary => x.tiles
    | .north => match (match e.op with | some op => op.isConv | none => false), s.geomOf e with
      | true, some g => x.tiles * (ceilDiv (x.units / max 1 (g.kh * g.kw)) a * (g.kh * g.kw))
      | _, _ => x.tiles * ceilDiv (shareOf x.units n j) a)

/-- The tiles of each slice of a command and its streamed rows: one slice of one tile but for a product. -/
def State.progress (s : State) (e : Entry) : List Nat × Nat :=
  let v := s.asRead e
  match (if (match e.op with | some op => op.isMatrix | none => false) then s.shapeOf e else none) with
  | some x => (v.sliceTiles e x, x.rows)
  | none => ([1], v.vectorRows e)

/-- Whether a slice can stand at a cursor (R65, R98, R169): a boundary between row groups of `group` rows of one of its tiles,
or its end. -/
def cursorOk (group rows tiles : Nat) (c : Nat × Nat) : Bool :=
  (decide (c.1 < tiles ∧ c.2 < rows) && c.2 % group == 0) || (c.1 == tiles && c.2 == 0)

/-- Whether one cursor comes after another or is it. -/
def cursorLe (a b : Nat × Nat) : Bool := decide (a.1 < b.1) || (a.1 == b.1 && decide (a.2 ≤ b.2))

/-- Whether the slices of a command can stand at some cursors: one for each, none behind the cursor of an earlier stop, and
not all at their ends. -/
def State.cursorsOk (s : State) (e : Entry) (cs : List (Nat × Nat)) : Bool :=
  let g := s.progress e
  let before := match e.saved with
    | some v => v.cursors
    | none => []
  cs.length == g.1.length && (List.zip g.1 cs).all (fun x => cursorOk (s.groupRows e) g.2 x.1 x.2) &&
  (List.zip before cs).all (fun x => cursorLe x.1 x.2) && (List.zip g.1 cs).any (fun x => decide (x.2.1 < x.1))

/-! ## Resume states (R99) -/

/-- The 8-byte words that a slice of a product has in the resume state, its cursor apart (R91, R99): the fold entries folded
at least once, the saved pairs of an output-stationary tile, the slice totals formed under split-K. In a convolution input
gradient the kernel positions are outermost (R98), so that every K tile keeps its entries from the first position on. -/
def State.sliceWords (s : State) (e : Entry) (x : Shape) (tiles : Nat) (c : Nat × Nat) : Nat :=
  let a := dieArrays s.die
  let each := match x.flow with
    | .west => macCols x.p * a
    | .north => macRows x.p
    | .stationary => macRows x.p * macCols x.p * a
  let full := x.rows * each
  let k := s.positions e
  match x.flow with
  | .stationary => if tiles ≤ c.1 then 0 else each + (if e.spill ≤ c.2 then each else 0)
  | _ =>
    let units := max 1 (tiles / max 1 (x.tiles * k))
    if tiles ≤ c.1 then full * x.tiles
    else if 1 < k then
      if x.tiles * units ≤ c.1 then full * x.tiles
      else c.1 / units * full + (if c.1 % units = 0 then c.2 * each else full)
    else
      (if 1 < e.split then c.1 / units * full else 0) +
      (if c.1 % units ≠ 0 then full else if 1 < units ∨ 1 < e.split then c.2 * each else 0)

/-- The bytes of a command's resume state, whole lines (R99, R126, R174). DESIGN CHOICE (log 22): a word of 8 bytes for each
cursor, fold entry, saved pair and partial sum; the manual gives the contents and no layout. -/
def State.resumeBytes (s : State) (e : Entry) (cs : List (Nat × Nat)) : Nat :=
  let v := s.asRead e
  let words := match e.op with
    | some .normBwd => 2 * v.normColumns e
    | some .update => 1 + (match v.paramOf e with | some p => p.colsN | none => 0)
    | _ => match s.shapeOf e with
      | some x => ((List.zip (v.sliceTiles e x) cs).map (fun y => v.sliceWords e x y.1 y.2)).foldl (· + ·) 0
      | none => 0
  ceilDiv (8 * (cs.length + words)) 64 * 64

/-- The lowest part of a context's save area that is free for some bytes (R231), where it fits. -/
def State.saveAt (s : State) (e : Entry) (n : Nat) : Option Nat :=
  match (s.ctx e.ctx).save with
  | none => none
  | some r =>
    if r.lost then none else
    let held := ((s.entriesOf e.ctx).filter (fun x => x.id != e.id)).filterMap (fun x => x.saved)
    (0 :: held.map (fun v => v.offset + v.bytes)).find? (fun o => decide (o + n ≤ r.bytes) &&
      held.all (fun v => decide (o + n ≤ v.offset ∨ v.offset + v.bytes ≤ o)))

/-- The physical runs of an extent of a recorded region. -/
def Region.longRuns (r : Region) (i n : Nat) : List Run :=
  (cutPages (r.offset + i, n)).map (fun x => (r.pages.getD (x.1 / 65536) 0 * 65536 + x.1 % 65536, x.2))

/-! ## PREEMPT (R231) -/

/-- Commands that a STOP lets run to completion whether or not they have started (R231 item 4). -/
def Entry.exempt (e : Entry) : Bool :=
  (match e.op with | some op => op.isExchange || op == .chain | none => false) || e.member.isSome

/-- How a STOP finds a command. -/
inductive Halt where
  /-- it goes on. -/
  | runs
  /-- it has not started its work. -/
  | waits
  /-- it stops at some cursors, with the work that it was about and a place for its resume state. -/
  | stops (cs : List (Nat × Nat)) (d : Delta) (at_ : Saved)

/-- Whether a command has started its work (R231): it holds its queues, its steps are granted, and nothing holds it back. -/
def State.started (s : State) (e : Entry) : Bool :=
  e.working && (match e.op with | some op => s.mayWork op e && s.hasStarted op e | none => true)

/-- How a STOP finds a command (R65, R99, R100, R231): `named` are the boundaries that timing gives, SEQ, tile and rows, those
of a split-K command in the order of its slices. -/
def State.haltOf (s : State) (named : List (Nat × Nat × Nat)) (e : Entry) : Halt :=
  if !e.inWork || e.exempt then .runs
  else if !s.started e then .waits
  else
    let cs := (named.filter (fun c => c.1 == e.seq.toNat)).map (fun c => c.2)
    match e.op.bind Op.plan with
    | none => .runs
    | some plan =>
      match plan (s.viewFor e) e with
      | .wait | .hold _ => .waits
      | .fail _ | .refuse _ => .runs
      | .done d =>
        if !s.cursorsOk e cs then .runs else
        let n := s.resumeBytes e cs
        match s.saveAt e n with
        | none => .runs
        | some o => .stops cs d (Saved.mk cs o n)

/-- A command that has not started stops as it stands (R231 item 3): it keeps its references, and what an earlier stop
saved. -/
def State.stopWaiting (s : State) (e : Entry) : State :=
  (if e.working then s.endWork e else s).setEntry { e with
    state := .stopped, preempted := true, working := false, asked := [] }

/-- A started command stops (R99, R129, R174, R231): the pairs of an output-stationary command are copied, the resume state
goes to the save area, the cursors are recorded. What it has written before its commit stands where it was about to write:
undefined so far, but for bytes that it has still to read (log 22). DESIGN CHOICE (log 22): R376 gives the journal entry one
CURSOR_TILE and CURSOR_ROWS and R99 a cursor for each slice: the entry of a split-K command holds those of slice 0. -/
def State.stopStarted (s : State) (e : Entry) (d : Delta) (v : Saved) : State :=
  let reads := (s.feeds e).flatMap (fun f => (s.runAhead e.ctx f.rows).1)
  let gone := d.overwrites.filter (fun r => !touches reads r.1 r.2)
  let rows := match v.cursors with
    | c :: _ => c.2
    | [] => 0
  let s := (s.freeSave e).countIf (.stall ((s.queueCores e).headD 0) 3) (s.pairCycles e)
  let taken := match d.slot with
    | some x => s.takenWith e [x.1]
    | none => e.taken
  let s := (s.markSlot d.slot 2).rowSteps e (d.steps.filter (fun x => decide (x.1 < rows)))
  let s := (s.scramble gone).dropCopies gone
  let s := match (s.ctx e.ctx).save with
    | some r => s.scramble (r.longRuns v.offset v.bytes)
    | none => s
  let s := s.setCtx e.ctx { s.ctx e.ctx with saveUsed := (s.ctx e.ctx).saveUsed + v.bytes }
  let s := v.cursors.foldl (fun t c => t.traceRec 6 .collar e.ctx e.seq (c.1 + 2 ^ 32 * c.2)) s
  let c := v.cursors.headD (0, 0)
  (s.endWork e).setEntry { e with
    state := .stopped, preempted := true, working := false, asked := [], saved := some v, taken := taken
    tileCursor := BitVec.ofNat 32 c.1, rowCursor := BitVec.ofNat 32 c.2 }

/-- A STOP reaches a command: the engine, and whether it has stopped. -/
def State.halt (s : State) (named : List (Nat × Nat × Nat)) (e : Entry) : State × Nat :=
  match s.haltOf named e with
  | .runs => (s, 0)
  | .waits => (s.stopWaiting e, 1)
  | .stops _ d v => (s.stopStarted e d v, 1)

/-- A STOP goes on (R231): dispatch stops, and the commands that can stop do so; when no command of the target is
still running, it is PREEMPTED and the PREEMPT completes. `k` are those stopped before. -/
def State.stopMore (s : State) (e : Entry) (n k : Nat) (cursors : List (Nat × Nat × Nat)) : State :=
  let r := (s.entriesOf n).foldl (fun (r : State × Nat) x =>
    let h := r.1.halt cursors x
    (h.1, r.2 + h.2)) (s, 0)
  let s := r.1.countIf (.context n 4) r.2
  let c := s.ctx n
  let k := k + r.2
  if (s.entriesOf n).any Entry.inWork then
    s.setCtx n { c with state := if c.state = .opened then .preempting else c.state, stopping := some (e.seq, k) }
  else
    let s := s.setCtx n { c with
      state := if c.state = .opened ∨ c.state = .preempting then .preempted else c.state, stopping := none }
    (s.auditCommand e none).conclude e Status.ok (BitVec.ofNat 32 k) false

/-- PREEMPT on its entry (R231). -/
def State.preemptWork (s : State) (e : Entry) (cursors : List (Nat × Nat × Nat)) : State :=
  let n := e.field 0x10 2
  let resume := (e.field 0x12 1).testBit 0
  let c := s.ctx n
  let finish := fun (t : State) => (t.auditCommand e none).conclude e Status.ok 0 false
  if !e.clean [(0x10, 0, 10), (0x12, 0, 1)] || decide (n = 0) then s.conclude e Status.malformed 0 false
  else
    match c.stopping with
    | some (q, k) => if q = e.seq then s.stopMore e n k cursors
      else if resume && c.state == .preempting then s else finish s
    | none =>
      if resume then
        if c.state = .preempted then finish (s.setCtx n { c with state := .opened }) else finish s
      else if c.state = .opened then s.stopMore e n 0 cursors
      else finish s

/-- PREEMPT (R231): `cursors` are the row-group boundaries at which started commands stop: SEQ, tile, rows. -/
def execPreempt (ctx : Nat) (seq : W32) (cursors : List (Nat × Nat × Nat)) (s : State) :
    Host.Outcome State Fault Refusal :=
  match s.runnable .preempt ctx seq with
  | none => .next s
  | some e => .next (s.preemptWork e cursors)

end Sys2Proof.Machine
end

