-- ==== Sys2Proof/Machine/Seam.lean ====
section
/-!
DEFINITION. Sys2Proof/Machine/Seam.lean: the Seam ports (R422-R430): training, frames, and the packets that reach
memory, the Tag aperture and the engine's own reads.
-/
namespace Sys2Proof.Machine

/-! ## Training (R424) -/

/-- A port that trains: present, and not held in reset. -/
def State.trains (s : State) (p : Nat) : Bool :=
  !s.inReset && s.pins.warmResetN && s.caps.seam.getLsbD p

/-- SEAM_DETECT (R424): the groups detected in each direction; with at least one in each the port goes on. -/
def execSeamDetect (p : Nat) (tx rx : BitVec 4) (s : State) : Host.Outcome State Fault Refusal :=
  let x := s.seam p
  if !s.trains p || (x.state != .idle && x.state != .detect) then .next s
  else .next (s.setSeam p { x with
    state := if tx != 0 && rx != 0 then .equalise else .detect, detTx := tx, detRx := rx })

/-- Groups accepted: judged good, detected, and kept by the maker profile's lane map (R424). -/
def SeamPort.accept (x : SeamPort) (tx rx : BitVec 4) : BitVec 4 × BitVec 4 :=
  (tx &&& x.detTx &&& x.laneMap.setWidth 4, rx &&& x.detRx &&& (x.laneMap >>> 4).setWidth 4)

/-- Back to ACTIVE after RETRAIN: the frames held are sent again (R425). -/
def State.reactivate (s : State) (p : Nat) : State :=
  let x := s.seam p
  let s := s.setSeam p { x with state := .active, replays := 0 }
  let s : State := { s with ready := { s.ready with seam := s.ready.seam ||| (1#4 <<< p) } }
  ((s.count (.seam p 0) x.replay.length).ibi).pump p

/-- SEAM_EQUALISE_DONE (R424, R425): each group is judged. -/
def execSeamEqualiseDone (p : Nat) (tx rx : BitVec 4) (s : State) : Host.Outcome State Fault Refusal :=
  let x := s.seam p
  let ok := x.accept tx rx
  if !s.trains p then .next s else
  match x.state with
  | .equalise =>
    .next (if ok.1 != 0 && ok.2 != 0 then s.setSeam p { x with state := .config, tx := ok.1, rx := ok.2 } else s)
  | .retrain =>
    let t := s.keepGroups p (x.tx &&& ok.1) (x.rx &&& ok.2)
    .next (if (t.seam p).state = .failed then t.examineRegions else t.reactivate p)
  | _ => .next s

/-- Credits that the host die must grant at least (R428). -/
def creditsOk (cs : List Nat) : Bool :=
  decide (cs.length = 18) && (cs.take 16).all (fun n => decide (256 ≤ n)) && (cs.drop 16).all (fun n => decide (16 ≤ n))

/-- CONFIG_FRAME (R424, R428, R468): both configuration frames exchanged, the port becomes ACTIVE. Frames held from
before a warm reset are sent again (R381). -/
def execConfigFrame (p : Nat) (f : ConfigFrame) (s : State) : Host.Outcome State Fault Refusal :=
  let x := s.seam p
  if !s.trains p || x.state != .config || !creditsOk f.credits then .next s else
  let s := s.setSeam p { x with
    state := .active, peerPort := f.port, peerDie := f.die, granted := f.credits, credits := f.credits }
  let s : State := { s with ready := { s.ready with seam := s.ready.seam ||| (1#4 <<< p) } }
  .next ((s.count (.seam p 0) x.replay.length).ibi.pump p)

/-- SEAM_TRAIN_TIMEOUT (R424): back to IDLE, and FAILED at the third. -/
def execSeamTrainTimeout (p : Nat) (s : State) : Host.Outcome State Fault Refusal :=
  let x := s.seam p
  if !s.trains p || !(x.state == .detect || x.state == .equalise || x.state == .config) then .next s else
  let s := s.setSeam p { x with state := .idle, trainFails := x.trainFails + 1, tx := 0, rx := 0 }
  .next (if 3 ≤ x.trainFails + 1 then (s.failSeam p).examineRegions else s)

/-! ## Frames (R422, R423, R425, R426) -/

/-- The frame control word (R423). -/
structure FrameControl where
  fseq : BitVec 12
  ack : BitVec 12
  nak : Bool
  cvc : Nat
  cred : Nat
  crc : BitVec 16
  deriving DecidableEq, Repr

/-- Its fields. -/
def frameFields (f : Frame) : FrameControl :=
  let c := f.control
  FrameControl.mk (c.setWidth 12) ((c >>> 12).setWidth 12) (c.getLsbD 24) ((c >>> 25).toNat % 32)
    ((c >>> 30).toNat % 16384) ((c >>> 44).setWidth 16)

/-- The bits that CRC covers, in the order they travel (R422, R423). -/
def frameBits (f : Frame) : List Bool :=
  (List.range 44).map (fun i => f.control.getLsbD i) ++
  f.space.flatMap (fun b => (List.range 8).map (fun i => b.getLsbD i))

/-- A header's packet, its payload still to come; none for a kind that is reserved, a reserved bit that is set, a
LENGTH above 4,096, a virtual channel past 17 or a reserved endpoint (R426, R427). -/
def parseHeader (h : Bytes) (payload : Bytes) : Option Packet :=
  match PacketKind.ofCode (bitsOf (fieldOf h 0 1) 0 4) with
  | none => none
  | some k =>
    let len := fieldOf h 6 2
    let vc := bitsOf (fieldOf h 1 1) 0 5
    let ep := fieldOf h 2 2
    if bitsOf (fieldOf h 0 1) 4 4 ≠ 0 ∨ bitsOf (fieldOf h 1 1) 6 2 ≠ 0 ∨ 4096 < len ∨ 17 < vc ∨ ep = 0 ∨ ep = 0xFFFF
    then none
    else some (Packet.mk k vc ((fieldOf h 1 1).testBit 5) ep (fieldOf h 4 1) (fieldOf h 5 1) (fieldOf h 8 6)
      (fieldOf h 0xE 2) payload)

/-- Bytes of a packet from its header on: header, padded payload, tag. -/
def wireLength (h : Bytes) : Nat :=
  16 + (fieldOf h 6 2 % 8192 + 7) / 8 * 8 + (if (fieldOf h 1 1).testBit 5 then 16 else 0)

/-- A packet in the clear that may be (R409, R427): of a kind that travels so, on a control channel, and no keys
stand for its channel, but for a new key exchange. -/
def State.clearOk (s : State) (p : Nat) (k : Packet) : Bool :=
  k.kind.clear && decide (16 ≤ k.vc) && ((s.channel? p k.vc k.endpoint).isNone || k.kind == .keyx)

/-- Whether a packet is an acknowledgement of a Ryround block (R199): of a type that R193 does not list. -/
def Packet.isAck (k : Packet) : Bool := k.kind == .msg && decide (9 < k.payloadType) && k.payloadType == Config.ackType.toNat

/-- Put a received packet into the port's queue; SEAM_PEER follows the control packets (R431, R468). An acknowledgement has its
effect as it comes (R199; DESIGN CHOICE, log 46). -/
def State.putRx (s : State) (p : Nat) (k : Packet) : State :=
  if k.isAck then (s.freeCredits p k.vc k.size).ryAcked p k.endpoint k.vc k.payload else
  let x := s.seam p
  s.setSeam p { x with
    rxQueue := x.rxQueue ++ [k]
    peerEp := if 16 ≤ k.vc then BitVec.ofNat 16 k.endpoint else x.peerEp }

/-- Discard a packet: counted, its credits free (R426, R427). -/
def State.dropRx (s : State) (p vc size : Nat) : State := (s.freeCredits p vc size).count (.seam p 5) 1

/-- A packet whose tag fails or whose counter is not the expected one (R411): counted, its channel to be re-keyed, and
for a Ryround block a transit fault (R199). -/
def State.authFail (s : State) (p : Nat) (k : Packet) (c : Channel) : State :=
  let s := ((s.setChannel { c with rekey := true }).freeCredits p k.vc k.size).count (.control 4) 1
  let s : State := { s with lining := { s.lining with chanAuth := s.lining.chanAuth + 1 } }
  if k.kind == .msg && (k.payloadType == 1 || k.payloadType == 2) then s.ryBlockIn p k.endpoint k.vc [] [] else s

/-- Receive an encrypted packet (R410, R411): under the key of its channel at the counter expected, or under the key
before it until the first packet under the new one. -/
def State.rxEncrypted (s : State) (p : Nat) (h body tag : Bytes) (k : Packet) : State :=
  match s.channel? p k.vc k.endpoint with
  | none => s.dropRx p k.vc k.size
  | some c =>
    match gcmDecrypt c.recv.key c.recv.iv h body tag with
    | some m =>
      (s.setChannel { c with recv := { c.recv with counter := c.recv.counter + 1 }, old := none }).putRx p
        { k with payload := m }
    | none =>
      match c.old with
      | none => s.authFail p k c
      | some o =>
        match gcmDecrypt o.key o.iv h body tag with
        | some m => (s.setChannel { c with old := some { o with counter := o.counter + 1 } }).putRx p { k with payload := m }
        | none => s.authFail p k c

/-- Receive one packet in its wire form. -/
def State.rxPacket (s : State) (p : Nat) (w : Bytes) : State :=
  let h := w.take 16
  let len := fieldOf h 6 2 % 8192
  let body := (w.drop 16).take len
  match parseHeader h body with
  | none => s.count (.seam p 5) 1
  | some k =>
    if k.enc then s.rxEncrypted p h body (w.drop (w.length - 16)) k
    else if s.clearOk p k then s.putRx p k
    else s.dropRx p k.vc k.size

/-- Extract the packets of the bytes received (R426): a zero byte at a boundary pads the rest of the frame, and a
packet may go on in the next. -/
def State.rxPackets (s : State) (p : Nat) : Nat → Bytes → State
  | 0, _ => s
  | n + 1, bs =>
    match bs with
    | [] => s.setSeam p { s.seam p with partialRx := [] }
    | b :: _ =>
      if b = 0 then s.setSeam p { s.seam p with partialRx := [] }
      else if bs.length < 16 ∨ bs.length < wireLength bs then s.setSeam p { s.seam p with partialRx := bs }
      else (s.rxPacket p (bs.take (wireLength bs))).rxPackets p n (bs.drop (wireLength bs))

/-- Release the frames that ACK names, and those before it (R423, R425). -/
def SeamPort.acked (x : SeamPort) (ack : BitVec 12) : SeamPort :=
  match x.replay.findIdx? (fun f => f.fseq == ack) with
  | none => x
  | some i => { x with replay := x.replay.drop (i + 1), replays := 0 }

/-- Both directions enter RETRAIN (R425): the ready bit clears while it lasts (R442). -/
def State.retrainSeam (s : State) (p : Nat) : State :=
  let s := s.setSeam p { s.seam p with state := .retrain }
  let s : State := { s with ready := { s.ready with seam := s.ready.seam &&& ~~~(1#4 <<< p) } }
  (s.count (.seam p 4) 1).ibi

/-- A NAK (R425): the frames held are sent again, and the eighth time in succession the port trains again. -/
def State.replaySeam (s : State) (p : Nat) : State :=
  let x := s.seam p
  if x.replay.isEmpty then s else
  let s := (s.setSeam p { x with replays := x.replays + 1 }).count (.seam p 0) x.replay.length
  if 8 ≤ x.replays + 1 then s.retrainSeam p else s

/-- What a good frame brings (R423, R425, R428). -/
def State.goodFrame (s : State) (p : Nat) (f : Frame) : State :=
  let c := frameFields f
  let x := (s.seam p).acked c.ack
  let cr := if c.cvc < 18 then x.credits.set c.cvc (x.credits.getD c.cvc 0 + c.cred) else x.credits
  let s := s.setSeam p { x with fseqRx := x.fseqRx + 1, nak := false, credits := cr }
  let bs := x.partialRx ++ f.space
  let s := s.rxPackets p (bs.length / 16 + 1) bs
  let s := if c.nak then s.replaySeam p else s
  s.pump p

/-- FRAME_RECEIVE (R422-R428): a frame that the FEC cannot correct, whose CRC fails or whose FSEQ is not the next is
discarded, and a NAK is owed. -/
def execFrameReceive (p : Nat) (f : Frame) (s : State) : Host.Outcome State Fault Refusal :=
  let x := s.seam p
  if s.inReset || x.state != .active then .next s else
  let s := s.count (.seam p 1) 1
  let s := if f.fecCorrected then s.count (.seam p 2) 1 else s
  if !f.fecOk || crc16 (frameBits f) != (frameFields f).crc || (frameFields f).fseq != x.fseqRx then
    .next ((s.setSeam p { x with nak := true }).count (.seam p 3) 1)
  else .next (s.goodFrame p f)

/-! ## Inbound memory access (R404, R430) -/

/-- A port that carries packets. -/
def State.seamUp (s : State) (p : Nat) : Bool := (s.seam p).state == .active && s.ready.seam.getLsbD p

/-- Whether an inbound access reaches a present, ready stack (R298, R430). -/
def State.inboundOk (s : State) (a n : Nat) : Bool :=
  match placeOf a with
  | .stack _ => s.physIssue a (max 1 n) == none && placeOf (a + (n - 1)) == placeOf a
  | _ => false

/-- INBOUND_MWR (R430): a write reaches the stack as engine traffic; it is dropped where nothing is mapped, or on a
sealed page. -/
def execInboundMwr (p ep addr : Nat) (data : List (BitVec 8)) (s : State) : Host.Outcome State Fault Refusal :=
  if !s.seamUp p then .next s else
  let s := s.takeRx p .mwr 0 ep 0
  if !s.inboundOk addr data.length then .next (s.count (.seam p 6) 1)
  else if data.isEmpty then .next s
  else if s.anySealed [(addr, data.length)] then .next (s.count (.seam p 7) 1)
  else .next ((((s.put addr data).dropCopies [(addr, data.length)])).l2Invalidate [(addr, data.length)])

/-- INBOUND_MRD (R430): a read returns its data, STATUS UNMAPPED, or zeros from a sealed page. -/
def execInboundMrd (p ep addr len tag : Nat) (s : State) : Host.Outcome State Fault Refusal :=
  if !s.seamUp p then .next s else
  let s := s.takeRx p .mrd 0 ep 0
  let answer := fun (t : State) (st : Nat) (bs : Bytes) => t.send p (Packet.mk .cpl 0 true ep 0 st 0 tag bs)
  if !s.inboundOk addr len then .next (answer (s.count (.seam p 6) 1) 1 [])
  else if len ≠ 0 ∧ s.anySealed [(addr, len)] = true then .next (answer (s.count (.seam p 7) 1) 0 (zeroBytes len))
  else .next (answer s 0 (memRead s.mem addr len))

/-- CPL (R429): the read of the engine that it answers is over. -/
def execCpl (p tag status : Nat) (data : List (BitVec 8)) (s : State) : Host.Outcome State Fault Refusal :=
  if !s.seamUp p then .next s else
  match s.hostReads.find? (fun r => r.port == p && r.tag == tag) with
  | none => .next s
  | some r =>
    let s := s.takeRx p .cpl 0 (s.endpointOf r.ctx) 0
    if status = 0 ∧ data.length = r.len then
      .next { s with hostReads := s.hostReads.filter (fun x => x.port != p || x.tag != tag) }
    else .next s

/-! ## Register packets (R430, R457) -/

/-- Read words in ascending order (R460). -/
def State.readWords (s : State) (src : Source) : Nat → Nat → List W32 × State
  | _, 0 => ([], s)
  | off, n + 1 =>
    let r := s.readWord src off
    let rest := State.readWords r.2 src (off + 4) n
    (r.1 :: rest.1, rest.2)

/-- Write words one at a time; whether one was refused (R14, R457). -/
def State.writeWords (s : State) (src : Source) : Nat → List W32 → Bool × State
  | _, [] => (false, s)
  | off, w :: ws =>
    let r := s.regWrite src off w
    let rest := State.writeWords r.2 src (off + 4) ws
    (r.1 || rest.1, rest.2)

/-- Answer a register access. -/
def State.rcpl (s : State) (p ep status tag : Nat) (bs : Bytes) : State :=
  s.send p (Packet.mk .rcpl 16 (s.channel? p 16 ep).isSome ep 0 status 0 tag bs)

/-- RRD (R430): 1-16 aligned words. -/
def execRrd (p ep offset words tag : Nat) (s : State) : Host.Outcome State Fault Refusal :=
  if !s.seamUp p || !s.ready.tag then .next s else
  let s := s.takeRx p .rrd 16 ep 0
  if words = 0 ∨ 16 < words ∨ offset % 4 ≠ 0 then .next (s.count (.seam p 5) 1) else
  let r := s.readWords (.seam p ep false) offset words
  .next (r.2.rcpl p ep 0 tag (r.1.flatMap (fun w => leBytes 4 w.toNat)))

/-- RWR (R14, R430). -/
def execRwr (p ep : Nat) (enc : Bool) (offset : Nat) (data : List (BitVec 32)) (tag : Nat) (s : State) :
    Host.Outcome State Fault Refusal :=
  if !s.seamUp p || !s.ready.tag then .next s else
  let s := s.takeRx p .rwr 16 ep 0
  if data.isEmpty ∨ 16 < data.length ∨ offset % 4 ≠ 0 then .next (s.count (.seam p 5) 1) else
  let r := s.writeWords (.seam p ep enc) offset data
  .next (r.2.rcpl p ep (if r.1 then 2 else 0) tag [])

end Sys2Proof.Machine
end

