-- ==== Sys2Proof/Machine/Stack.lean ====
section
/-!
DEFINITION. Sys2Proof/Machine/Stack.lean: the stack ports (R300-R302, R432, R466, R467): training, zeroing, refresh,
what accesses return; the failure of a pseudo-channel or a stack and what it takes with it (R386-R388, R473).
-/
namespace Sys2Proof.Machine

/-! ## Lost structures (R387, R388) -/

/-- A structure that a packet names: its KIND of R388, its address, and the extents that hold it and what it
describes. -/
structure Struct where
  kind : Nat
  addr : Nat
  extents : List (Nat × Nat)
  deriving DecidableEq, Repr

/-- Extents of a gradient pair buffer: its header and both epochs (R127). -/
def State.bufferExtents (s : State) (ctx : Nat) (d : TDesc) : List (Nat × Nat) :=
  match s.readStruct ctx d.base 64 64 with
  | .error _ => [(d.base, 64)]
  | .ok b => (d.base, 64) :: (d.epochRows (GHead.parse b) 0 ++ d.epochRows (GHead.parse b) 1)

/-- A tensor descriptor with its rows and scale bytes; a gradient pair buffer apart (R274, R127). -/
def State.descStructs (s : State) (ctx addr : Nat) : List Struct :=
  match s.readStruct ctx addr 64 64 with
  | .error _ => [Struct.mk 0 addr [(addr, 64)]]
  | .ok b =>
    let d := TDesc.parse b
    if d.handover then [Struct.mk 0 addr [(addr, 64)]]
    else if d.kind = 1 then [Struct.mk 0 addr [(addr, 64)], Struct.mk 1 d.base (s.bufferExtents ctx d)]
    else
      match d.format? (s.ctx ctx) with
      | none => [Struct.mk 0 addr [(addr, 64)]]
      | some f => [Struct.mk 0 addr ((addr, 64) :: (d.extents f ++ scaleExtent d d.rows d.cols))]

/-- Extents of `n` bytes in two epochs, nothing for an address of 0. -/
def twoEpochs (a n : Nat) : List (Nat × Nat) := if a = 0 ∨ n = 0 then [] else [(a, 2 * n)]

/-- A parameter descriptor with its state tensors and its slots (R157). -/
def State.paramStruct (s : State) (ctx addr : Nat) : Struct :=
  match s.readStruct ctx addr 256 64 with
  | .error _ => Struct.mk 2 addr [(addr, 256)]
  | .ok b =>
    let p := PDesc.parse b
    let aux := if p.blockSide = 0 then factorBytes p else statsBytes p.grid
    Struct.mk 2 addr ((addr, 256) :: (twoEpochs p.master p.epochBytes ++ twoEpochs p.mom1 p.epochBytes ++
      twoEpochs p.mom2 p.epochBytes ++ twoEpochs p.aux1 aux ++ twoEpochs p.aux2 (rootBytes p.grid) ++
      p.slots.flatMap (fun v => if v.base = 0 then [] else [(v.base, p.rowsN * v.pitch)])))

/-- The structures of an exchange command's round (R189). -/
def State.roundStructs (s : State) (e : Entry) : List Struct :=
  if !(match e.op with | some op => op.isExchange | none => false) || e.op == some .ryRoundOpen then [] else
  match smGet? s.groups (e.field 0x10 1 % 16) with
  | none => []
  | some g =>
    if g.ctx ≠ e.ctx then [] else
    g.tensors.flatMap (fun t =>
      (if t.buffer = 0 then [] else s.descStructs e.ctx t.buffer) ++
      (if t.backup = 0 then [] else s.descStructs e.ctx t.backup) ++
      (if t.owner = 0 then [] else [s.paramStruct e.ctx t.owner]) ++
      (if t.replica = 0 then [] else [s.paramStruct e.ctx t.replica])) ++
    [Struct.mk 3 g.d.list [(g.d.list, 64 * g.tensors.length)], Struct.mk 3 g.d.record [(g.d.record, 64)]] ++
    (if g.d.work = 0 then [] else [Struct.mk 3 g.d.work [(g.d.work, (g.work.map (fun r => r.2)).foldl (· + ·) 0)]])

/-- Every structure that an entry's packet names, with what it describes (R387). -/
def State.structs (s : State) (e : Entry) : List Struct :=
  (s.named e).flatMap (fun n =>
    if n.kind = 0 then s.descStructs e.ctx n.addr
    else if n.kind = 2 then [s.paramStruct e.ctx n.addr]
    else [Struct.mk n.kind n.addr [(n.addr, n.len)]]) ++ s.roundStructs e

/-- Whether a structure is lost (R387): it cannot be read, or some byte of an extent that it describes cannot be reached
because a part is absent. -/
def State.structLost (s : State) (ctx : Nat) (x : Struct) : Bool :=
  x.extents.zipIdx.any (fun (r : (Nat × Nat) × Nat) => match s.resolve ctx r.1.1 r.1.2 false with
    | .error st => r.2 == 0 || st == Status.unitAbsent
    | .ok _ => false)

/-- An entry that names a lost structure enters LOST_WAIT (R387): its work is discarded, a committed one has applied
its items. -/
def State.loseEntry (s : State) (part : BitVec 8) (e : Entry) : State :=
  let xs := (s.structs e).filter (s.structLost e.ctx)
  let rs := s.regionsLost e
  if xs.isEmpty && rs.isEmpty then s else
  let s := xs.foldl (fun t x => t.addLoss part e.ctx x.kind x.addr (some e.seq)) s
  (rs.foldl (fun t r => t.addRegionLoss e.ctx r (some e.seq)) s).enterLost e

/-- Whether a run lies in a stack and has a byte that the failed part of it holds. -/
def State.inFailed (s : State) (m : Nat) (r : Nat × Nat) : Bool := placeOf r.1 == .stack m && s.runGone r

/-- Loss records of KIND 4 for the rings, save areas and regions that a failed part of a stack takes (R387, R473). -/
def State.regionLosses (s : State) (m : Nat) : State :=
  s.ctxs.foldl (fun t x =>
    if x.2.state = .closed then t else
    ([some x.2.sq, some x.2.cq, x.2.save, x.2.gov, x.2.ledger].flatMap lostOf).foldl (fun t r =>
      if r.pageRuns.any (s.inFailed m) then (t.addRegionLoss x.1 r none).setFault .loss else t) t) s

/-- What a failed part takes with it (R387, R473). -/
def State.loseIn (s : State) (m : Nat) (whole : Bool) : State :=
  let part : BitVec 8 := BitVec.ofNat 8 (m + if whole then 128 else 0)
  let s := (s.loseRegions (s.inFailed m)).regionLosses m
  (s.journal.entries.filter Entry.examined).foldl (fun t e => t.loseEntry part e) s

/-! ## Failures (R386) -/

/-- The journal goes on in the other region when M0 or M3 fails (R386). -/
def Journal.without (j : Journal) (m : Nat) : Nat :=
  if m = 0 then (if j.state = 1 then 3 else if j.state = 2 then 0 else j.state)
  else if m = 3 then (if j.state = 1 then 2 else if j.state = 3 then 0 else j.state)
  else j.state

/-- A stack fails (R386): absent from then on. -/
def State.failStack (s : State) (m : Nat) : State :=
  if !s.caps.stks.getLsbD m then s else
  let s := (s.setStack m { s.stack m with state := .failed, repeats := [] }).onPort m Traffic.cleared
  let j := s.journal.without m
  let one := j != s.journal.state
  let s : State := { s with
    caps := { s.caps with stks := s.caps.stks &&& ~~~(1#6 <<< m) }
    ready := { s.ready with stks := s.ready.stks &&& ~~~(1#6 <<< m) }
    journal := { s.journal with state := j } }
  let s := s.setFault .stackFailed
  let s := if one then s.setFault .jrnlSingle else s
  ((s.traceFault .stack 3 (.stack m) 0 0).loseIn m true).capChange

/-- Pseudo-channels whose failure fails a stack (R386). -/
def pcLimit : Nat := 8

/-- A pseudo-channel fails (R386), and with the eighth its stack. -/
def State.failPc (s : State) (m pc : Nat) : State :=
  let x := s.stack m
  if 64 ≤ pc ∨ x.pcFailed.getLsbD pc = true then s else
  let failed := x.pcFailed ||| (1#64 <<< pc)
  let s := (s.setStack m { x with pcFailed := failed, repeats := x.repeats.filter (fun r => r.1 != pc) }).onPort m
    (fun t => t.withoutPc pc)
  let s := ((s.count (.stack m 7) 1).setFault .pcFailed).traceFault .pc 3 (.stack m) 0 0
  if pcLimit ≤ popMask failed then s.failStack m else (s.loseIn m false).capChange

/-! ## The rows -/

/-- A port that works: present, and no reset holds it. -/
def State.stackUp (s : State) (m : Nat) : Bool :=
  !s.inReset && s.pins.warmResetN && decide (m < dieStacks s.die) && s.caps.stks.getLsbD m

/-- The highest data rate of a stack in 0.1 Gbit/s (R300): 12.0 Gbit/s, or less by the maker profile. -/
def State.rateLimit (s : State) : Nat :=
  match s.boot.profile with
  | none => 120
  | some d => profileRate d

/-- A port becomes ready (R302, R442), out of self-refresh if it was in it (R300). -/
def State.readyStack (s : State) (m : Nat) (x : StackPort) : State :=
  let s := s.setStack m { x with state := .ready, allBank := false }
  ({ s with ready := { s.ready with stks := s.ready.stks ||| (1#6 <<< m) } } : State).ibi

/-- STACK_TRAINING_DONE (R300, R302, R386, R408, R432): the capacity is read and the stack zeroed, once after a cold
reset; a third failure in succession leaves the stack absent, and a second one of re-training fails it. -/
def execStackTrainingDone (m : Nat) (ok : Bool) (capacity height rate lanes : Nat) (s : State) :
    Host.Outcome State Fault Refusal :=
  let x := s.stack m
  let again := x.state == .retraining
  if !s.stackUp m || !(x.state == .training || again) then .next s
  else if ok then
    let y := { x with trainFails := 0, lanes := BitVec.ofNat 8 lanes }
    let y := if again && x.cleared then y else { y with
      capacity := BitVec.ofNat 16 capacity, height := BitVec.ofNat 4 height
      rate := BitVec.ofNat 8 (min rate s.rateLimit), zeroed := 0 }
    .next (if x.cleared then s.readyStack m y else s.setStack m { y with state := .zeroing })
  else
    let n := x.trainFails + 1
    let s := s.setStack m { x with trainFails := n }
    if again && decide (2 ≤ n) then .next (s.failStack m)
    else if !again && decide (3 ≤ n) then
      let s := s.setStack m { x with trainFails := n, state := .failed }
      .next ({ s with caps := { s.caps with stks := s.caps.stks &&& ~~~(1#6 <<< m) } } : State).capChange
    else .next s

/-- STACK_ZEROED (R302, R408, R432). -/
def execStackZeroed (m : Nat) (s : State) : Host.Outcome State Fault Refusal :=
  let x := s.stack m
  if !s.stackUp m || x.state != .zeroing then .next s
  else
    let s : State := { s with mem := memZero s.mem (m * stackWindow) stackWindow }
    .next (s.readyStack m { x with zeroed := x.capacity, cleared := true })

/-- REFRESH_MANAGEMENT_REQUEST (R300): honoured at once, ahead of the requests that hold slots of the bank. -/
def execRefreshManagementRequest (m pc bank : Nat) (s : State) : Host.Outcome State Fault Refusal :=
  let x := s.stack m
  if !s.stackUp m || x.state != .ready || !decide (pc < 64 ∧ bank < 64) then .next s
  else .next ((s.setStack m { x with management := [(pc, bank)] }).onPort m (fun t => t.refreshed pc bank))

/-- PER_BANK_REFRESH (R300). -/
def execPerBankRefresh (m pc bank : Nat) (s : State) : Host.Outcome State Fault Refusal :=
  let x := s.stack m
  if !s.stackUp m || x.state != .ready || !decide (pc < 64 ∧ bank < 64) then .next s
  else .next ((s.setStack m { x with refreshes := x.refreshes + 1 }).onPort m (fun t => t.refreshed pc bank))

/-- STACK_TEMPERATURE_READ_OUT (R300, R467). -/
def execStackTemperatureReadOut (m : Nat) (temperature : BitVec 16) (s : State) :
    Host.Outcome State Fault Refusal :=
  let x := s.stack m
  if !s.stackUp m || x.state == .off || x.state == .failed then .next s
  else .next (s.setStack m { x with
    temp := temperature, refresh := BitVec.ofNat 2 (Config.refreshRate temperature).val })

/-- STACK_UNRECOVERABLE_CONDITION (R386). -/
def execStackUnrecoverableCondition (m : Nat) (s : State) : Host.Outcome State Fault Refusal :=
  if !s.stackUp m || (s.stack m).state == .off then .next s else .next (s.failStack m)

/-- What an access without error does to the requests that hold slots for its line (R306, R308): they leave the port, or
nothing changes where their pseudo-channel has another to issue first. An access that holds no slot is traffic that has
passed, and counts as a request. -/
def State.lineBack (s : State) (m line : Nat) (keep : State → State) : State :=
  let t := s.fabric.port m
  let l := m * (stackWindow / 64) + line
  if !t.slots.any (fun r => r.line == l) then (keep s).count (.stack m 0) 1 else
  let out := t.leave l s.tb.now
  if out.2.1.isEmpty then s else (keep (s.onPort m (fun _ => out.1))).returned m out.2.1 out.2.2

/-- STACK_ACCESS_RETURN (R301, R386): an access to a pseudo-channel and line returns. A parity or CRC error repeats it
once; an uncorrectable read and a repeat that fails are faults of the pseudo-channel. -/
def execStackAccessReturn (m pc line : Nat) (r : AccessResult) (s : State) : Host.Outcome State Fault Refusal :=
  let x := s.stack m
  if !s.stackUp m || x.state != .ready || decide (64 ≤ pc) || x.pcFailed.getLsbD pc then .next s else
  let held := (s.fabric.port m).slots.any (fun y => y.line == m * (stackWindow / 64) + line)
  let tried := if held then s else s.count (.stack m 0) 1
  let again := x.repeats.contains (pc, line)
  let rest := x.repeats.filter (fun y => y != (pc, line))
  match r with
  | .ok => .next (s.lineBack m line (fun t => t.setStack m { x with repeats := rest }))
  | .corrected => .next (s.lineBack m line (fun t => (t.setStack m { x with repeats := rest }).count (.stack m 4) 1))
  | .uncorrectable => .next ((tried.count (.stack m 5) 1).failPc m pc)
  | .parityError | .crcError =>
    if again then .next (tried.failPc m pc)
    else .next ((tried.setStack m { x with repeats := (pc, line) :: x.repeats }).count (.stack m 6) 1)

end Sys2Proof.Machine
end

