-- ==== Sys2Proof/Machine/Tap.lean ====
section
/-!
DEFINITION. Sys2Proof/Machine/Tap.lean: the test access port (R434), an IEEE 1149.1 TAP over the low-speed pins. It
reads and writes no state of the engine but its own.
-/
namespace Sys2Proof.Machine

/-- Select an instruction and the word that its data register shifts out; an unpowered die does nothing (R419). -/
def State.tapSelect (s : State) (i : TapInstr) (out : W32) : State :=
  if s.pins.pwrGood then { s with tap := { s.tap with instr := i, out := out } } else s

/-- BYPASS (R434): one bit that captures 0. -/
def execBypass (s : State) : Host.Outcome State Fault Refusal := .next (s.tapSelect .bypass 0)

/-- IDCODE (R434). -/
def idcodeOf : Die → W32
  | .g5x16 => 0x1A5160F3
  | .g5x8 => 0x1A5080F3

/-- IDCODE (R434). -/
def execIdcode (s : State) : Host.Outcome State Fault Refusal := .next (s.tapSelect .idcode (idcodeOf s.die))

/-- SAMPLE/PRELOAD (R434): the levels of the pins are captured, and the cells loaded. -/
def execSamplePreload (cells : BitVec 32) (s : State) : Host.Outcome State Fault Refusal :=
  if !s.pins.pwrGood then .next s else
  let t := s.tapSelect .sample (Config.boundarySample s.tap.samples)
  .next { t with tap := { t.tap with cells := cells, samples := s.tap.samples + 1 } }

/-- An instruction that drives the pins takes effect only while COLD_RESET_N is low, and acts as BYPASS otherwise
(R434). -/
def State.tapDrive (s : State) (i : TapInstr) (out : W32) : State :=
  if s.pins.coldResetN then s.tapSelect .bypass 0 else s.tapSelect i out

/-- EXTEST (R434): the boundary chain is selected, its cells drive the pins. -/
def execExtest (s : State) : Host.Outcome State Fault Refusal :=
  if s.pins.coldResetN || !s.pins.pwrGood then .next (s.tapSelect .bypass 0)
  else
    let t := s.tapSelect .extest (Config.boundarySample s.tap.samples)
    .next { t with tap := { t.tap with samples := s.tap.samples + 1 } }

/-- CLAMP (R434): the cells drive the pins, and the bypass register is selected. -/
def execClamp (s : State) : Host.Outcome State Fault Refusal := .next (s.tapDrive .clamp 0)

/-- HIGHZ (R434): the pins are not driven, and the bypass register is selected. -/
def execHighz (s : State) : Host.Outcome State Fault Refusal := .next (s.tapDrive .highz 0)

end Sys2Proof.Machine
end

