-- ==== Sys2Proof/Machine/Trace.lean ====
section
/-!
DEFINITION. Sys2Proof/Machine/Trace.lean: the observation commands (R269, R270): COUNTER_SNAP (R448), TRACE_CTL (R452,
R453) and TRACE_TRIGGER (R453).
-/
namespace Sys2Proof.Machine

/-! ## COUNTER_SNAP -/

/-- Counters of a group (R445). -/
def groupSizes : List Nat := [8, 13, 4, 5, 5, 11, 48, 32, 6, 5, 8, 3]

/-- The scope of a group: 0 engine, 1 sleeve, 2 core; none for group 10, which goes with any. -/
def groupScope (g : Nat) : Option Nat :=
  if g < 5 then some 2 else if g = 5 then some 1 else if g = 10 then none else some 0

/-- The counter of a group at an index, for a unit or a context (R445). -/
def groupCounter (g unit ctx i : Nat) : Counter :=
  match g with
  | 0 => .util unit i
  | 1 => .stall unit i
  | 2 => .numeric unit i
  | 3 => .fault unit i
  | 4 => .stream unit i
  | 5 => .cache unit i
  | 6 => .stack (i / 8) (i % 8)
  | 7 => .seam (i / 8) (i % 8)
  | 8 => .exchange i
  | 9 => .control i
  | 10 => .context ctx i
  | _ => .trace i

/-- The groups that a mask names, ascending. -/
def snapGroups (mask : Nat) : List Nat := (List.range 12).filter (fun g => mask.testBit g)

/-- Bytes of a snapshot (R448). -/
def snapBytes (mask : Nat) : Nat :=
  64 + ((snapGroups mask).map (fun g => 8 + 8 * groupSizes.getD g 0)).foldl (· + ·) 0

/-- A snapshot (R448). -/
def State.snapshot (s : State) (scope unit mask ctx : Nat) (t : W64) : Bytes :=
  leBytes 2 1 ++ leBytes 1 scope ++ leBytes 1 unit ++ leBytes 2 mask ++ leBytes 2 ctx ++ leBytes 8 t.toNat ++
  leBytes 4 (snapBytes mask) ++ zeroBytes 44 ++
  (snapGroups mask).flatMap (fun g =>
    leBytes 2 g ++ leBytes 2 (groupSizes.getD g 0) ++ zeroBytes 4 ++
    (List.range (groupSizes.getD g 0)).flatMap (fun i =>
      leBytes 8 (s.counter (groupCounter g unit ctx i)).toNat))

/-- Ticks from dispatch to T_SNAP (R448). -/
def snapDelay : Nat := 2000

/-- COUNTER_SNAP (R448, R269, R270): it waits for its tick T_SNAP, and takes the counters then. A sealed destination
stops it no more than another (R270). -/
def counterSnapPlan (s : State) (e : Entry) : Plan :=
  let dest := e.field 0x10 8
  let bytes := e.field 0x18 4
  let scope := e.field 0x1C 1
  let unit := e.field 0x1D 1
  let mask := e.field 0x1E 2
  let n := snapBytes mask
  let ok := e.clean [(0x10, 0, 64), (0x18, 0, 32), (0x1C, 0, 2), (0x1D, 0, 7), (0x1E, 0, 16)] &&
    decide (dest ≠ 0 ∧ mask ≠ 0 ∧ mask < 4096 ∧ scope < 3 ∧ (scope = 0 → unit = 0)) &&
    (snapGroups mask).all (fun g => match groupScope g with | some k => k == scope | none => true)
  let absent := (scope == 1 && decide (dieSleeves s.die ≤ unit)) || (scope == 2 && decide (dieCores s.die ≤ unit))
  let t := (e.tStarted.getD s.stamp) + BitVec.ofNat 64 snapDelay
  let pre := need ok ++ (if absent then [Status.unitAbsent] else [])
  if !pre.isEmpty then .refuse pre
  else if bytes < n then .refuse [Status.outOfBounds]
  else if s.stamp.toNat < t.toNat then .wait
  else
    match s.resolve e.ctx dest n true with
    | .error st => .fail [st]
    | .ok rs =>
      .done { Delta.none with
        result := BitVec.ofNat 32 n, writes := splitRuns rs (s.snapshot scope unit mask e.ctx t) }

/-- COUNTER_SNAP (R448). -/
def execCounterSnap (ctx : Nat) (seq : W32) (s : State) : Host.Outcome State Fault Refusal :=
  s.runWork .counterSnap ctx seq [] counterSnapPlan

/-! ## TRACE_CTL -/

/-- Reserved bits of SOURCES (R450). -/
def sourcesOk (v : Nat) : Bool := v.testBit 0 == false && v / 2 ^ 18 % 2 ^ 15 == 0 && v / 2 ^ 50 == 0

/-- Whether a region's ranges hold (R452). -/
def traceRangeOk (bytes post : Nat) : Bool :=
  decide (bytes % 65536 = 0 ∧ 65536 ≤ bytes ∧ bytes ≤ 2 ^ 32 ∧ post % 64 = 0 ∧ 64 ≤ post ∧ 2 * post ≤ bytes)

/-- What stands in the way of a placement (R452), and its physical pages. -/
def State.tracePlace (s : State) (ctx va bytes : Nat) : List Status × List Nat :=
  match s.resolve ctx va bytes true with
  | .error st => ([st], [])
  | .ok rs =>
    let outside := rs.any (fun r => match placeOf r.1 with | .stack _ => false | _ => true)
    ((if outside then [Status.outOfBounds] else []) ++ (if s.anySealed rs then [Status.isSealed] else []),
      rs.map (fun r => r.1 / 65536))

/-- Set MODE and SOURCES (R453). -/
def Trace.set (t : Trace) (mode : Nat) (sources : W64) : Trace :=
  { t with mode := mode, sources := sources, next := 0, wraps := 0, drops := 0, triggered := false, full := false }

/-- TRACE_CTL (R270, R450, R452, R453). -/
def traceCtlWork (s : State) (e : Entry) : Verdict :=
  let mode := e.field 0x10 1 % 4
  let place := (e.field 0x10 1).testBit 2
  let va := e.field 0x18 8
  let bytes := e.field 0x20 8
  let post := e.field 0x28 4
  let sources := e.field 0x30 8
  let ok := e.clean [(0x10, 0, 3), (0x18, 0, 64), (0x20, 0, 64), (0x28, 0, 32), (0x30, 0, 64)] && sourcesOk sources &&
    (if place then decide (s.trace.mode = 0 ∧ va ≠ 0) && traceRangeOk bytes post else decide (mode = 0) || s.trace.placed)
  if !ok then .fail [Status.malformed] [] else
  if place then
    let p := s.tracePlace e.ctx va bytes
    if !p.1.isEmpty then .fail p.1 []
    else
      let t := { s.trace with placed := true, pages := p.2, offset := va % 65536, bytes := bytes, post := post }
      .done Status.ok 0 false
        (({ s with trace := t.set mode (BitVec.ofNat 64 sources) } : State).auditCommand e none)
  else .done Status.ok 0 false { s with trace := s.trace.set mode (BitVec.ofNat 64 sources) }

/-- TRACE_CTL (R452). -/
def execTraceCtl (ctx : Nat) (seq : W32) (s : State) : Host.Outcome State Fault Refusal :=
  s.runOp .traceCtl ctx seq traceCtlWork

/-! ## TRACE_TRIGGER -/

/-- A trigger after the window's first (R270): a record more where room remains; nothing moves. -/
def State.traceAgain (s : State) (ctx : Nat) (seq : W32) (tag : Nat) : Nat × State :=
  let n := s.trace.next
  if n + 1 < s.trace.bytes / 32 then
    let r := TraceRec.mk 30 false TraceUnit.tag.code ctx s.stamp seq 0 (BitVec.ofNat 64 tag)
    (n, { s.traceWrite n r with trace := { s.trace with next := n + 1 } })
  else (0, s)

/-- TRACE_TRIGGER (R270, R453). -/
def traceTriggerWork (s : State) (e : Entry) : Verdict :=
  let tag := e.field 0x10 4
  if !e.clean [(0x10, 0, 32)] then .fail [Status.malformed] []
  else if s.trace.mode ≠ 3 then .done Status.ok 0 false s
  else if s.trace.triggered then
    let r := s.traceAgain e.ctx e.seq tag
    .done Status.ok (BitVec.ofNat 32 r.1) false r.2
  else
    let t := s.traceTrip (BitVec.ofNat 64 tag) e.ctx e.seq
    .done Status.ok (BitVec.ofNat 32 t.trace.trigIndex) false t

/-- TRACE_TRIGGER (R453). -/
def execTraceTrigger (ctx : Nat) (seq : W32) (s : State) : Host.Outcome State Fault Refusal :=
  s.runOp .traceTrigger ctx seq traceTriggerWork

end Sys2Proof.Machine
end

