-- ==== Sys2Proof/Machine/Dispatch.lean ====
section
/-!
DEFINITION. Sys2Proof/Machine/Dispatch.lean: the meaning of each command, one arm per row of the table.
-/
namespace Sys2Proof.Machine

/-- The effect of a command on everything but the queue of waiting commands. -/
def exec (i : Instr) (s : State) : Host.Outcome State Fault Refusal :=
  match i with
  | .coldReset straps => Sys2Proof.Machine.execColdReset straps s
  | .powerFail => Sys2Proof.Machine.execPowerFail s
  | .warmReset => Sys2Proof.Machine.execWarmReset s
  | .warmResetRelease => Sys2Proof.Machine.execWarmResetRelease s
  | .timeSyncEdge elapsed => Sys2Proof.Machine.execTimeSyncEdge elapsed s
  | .syncLost elapsed => Sys2Proof.Machine.execSyncLost elapsed s
  | .slewWindow => Sys2Proof.Machine.execSlewWindow s
  | .meteringInterval m => Sys2Proof.Machine.execMeteringInterval m s
  | .tripEnd => Sys2Proof.Machine.execTripEnd s
  | .aliveToggle => Sys2Proof.Machine.execAliveToggle s
  | .liningSelfTest => Sys2Proof.Machine.execLiningSelfTest s
  | .bootChunk src offset data => Sys2Proof.Machine.execBootChunk src offset data s
  | .bundleVerify => Sys2Proof.Machine.execBundleVerify s
  | .selfCheck sleeve coresFailed gussetFailed fabricFailed => Sys2Proof.Machine.execSelfCheck sleeve coresFailed gussetFailed fabricFailed s
  | .stackTrainingDone m ok capacity height rate lanes => Sys2Proof.Machine.execStackTrainingDone m ok capacity height rate lanes s
  | .stackZeroed m => Sys2Proof.Machine.execStackZeroed m s
  | .refreshManagementRequest m pc bank => Sys2Proof.Machine.execRefreshManagementRequest m pc bank s
  | .stackAccessReturn m pc line r => Sys2Proof.Machine.execStackAccessReturn m pc line r s
  | .seamDetect p tx rx => Sys2Proof.Machine.execSeamDetect p tx rx s
  | .seamEqualiseDone p tx rx => Sys2Proof.Machine.execSeamEqualiseDone p tx rx s
  | .configFrame p f => Sys2Proof.Machine.execConfigFrame p f s
  | .seamTrainTimeout p => Sys2Proof.Machine.execSeamTrainTimeout p s
  | .frameReceive p f => Sys2Proof.Machine.execFrameReceive p f s
  | .inboundMwr p ep addr data => Sys2Proof.Machine.execInboundMwr p ep addr data s
  | .inboundMrd p ep addr len tag => Sys2Proof.Machine.execInboundMrd p ep addr len tag s
  | .cpl p tag status data => Sys2Proof.Machine.execCpl p tag status data s
  | .rrd p ep offset words tag => Sys2Proof.Machine.execRrd p ep offset words tag s
  | .rwr p ep enc offset data tag => Sys2Proof.Machine.execRwr p ep enc offset data tag s
  | .keyx p ep m => Sys2Proof.Machine.execKeyx p ep m s
  | .spdmRequest p ep r => Sys2Proof.Machine.execSpdmRequest p ep r s
  | .bounceBind p ep session ctx base pages tags => Sys2Proof.Machine.execBounceBind p ep session ctx base pages tags s
  | .ryBlock p ep vc block adderFaults => Sys2Proof.Machine.execRyBlock p ep vc block adderFaults s
  | .resend p ep vc stream blockSeq => Sys2Proof.Machine.execResend p ep vc stream blockSeq s
  | .readyToken p ep vc t => Sys2Proof.Machine.execReadyToken p ep vc t s
  | .backupReady p ep vc => Sys2Proof.Machine.execBackupReady p ep vc s
  | .backupRequest p ep vc => Sys2Proof.Machine.execBackupRequest p ep vc s
  | .ryDeadline group => Sys2Proof.Machine.execRyDeadline group s
  | .normToken p ep vc lap tensor value => Sys2Proof.Machine.execNormToken p ep vc lap tensor value s
  | .parameterHeader p ep vc data => Sys2Proof.Machine.execParameterHeader p ep vc data s
  | .parameterData p ep vc data => Sys2Proof.Machine.execParameterData p ep vc data s
  | .forecastData p ep vc data => Sys2Proof.Machine.execForecastData p ep vc data s
  | .i3cPrivateWrite data => Sys2Proof.Machine.execI3cPrivateWrite data s
  | .i3cPrivateRead count => Sys2Proof.Machine.execI3cPrivateRead count s
  | .entdaa address => Sys2Proof.Machine.execEntdaa address s
  | .setdasa staticAddress address => Sys2Proof.Machine.execSetdasa staticAddress address s
  | .setnewda address => Sys2Proof.Machine.execSetnewda address s
  | .rstdaa => Sys2Proof.Machine.execRstdaa s
  | .getpid => Sys2Proof.Machine.execGetpid s
  | .getbcr => Sys2Proof.Machine.execGetbcr s
  | .getdcr => Sys2Proof.Machine.execGetdcr s
  | .getstatus => Sys2Proof.Machine.execGetstatus s
  | .getmwl => Sys2Proof.Machine.execGetmwl s
  | .getmrl => Sys2Proof.Machine.execGetmrl s
  | .enec events => Sys2Proof.Machine.execEnec events s
  | .disec events => Sys2Proof.Machine.execDisec events s
  | .bypass => Sys2Proof.Machine.execBypass s
  | .idcode => Sys2Proof.Machine.execIdcode s
  | .samplePreload cells => Sys2Proof.Machine.execSamplePreload cells s
  | .extest => Sys2Proof.Machine.execExtest s
  | .clamp => Sys2Proof.Machine.execClamp s
  | .highz => Sys2Proof.Machine.execHighz s
  | .doorbell src ctx value => Sys2Proof.Machine.execDoorbell src ctx value s
  | .packetAccept ctx => Sys2Proof.Machine.execPacketAccept ctx s
  | .commandDispatch ctx => Sys2Proof.Machine.execCommandDispatch ctx s
  | .queueGrant core => Sys2Proof.Machine.execQueueGrant core s
  | .chainAdmit => Sys2Proof.Machine.execChainAdmit s
  | .deadlockBreak => Sys2Proof.Machine.execDeadlockBreak s
  | .commandComplete ctx seq => Sys2Proof.Machine.execCommandComplete ctx seq s
  | .nop ctx seq => Sys2Proof.Machine.execNop ctx seq s
  | .fence ctx seq => Sys2Proof.Machine.execFence ctx seq s
  | .signal ctx seq => Sys2Proof.Machine.execSignal ctx seq s
  | .wait ctx seq => Sys2Proof.Machine.execWait ctx seq s
  | .chain ctx seq => Sys2Proof.Machine.execChain ctx seq s
  | .contextOpen ctx seq => Sys2Proof.Machine.execContextOpen ctx seq s
  | .contextClose ctx seq => Sys2Proof.Machine.execContextClose ctx seq s
  | .preempt ctx seq cursors => Sys2Proof.Machine.execPreempt ctx seq cursors s
  | .queryCaps ctx seq => Sys2Proof.Machine.execQueryCaps ctx seq s
  | .copy ctx seq => Sys2Proof.Machine.execCopy ctx seq s
  | .streamDefine ctx seq => Sys2Proof.Machine.execStreamDefine ctx seq s
  | .prefetch ctx seq => Sys2Proof.Machine.execPrefetch ctx seq s
  | .multicast ctx seq detached => Sys2Proof.Machine.execMulticast ctx seq detached s
  | .gather ctx seq faults => Sys2Proof.Machine.execGather ctx seq faults s
  | .scatter ctx seq faults => Sys2Proof.Machine.execScatter ctx seq faults s
  | .pocketWrite ctx seq => Sys2Proof.Machine.execPocketWrite ctx seq s
  | .pocketRead ctx seq => Sys2Proof.Machine.execPocketRead ctx seq s
  | .mmFwd ctx seq faults => Sys2Proof.Machine.execMmFwd ctx seq faults s
  | .mmDx ctx seq faults => Sys2Proof.Machine.execMmDx ctx seq faults s
  | .mmDw ctx seq faults => Sys2Proof.Machine.execMmDw ctx seq faults s
  | .mmConvFwd ctx seq faults => Sys2Proof.Machine.execMmConvFwd ctx seq faults s
  | .mmConvDx ctx seq faults => Sys2Proof.Machine.execMmConvDx ctx seq faults s
  | .mmConvDw ctx seq faults => Sys2Proof.Machine.execMmConvDw ctx seq faults s
  | .mmDist ctx seq faults => Sys2Proof.Machine.execMmDist ctx seq faults s
  | .mmSafe ctx seq faults => Sys2Proof.Machine.execMmSafe ctx seq faults s
  | .vecOp ctx seq faults => Sys2Proof.Machine.execVecOp ctx seq faults s
  | .softmaxBwd ctx seq faults => Sys2Proof.Machine.execSoftmaxBwd ctx seq faults s
  | .normBwd ctx seq faults => Sys2Proof.Machine.execNormBwd ctx seq faults s
  | .maskPack ctx seq faults => Sys2Proof.Machine.execMaskPack ctx seq faults s
  | .tieSum ctx seq faults => Sys2Proof.Machine.execTieSum ctx seq faults s
  | .update ctx seq faults gussetFaults => Sys2Proof.Machine.execUpdate ctx seq faults gussetFaults s
  | .updateRows ctx seq faults => Sys2Proof.Machine.execUpdateRows ctx seq faults s
  | .precondFactor ctx seq faults gussetFaults => Sys2Proof.Machine.execPrecondFactor ctx seq faults gussetFaults s
  | .versionRelease ctx seq => Sys2Proof.Machine.execVersionRelease ctx seq s
  | .ryRoundOpen ctx seq => Sys2Proof.Machine.execRyRoundOpen ctx seq s
  | .ryContribute ctx seq => Sys2Proof.Machine.execRyContribute ctx seq s
  | .ryHop ctx seq adderFaults => Sys2Proof.Machine.execRyHop ctx seq adderFaults s
  | .ryOwn ctx seq => Sys2Proof.Machine.execRyOwn ctx seq s
  | .ryRoundClose ctx seq => Sys2Proof.Machine.execRyRoundClose ctx seq s
  | .ryParamSend ctx seq => Sys2Proof.Machine.execRyParamSend ctx seq s
  | .ryParamRecv ctx seq => Sys2Proof.Machine.execRyParamRecv ctx seq s
  | .govBounds ctx seq => Sys2Proof.Machine.execGovBounds ctx seq s
  | .govRead ctx seq => Sys2Proof.Machine.execGovRead ctx seq s
  | .govStep ctx seq => Sys2Proof.Machine.execGovStep ctx seq s
  | .schedLoad ctx seq => Sys2Proof.Machine.execSchedLoad ctx seq s
  | .schedArm ctx seq => Sys2Proof.Machine.execSchedArm ctx seq s
  | .energyMark ctx seq => Sys2Proof.Machine.execEnergyMark ctx seq s
  | .receiptIssue ctx seq => Sys2Proof.Machine.execReceiptIssue ctx seq s
  | .powerReserve ctx seq => Sys2Proof.Machine.execPowerReserve ctx seq s
  | .sealImport ctx seq => Sys2Proof.Machine.execSealImport ctx seq s
  | .attest ctx seq => Sys2Proof.Machine.execAttest ctx seq s
  | .roleSession ctx seq => Sys2Proof.Machine.execRoleSession ctx seq s
  | .profileLoad ctx seq => Sys2Proof.Machine.execProfileLoad ctx seq s
  | .fwStage ctx seq => Sys2Proof.Machine.execFwStage ctx seq s
  | .fwCommit ctx seq => Sys2Proof.Machine.execFwCommit ctx seq s
  | .counterSnap ctx seq => Sys2Proof.Machine.execCounterSnap ctx seq s
  | .traceCtl ctx seq => Sys2Proof.Machine.execTraceCtl ctx seq s
  | .traceTrigger ctx seq => Sys2Proof.Machine.execTraceTrigger ctx seq s
  | .ctxCqHeadWrite src ctx value => Sys2Proof.Machine.execCtxCqHeadWrite src ctx value s
  | .colXlateInval src value => Sys2Proof.Machine.execColXlateInval src value s
  | .xlateInvalDone => Sys2Proof.Machine.execXlateInvalDone s
  | .colJrnlCtlEnable src value => Sys2Proof.Machine.execColJrnlCtlEnable src value s
  | .colRetireReq src value => Sys2Proof.Machine.execColRetireReq src value s
  | .colLossClear src value => Sys2Proof.Machine.execColLossClear src value s
  | .colCtx0Apply src value => Sys2Proof.Machine.execColCtx0Apply src value s
  | .linCtx0EpWrite src value => Sys2Proof.Machine.execLinCtx0EpWrite src value s
  | .tbLoadHiWrite src value => Sys2Proof.Machine.execTbLoadHiWrite src value s
  | .beltPowerCapWrite src value => Sys2Proof.Machine.execBeltPowerCapWrite src value s
  | .beltCoolantInWrite src value => Sys2Proof.Machine.execBeltCoolantInWrite src value s
  | .beltCalWrite src domain value => Sys2Proof.Machine.execBeltCalWrite src domain value s
  | .enrol src value => Sys2Proof.Machine.execEnrol src value s
  | .enrolRemove src value => Sys2Proof.Machine.execEnrolRemove src value s
  | .latchedPairRead src offset => Sys2Proof.Machine.execLatchedPairRead src offset s
  | .registerWrite src offset value => Sys2Proof.Machine.execRegisterWrite src offset value s
  | .challengeExpiry endpoint role => Sys2Proof.Machine.execChallengeExpiry endpoint role s
  | .authLockoutEnd endpoint => Sys2Proof.Machine.execAuthLockoutEnd endpoint s
  | .sleeveFault sleeve cause => Sys2Proof.Machine.execSleeveFault sleeve cause s
  | .collarSoftReset cause => Sys2Proof.Machine.execCollarSoftReset cause s
  | .recovery => Sys2Proof.Machine.execRecovery s
  | .coldResetAssert => Sys2Proof.Machine.execColdResetAssert s
  | .stackUnrecoverableCondition m => Sys2Proof.Machine.execStackUnrecoverableCondition m s
  | .timeBaseSlew => Sys2Proof.Machine.execTimeBaseSlew s
  | .perBankRefresh m pc bank => Sys2Proof.Machine.execPerBankRefresh m pc bank s
  | .stackTemperatureReadOut m temperature => Sys2Proof.Machine.execStackTemperatureReadOut m temperature s

end Sys2Proof.Machine
end

