-- ==== Sys2Proof/WellFormed.lean ====
section
/-!
DEFINITION. Sys2Proof/WellFormed.lean: the operands that the manual gives each command: unit numbers (R1, R20),
context numbers (R10), aperture offsets (R456), packet lengths (R426). A meaning is total on other operands too.
-/
namespace Sys2Proof

/-- A word offset of the Tag aperture (R456). -/
def offsetOk (off : Nat) : Bool := decide (off < 2 ^ 24) && decide (off % 4 = 0)
/-- A context number. -/
def ctxOk (c : Nat) : Bool := decide (c < 1024)
/-- Core numbers (R20). -/
def coresOk (cs : List Nat) : Bool := cs.all (fun c => decide (c < 128))
/-- Sleeve numbers (R20). -/
def sleevesOk (ks : List Nat) : Bool := ks.all (fun k => decide (k < 16))
/-- The cores that the errors of a command's work are in (R366). -/
def faultCores (fs : List CoreFault) : List Nat :=
  fs.flatMap (fun f => match f with
    | .memory c | .corrected c => [c]
    | _ => [])
/-- The sleeves that the errors of a command's work are in (R370). -/
def faultSleeves (fs : List CoreFault) : List Nat :=
  fs.flatMap (fun f => match f with
    | .cacheCorrected k | .lineLost k _ | .entryLost k _ _ => [k]
    | _ => [])
/-- Errors of units that the machine has. -/
def faultsOk (fs : List CoreFault) : Bool := coresOk (faultCores fs) && sleevesOk (faultSleeves fs)
/-- The sleeves of the Gussets whose results a check sees (R372). -/
def gussetSleeves (gs : List GussetFault) : List Nat := gs.map (fun g => g.sleeve)
/-- A far endpoint identifier: 0x0000 and 0xFFFF are reserved (R426). -/
def endpointOk (ep : Nat) : Bool := decide (0 < ep ∧ ep < 0xFFFF)
/-- A Seam port, a far endpoint and a data virtual channel (R189, R427). -/
def laneOk (p ep vc : Nat) : Bool := decide (p < 4) && endpointOk ep && decide (vc < 16)
/-- A source of a register access. -/
def Source.ok : Source → Bool
  | .seam p ep _ => decide (p < 4) && endpointOk ep
  | .i3c => true
/-- The body of a metering interval: domains 0-26, six port halves, a sensor per sleeve and one for the uncore. -/
def Metering.ok (m : Metering) : Bool :=
  decide (m.raw.length = 27 ∧ m.portHalf.length = 6 ∧ m.sensors.length = 17)

/-- Operands in the ranges of the manual. -/
def wellFormed : Instr → Bool
  | .coldReset _ | .powerFail | .warmReset | .warmResetRelease | .timeSyncEdge _ | .syncLost _ => true
  | .slewWindow | .tripEnd | .aliveToggle | .liningSelfTest | .bundleVerify => true
  | .meteringInterval m => m.ok
  | .bootChunk src off data => src.ok && decide (off + data.length ≤ 2 ^ 28 ∧ data.length ≤ 4096)
  | .selfCheck k _ _ _ => decide (k < 16)
  | .stackTrainingDone m _ _ _ _ _ => decide (m < 6)
  | .stackZeroed m => decide (m < 6)
  | .refreshManagementRequest m pc bank => decide (m < 6 ∧ pc < 64 ∧ bank < 64)
  | .stackAccessReturn m pc line _ => decide (m < 6 ∧ pc < 64 ∧ line < 2 ^ 31)
  | .seamDetect p _ _ => decide (p < 4)
  | .seamEqualiseDone p _ _ => decide (p < 4)
  | .configFrame p f => decide (p < 4 ∧ f.credits.length = 18)
  | .seamTrainTimeout p => decide (p < 4)
  | .frameReceive p _ => decide (p < 4)
  | .inboundMwr p ep a d => decide (p < 4) && endpointOk ep && decide (a < 2 ^ 48 ∧ d.length ≤ 4096)
  | .inboundMrd p ep a n tag => decide (p < 4) && endpointOk ep && decide (a < 2 ^ 48 ∧ n ≤ 4096 ∧ tag < 65536)
  | .cpl p tag st d => decide (p < 4 ∧ tag < 65536 ∧ st < 3 ∧ d.length ≤ 4096)
  | .rrd p ep off n tag => decide (p < 4) && endpointOk ep && offsetOk off && decide (1 ≤ n ∧ n ≤ 16 ∧ tag < 65536)
  | .rwr p ep _ off d tag =>
    decide (p < 4) && endpointOk ep && offsetOk off && decide (1 ≤ d.length ∧ d.length ≤ 16 ∧ tag < 65536)
  | .keyx p ep _ => decide (p < 4) && endpointOk ep
  | .spdmRequest p ep _ => decide (p < 4) && endpointOk ep
  | .bounceBind p ep _ ctx _ _ _ => decide (p < 4) && endpointOk ep && ctxOk ctx
  | .ryBlock p ep vc b fs => laneOk p ep vc && decide (b.length = 72 ∨ b.length = 136) && coresOk fs
  | .resend p ep vc j n => laneOk p ep vc && decide (j < 1024 ∧ n < 65536)
  | .readyToken p ep vc t => laneOk p ep vc && decide (t.lap = 1 ∨ t.lap = 2)
  | .backupReady p ep vc => laneOk p ep vc
  | .backupRequest p ep vc => laneOk p ep vc
  | .ryDeadline g => decide (g < 16)
  | .normToken p ep vc lap t _ => laneOk p ep vc && decide ((lap = 1 ∨ lap = 2) ∧ t < 4096)
  | .parameterHeader p ep vc d => laneOk p ep vc && decide (d.length = 64)
  | .parameterData p ep vc d => laneOk p ep vc && decide (d.length = 64)
  | .forecastData p ep vc d => laneOk p ep vc && decide (d.length = 64)
  | .i3cPrivateWrite _ | .i3cPrivateRead _ => true
  | .entdaa _ | .setdasa _ _ | .setnewda _ | .rstdaa | .getpid | .getbcr | .getdcr | .getstatus | .getmwl
  | .getmrl | .enec _ | .disec _ => true
  | .bypass | .idcode | .samplePreload _ | .extest | .clamp | .highz => true
  | .doorbell src c _ => src.ok && ctxOk c
  | .packetAccept c => ctxOk c
  | .commandDispatch c => ctxOk c
  | .queueGrant c => decide (c < 128)
  | .chainAdmit | .deadlockBreak => true
  | .commandComplete c _ => ctxOk c
  | .nop c _ | .fence c _ | .signal c _ | .wait c _ | .chain c _ | .contextOpen c _ | .contextClose c _ => ctxOk c
  | .preempt c _ _ => ctxOk c
  | .queryCaps c _ | .copy c _ | .streamDefine c _ | .prefetch c _ => ctxOk c
  | .multicast c _ ds => ctxOk c && ds.all (fun d => decide (d.1 < 128))
  | .gather c _ fs | .scatter c _ fs => ctxOk c && faultsOk fs
  | .pocketWrite c _ | .pocketRead c _ => ctxOk c
  | .mmFwd c _ fs | .mmDx c _ fs | .mmDw c _ fs | .mmConvFwd c _ fs | .mmConvDx c _ fs | .mmConvDw c _ fs
  | .mmDist c _ fs | .mmSafe c _ fs | .vecOp c _ fs | .softmaxBwd c _ fs | .normBwd c _ fs
  | .maskPack c _ fs | .tieSum c _ fs | .updateRows c _ fs => ctxOk c && faultsOk fs
  | .update c _ fs gs | .precondFactor c _ fs gs =>
    ctxOk c && faultsOk fs && sleevesOk (gussetSleeves gs)
  | .versionRelease c _ => ctxOk c
  | .ryHop c _ fs => ctxOk c && coresOk fs
  | .ryRoundOpen c _ | .ryContribute c _ | .ryOwn c _ | .ryRoundClose c _ | .ryParamSend c _
  | .ryParamRecv c _ => ctxOk c
  | .govBounds c _ | .govRead c _ | .govStep c _ | .schedLoad c _ | .schedArm c _ => ctxOk c
  | .energyMark c _ | .receiptIssue c _ | .powerReserve c _ => ctxOk c
  | .sealImport c _ | .attest c _ | .roleSession c _ | .profileLoad c _ | .fwStage c _ | .fwCommit c _ => ctxOk c
  | .counterSnap c _ | .traceCtl c _ | .traceTrigger c _ => ctxOk c
  | .ctxCqHeadWrite src c _ => src.ok && ctxOk c
  | .colXlateInval src _ | .colJrnlCtlEnable src _ | .colRetireReq src _ | .colLossClear src _
  | .colCtx0Apply src _ | .linCtx0EpWrite src _ | .tbLoadHiWrite src _ | .beltPowerCapWrite src _
  | .beltCoolantInWrite src _ | .enrol src _ | .enrolRemove src _ => src.ok
  | .xlateInvalDone => true
  | .beltCalWrite src d _ => src.ok && decide (d < 27)
  | .latchedPairRead src off => src.ok && offsetOk off
  | .registerWrite src off _ => src.ok && offsetOk off
  | .challengeExpiry ep r => endpointOk ep && decide (r < 3)
  | .authLockoutEnd ep => endpointOk ep
  | .sleeveFault k _ => decide (k < 16)
  | .collarSoftReset _ | .recovery | .coldResetAssert | .timeBaseSlew => true
  | .stackUnrecoverableCondition m => decide (m < 6)
  | .perBankRefresh m pc bank => decide (m < 6 ∧ pc < 64 ∧ bank < 64)
  | .stackTemperatureReadOut m _ => decide (m < 6)

end Sys2Proof
end

