-- ==== Sys2Proof/Safety.lean ====
section
/-!
DEFINITION. Sys2Proof/Safety.lean: what counts as a safe step, and what every step keeps, in the terms that
statements use.
-/
namespace Sys2Proof

/-- A step that goes on: neither a fault nor a refusal. -/
def Goes (o : Host.Outcome Machine.State Machine.Fault Machine.Refusal) : Prop := ∃ t, o = .next t

/-- A machine whose waiting commands all have operands in the manual's ranges. -/
def Machine.State.queueOk (s : Machine.State) : Bool := s.pending.all wellFormed

namespace Machine

/-- Every unit of the first is a unit of the second (R440). -/
def Caps.le (x y : Caps) : Prop :=
  x.sleeves &&& ~~~y.sleeves = 0 ∧ x.stks &&& ~~~y.stks = 0 ∧ x.seam &&& ~~~y.seam = 0 ∧
  x.cores &&& ~~~y.cores = 0 ∧ x.gusset &&& ~~~y.gusset = 0 ∧ (x.dist = true → y.dist = true)

/-- The head of the audit log's hash chain after some entries (R399). -/
def auditChain (nonce : BitVec 384) (l : List Audit) : BitVec 384 :=
  l.zipIdx.foldl (fun h x => auditNext h x.1 x.2) (auditStart nonce)

/-- The head that the Lining holds is that of its entries (R399). -/
def State.auditSound (s : State) : Prop := s.lining.auditHead = auditChain s.lining.bootNonce s.lining.audit

/-- The ports and sleeves that the aperture has room for (R456): six stacks, four Seam ports, sixteen sleeves. -/
def State.shapeOk (s : State) : Prop := s.stks.length = 6 ∧ s.seams.length = 4 ∧ s.sleeves.length = 16

/-- The commands that put every unit back in service: a cold reset begins or ends (R368, R420). -/
def isCold : Instr → Bool
  | .coldReset _ | .powerFail | .coldResetAssert => true
  | _ => false

/-- The parts of the state, one for each field of `State`. -/
inductive Part where
  | die | pins | tb | caps | ready | boot | stks | seams | hostReads | mem | ctxs | journal | collar |
  fences | retained | cores | sleeves | fabric | chains | starved | groups | counters | trace | belt | lining | i3c | tap
  | latches | stamps | free | pending
  deriving DecidableEq, Repr

/-- Every part of the state but those listed is as it was. -/
structure SameBut (l : List Part) (s t : State) : Prop where
  die : Part.die ∉ l → t.die = s.die
  pins : Part.pins ∉ l → t.pins = s.pins
  tb : Part.tb ∉ l → t.tb = s.tb
  caps : Part.caps ∉ l → t.caps = s.caps
  ready : Part.ready ∉ l → t.ready = s.ready
  boot : Part.boot ∉ l → t.boot = s.boot
  stks : Part.stks ∉ l → t.stks = s.stks
  seams : Part.seams ∉ l → t.seams = s.seams
  hostReads : Part.hostReads ∉ l → t.hostReads = s.hostReads
  mem : Part.mem ∉ l → t.mem = s.mem
  ctxs : Part.ctxs ∉ l → t.ctxs = s.ctxs
  journal : Part.journal ∉ l → t.journal = s.journal
  collar : Part.collar ∉ l → t.collar = s.collar
  fences : Part.fences ∉ l → t.fences = s.fences
  retained : Part.retained ∉ l → t.retained = s.retained
  cores : Part.cores ∉ l → t.cores = s.cores
  sleeves : Part.sleeves ∉ l → t.sleeves = s.sleeves
  fabric : Part.fabric ∉ l → t.fabric = s.fabric
  chains : Part.chains ∉ l → t.chains = s.chains
  starved : Part.starved ∉ l → t.starved = s.starved
  groups : Part.groups ∉ l → t.groups = s.groups
  counters : Part.counters ∉ l → t.counters = s.counters
  trace : Part.trace ∉ l → t.trace = s.trace
  belt : Part.belt ∉ l → t.belt = s.belt
  lining : Part.lining ∉ l → t.lining = s.lining
  i3c : Part.i3c ∉ l → t.i3c = s.i3c
  tap : Part.tap ∉ l → t.tap = s.tap
  latches : Part.latches ∉ l → t.latches = s.latches
  stamps : Part.stamps ∉ l → t.stamps = s.stamps
  free : Part.free ∉ l → t.free = s.free
  pending : Part.pending ∉ l → t.pending = s.pending

/-- The parts that the work of a data command may change: its outputs and their copies, its entry and chain, the
free values, what it counts and traces, the queues that it gives back, its traffic at the stack ports and the caches
(R225, R284, R306, R377). -/
def workParts : List Part :=
  [.seams, .mem, .ctxs, .journal, .cores, .fabric, .chains, .starved, .counters, .trace, .belt, .lining, .stamps, .free]

/-- The parts that it may change where its cores can fault: those of a retirement too (R366, R370). -/
def faultyWorkParts : List Part := [.caps, .collar, .i3c] ++ workParts

/-- The parts of the state that a command may change. -/
def frameOf : Instr → List Part
  | .coldReset _ | .powerFail | .coldResetAssert =>
      [.pins, .tb, .caps, .ready, .boot, .stks, .seams, .hostReads, .mem, .ctxs, .journal, .collar, .fences,
       .retained, .cores, .sleeves, .fabric, .chains, .starved, .groups, .counters, .trace, .belt, .lining,
       .i3c, .latches, .stamps, .free]
  | .warmReset =>
      [.pins, .ready, .boot, .stks, .seams, .hostReads, .ctxs, .journal, .cores, .fabric, .chains, .starved,
       .counters, .belt, .lining, .i3c]
  | .warmResetRelease => [.pins, .stks]
  | .timeSyncEdge _ | .syncLost _ | .timeBaseSlew => [.tb, .cores, .starved, .counters, .trace, .belt, .free]
  | .slewWindow => [.cores, .counters, .belt]
  | .meteringInterval _ => [.seams, .mem, .ctxs, .journal, .sleeves, .fabric, .counters, .trace, .belt, .i3c]
  | .tripEnd => [.mem, .fabric, .counters, .trace, .belt, .i3c]
  | .aliveToggle => [.pins]
  | .liningSelfTest => [.ready, .i3c]
  | .bootChunk _ _ _ => [.boot, .seams, .i3c]
  | .bundleVerify => [.ready, .boot, .sleeves, .lining, .i3c]
  | .selfCheck _ _ _ _ =>
      [.caps, .ready, .boot, .seams, .mem, .journal, .collar, .cores, .sleeves, .fabric, .chains, .counters,
       .trace, .belt, .lining, .i3c, .free]
  | .stackTrainingDone _ _ _ _ _ _ | .stackAccessReturn _ _ _ _ | .stackUnrecoverableCondition _ =>
      [.caps, .ready, .stks, .seams, .mem, .ctxs, .journal, .collar, .cores, .fabric, .counters, .trace, .belt,
       .lining, .i3c, .free]
  | .stackZeroed _ => [.ready, .stks, .mem, .i3c]
  | .refreshManagementRequest _ _ _ | .perBankRefresh _ _ _ => [.stks, .fabric]
  | .seamDetect _ _ _ => [.seams]
  | .seamEqualiseDone _ _ _ =>
      [.caps, .ready, .seams, .mem, .ctxs, .journal, .collar, .cores, .fabric, .counters, .trace, .belt,
       .lining, .i3c, .free]
  | .configFrame _ _ => [.ready, .seams, .counters, .lining, .i3c]
  | .seamTrainTimeout _ =>
      [.caps, .ready, .seams, .mem, .ctxs, .journal, .collar, .cores, .fabric, .counters, .belt, .lining, .i3c,
       .free]
  | .frameReceive _ _ | .ryBlock _ _ _ _ _ | .readyToken _ _ _ _ | .ryContribute _ _ | .ryHop _ _ _
  | .ryOwn _ _ =>
      [.caps, .ready, .seams, .mem, .ctxs, .journal, .collar, .cores, .fabric, .chains, .groups, .counters,
       .trace, .belt, .lining, .i3c, .free]
  | .inboundMwr _ _ _ _ => [.seams, .mem, .cores, .fabric, .counters]
  | .inboundMrd _ _ _ _ _ => [.seams, .counters, .lining]
  | .cpl _ _ _ _ => [.seams, .hostReads]
  | .rrd _ _ _ _ _ => [.seams, .counters, .lining, .latches]
  | .rwr _ _ _ _ _ _ | .registerWrite _ _ _ =>
      [.tb, .caps, .stks, .seams, .mem, .ctxs, .journal, .collar, .cores, .fabric, .counters, .trace, .belt,
       .lining, .i3c]
  | .keyx _ _ _ => [.seams, .mem, .journal, .fabric, .counters, .lining]
  | .spdmRequest _ _ _ | .bounceBind _ _ _ _ _ _ _ => [.seams, .ctxs, .counters, .lining]
  | .resend _ _ _ _ _ | .ryDeadline _ => [.seams, .groups, .counters, .lining]
  | .backupReady _ _ _ => [.seams, .groups]
  | .backupRequest _ _ _ => [.seams, .mem, .journal, .fabric, .groups, .counters, .lining]
  | .normToken _ _ _ _ _ _ | .parameterHeader _ _ _ _ | .parameterData _ _ _ _ | .forecastData _ _ _ _ =>
      [.seams, .mem, .ctxs, .cores, .fabric, .groups, .counters, .lining]
  | .i3cPrivateWrite _ =>
      [.tb, .caps, .boot, .stks, .seams, .mem, .ctxs, .journal, .collar, .cores, .fabric, .counters, .trace,
       .belt, .lining, .i3c]
  | .i3cPrivateRead _ => [.i3c, .latches]
  | .entdaa _ | .setdasa _ _ | .setnewda _ | .rstdaa | .getpid | .getbcr | .getdcr | .getstatus
  | .getmwl | .getmrl | .enec _ | .disec _ => [.i3c]
  | .bypass | .idcode | .samplePreload _ | .extest | .clamp | .highz => [.tap]
  | .doorbell _ _ _ => [.ctxs, .counters]
  | .packetAccept _ => [.seams, .mem, .ctxs, .journal, .fabric, .chains, .counters, .trace, .lining]
  | .commandDispatch _ =>
      [.mem, .ctxs, .journal, .collar, .cores, .fabric, .chains, .counters, .trace, .belt, .i3c, .free]
  | .queueGrant _ => [.mem, .journal, .cores, .fabric, .counters, .trace, .belt, .stamps]
  | .chainAdmit => [.cores, .chains, .counters]
  | .deadlockBreak =>
      [.seams, .mem, .journal, .cores, .fabric, .chains, .starved, .counters, .trace, .belt, .lining]
  | .commandComplete _ _ =>
      [.seams, .hostReads, .mem, .ctxs, .journal, .fences, .retained, .cores, .fabric, .chains, .counters,
       .trace, .belt, .lining]
  | .nop _ _ | .fence _ _ | .wait _ _ | .chain _ _ => [.mem, .journal, .fabric, .chains, .free]
  | .signal _ _ => [.mem, .journal, .fences, .fabric, .chains, .free]
  | .contextOpen _ _ | .govRead _ _ | .attest _ _ | .roleSession _ _ =>
      [.seams, .mem, .ctxs, .journal, .cores, .fabric, .chains, .counters, .lining, .free]
  | .contextClose _ _ =>
      [.mem, .ctxs, .journal, .retained, .cores, .fabric, .chains, .groups, .counters, .trace, .belt, .lining,
       .free]
  | .preempt _ _ _ =>
      [.seams, .mem, .ctxs, .journal, .cores, .fabric, .chains, .starved, .counters, .trace, .belt, .lining,
       .free]
  | .queryCaps _ _ | .copy _ _ | .pocketWrite _ _ | .pocketRead _ _ | .counterSnap _ _ => workParts
  | .streamDefine _ _ | .schedLoad _ _ =>
      [.seams, .mem, .ctxs, .journal, .cores, .fabric, .chains, .counters, .free]
  | .prefetch _ _ =>
      [.seams, .mem, .ctxs, .journal, .cores, .fabric, .chains, .starved, .counters, .trace, .belt, .stamps,
       .free]
  | .multicast _ _ _ =>
      [.seams, .mem, .journal, .cores, .fabric, .chains, .starved, .counters, .trace, .belt, .stamps, .free]
  | .gather _ _ _ | .scatter _ _ _ | .mmFwd _ _ _ | .mmDx _ _ _ | .mmDw _ _ _ | .mmConvFwd _ _ _
  | .mmConvDx _ _ _ | .mmConvDw _ _ _ | .mmDist _ _ _ | .mmSafe _ _ _ | .vecOp _ _ _
  | .softmaxBwd _ _ _ | .normBwd _ _ _ | .maskPack _ _ _ | .tieSum _ _ _ | .updateRows _ _ _ => faultyWorkParts
  | .update _ _ _ _ | .precondFactor _ _ _ _ =>
      [.caps, .seams, .mem, .ctxs, .journal, .collar, .cores, .sleeves, .fabric, .chains, .starved, .counters,
       .trace, .belt, .lining, .i3c, .stamps, .free]
  | .versionRelease _ _ => [.seams, .mem, .journal, .retained, .cores, .fabric, .chains, .counters, .free]
  | .ryRoundOpen _ _ => [.seams, .mem, .journal, .cores, .fabric, .chains, .groups, .counters, .trace, .free]
  | .ryRoundClose _ _ | .ryParamRecv _ _ =>
      [.caps, .seams, .mem, .ctxs, .journal, .collar, .cores, .fabric, .chains, .starved, .groups, .counters,
       .trace, .belt, .lining, .i3c, .stamps, .free]
  | .ryParamSend _ _ => [.seams, .mem, .journal, .cores, .fabric, .chains, .groups, .counters, .lining, .free]
  | .govBounds _ _ | .govStep _ _ =>
      [.seams, .mem, .ctxs, .journal, .cores, .fabric, .chains, .counters, .trace, .free]
  | .schedArm _ _ => [.mem, .ctxs, .journal, .cores, .fabric, .chains, .counters, .trace, .free]
  | .energyMark _ _ => [.mem, .ctxs, .journal, .fabric, .chains, .free]
  | .receiptIssue _ _ =>
      [.seams, .mem, .ctxs, .journal, .cores, .fabric, .chains, .counters, .belt, .lining, .free]
  | .powerReserve _ _ => [.mem, .journal, .fabric, .chains, .belt, .lining, .free]
  | .sealImport _ _ => [.seams, .mem, .journal, .cores, .fabric, .chains, .counters, .lining, .free]
  | .profileLoad _ _ =>
      [.caps, .ready, .boot, .stks, .seams, .mem, .journal, .cores, .sleeves, .fabric, .chains, .counters,
       .belt, .lining, .i3c, .free]
  | .fwStage _ _ => [.boot, .seams, .mem, .journal, .cores, .fabric, .chains, .counters, .lining, .free]
  | .fwCommit _ _ => [.ready, .boot, .mem, .journal, .cores, .fabric, .counters, .belt, .lining, .i3c]
  | .traceCtl _ _ => [.seams, .mem, .journal, .cores, .fabric, .chains, .counters, .trace, .lining, .free]
  | .traceTrigger _ _ => [.mem, .journal, .fabric, .chains, .counters, .trace, .free]
  | .ctxCqHeadWrite _ _ _ => [.mem, .ctxs, .journal, .fabric, .counters]
  | .colXlateInval _ _ => [.collar, .counters]
  | .xlateInvalDone => [.collar, .cores, .fabric]
  | .colJrnlCtlEnable _ _ => [.stks, .journal, .collar, .counters, .lining, .i3c]
  | .colRetireReq _ _ =>
      [.caps, .seams, .mem, .journal, .collar, .cores, .fabric, .counters, .trace, .lining, .i3c]
  | .colLossClear _ _ => [.mem, .journal, .collar, .fabric, .counters]
  | .colCtx0Apply _ _ => [.mem, .ctxs, .journal, .collar, .fabric, .counters, .lining]
  | .linCtx0EpWrite _ _ | .enrol _ _ | .enrolRemove _ _ => [.counters, .lining]
  | .tbLoadHiWrite _ _ => [.tb, .counters, .lining]
  | .beltPowerCapWrite _ _ | .beltCoolantInWrite _ _ | .beltCalWrite _ _ _ => [.counters, .belt, .lining]
  | .latchedPairRead _ _ => [.latches]
  | .challengeExpiry _ _ | .authLockoutEnd _ => [.lining]
  | .sleeveFault _ _ =>
      [.caps, .ready, .boot, .seams, .mem, .ctxs, .journal, .collar, .cores, .sleeves, .fabric, .chains,
       .counters, .trace, .belt, .lining, .i3c, .free]
  | .collarSoftReset _ => [.ready, .boot, .mem, .journal, .cores, .fabric, .counters, .trace, .belt, .lining, .i3c]
  | .recovery =>
      [.ready, .boot, .seams, .mem, .ctxs, .journal, .collar, .fences, .retained, .cores, .sleeves, .fabric,
       .chains, .counters, .trace, .belt, .lining, .i3c]
  | .stackTemperatureReadOut _ _ => [.stks]

end Machine

end Sys2Proof
end

