-- ==== Sys2Proof/Certificates/Slice0/Obligations.lean ====
section
/-!
DEFINITION. Sys2Proof/Certificates/Slice0/Obligations.lean: the statements for the provers. Each docstring names the
rules that a statement rests on.
-/

open Sys2Proof Sys2Proof.Machine

/-! ## Reset, the queue, and what every step keeps -/

namespace Sys2Proof.Claims

/-- The entries of the journal have rising numbers, all below the next one. -/
def Numbered (s : State) : Prop :=
  (s.journal.entries.map (fun e => e.id)).Pairwise (· < ·) ∧ ∀ e ∈ s.journal.entries, e.id < s.journal.nextId

/-- What every reachable machine is like: its memory is canonical, its units are units of its die, the audit log's
hash chain is sound, it has the ports and sleeves of the aperture, and its journal's entries have distinct numbers. -/
def Sound (s : State) : Prop :=
  Memory.wf s.mem = true ∧ Caps.le s.caps (Caps.ofDie s.die) ∧ s.auditSound ∧ s.shapeOk ∧ Numbered s

end Sys2Proof.Claims

open Sys2Proof.Claims

/-- R381, R382, R420, R440, R320, R219: what the spec says of the engine right after a cold reset. R420: the rows that
begin a cold reset. PWR_GOOD or COLD_RESET_N falls; nothing is ready while it lasts, host memory and the test access
port keep what they hold. The model's choices in it: logs 5 and 83 (the TAP, the order). -/
def Obligations.ColdReset : Prop :=
  (∀ (straps : BitVec 6) (s : State), ∃ t, exec (.coldReset straps) s = .next t ∧
    t.tb.now = 0 ∧ t.tb.mode = .free ∧ t.caps = Caps.ofDie s.die ∧ t.pins.straps = straps ∧
    t.ready = Ready.mk true false false 0 0 0 ∧
    (∀ c, (t.ctx c).state = if c = 0 then .opened else .closed) ∧ t.journal.entries = [] ∧
    (∀ f, t.fence f = 0) ∧ (∀ a, a < 6 * stackWindow → memGet t.mem a = 0) ∧
    (∀ off, t.counterAt off = 0) ∧ t.belt.powerCap = 0x01F4 ∧ t.boot.stage = .waitBundle) ∧
  (∀ s : State,
    (∃ t, exec .powerFail s = .next t ∧ t.pins.pwrGood = false ∧ t.pins.alive = false ∧
      t.ready = Ready.mk false false false 0 0 0 ∧ t.mem = hostCells s.mem ∧ t.tap = s.tap ∧ t.inReset = true) ∧
    (s.pins.pwrGood = true → ∃ t, exec .coldResetAssert s = .next t ∧ t.pins.coldResetN = false ∧
      t.pins.alive = false ∧ t.ready = Ready.mk false false false 0 0 0 ∧ t.mem = hostCells s.mem ∧
      t.tap = s.tap ∧ t.inReset = true))

/-- The state that the model starts in is sound. -/
def Obligations.ResetIsSound : Prop :=
  Sound State.reset ∧ State.reset.pending = []

/-- A step runs the command at the front of the queue on the machine with the queue's rest. -/
def Obligations.StepRunsFront : Prop :=
  ∀ (i : Instr) (rest : List Instr) (s : State),
    step { s with pending := i :: rest } = exec i { s with pending := rest }

/-- Every step of a sound machine answers a next state, and that machine is sound: no command stops the block, memory
stays canonical, no unit appears that the die has not, the audit log's hash chain holds (R399), and no two entries
of the journal share a number. -/
def Obligations.EveryStepKeepsSound : Prop :=
  ∀ s, Sound s → ∃ t, step s = .next t ∧ Sound t

/-- A unit that is gone stays gone until the next cold reset (R368, R370, R386, R440): no command but the cold resets
puts a core, sleeve, Gusset, stack or Seam port back among the present units. The audit log only grows until the
next cold reset (R398, R399): the entries of before stay, in their places. No command touches the queue behind it,
or the die. -/
def Obligations.WhatNoStepUndoes : Prop :=
  (∀ (i : Instr) (s : State), Sound s → isCold i = false → ∃ t, exec i s = .next t ∧ Caps.le t.caps s.caps) ∧
  (∀ (i : Instr) (s : State), Sound s → isCold i = false →
    ∃ t, exec i s = .next t ∧ s.lining.audit <+: t.lining.audit) ∧
  (∀ (i : Instr) (s : State), Sound s → ∃ t, exec i s = .next t ∧ t.pending = s.pending ∧ t.die = s.die)

/-- The frame of every row of the table: a command changes no part of the state but those that `frameOf` lists for it.
-/
def Obligations.EveryRowKeepsItsFrame : Prop :=
  ∀ (i : Instr) (s t : State), wellFormed i = true → exec i s = .next t → SameBut (frameOf i) s t

/-! ## Time (13_static_schedule_and_time) -/

namespace Sys2Proof.Claims

/-- Nanoseconds that a command says have passed: none in cold reset. -/
def elapsedIn (i : Instr) (s : State) : Nat :=
  if s.inReset then 0 else
  match i with
  | .timeSyncEdge n | .syncLost n => n
  | .timeBaseSlew => if s.tb.slewLeft = 0 then 0 else s.tb.slewIn
  | _ => 0

/-- What passing time touches: the time base, what cores and links count of their waits and which cores were clock-gated
(R25, R325), and what commands earn of the interval's energy (R352, R354). -/
def TimePasses (s t : State) : Prop :=
  SameBut [.tb, .cores, .starved, .counters, .trace, .belt, .free] s t ∧
  t.belt = { s.belt with meter := t.belt.meter } ∧ t.trace = { s.trace with gated := t.trace.gated }

end Sys2Proof.Claims

/-- R320: the time base never decreases, whatever the command, short of a cold reset; a slew holds it back by 10 ticks
at most, and the bound on a slew's corrections is kept. The premise keeps the 64-bit count from wrapping. -/
def Obligations.TimeNeverDecreases : Prop :=
  ∀ (i : Instr) (s t : State), wellFormed i = true → isCold i = false → exec i s = .next t → s.tb.slewLeft ≤ 10 →
    s.tb.now.toNat + elapsedIn i s + 2000 < 2 ^ 64 →
    s.tb.now.toNat ≤ t.tb.now.toNat ∧ s.tb.now.toNat + elapsedIn i s ≤ t.tb.now.toNat + 10 ∧ t.tb.slewLeft ≤ 10

/-- R321, R323: an ordinary TIME_SYNC edge (no load pending) outside cold reset. It counts the edge, keeps its phase
error, and moves the state and the count as the table of R321 says; one that comes after 8,000 ns or more finds the
time base in SYNC_LOST. Beside the time base, what cores and links wait for and what commands earn goes on being counted.
R322: at the load edge, the first edge after a gap of 2,500 to 7,999 ns, a pending load takes effect when its value is a
multiple of 1,000 beyond the count; otherwise it is ignored and LOAD_ERR is set. Either way it pends no more; at any
other edge it stays pending, and one after 8,000 ns or more enters SYNC_LOST first (R321). The model's choices in it: log
88 (the fourth large error). -/
def Obligations.TimeSyncEdgeFollowsTable : Prop :=
  (∀ (n : Nat) (s : State), s.inReset = false → s.tb.loadPending = false →
    (s.tb.advance n).now.toNat + 1000 < 2 ^ 64 →
    ∃ t, exec (.timeSyncEdge n) s = .next t ∧ TimePasses s t ∧
      let late := s.tb.advance n
      let b := if late.lapsed then late.lose else late
      let e := b.phase
      (late.lapsed = true → t.tb.mode = .acquiring ∧ t.tb.losses = s.tb.losses + 1) ∧
      t.tb.edges = b.edges + 1 ∧ t.tb.lastError = BitVec.ofInt 16 e ∧ t.tb.sinceEdge = some 0 ∧
      (b.mode = .free ∨ b.mode = .syncLost → t.tb.mode = .acquiring ∧
        (e = 0 → t.tb.now = b.now) ∧
        (e ≠ 0 → t.tb.now.toNat = (b.now.toNat / 1000 + 1) * 1000 ∧ t.tb.stepped = true)) ∧
      (b.mode = .acquiring → e.natAbs ≤ 2 →
        t.tb.now = b.now ∧ t.tb.mode = if b.good + 1 = 16 then .locked else .acquiring) ∧
      (b.mode = .acquiring → 64 < e.natAbs → b.bad + 1 ≠ 4 →
        t.tb.now.toNat = (b.now.toNat / 1000 + 1) * 1000 ∧ t.tb.stepped = true) ∧
      (b.mode = .locked → e.natAbs ≤ 64 → t.tb.now = b.now ∧ t.tb.mode = .locked) ∧
      (b.mode = .acquiring ∨ b.mode = .locked → 2 < e.natAbs → e.natAbs ≤ 64 →
        t.tb.now = b.now ∧ t.tb.slewLeft = min e.natAbs 10 ∧ t.tb.slewBehind = decide (e < 0)) ∧
      (b.mode = .acquiring ∨ b.mode = .locked → 64 < e.natAbs → b.bad + 1 = 4 →
        t.tb.mode = .syncLost ∧ t.tb.losses = b.losses + 1)) ∧
  (∀ (n g : Nat) (s : State), s.inReset = false → s.tb.loadPending = true →
    (s.tb.advance n).sinceEdge = some g →
    ∃ t, exec (.timeSyncEdge n) s = .next t ∧ TimePasses s t ∧
      let v : W64 := s.tb.loadHi ++ s.tb.loadLo
      let good := v.toNat % 1000 = 0 ∧ (s.tb.advance n).now.toNat < v.toNat
      (2500 ≤ g → g ≤ 7999 → t.tb.loadPending = false ∧ (good → t.tb.now = v ∧ t.tb.stepped = true) ∧
        (¬good → t.tb.loadErr = true)) ∧
      (g < 2500 ∨ 7999 < g → t.tb.loadPending = true) ∧
      (8000 ≤ g → s.tb.mode = .acquiring ∨ s.tb.mode = .locked →
        t.tb.losses = s.tb.losses + 1 ∧ t.tb.mode = .acquiring))

/-- R321: SYNC_LOST enters that state from ACQUIRING or LOCKED once 8,000 ns have gone without an edge, and counts the
entry; a correction of a slew that falls due moves the count by one tick more or less than the time that passed. On
an empty queue a step passes one tick of the time base (log 2, a choice of the model) outside cold reset, and
changes nothing else but what cores and links count of their waits and what commands earn. -/
def Obligations.TimeRunsWithoutEdges : Prop :=
  (∀ (n : Nat) (s : State), s.inReset = false →
    (∃ t, exec (.syncLost n) s = .next t ∧ TimePasses s t ∧
      t.tb.now = (s.tb.advance n).now ∧
      (s.tb.mode = .acquiring ∨ s.tb.mode = .locked →
        ∀ g, s.tb.sinceEdge = some g → 8000 ≤ g + n → t.tb.mode = .syncLost ∧ t.tb.losses = s.tb.losses + 1) ∧
      (s.tb.mode = .free ∨ s.tb.mode = .syncLost → t.tb.mode = s.tb.mode ∧ t.tb.losses = s.tb.losses)) ∧
    (0 < s.tb.slewLeft → ∃ t, exec .timeBaseSlew s = .next t ∧ TimePasses s t ∧
      t.tb.slewLeft + 1 = s.tb.slewLeft ∧ t.tb.slews = s.tb.slews + 1 ∧
      t.tb.now = s.tb.now + BitVec.ofNat 64 (if s.tb.slewBehind then s.tb.slewIn + 1 else s.tb.slewIn - 1))) ∧
  (∀ s : State, s.pending = [] →
    ∃ t, step s = .next t ∧ TimePasses s t ∧ (s.inReset = true → t = s) ∧
      (s.inReset = false → s.tb.slewLeft = 0 → t.tb.now = s.tb.now + 1))

/-! ## Pins, power and boot (17_ports_and_bringup) -/

/-- R381, R420, R300, R314, R355: a warm reset after the Collar has been ready. Stacks go to self-refresh, ports train
again, caches and accumulators are lost; the time base, fence counters, retirements and memory stay, with every registered
value of R461 (the parts outside its frame). Before the Collar has ever been ready it is only
noted. R420: WARM_RESET_N rises again: each stack in self-refresh trains again. The model's choices in it: log 83
(deduced). -/
def Obligations.WarmReset : Prop :=
  (∀ s : State, s.inReset = false → s.pins.warmResetN = true →
    (s.boot.everReady = false →
      exec .warmReset s = .next { s with boot := { s.boot with warmIgnored := true } }) ∧
    (s.boot.everReady = true → ∃ t, exec .warmReset s = .next t ∧ SameBut (frameOf .warmReset) s t ∧
      t.pins.warmResetN = false ∧ t.pins.alive = false ∧ t.boot.stage = .measuring ∧
      t.ready.collar = false ∧ t.ready.stks = 0 ∧ t.ready.seam = 0 ∧ t.ready.sleeves = 0 ∧
      t.lining.sessions = s.lining.sessions ∧ t.lining.audit = s.lining.audit ∧
      t.fabric.caches = [] ∧ (∀ p ∈ t.fabric.ports, p.2.slots = [] ∧ p.2.waits = [] ∧ p.2.arb.tickets = []) ∧
      (∀ u ∈ t.cores, u.2.stage = [] ∧ u.2.held = none ∧ u.2.queues = [] ∧ u.2.hem = []) ∧
      (∀ c ∈ t.ctxs, c.2.jobs = []) ∧
      (∀ (m : Nat) (x : StackPort), s.stks[m]? = some x → x.state ≠ .off → x.state ≠ .failed →
        ∃ y : StackPort, t.stks[m]? = some y ∧ y.state = .selfRefresh))) ∧
  (∀ s : State, s.inReset = false → s.pins.warmResetN = false →
    ∃ t, exec .warmResetRelease s = .next t ∧ SameBut [.pins, .stks] s t ∧
      t.pins = { s.pins with warmResetN := true } ∧
      ∀ (m : Nat) (x : StackPort), s.stks[m]? = some x →
        ∃ y : StackPort, t.stks[m]? = some y ∧ (x.state = .selfRefresh → y = { x with state := .retraining }) ∧
          (x.state ≠ .selfRefresh → y = x))

/-- R419, R435: ALIVE toggles while the Collar is ready and holds its level while it is not; the Lining becomes ready
when its self-test ends, and nothing else becomes ready with it. R439: the check of a sleeve ends. Units of it that
fail are absent from then on; the sleeve is ready when its fabric and at least one of its cores pass, and otherwise
it is absent with them. The model's choices in it: log 79 (deduced). -/
def Obligations.SelfTestsEnd : Prop :=
  (∀ s : State,
    exec .aliveToggle s =
      .next (if s.ready.collar then { s with pins := { s.pins with alive := !s.pins.alive } } else s) ∧
    (s.inReset = false → s.ready.tag = true → s.ready.lining = false →
      ∃ t, exec .liningSelfTest s = .next t ∧ SameBut [.ready, .i3c] s t ∧
        t.ready = { s.ready with lining := true })) ∧
  (∀ (k : Nat) (bad : BitVec 8) (g f : Bool) (s : State), k < 16 → s.shapeOk → s.boot.checking.getLsbD k = true →
    s.ready.collar = true → s.caps.sleeves.getLsbD k = true →
    ∃ t, exec (.selfCheck k bad g f) s = .next t ∧ SameBut (frameOf (.selfCheck k bad g f)) s t ∧
      let mine := (s.caps.cores >>> (8 * k)).setWidth 8
      let fails := f = true ∨ bad &&& mine = mine
      t.boot.checking.getLsbD k = false ∧ Caps.le t.caps s.caps ∧
      (fails → t.caps.sleeves.getLsbD k = false) ∧
      (¬fails → t.ready.sleeves.getLsbD k = true ∧ t.caps.sleeves = s.caps.sleeves ∧
        (∀ i, i < 8 → (bad.getLsbD i = true → t.caps.cores.getLsbD (8 * k + i) = false) ∧
          (bad.getLsbD i = false → t.caps.cores.getLsbD (8 * k + i) = s.caps.cores.getLsbD (8 * k + i))) ∧
        (g = true → t.caps.gusset.getLsbD k = false)))

/-- R436: a chunk of the boot bundle from the chosen port. In order it is appended (and the bundle of TOTAL bytes is
then verified); at any other offset the bundle is discarded and BOOT_ERR is 4. R436, R437, R435: the Lining verifies
the bundle. The helper's signature, then the key certificate, then the signatures over the firmware, then the
layout: the first that fails gives BOOT_ERR 1, 2, 3 or 4 and the engine waits for a bundle again; when all hold, the
firmware is measured and the Collar is ready. The model's choices in it: logs 65 and 78 (the signature of the helper
data, the order). -/
def Obligations.BundleArrivesAndVerifies : Prop :=
  (∀ (src : Source) (off : Nat) (data : Bytes) (s : State), s.inReset = false → s.pins.warmResetN = true →
    s.ready.tag = true → s.bootSource src = true → s.boot.stage = .waitBundle → s.boot.err ≠ 5 →
    ∃ t, exec (.bootChunk src off data) s = .next t ∧ SameBut [.boot, .seams, .i3c] s t ∧
      let all := s.boot.bundle ++ data
      (off ≠ s.boot.bundle.length → t.boot.bundle = [] ∧ t.boot.err = 4 ∧ t.boot.stage = .waitBundle) ∧
      (off = s.boot.bundle.length → 8 ≤ all.length → fieldOf all 4 4 ≤ 8 * 2 ^ 20 → fieldOf all 4 4 ≤ all.length →
        t.boot.bundle = all.take (fieldOf all 4 4) ∧ t.boot.stage = .verifying ∧ t.boot.err = s.boot.err) ∧
      (off = s.boot.bundle.length → 8 ≤ all.length → fieldOf all 4 4 ≤ 8 * 2 ^ 20 → all.length < fieldOf all 4 4 →
        t.boot.bundle = all ∧ t.boot.stage = .waitBundle ∧ t.boot.err = s.boot.err) ∧
      (off = s.boot.bundle.length → 8 ≤ all.length → 8 * 2 ^ 20 < fieldOf all 4 4 →
        t.boot.bundle = [] ∧ t.boot.err = 4 ∧ t.boot.stage = .waitBundle)) ∧
  (∀ s : State, s.inReset = false → s.pins.warmResetN = true → s.boot.stage = .verifying → s.ready.lining = true →
    let b := Bundle.parse s.boot.bundle
    let h := b.part b.helper
    let root := Config.rootSecret (h.take (h.length - 96))
    let certified := Config.certifiedKey (b.part b.cert) = some (BitVec.ofNat 776 (leNat (p384Public (dikPrivate root))))
    let maker := b.part (b.makerAt, 97)
    ∃ t, exec .bundleVerify s = .next t ∧ SameBut [.ready, .boot, .sleeves, .lining, .i3c] s t ∧
      (b.helperOk = false → t.boot.err = 1 ∧ t.boot.stage = .waitBundle ∧ t.ready.collar = s.ready.collar) ∧
      (b.helperOk = true → ¬certified → t.boot.err = 2 ∧ t.boot.stage = .waitBundle) ∧
      (b.helperOk = true → certified → signedBody maker (b.part b.fw) = none →
        t.boot.err = 3 ∧ t.boot.stage = .waitBundle) ∧
      (∀ body, b.helperOk = true → certified → signedBody maker (b.part b.fw) = some body → b.layoutOk = false →
        t.boot.err = 4 ∧ t.boot.stage = .waitBundle) ∧
      (∀ body, b.helperOk = true → certified → signedBody maker (b.part b.fw) = some body → b.layoutOk = true →
        t.boot.err = 0 ∧ t.boot.stage = .running ∧ t.ready.collar = true ∧ t.boot.everReady = true ∧
        t.boot.makerKey = some maker ∧ t.boot.fwRunning = body ∧ t.boot.fwRunningDigest = digest384 body ∧
        t.lining.root = some root ∧ t.lining.measured = true ∧ t.boot.checking = s.boot.checking ||| s.caps.sleeves))

/-! ## The Belt (14_power_and_energy) -/

namespace Sys2Proof.Claims

/-- Current of the waiting requests of one direction, in mA (R338). -/
def waitingMa (d : Die) (rise : Bool) (rs : List StepReq) : Nat :=
  ((rs.filter (fun r => r.rise == rise)).map (fun r => stepSize d r.array)).foldl (· + ·) 0

end Sys2Proof.Claims

/-- R339, R341: a slew window, one for each 100 ticks, grants increases of B_w at most, and decreases of B_w at most, over
both of its passes, with the values in force (R337). A second one in the same 100 ticks grants nothing. The premise is that
BELT_POWER_CAP is not 0, which its write and reset ranges keep (R344). The model's choices in it: log 55 (deduced). -/
def Obligations.SlewWindowKeepsBudget : Prop :=
  ∀ s : State, s.inReset = false →
    let w := s.stamp.toNat / 100
    let v := s.belt.inForce (w * 100)
    (w < s.belt.nextWindow → exec .slewWindow s = .next s) ∧
    (s.belt.nextWindow ≤ w → v.powerCap ≠ 0 →
      ∃ t, exec .slewWindow s = .next t ∧ SameBut [.cores, .counters, .belt] s t ∧ t.belt.nextWindow = w + 1 ∧
        ∀ rise, waitingMa s.die rise s.endSteps.belt.requests ≤
          waitingMa s.die rise t.belt.requests + v.slewLimit.toNat * 100)

/-- R343, R344, R345, R346, R349: the end of a metering interval. The excess X follows die energy, the model follows
its equations on it with the profile values in force (R337), the throttle step moves by one, and a new cap and inlet
temperature count from the next interval on. R349: a trip ends when every sensor has been cool for 1,000,000 ticks; the
throttle step is then 8. The model's choices in it: log 56 (when a new value counts). -/
def Obligations.MeteringIntervalUpdatesBelt : Prop :=
  (∀ (m : Metering) (s : State), s.inReset = false → s.belt.lastInterval < s.stamp.toNat / 10000 * 10000 →
    ∃ t, exec (.meteringInterval m) s = .next t ∧ SameBut (frameOf (.meteringInterval m)) s t ∧
      let stop := s.stamp.toNat / 10000 * 10000
      let f := s.belt.inForce (stop - 10000)
      let nj := s.dieEnergy m (s.intervalEnergy m)
      let b := { f with bucket := s.belt.bucket + nj - f.powerCap.toNat * 10000 }.thermal nj
      let sensors := dieSensors s.die m.sensors
      let backstop := sensors.any (fun x => decide (f.tLimit.toInt < x))
      let hot := sensors.foldl max (sensors.headD 0)
      t.belt.bucket = s.belt.bucket + nj - f.powerCap.toNat * 10000 ∧
      t.belt.td = b.td ∧ t.belt.tp = b.tp ∧ t.belt.tc = b.tc ∧ t.belt.pThermal = b.pThermal ∧
      t.belt.lastInterval = stop ∧ t.belt.hottest = BitVec.ofInt 16 hot ∧
      t.belt.powerCap = s.belt.capNext.getD s.belt.powerCap ∧ t.belt.capNext = none ∧ t.belt.calNext = [] ∧
      t.belt.coolantIn = s.belt.coolant ∧
      (s.belt.trip = true → t.belt.trip = true ∧ t.belt.step = s.belt.step) ∧
      (s.belt.trip = false → f.tTrip.toInt ≤ hot → t.belt.trip = true ∧ t.belt.step = 15) ∧
      (s.belt.trip = false → hot < f.tTrip.toInt → t.belt.trip = false ∧
        (b.overPower nj = true ∨ b.overModel nj = true ∨ backstop = true → t.belt.step = min 15 (s.belt.step + 1)) ∧
        (b.overPower nj = false → b.overModel nj = false → backstop = false →
          t.belt.step = if b.calm nj = true ∧ 9 ≤ s.belt.quiet then s.belt.step - 1 else s.belt.step))) ∧
  (∀ s : State, s.belt.trip = true → 1000000 ≤ s.belt.cool →
    ∃ t, exec .tripEnd s = .next t ∧ SameBut [.mem, .fabric, .counters, .trace, .belt, .i3c] s t ∧
      t.belt.trip = false ∧ t.tripPin = false ∧ t.belt.step = 8)

/-! ## Stack ports (12_stacks_and_addresses) -/

/-- R302, R386, R432: training ends. A good one is followed by zeroing after a cold reset, or makes the port ready
after a warm one; the third failure in succession leaves a stack of a cold reset absent, the second fails one that
trains again. R302, R408: a stack comes up zeroed. Its bytes read 0 once its port is ready, and no other byte of
memory has changed. The model's choices in it: log 77 (deduced). -/
def Obligations.StackComesUp : Prop :=
  (∀ (m c h r l : Nat) (s : State) (x : StackPort), s.stackUp m = true → s.shapeOk → s.stks[m]? = some x →
    (x.state = .training → x.cleared = false → ∃ t, exec (.stackTrainingDone m true c h r l) s = .next t ∧
      SameBut [.stks] s t ∧ t.stack m = { x with
        state := .zeroing, trainFails := 0, lanes := BitVec.ofNat 8 l, capacity := BitVec.ofNat 16 c
        height := BitVec.ofNat 4 h, rate := BitVec.ofNat 8 (min r s.rateLimit), zeroed := 0 }) ∧
    (x.state = .retraining → x.cleared = true → ∃ t, exec (.stackTrainingDone m true c h r l) s = .next t ∧
      SameBut [.stks, .ready, .i3c] s t ∧ t.ready.stks.getLsbD m = true ∧
      t.stack m = { x with state := .ready, trainFails := 0, lanes := BitVec.ofNat 8 l, allBank := false }) ∧
    (x.state = .training → x.trainFails < 2 → ∃ t, exec (.stackTrainingDone m false c h r l) s = .next t ∧
      SameBut [.stks] s t ∧ t.stack m = { x with trainFails := x.trainFails + 1 }) ∧
    (x.state = .training → x.trainFails = 2 → ∃ t, exec (.stackTrainingDone m false c h r l) s = .next t ∧
      (t.stack m).state = .failed ∧ t.caps.stks.getLsbD m = false) ∧
    (x.state = .retraining → 1 ≤ x.trainFails → ∃ t, exec (.stackTrainingDone m false c h r l) s = .next t ∧
      (t.stack m).state = .failed ∧ t.caps.stks.getLsbD m = false ∧
      t.collar.fault.getLsbD FaultBit.stackFailed.pos = true)) ∧
  (∀ (m : Nat) (s : State) (x : StackPort), s.stackUp m = true → s.stks[m]? = some x → x.state = .zeroing →
    ∃ t, exec (.stackZeroed m) s = .next t ∧ SameBut [.ready, .stks, .mem, .i3c] s t ∧
      t.stack m = { x with state := .ready, zeroed := x.capacity, cleared := true, allBank := false } ∧
      t.ready.stks.getLsbD m = true ∧
      (∀ a, m * stackWindow ≤ a → a < (m + 1) * stackWindow → memGet t.mem a = 0) ∧
      (∀ a, a < m * stackWindow ∨ (m + 1) * stackWindow ≤ a → memGet t.mem a = memGet s.mem a))

/-- R301: what an access to a stack returns. Corrected reads are counted, a parity or CRC error repeats the access
once, and an uncorrectable read or a repeat that fails is a fault of the pseudo-channel, which is dead from then on.
R306, R308: a request that holds a slot leaves with the access that its bank issues first; an access out of that order
changes nothing. R300, R467: refresh management, per-bank refresh and the temperature of a ready stack. Each changes
its own record of the port, and the refreshes close the row of their bank. R386, R374: an unrecoverable condition
fails a stack. It is absent from then on, COL_FAULT says so, and the journal goes on in the other region when one of
its stacks fails. The model's choices in it: logs 74 and 76 (every fault fails its pseudo-channel, one request is
kept) and 97 (an access that holds no slot, closed rows). -/
def Obligations.StackAccesses : Prop :=
  (∀ (m pc line : Nat) (s : State) (x : StackPort), s.stackUp m = true → s.shapeOk → s.stks[m]? = some x →
    x.state = .ready → pc < 64 → x.pcFailed.getLsbD pc = false →
    (let l := m * (stackWindow / 64) + line
     let held := (s.fabric.port m).slots.any (fun y => y.line == l)
     let out := ((s.fabric.port m).leave l s.tb.now).2.1
     ∀ r, r = .ok ∨ r = .corrected →
      (held = true → out = [] → exec (.stackAccessReturn m pc line r) s = .next s) ∧
      (held = false ∨ out ≠ [] → ∃ t, exec (.stackAccessReturn m pc line r) s = .next t ∧
        SameBut [.stks, .fabric, .counters, .free] s t ∧
        (held = false → t.fabric = s.fabric ∧ t.free = s.free) ∧
        (held = true → (s.fabric.port m).waits = [] →
          (t.fabric.port m).slots = (s.fabric.port m).slots.filter (fun y => !out.contains y)) ∧
        (pc, line) ∉ (t.stack m).repeats ∧ (t.stack m).pcFailed = x.pcFailed ∧
        t.counterAt (Counter.stack m 4).addr =
          s.counterAt (Counter.stack m 4).addr + (if r = .corrected then 1 else 0))) ∧
    (∀ r, r = .parityError ∨ r = .crcError → (pc, line) ∉ x.repeats →
      ∃ t, exec (.stackAccessReturn m pc line r) s = .next t ∧ SameBut [.stks, .counters] s t ∧
        (pc, line) ∈ (t.stack m).repeats ∧ (t.stack m).pcFailed = x.pcFailed) ∧
    (∀ r, r = .uncorrectable ∨ ((r = .parityError ∨ r = .crcError) ∧ (pc, line) ∈ x.repeats) →
      ∃ t, exec (.stackAccessReturn m pc line r) s = .next t ∧
        (t.stack m).pcFailed = x.pcFailed ||| (1#64 <<< pc) ∧
        (popMask (x.pcFailed ||| (1#64 <<< pc)) < 8 → (t.stack m).state = .ready) ∧
        (8 ≤ popMask (x.pcFailed ||| (1#64 <<< pc)) → (t.stack m).state = .failed ∧
          t.caps.stks.getLsbD m = false))) ∧
  (∀ (m pc bank : Nat) (v : BitVec 16) (s : State) (x : StackPort), s.stackUp m = true → s.stks[m]? = some x →
    x.state = .ready → pc < 64 → bank < 64 →
    exec (.refreshManagementRequest m pc bank) s =
      .next ((s.setStack m { x with management := [(pc, bank)] }).onPort m (fun t => t.refreshed pc bank)) ∧
    exec (.perBankRefresh m pc bank) s =
      .next ((s.setStack m { x with refreshes := x.refreshes + 1 }).onPort m (fun t => t.refreshed pc bank)) ∧
    ∃ r : BitVec 2, r ≠ 3 ∧
      exec (.stackTemperatureReadOut m v) s = .next (s.setStack m { x with temp := v, refresh := r })) ∧
  (∀ (m : Nat) (s : State) (x : StackPort), s.stackUp m = true → s.shapeOk → s.stks[m]? = some x → x.state ≠ .off →
    ∃ t, exec (.stackUnrecoverableCondition m) s = .next t ∧
      SameBut (frameOf (.stackUnrecoverableCondition m)) s t ∧
      (t.stack m).state = .failed ∧ t.caps.stks = s.caps.stks &&& ~~~(1#6 <<< m) ∧
      t.ready.stks.getLsbD m = false ∧ t.collar.fault.getLsbD FaultBit.stackFailed.pos = true ∧
      (m = 0 → s.journal.state = 1 → t.journal.state = 3 ∧ t.collar.fault.getLsbD FaultBit.jrnlSingle.pos = true) ∧
      (m = 3 → s.journal.state = 1 → t.journal.state = 2 ∧ t.collar.fault.getLsbD FaultBit.jrnlSingle.pos = true) ∧
      (m ≠ 0 → m ≠ 3 → t.journal.state = s.journal.state))

/-! ## Seam ports (17_ports_and_bringup) -/

/-- R424, R468: the states of a port that trains: groups detected, groups judged, the configuration frame, and the
time- out. -/
def Obligations.SeamTrains : Prop :=
  ∀ (p : Nat) (a b : BitVec 4) (f : ConfigFrame) (s : State) (x : SeamPort), s.trains p = true → s.shapeOk →
    s.seams[p]? = some x →
    (x.state = .idle ∨ x.state = .detect → ∃ t, exec (.seamDetect p a b) s = .next t ∧ SameBut [.seams] s t ∧
      t.seam p = { x with
        state := if a ≠ 0 ∧ b ≠ 0 then .equalise else .detect, detTx := a, detRx := b }) ∧
    (x.state = .equalise → (x.accept a b).1 ≠ 0 → (x.accept a b).2 ≠ 0 →
      ∃ t, exec (.seamEqualiseDone p a b) s = .next t ∧ SameBut [.seams] s t ∧
        t.seam p = { x with state := .config, tx := (x.accept a b).1, rx := (x.accept a b).2 }) ∧
    (x.state = .config → creditsOk f.credits = true → ∃ t, exec (.configFrame p f) s = .next t ∧
      SameBut (frameOf (.configFrame p f)) s t ∧ (t.seam p).state = .active ∧ t.ready.seam.getLsbD p = true ∧
      (t.seam p).peerPort = f.port ∧ (t.seam p).peerDie = f.die ∧ (t.seam p).granted = f.credits) ∧
    (x.state = .detect ∨ x.state = .equalise ∨ x.state = .config →
      (x.trainFails < 2 → ∃ t, exec (.seamTrainTimeout p) s = .next t ∧ SameBut [.seams] s t ∧
        t.seam p = { x with state := .idle, trainFails := x.trainFails + 1, tx := 0, rx := 0 }) ∧
      (2 ≤ x.trainFails → ∃ t, exec (.seamTrainTimeout p) s = .next t ∧ (t.seam p).state = .failed ∧
        t.caps.seam.getLsbD p = false ∧ t.ready.seam.getLsbD p = false))

/-- R423, R425: a frame that is not good is discarded: its bytes reach nothing, a NAK is owed, and it is counted. A
good one goes on; one that carries no packet moves the expected FSEQ on, clears the NAK owed and brings its credits.
The model's choices in it: log 10 (the CRC). -/
def Obligations.FramesReceived : Prop :=
  ∀ (p : Nat) (f : Frame) (s : State) (x : SeamPort), s.inReset = false → s.shapeOk → s.seams[p]? = some x →
    x.state = .active →
    let good := f.fecOk = true ∧ crc16 (frameBits f) = (frameFields f).crc ∧ (frameFields f).fseq = x.fseqRx
    (¬good → ∃ t, exec (.frameReceive p f) s = .next t ∧ SameBut [.seams, .counters] s t ∧
      t.seam p = { x with nak := true } ∧
      t.counterAt (Counter.seam p 3).addr = s.counterAt (Counter.seam p 3).addr + 1) ∧
    (good → ∃ t, exec (.frameReceive p f) s = .next t ∧ SameBut (frameOf (.frameReceive p f)) s t ∧
      (x.partialRx = [] → (∀ b ∈ f.space, b = 0) → (frameFields f).nak = false → x.txQueue = [] →
        (t.seam p).fseqRx = x.fseqRx + 1 ∧ (t.seam p).nak = false ∧ (t.seam p).rxQueue = x.rxQueue ∧
        ((frameFields f).cvc < 18 → x.credits.length = 18 → (t.seam p).credits.getD (frameFields f).cvc 0 =
          x.credits.getD (frameFields f).cvc 0 + (frameFields f).cred)))

/-- R430, R404: a write of the host die reaches the stack: its bytes stand at its address and every other byte of
memory is as it was. It is dropped where nothing is mapped, and on a sealed page. R430, R404: a read of the host die
changes no byte of memory, whatever it reads. R429: the completion of a read of the engine ends that read when it
brings the bytes asked for; any other leaves it waiting. The model's choices in it: log 8 (host memory). -/
def Obligations.HostMemoryPackets : Prop :=
  (∀ (p ep a : Nat) (bs : List (BitVec 8)) (s : State), s.seamUp p = true →
    ∃ t, exec (.inboundMwr p ep a bs) s = .next t ∧ SameBut [.seams, .mem, .cores, .fabric, .counters] s t ∧
      (s.inboundOk a bs.length = true → s.anySealed [(a, bs.length)] = false →
        (∀ k, k < bs.length → memGet t.mem (a + k) = bs.getD k 0) ∧
        (∀ b, b < a ∨ a + bs.length ≤ b → memGet t.mem b = memGet s.mem b)) ∧
      (s.inboundOk a bs.length = false ∨ (bs ≠ [] ∧ s.anySealed [(a, bs.length)] = true) → t.mem = s.mem)) ∧
  (∀ (p ep a n tag : Nat) (s : State), s.seamUp p = true →
    ∃ t, exec (.inboundMrd p ep a n tag) s = .next t ∧ SameBut [.seams, .counters, .lining] s t ∧ t.mem = s.mem ∧
      let u := s.takeRx p .mrd 0 ep 0
      (s.inboundOk a n = true → (n = 0 ∨ s.anySealed [(a, n)] = false) →
        t = u.send p (Packet.mk .cpl 0 true ep 0 0 0 tag (memRead s.mem a n))) ∧
      (s.inboundOk a n = true → n ≠ 0 → s.anySealed [(a, n)] = true →
        t = (u.count (.seam p 7) 1).send p (Packet.mk .cpl 0 true ep 0 0 0 tag (zeroBytes n))) ∧
      (s.inboundOk a n = false →
        t = (u.count (.seam p 6) 1).send p (Packet.mk .cpl 0 true ep 0 1 0 tag []))) ∧
  (∀ (p tag st : Nat) (bs : List (BitVec 8)) (s : State) (r : HostRead), s.seamUp p = true →
    s.hostReads.find? (fun x => x.port == p && x.tag == tag) = some r →
    ∃ t, exec (.cpl p tag st bs) s = .next t ∧ SameBut [.seams, .hostReads] s t ∧
      (st = 0 → bs.length = r.len →
        t.hostReads = s.hostReads.filter (fun x => x.port != p || x.tag != tag)) ∧
      (st ≠ 0 ∨ bs.length ≠ r.len → t.hostReads = s.hostReads))

/-! ## Packets of the Seam (17_ports_and_bringup, 16_lining_and_attestation) -/

/-- R430, R457, R460: a register read packet is answered with its words, read in ascending order as from its endpoint;
a register write packet makes its writes in that order, and its answer says whether one was refused. A count or an
offset outside R430 is discarded and counted. R460, R323: a read of the LO word of a pair latches its HI word for its
reader, whatever happens to the pair before that reader reads the HI word. It changes nothing else. The model's
choices in it: log 71 (the counts refused). -/
def Obligations.RegisterPackets : Prop :=
  (∀ (p ep off n tag : Nat) (enc : Bool) (ws : List (BitVec 32)) (s : State), s.seamUp p = true → s.ready.tag = true →
    let u := s.takeRx p .rrd 16 ep 0
    let v := s.takeRx p .rwr 16 ep 0
    (1 ≤ n → n ≤ 16 → off % 4 = 0 → ∃ bs, bs.length = 4 * n ∧
      exec (.rrd p ep off n tag) s = .next ((u.readWords (.seam p ep false) off n).2.rcpl p ep 0 tag bs) ∧
      bs.take 4 = leBytes 4 (u.readWord (.seam p ep false) off).1.toNat) ∧
    (n = 0 ∨ 16 < n ∨ off % 4 ≠ 0 → exec (.rrd p ep off n tag) s = .next (u.count (.seam p 5) 1)) ∧
    (1 ≤ ws.length → ws.length ≤ 16 → off % 4 = 0 → ∃ refused : Bool,
      exec (.rwr p ep enc off ws tag) s =
        .next ((v.writeWords (.seam p ep enc) off ws).2.rcpl p ep (if refused then 2 else 0) tag []) ∧
      (∀ w, ws = [w] → (v.writeWords (.seam p ep enc) off ws).2 = (v.regWrite (.seam p ep enc) off w).2 ∧
        (refused = true ↔ v.tryWrite (.seam p ep enc) off w = none))) ∧
    (ws = [] ∨ 16 < ws.length ∨ off % 4 ≠ 0 → exec (.rwr p ep enc off ws tag) s = .next (v.count (.seam p 5) 1))) ∧
  (∀ (src : Source) (off : Nat) (s : State), off % 8 = 0 → (s.pairAt off).isSome ∨ isRoPairLo off = true →
    ∃ t, exec (.latchedPairRead src off) s = .next t ∧ SameBut [.latches] s t ∧
      (s.readWord src off).1 = s.regRead off ∧
      (∀ u : State, u.latches = t.latches → (u.readWord src (off + 4)).1 = s.regRead (off + 4)) ∧
      ∀ l ∈ s.latches, l.1 ≠ readerOf src → l ∈ t.latches)

/-- R409, R411: a key exchange with a peer that the engine accepts puts new keys on every virtual channel of the
endpoint, the keys of before good for receiving until the first packet under the new ones; the channels of other
ports and endpoints keep theirs. Either way the ephemeral key is used up. The model's choices in it: logs 66 and 68
(the scalar, the messages). -/
def Obligations.KeyExchangeRekeys : Prop :=
  ∀ (p ep : Nat) (m : KeyxMsg) (s : State), s.ready.lining = true → (s.seam p).state = .active →
    let d := (Config.random384 s.lining.draws).toNat % (p384N - 1) + 1
    let script := Config.keyxTranscript (p384Public d) m.peerEphemeral
    ∃ t, exec (.keyx p ep m) s = .next t ∧ SameBut (frameOf (.keyx p ep m)) s t ∧
      t.lining.draws = s.lining.draws + 1 ∧
      (∀ z, s.peerOk m script = true → ecdh d m.peerEphemeral = some z → ∀ vc, vc < 18 →
        ∃ c, t.channel? p vc ep = some c ∧ c.rekey = false ∧ c.recv = channelKey z vc false ∧
          c.send.key = (channelKey z vc true).key ∧ c.send.iv = (channelKey z vc true).iv ∧
          c.old = (s.channel? p vc ep).map (fun x => x.recv)) ∧
      (s.peerOk m script = false ∨ ecdh d m.peerEphemeral = none → t.lining.channels = s.lining.channels)

/-- R412: the SPDM responder. Every request is answered; a session begins with KEY_EXCHANGE, stands once FINISH has
come, and ends with END_SESSION, and a request out of turn changes nothing but the answer queued. R413: a bounce
window is bound to a context that is not closed, in a session that stands, over whole pages of host windows; a
binding that replaces another goes on with its counter. Any other binding changes no context. The model's choices in
it: log 69 (the counter, the endpoint). -/
def Obligations.SecuredSessions : Prop :=
  (∀ (p ep : Nat) (r : SpdmReq) (s : State), s.ready.lining = true → (s.seam p).state = .active →
    ∃ t, exec (.spdmRequest p ep r) s = .next t ∧ SameBut [.seams, .ctxs, .counters, .lining] s t ∧
      t.lining.draws = s.lining.draws + 1 ∧
      (r = .getVersion → t.lining.spdmStage p ep = 1) ∧
      (∀ slot share, r = .keyExchange slot share → t.lining.spdm =
        if 3 ≤ s.lining.spdmStage p ep ∧ slot = 0 ∧ s.lining.spdm.length < 4 ∧ (p384Point share).isSome = true
        then s.lining.spdm ++ [Spdm.mk s.lining.draws p ep false] else s.lining.spdm) ∧
      (∀ id, r = .finish id → (s.lining.spdmSession p ep id).isSome = true →
        (t.lining.spdmSession p ep id).map (fun x => x.finished) = some true) ∧
      (∀ id, r = .endSession id → (s.lining.spdmSession p ep id).isSome = true →
        (∀ x ∈ t.lining.spdm, x.id ≠ id) ∧ ∀ c ∈ t.ctxs, ∀ b, c.2.bounce = some b → b.session ≠ id) ∧
      ((∀ id, r ≠ .endSession id) → t.ctxs = s.ctxs) ∧
      t.lining.sessions = s.lining.sessions ∧ t.lining.audit = s.lining.audit) ∧
  (∀ (p ep session ctx base pages tags : Nat) (s : State), s.ready.lining = true → (s.seam p).state = .active →
    let ok := (s.lining.spdmSession p ep session).map (fun x => x.finished) = some true ∧
      (s.ctx ctx).state ≠ .closed ∧ 1 ≤ pages ∧ pages ≤ 2 ^ 20 ∧ s.inHost ctx base (4096 * pages) = true ∧
      s.inHost ctx tags (32 * pages) = true
    ∃ t, exec (.bounceBind p ep session ctx base pages tags) s = .next t ∧
      SameBut [.seams, .ctxs, .counters, .lining] s t ∧ (¬ok → t.ctxs = s.ctxs) ∧
      (ok → ∃ b, (t.ctx ctx).bounce = some b ∧ b.session = session ∧ b.base = base ∧ b.pages = pages ∧
        b.tags = tags ∧ (b.counter = match (s.ctx ctx).bounce with | some x => x.counter | none => 1) ∧
        { t.ctx ctx with bounce := (s.ctx ctx).bounce } = s.ctx ctx))

/-! ## Rounds between engines: the packets (08_gradient_exchange) -/

/-- R190: BACKUP_READY is noted, and a position that is neither READY nor COVERED at DEADLINE is settled: as BACKUP
when its backup is ready, else as MISSING. R191, R192: the ready token. Lap 1 waits at a position that has not
settled; lap 2 begins the data phase, or ends the round where it says MISSING or DIGEST_MISMATCH. The model's choices
in it: log 44 (deduced). -/
def Obligations.ReadyPhase : Prop :=
  (∀ (p ep vc k : Nat) (s : State) (g : RyGroup),
    (s.groupAt RyDesc.backupIn p ep vc = some (k, g) → ∃ t, exec (.backupReady p ep vc) s = .next t ∧
      SameBut [.seams, .groups] s t ∧ smGet? t.groups k = some { g with backupReady := true }) ∧
    (smGet? s.groups k = some g → g.isOpen = true → g.phase = .ready → g.settled = none →
      g.d.deadline.toNat ≤ s.stamp.toNat → (g.backupReady = true → g.d.work ≠ 0) →
      ∃ t h, exec (.ryDeadline k) s = .next t ∧ SameBut [.seams, .groups, .counters, .lining] s t ∧
        smGet? t.groups k = some h ∧ h.settled = some (if g.backupReady then 1 else 2) ∧ h.phase = .ready) ∧
    (smGet? s.groups k = some g → s.stamp.toNat < g.d.deadline.toNat → exec (.ryDeadline k) s = .next s)) ∧
  (∀ (p ep vc k : Nat) (tk : ReadyToken) (s : State) (g : RyGroup), s.groupAt RyDesc.up p ep vc = some (k, g) →
    g.phase = .ready → g.hop = none → g.own = none → g.inbox = [] →
    ∃ t, exec (.readyToken p ep vc tk) s = .next t ∧ SameBut (frameOf (.readyToken p ep vc tk)) s t ∧
      (tk.lap = 1 → g.d.position ≠ 0 → g.settled = none →
        smGet? t.groups k = some { g with token := some tk }) ∧
      (tk.lap = 2 → g.d.position ≠ 0 → g.settled ≠ none → ∃ h, smGet? t.groups k = some h ∧
        h.lap2 = some tk ∧
        (tk.missing = true → h.phase = .aborted ∧ h.why = 1) ∧
        (tk.missing = false → tk.mismatch = true → h.phase = .aborted ∧ h.why = 2) ∧
        (tk.missing = false → tk.mismatch = false → h.phase = .data)))

/-- R195, R201: a block that arrives whole on UP while its command is at work. It is added to this position's
contribution, the sum goes on downstream with the block's SCALE and SEQ and stays in the replay window until it is
acknowledged, and the next block is expected; at the owner it joins the final sums. Where the replay window holds 256
blocks, the own shard is not sent yet, the link of the owner's chain is full, or the vector units wait for a step or stand
still for a trip, the block waits (R199, R186, R293, R340, R349). -/
def Obligations.BlocksAdded : Prop :=
  ∀ (p ep vc k j n : Nat) (b : Bytes) (s : State) (g : RyGroup) (a : RyAt) (y : YBlock) (c : Contrib) (sat : Bool),
    s.groupAt RyDesc.up p ep vc = some (k, g) → g.phase = .data → g.isOpen = true → g.inbox = [] →
    g.up.expects g.incoming = some (j, n) → g.block j n = some a → g.check g.up g.incoming j n a.natural b = .take y →
    (g.hop = none ∨ g.count g.first ≤ g.started) →
    let sums := List.zipWith (· + ·) y.ms c.ms
    (s.mayTake g j = false → ∃ t h, exec (.ryBlock p ep vc b []) s = .next t ∧ smGet? t.groups k = some h ∧
      h.inbox = [(b, [])] ∧ h.up = g.up ∧ h.window = g.window ∧ h.finals = g.finals) ∧
    (j ≠ g.d.position → s.mayTake g j = true → s.share g g.hopRows j n a = some (c, sat) →
      ∃ t h, exec (.ryBlock p ep vc b []) s = .next t ∧ smGet? t.groups k = some h ∧ h.inbox = [] ∧
        h.up = g.up.advance j n (g.count j) (y.lo + 65536 * y.hi) ∧
        h.window = g.window ++ [(j, n, (YBlock.of y.scale y.seq (y.esc || sums.any wideSum)
          (y.backup || g.settled == some 1) y.last (y.sat || sat) sums).bytes)] ∧ h.finals = g.finals) ∧
    (j = g.d.position → s.mayTake g j = true → s.share g g.ownRows j n a = some (c, sat) →
      ∃ t h, exec (.ryBlock p ep vc b []) s = .next t ∧ smGet? t.groups k = some h ∧ h.inbox = [] ∧
        h.up = g.up.advance j n (g.count j) (y.lo + 65536 * y.hi) ∧
        h.finals = g.finals ++ [(y.esc, sums)] ∧ h.window = g.window)

/-- R199: a block whose checksums, SCALE or SEQ are not those expected is not added: the block that the incoming check
names is charged a fault, and RESEND asks for it again. One that was accepted before is dropped. And a RESEND sends the
block that it names from the replay window, and is counted. R202: a backup that is asked serves the copy that it holds,
once: every block of every shard, in the order in which the position that it backs adds them. The model's choices in it:
logs 44 and 46 (the block charged, the order, the window). -/
def Obligations.BlocksSentAgain : Prop :=
  (∀ (p ep vc k j n : Nat) (b : Bytes) (s : State) (g : RyGroup) (a : RyAt),
    (s.groupAt RyDesc.up p ep vc = some (k, g) → g.phase = .data → g.isOpen = true → g.inbox = [] →
      g.up.expects g.incoming = some (j, n) → g.block j n = some a → s.mayTake g j = true →
      (g.hop = none ∨ g.count g.first ≤ g.started) → g.normsBegun = true →
      (∀ i m, g.check g.up g.incoming j n a.natural b = .fault i m → (i, m) ∉ g.up.faulted →
        ∃ t, exec (.ryBlock p ep vc b []) s = .next t ∧ SameBut [.seams, .groups, .counters, .lining] s t ∧
          smGet? t.groups k = some { g with up := { g.up with faulted := g.up.faulted ++ [(i, m)] } }) ∧
      (g.check g.up g.incoming j n a.natural b = .duplicate →
        ∃ t, exec (.ryBlock p ep vc b []) s = .next t ∧ SameBut [.seams, .groups] s t ∧
          smGet? t.groups k = some g)) ∧
    (∀ x, s.groupAt RyDesc.down p ep vc = some (k, g) →
      g.window.find? (fun x => x.1 == j && x.2.1 % 65536 == n % 65536) = some x →
      ∃ t, exec (.resend p ep vc j n) s = .next t ∧ SameBut [.seams, .groups, .counters, .lining] s t ∧
        smGet? t.groups k = some { g with n := { g.n with resends := g.n.resends + 1 } })) ∧
  (∀ (p ep vc k : Nat) (s : State) (g : RyGroup) (rows : List (List (List Run))),
    s.groupAt RyDesc.backupOut p ep vc = some (k, g) → g.copy = some rows → g.served = none →
    s.vectorFree g.ctx ((s.backer k g.ctx).map (fun e => e.seq)) = true →
    ∃ t h, exec (.backupRequest p ep vc) s = .next t ∧ SameBut (frameOf (.backupRequest p ep vc)) s t ∧
      smGet? t.groups k = some h ∧ h.served = some (s.copyBlocks g rows).length ∧
      h.n.blocksOut = g.n.blocksOut + (s.copyBlocks g rows).length ∧
      h.served_ = lastBlocks ((s.copyBlocks g rows).map (fun x => (x.1, x.2.1, x.2.2.1.bytes))))

/-- R430, R199, R202, R460: five rows that answer a packet or a read complete, each under conditions on the machine and its
operands alone. RRD of 1 to 16 aligned words and RWR of as many on a port that carries packets: an answer is sent, and a
read leaves every register and every byte of memory as it was. RESEND of a block of the replay window, and BACKUP_REQUEST
on the channel of an open round, no step or trip in its way: the blocks go out. A read of a latched pair. -/
def Obligations.PacketRowsComplete : Prop :=
  ∀ (p ep off n tag vc k j : Nat) (enc : Bool) (ws : List (BitVec 32)) (src : Source) (s : State) (g : RyGroup),
    (s.seamUp p = true → s.ready.tag = true → off % 4 = 0 → 1 ≤ n → n ≤ 16 →
      ∃ t, exec (.rrd p ep off n tag) s = .next t ∧ SameBut [.seams, .counters, .lining, .latches] s t) ∧
    (s.seamUp p = true → s.ready.tag = true → off % 4 = 0 → ws ≠ [] → ws.length ≤ 16 →
      ∃ t, exec (.rwr p ep enc off ws tag) s = .next t ∧ SameBut (frameOf (.rwr p ep enc off ws tag)) s t) ∧
    (∀ x, s.groupAt RyDesc.down p ep vc = some (k, g) →
      g.window.find? (fun x => x.1 == j && x.2.1 % 65536 == n % 65536) = some x →
      ∃ t h, exec (.resend p ep vc j n) s = .next t ∧ SameBut [.seams, .groups, .counters, .lining] s t ∧
        smGet? t.groups k = some h ∧ h.n.resends = g.n.resends + 1 ∧ h.window = g.window) ∧
    (∀ rows, s.groupAt RyDesc.backupOut p ep vc = some (k, g) → g.copy = some rows → g.served = none →
      s.belt.trip = false → s.belt.requests = [] →
      ∃ t h, exec (.backupRequest p ep vc) s = .next t ∧ SameBut (frameOf (.backupRequest p ep vc)) s t ∧
        smGet? t.groups k = some h ∧ h.served.isSome = true ∧ h.copy = some rows) ∧
    (off % 8 = 0 → (s.pairAt off).isSome ∨ isRoPairLo off = true →
      ∃ t, exec (.latchedPairRead src off) s = .next t ∧ SameBut [.latches] s t ∧
        (t.readWord src (off + 4)).1 = s.regRead (off + 4))

namespace Sys2Proof.Claims

/-- The packets of the lap that a position keeps back behind its own stream, with one more packet of a shard (R204).
-/
def keptBack (g : RyGroup) (shard type : Nat) (b : Bytes) : List (Nat × Bytes) :=
  if shard = (g.d.position + 1) % g.d.size ∨ g.sent = true then g.forward else g.forward ++ [(type, b)]

end Sys2Proof.Claims

/-- R201: a norm token. Lap 1 waits where the own sum is not formed; the value that ends the ring is written into the
norm record of its tensor, once, with STEP and G_VALID beside it. R204, R205: the packets of the parameter lap. They
wait until an RY_PARAM_RECV is at work; then a header begins a stream, and forecast bytes are kept with the stream
that they follow. A packet whose stream goes on is kept back until the own stream has been sent. The model's choices
in it: logs 47 and 48 (deduced). -/
def Obligations.NormTokensAndParameterLap : Prop :=
  (∀ (p ep vc tensor k : Nat) (v : BitVec 64) (s : State) (g : RyGroup),
    s.groupAt RyDesc.up p ep vc = some (k, g) → g.phase = .data → g.normDone.contains tensor = false →
    (g.d.position ≠ 0 → g.normOwn.find? (fun x => x.1 == tensor) = none →
      ∃ t, exec (.normToken p ep vc 1 tensor v) s = .next t ∧ SameBut [.seams, .groups] s t ∧
        smGet? t.groups k = some { g with normHeld := g.normHeld ++ [(tensor, v)] }) ∧
    (∀ rs, g.d.position ≠ 0 → g.normAt.find? (fun x => x.1 == tensor) = some (tensor, rs) →
      ∃ t, exec (.normToken p ep vc 2 tensor v) s = .next t ∧
        SameBut (frameOf (.normToken p ep vc 2 tensor v)) s t ∧
        smGet? t.groups k = some { g with normDone := g.normDone ++ [tensor] } ∧
        (∀ pa, rs = [(pa, 32)] → (s.ctx g.ctx).bounce = none →
          memRead t.mem pa 8 = leBytes 8 v.toNat ∧ memRead t.mem (pa + 16) 8 = leBytes 8 g.d.step.toNat ∧
          (memGet t.mem (pa + 24)).getLsbD 0 = true ∧
          ∀ a, a < pa ∨ pa + 32 ≤ a → memGet t.mem a = memGet s.mem a))) ∧
  (∀ (p ep vc k : Nat) (b : Bytes) (s : State) (g : RyGroup), s.lapAt p ep vc = some (k, g) →
    smGet? s.groups k = some g →
    (∃ t, exec (.parameterHeader p ep vc b) s = .next t ∧
      (g.recv = none → SameBut [.seams, .groups] s t ∧
        smGet? t.groups k = some { g with early := g.early ++ [(6, b)] }) ∧
      (∀ q, g.recv = some q → bitsOf (fieldOf b 0 2) 0 12 < g.tensors.length → bitsOf (fieldOf b 2 2) 0 10 < g.d.size →
        bitsOf (fieldOf b 2 2) 0 10 ≠ g.d.position → ∃ h, smGet? t.groups k = some { g with
            heads := g.heads ++ [h]
            forward := keptBack g (bitsOf (fieldOf b 2 2) 0 10) 6 b } ∧
          h.tensor = bitsOf (fieldOf b 0 2) 0 12 ∧ h.shard = bitsOf (fieldOf b 2 2) 0 10 ∧
          h.fmt = bitsOf (fieldOf b 4 1) 0 4 ∧ h.version = BitVec.ofNat 64 (fieldOf b 8 8) ∧ h.got = 0 ∧
            h.bytes = [])) ∧
    (∃ t, exec (.parameterData p ep vc b) s = .next t ∧
      (g.recv = none → SameBut [.seams, .groups] s t ∧
        smGet? t.groups k = some { g with early := g.early ++ [(7, b)] }) ∧
      (∀ q h, g.recv = some q → g.heads.getLast? = some h →
        ∃ g', smGet? t.groups k = some g' ∧ g'.heads = g.heads.dropLast ++ [{ h with got := h.got + 1 }] ∧
          g'.forward = keptBack g h.shard 7 b)) ∧
    (∃ t, exec (.forecastData p ep vc b) s = .next t ∧
      (g.recv = none → SameBut [.seams, .groups] s t ∧
        smGet? t.groups k = some { g with early := g.early ++ [(8, b)] }) ∧
      (∀ q h, g.recv = some q → g.heads.getLast? = some h → smGet? t.groups k = some { g with
        heads := g.heads.dropLast ++ [{ h with bytes := h.bytes ++ b.take (h.forecastBytes - h.bytes.length) }]
        forward := keptBack g h.shard 8 b })))

/-! ## The Tag port and the test access port (17_ports_and_bringup) -/

/-- R433: private transfers of the Tag port. A header with the read bit sets up a read of 1 to 64 words, the next
private read of that many bytes brings them, and a header with words writes them with the rights of the Tag port.
R433: the addresses of the Tag port. ENTDAA and SETDASA give one to a target that has none, SETDASA by the static
address 50H + STRAP[2:0]; SETNEWDA replaces one; RSTDAA takes it away. R433: what the Tag port answers to a
controller, and its in-band interrupts: six bytes of ID, one byte of BCR and DCR, two of status and of the greatest
write and read lengths. The values are open in the manual. The model's choices in it: log 85 (when an address is
given, presumed). -/
def Obligations.TagPort : Prop :=
  (∀ (data : List (BitVec 8)) (s : State), s.i3cUp = true → 4 ≤ data.length →
    let off := fieldOf data 0 3
    let n := bitsOf (fieldOf data 3 1) 0 6 + 1
    ((fieldOf data 3 1).testBit 7 = true → ∃ t, exec (.i3cPrivateWrite data) s = .next t ∧ SameBut [.i3c] s t ∧
      t.i3c = { s.i3c with read := some (off, n) } ∧
      ∃ u, exec (.i3cPrivateRead (4 * n)) t = .next u ∧ SameBut [.i3c, .latches] t u ∧ u.i3c.read = none ∧
        u.i3c.out.length = 4 * n ∧ u.i3c.out.take 4 = leBytes 4 (s.readWord .i3c off).1.toNat) ∧
    ((fieldOf data 3 1).testBit 7 = false → (fieldOf data 3 1).testBit 6 = false → 4 + 4 * n ≤ data.length →
      exec (.i3cPrivateWrite data) s =
        .next (s.i3cWords off ((List.range n).map (fun i => BitVec.ofNat 32 (fieldOf (data.drop 4) (4 * i) 4))))) ∧
    ((fieldOf data 3 1).testBit 7 = false → (fieldOf data 3 1).testBit 6 = true → 4 + 4 * n ≤ data.length →
      exec (.i3cPrivateWrite data) s = exec (.bootChunk .i3c off ((data.drop 4).take (4 * n))) s) ∧
    ((fieldOf data 3 1).testBit 7 = false → data.length < 4 + 4 * n → exec (.i3cPrivateWrite data) s = .next s)) ∧
  (∀ (a b : BitVec 7) (s : State), s.i3cUp = true →
    let with_ := fun (d : Option (BitVec 7)) => Host.Outcome.next { s with i3c := { s.i3c with dynamic := d } }
    (s.i3c.dynamic = none → exec (.entdaa a) s = with_ (some a) ∧
      exec (.setdasa (0x50 + (s.pins.straps &&& 7#6).setWidth 7) a) s = with_ (some a) ∧
      (b ≠ 0x50 + (s.pins.straps &&& 7#6).setWidth 7 → exec (.setdasa b a) s = .next s) ∧
      exec (.setnewda a) s = .next s) ∧
    (s.i3c.dynamic ≠ none → exec (.entdaa a) s = .next s ∧ exec (.setdasa b a) s = .next s ∧
      exec (.setnewda a) s = with_ (some a)) ∧
    exec .rstdaa s = with_ none) ∧
  (∀ (ev : BitVec 8) (s : State), s.i3cUp = true →
    (∀ i n, (i, n) ∈ [(Instr.getpid, 6), (.getbcr, 1), (.getdcr, 1), (.getstatus, 2), (.getmwl, 2), (.getmrl, 2)] →
      ∃ t, exec i s = .next t ∧ SameBut [.i3c] s t ∧ t.i3c.out.length = n ∧ t.i3c.dynamic = s.i3c.dynamic ∧
        t.i3c.ibiEnabled = s.i3c.ibiEnabled ∧ t.i3c.ibiPending = s.i3c.ibiPending) ∧
    (ev.getLsbD 0 = true →
      exec (.enec ev) s = .next { s with i3c := { s.i3c with ibiEnabled := true } } ∧
      exec (.disec ev) s = .next { s with i3c := { s.i3c with ibiEnabled := false, ibiPending := false } }) ∧
    (ev.getLsbD 0 = false → exec (.enec ev) s = .next s ∧ exec (.disec ev) s = .next s))

/-- R434: the test access port. BYPASS, IDCODE and SAMPLE/PRELOAD work at any time; EXTEST, CLAMP and HIGHZ take
effect only while COLD_RESET_N is low and act as BYPASS otherwise. None of them changes any other state of the engine.
-/
def Obligations.TestAccessPort : Prop :=
  ∀ (cells : BitVec 32) (s : State), s.pins.pwrGood = true →
    exec .bypass s = .next { s with tap := { s.tap with instr := .bypass, out := 0 } } ∧
    exec .idcode s = .next { s with tap := { s.tap with
      instr := .idcode, out := match s.die with | .g5x16 => 0x1A5160F3 | .g5x8 => 0x1A5080F3 } } ∧
    (∃ t, exec (.samplePreload cells) s = .next t ∧ SameBut [.tap] s t ∧ t.tap.instr = .sample ∧ t.tap.cells = cells) ∧
    (s.pins.coldResetN = true → ∀ i, i = .extest ∨ i = .clamp ∨ i = .highz → exec i s = exec .bypass s) ∧
    (s.pins.coldResetN = false →
      (∃ t, exec .extest s = .next t ∧ SameBut [.tap] s t ∧ t.tap.instr = .extest ∧ t.tap.cells = s.tap.cells) ∧
      exec .clamp s = .next { s with tap := { s.tap with instr := .clamp, out := 0 } } ∧
      exec .highz s = .next { s with tap := { s.tap with instr := .highz, out := 0 } })

/-! ## From the doorbell to the record (09_commands_and_completion, 11_scheduling, 13_static_schedule_and_time) -/

namespace Sys2Proof.Claims

/-- Nothing that the engine writes of its own accord, its journal and its trace, reaches memory. -/
def Quiet (s : State) : Prop := s.journal.state = 0 ∧ s.trace.mode = 0

/-- A byte of the journal's regions or of the trace region, which the engine writes of its own accord. -/
def Logged (s : State) (a : Nat) : Prop :=
  (s.journal.base.toNat ≤ a ∧ a < s.journal.base.toNat + journalBytes) ∨
  (s.journal.mirror.toNat ≤ a ∧ a < s.journal.mirror.toNat + journalBytes) ∨
  (∃ i, i < s.trace.bytes ∧ s.trace.byteAddr i = a)

/-- A byte of some runs. -/
def InRuns (rs : List Run) (a : Nat) : Prop := ∃ r ∈ rs, r.1 ≤ a ∧ a < r.1 + r.2

/-- A byte that a data command writes: of its runs, or the one that holds STATE of the version slot that it fills
(R173). -/
def Written (d : Delta) (a : Nat) : Prop := InRuns d.runs a ∨ ∃ v, d.slot = some v ∧ v.1 = a

end Sys2Proof.Claims

/-- R212, R227: the doorbell and the completion head of a context's page, from the endpoint that owns it. A value
ahead of the last one and within the ring moves the pointer; any other sets the error bit and moves nothing. -/
def Obligations.RingPointers : Prop :=
  ∀ (src : Source) (n : Nat) (v : W32) (s : State), n < 1024 → s.srcOwns src n = true →
    (n ≠ 0 ∨ s.collar.ctx0Active = true) →
    let c := s.ctx n
    let d := (v - c.sqHead).toNat
    let ok := (c.sqTail - c.sqHead).toNat ≤ d ∧ d ≤ c.sqEntries
    (∃ t, exec (.doorbell src n v) s = .next t ∧ SameBut [.ctxs] s t ∧
      t.ctx n = (if ok then { c with sqTail := v } else { c with dbErr := true }) ∧ ∀ m, m ≠ n → t.ctx m = s.ctx m) ∧
    ((v - c.cqHead).toNat ≤ (c.cqTail - c.cqHead).toNat → ∃ t, exec (.ctxCqHeadWrite src n v) s = .next t ∧
      SameBut [.mem, .ctxs, .journal, .fabric] s t ∧ t.ctx n = { c with cqHead := v } ∧
      ∀ e ∈ t.journal.entries, e.ctx = n → e.state = .completed →
        (v - c.cqHead).toNat ≤ (e.cqCount - c.cqHead).toNat) ∧
    ((c.cqTail - c.cqHead).toNat < (v - c.cqHead).toNat → ∃ t, exec (.ctxCqHeadWrite src n v) s = .next t ∧
      SameBut [.ctxs] s t ∧ t.ctx n = { c with cqErr := true }) ∧
    s.ringRoom n ≤ c.cqEntries

/-- R214, R215: the next packet of a context. One whose header fits is accepted when the journal, the completion ring
and INFLIGHT take it: a new entry holds it, and ACCEPT_SEQ and SQ_HEAD move on. A duplicate is dropped and counted;
any other is refused with SEQ_ERR, and ACCEPT_SEQ stays. -/
def Obligations.PacketsAccepted : Prop :=
  ∀ (n : Nat) (p : Bytes) (s : State), s.fetches n = true → s.packetAt n (s.ctx n).sqHead = some p →
    let c := s.ctx n
    ∃ t, exec (.packetAccept n) s = .next t ∧ SameBut (frameOf (.packetAccept n)) s t ∧
      (checkHeader n (c.acceptSeq + 1) p = .accept → c.failedMembers = 0 → Op.ofCode (pkOpcode p) ≠ some .chain →
        s.takes n [p] = true → ∃ e, t.journal.entries = s.journal.entries ++ [e] ∧ e.ctx = n ∧ e.seq = pkSeq p ∧
          e.packet = p ∧ e.state = .accepted ∧ e.id = s.journal.nextId ∧ e.tAccepted = s.stamp ∧
          (t.ctx n).sqHead = c.sqHead + 1 ∧ (t.ctx n).acceptSeq = c.acceptSeq + 1 ∧
          (t.ctx n).cqTail = c.cqTail + (if pkAck p then 1 else 0)) ∧
      (checkHeader n (c.acceptSeq + 1) p = .duplicate →
        t = s.setCtx n { c with sqHead := c.sqHead + 1, dup := c.dup + 1 }) ∧
      (checkHeader n (c.acceptSeq + 1) p = .refuse → 1 ≤ s.ringRoom n → s.cqSlotOk n c.cqTail = true →
        t.journal.entries = s.journal.entries ∧ (t.ctx n).acceptSeq = c.acceptSeq ∧ (t.ctx n).seqErr = true ∧
        (t.ctx n).sqHead = c.sqHead + 1 ∧ (t.ctx n).cqTail = c.cqTail + 1)

/-- R216, R217, R236: the next command of an open context that may dispatch, outside a chain and a schedule,
dispatches; where a rule of dispatch stands in its way its outcome is decided at once, with the first status of R236.
One that may not dispatch yet stays as it is, and one that needs a lost region waits for it in LOST_WAIT (R387, R473).
-/
def Obligations.CommandsDispatch : Prop :=
  ∀ (n : Nat) (s : State) (e : Entry), s.ready.collar = true → (s.ctx n).state = .opened → s.candidate n = some e →
    e.state = .accepted → s.slotFor e.ctx e.seq = none → (e.op ≠ some .chain ∨ e.early ≠ none) → e ∈ s.journal.entries →
    ∃ t, exec (.commandDispatch n) s = .next t ∧ SameBut (frameOf (.commandDispatch n)) s t ∧
      (s.regionsLost e ≠ [] → ∃ e', t.entryAt e.id = some e' ∧ e'.state = .lostWait ∧ e'.packet = e.packet ∧
        e'.decided = false) ∧
      (s.regionsLost e = [] → s.mayDispatch e none = true → ∃ e', t.entryAt e.id = some e' ∧ e'.state = .dispatched ∧
        e'.packet = e.packet ∧ e'.seq = e.seq ∧ e'.tStarted = some (e.tStarted.getD s.stamp) ∧
        (s.dispatchIssues e = [] → e'.decided = e.decided ∧ e'.early = none) ∧
        (∀ st, Status.first (s.dispatchIssues e) = some st → e'.decided = true ∧ e'.status = e.finalStatus st)) ∧
      (s.regionsLost e = [] → s.mayDispatch e none = false → pkWaitEn e.packet = false → t = s)

/-- R272, R91: the first command that waits for queues on a core takes all that it needs there, and the halves of the
Hem that its fold entries need, or nothing. The model's choices in it: logs 14 (deduced) and 97 (its queues run ahead
then). -/
def Obligations.QueuesGranted : Prop :=
  ∀ (k : Nat) (s : State) (e : Entry), s.ready.collar = true → s.coreReady k = true →
    earliest (s.queueWaiters k) = some e →
    let fits := s.queueNeed e ≤ (s.core k).free ∧ (s.hemNeed e k).length + (s.core k).hem.length ≤ 2
    (fits → ∃ t, exec (.queueGrant k) s = .next t ∧ SameBut (frameOf (.queueGrant k)) s t ∧
      (∃ b, (t.core k).queues =
          (s.core k).queues ++ [QueueHold.mk e.ctx e.seq (s.queueNeed e) b s.stamp.toNat] ∧
        (s.core k).borrowed + b ≤ max (s.core k).borrowed (sharedBlocks s.die - (s.core k).promisedBlocks)) ∧
      (t.core k).hem = (s.core k).hem ++ (s.hemNeed e k).map (HemHalf.mk e.ctx e.seq) ∧
      (t.core k).free + s.queueNeed e = (s.core k).free ∧ (∀ j, j ≠ k → t.core j = s.core j) ∧
      ∃ e', t.entryAt e.id = some e' ∧ e'.working = true) ∧
    (¬fits → exec (.queueGrant k) s = .next s)

/-- R292, R271: the earliest chain that waits is promised its blocks on the cores of its placement whole, or not at all,
once these cores have the queues of its links. R294: the stall detector, once a link has been starved and no block has
moved for 100,000 ticks, breaks the youngest starved chain: the blocks that its links hold go to the ring in its overflow
region, its members carry DEADLOCK_BROKEN, its promise is given back, and the break is counted. Before that nothing
happens, and with no starved chain only the watch ends. The model's choices in it: logs 15 and 91 (deduced). -/
def Obligations.ChainsAdmittedAndBroken : Prop :=
  (∀ (s : State) (e : Entry) (c : ChainState), s.ready.collar = true → earliest s.chainWaiters = some e →
    s.chain? e.ctx e.seq = some c →
    let left := fun (x : State) => ((s.usable e.ctx).map x.allowanceLeft).foldl (· + ·) 0
    let queues := s.promiseQueues (c.stages - 1) (s.usable e.ctx) 0 c.buffer
    (c.buffer ≤ left s → queues = true → ∃ t, exec .chainAdmit s = .next t ∧ SameBut [.cores, .chains, .counters] s t ∧
      left t + c.buffer = left s ∧ ∃ c', t.chain? e.ctx e.seq = some c' ∧ c'.admitted = true ∧ c'.links = c.links) ∧
    (left s < c.buffer ∨ queues = false → exec .chainAdmit s = .next s)) ∧
  (∀ s : State, s.ready.collar = true →
    (s.stallOver = false → exec .deadlockBreak s = .next s) ∧
    (s.stallOver = true → (∀ c ∈ s.chains, s.chainStarved c = false) →
      exec .deadlockBreak s = .next { s with starved := none }) ∧
    (∀ c0 rest rs, s.stallOver = true →
      (s.chains.filter s.chainStarved).filter (fun c => !c.overflow) = c0 :: rest →
      let c := rest.foldl younger c0
      s.resolve c.ctx c.overflowAt c.overflowBytes true = .ok rs →
      ∃ t, exec .deadlockBreak s = .next t ∧ SameBut (frameOf .deadlockBreak) s t ∧ t.starved = none ∧
        (∃ r, t.chain? c.ctx c.seq = some { c with overflow := true, ring := r }) ∧
        t.counterAt (Counter.control 2).addr = s.counterAt (Counter.control 2).addr + 1 ∧
        (Quiet s → t.mem = ((({ s with starved := none } : State).setChain { c with overflow := true }).spillLinks c).mem) ∧
        (∀ pa n b, Quiet s → rs = [(pa, n)] → c.stages = 2 → c.ring = [] → c.links = [b] → 0 < b.length →
          b.length ≤ blockBytes → b.length ≤ n → s.linkTaken c 0 = 0 → memRead t.mem pa b.length = b) ∧
        (∀ u ∈ t.cores, ∀ q ∈ u.2.promised, ¬(q.ctx = c.ctx ∧ q.seq = c.seq)) ∧
        ∀ e ∈ t.journal.entries, e.ctx = c.ctx → e.chain = c.seq → e.member ≠ none → e.live = true →
          Status.deadlockBroken ∈ e.notes))

/-- R223, R224, R225, R219: a command whose outcome is decided completes. Its record stands in the next slot of its
completion ring with the PHASE of that slot, CQ_TAIL moves by one, and its SIGNAL mark has counted. Outside the slot
no byte of memory changes, where nothing is journalled or traced and no statistics wait for the governor region. -/
def Obligations.CommandsComplete : Prop :=
  ∀ (n : Nat) (q : W32) (s : State) (e : Entry), s.entry? n q = some e → s.ready.collar = true → e.decided = true →
    e.state = .dispatched ∨ e.state = .committed → s.flushPorts e = [] → s.hostReads = [] → s.statsRoom e = true →
    s.signalling < 256 → s.cqSlotOk n (s.ctx n).cqTail = true →
    ∃ t e', exec (.commandComplete n q) s = .next t ∧ SameBut (frameOf (.commandComplete n q)) s t ∧
      t.entryAt e.id = some e' ∧ e'.state = .completed ∧ e'.status = e.status ∧ e'.result = e.result ∧
      (t.ctx n).cqTail = (s.ctx n).cqTail + 1 ∧
      (pkSignalEn e.packet = true → (s.ctx n).hasFence (pkSignalCtr e.packet) = true →
        (pkSignalCtr e.packet, n, q) ∉ s.journal.signals →
        t.fence (pkSignalCtr e.packet) = s.fence (pkSignalCtr e.packet) + 1) ∧
      (Quiet s → (s.ctx n).gov = none ∨ (e.stats = [] ∧ (s.ctx n).waiting = []) →
        let c := s.ctx n
        let a := c.cq.addr (32 * (c.cqTail.toNat % c.cqEntries))
        memRead t.mem a 32 = e.recordBytes (phaseOf c.cqEntries c.cqTail) ∧
        ∀ b, b < a ∨ a + 32 ≤ b → memGet t.mem b = memGet s.mem b)

/-! ## The command rows: how each ends (09_command_protocol, 10_opcode_reference) -/

namespace Sys2Proof.Claims

/-- The dispatched command of a context and SEQ, undecided, whose chain has brought its input. -/
def Runs (s : State) (op : Op) (n : Nat) (q : W32) (e : Entry) : Prop :=
  s.runnable op n q = some e ∧ Numbered s ∧ s.brokenFor e = none ∧ s.producerDone e = true

/-- A command has its outcome: its entry is decided now, with this status, or a completed-class one of its notes that
ranks higher (R229), and this RESULT, 0 where it failed. -/
def Ended (t : State) (e : Entry) (st : Status) (r : W32) : Prop :=
  ∃ x, t.entryAt e.id = some x ∧ x.decided = true ∧ x.status = e.finalStatus st ∧
    x.result = (if st.failed then 0 else r) ∧ x.tFinished = t.stamp ∧ x.packet = e.packet

/-- The entries of every other command are as they were. -/
def OthersKept (s t : State) (e : Entry) : Prop := ∀ x ∈ s.journal.entries, x.id ≠ e.id → x ∈ t.journal.entries

/-- Every command keeps its entry, with its packet and its outcome so far. -/
def OthersIdsKept (s t : State) : Prop :=
  t.journal.entries.map (fun x => (x.id, x.packet, x.decided, x.status)) =
    s.journal.entries.map (fun x => (x.id, x.packet, x.decided, x.status))

/-- The rows whose command needs no core, with the effect that each has on its entry. -/
def opRow : Instr → Option (Op × Nat × W32 × (State → Entry → Verdict))
  | .nop n q => some (.nop, n, q, nopWork)
  | .fence n q => some (.fence, n, q, fenceWork)
  | .signal n q => some (.signal, n, q, signalWork)
  | .wait n q => some (.wait, n, q, waitWork)
  | .chain n q => some (.chain, n, q, chainWork)
  | .contextOpen n q => some (.contextOpen, n, q, contextOpenWork)
  | .streamDefine n q => some (.streamDefine, n, q, streamDefineEff)
  | .prefetch n q => some (.prefetch, n, q, prefetchEff)
  | .multicast n q d => some (.multicast, n, q, multicastEff d)
  | .versionRelease n q => some (.versionRelease, n, q, versionReleaseEff)
  | .ryParamSend n q => some (.ryParamSend, n, q, ryParamSendWork)
  | .govBounds n q => some (.govBounds, n, q, govBoundsWork)
  | .govRead n q => some (.govRead, n, q, govReadWork)
  | .govStep n q => some (.govStep, n, q, govStepWork)
  | .schedLoad n q => some (.schedLoad, n, q, schedLoadWork)
  | .schedArm n q => some (.schedArm, n, q, schedArmWork)
  | .energyMark n q => some (.energyMark, n, q, energyMarkWork)
  | .receiptIssue n q => some (.receiptIssue, n, q, receiptIssueWork)
  | .powerReserve n q => some (.powerReserve, n, q, powerReserveWork)
  | .sealImport n q => some (.sealImport, n, q, sealImportWork)
  | .attest n q => some (.attest, n, q, attestWork)
  | .roleSession n q => some (.roleSession, n, q, roleSessionWork)
  | .profileLoad n q => some (.profileLoad, n, q, profileLoadWork)
  | .fwStage n q => some (.fwStage, n, q, fwStageWork)
  | .traceCtl n q => some (.traceCtl, n, q, traceCtlWork)
  | .traceTrigger n q => some (.traceTrigger, n, q, traceTriggerWork)
  | _ => none

/-- The parts that a completed command of an opcode touches beside its effect: its entry with its journal image, its
chain, the queues that it gives back, and the account of what it moved. -/
def doneParts (op : Op) : List Part :=
  [.mem, .journal, .fabric, .chains] ++ (if op.usesQueues then [.cores, .starved, .counters, .belt] else []) ++
    (if op.namesNone then [] else [.seams])

/-- The parts that a failed one touches: its entry and chain, the walks over the extents it names, and its queues. -/
def failParts (op : Op) : List Part :=
  [.mem, .journal, .fabric, .chains] ++
    (if op.namesNone then [] else [.counters]) ++ (if op.usesQueues then [.cores, .belt] else [])

end Sys2Proof.Claims

/-- R222, R223, R229, R230, R236, R272: how the commands that do no array or vector work end. One that completes is decided
with its status and RESULT, in the machine that has its effect, once it holds the queues that it needs. One that fails
carries the failed code that R236 ranks first and RESULT 0, and has changed nothing but its own entry, its chain and what
`failParts` lists. One behind a broken producer carries that one's status, and one that must wait changes nothing. -/
def Obligations.CommandsEnd : Prop :=
  ∀ (i : Instr) (op : Op) (n : Nat) (q : W32) (eff : State → Entry → Verdict) (s : State) (e : Entry),
    opRow i = some (op, n, q, eff) → s.runnable op n q = some e → Numbered s →
    (∀ st, s.brokenFor e = some st → ∃ t, exec i s = .next t ∧ SameBut [.mem, .journal, .fabric, .chains] s t ∧
      Ended t e st 0) ∧
    (s.brokenFor e = none → s.producerDone e = false → exec i s = .next s) ∧
    (s.brokenFor e = none → s.producerDone e = true →
      (∀ st r sat u, eff s e = .done st r sat u → (s.hasStarted op e = false → exec i s = .next s) ∧
        (s.hasStarted op e = true → ∃ t, exec i s = .next t ∧ SameBut (doneParts op) u t ∧ Ended t e st r ∧
          OthersKept u t e ∧ (Quiet u → t.mem = u.mem))) ∧
      (∀ issues lost, eff s e = .fail issues lost → ∃ t, exec i s = .next t ∧ SameBut (failParts op) s t ∧
        Ended t e ((Status.first issues).getD Status.malformed) 0 ∧ OthersKept s t e ∧
        (Quiet s → lost = [] → t.mem = s.mem)) ∧
      (eff s e = .wait → exec i s = .next s))

/-- R239, R240, R222, R233: NOP, FENCE, SIGNAL, WAIT and CHAIN. Each changes the fence counter that it names at most,
and its own entry. R176, R179: VERSION_RELEASE of a version that its descriptor holds. It takes away as many of the
references that the context keeps on it as it names, all of them where it names 0, and RESULT says how many are
left; no other count changes. -/
def Obligations.ControlCommands : Prop :=
  (∀ (n : Nat) (q : W32) (s : State) (e : Entry),
    let k := e.field 0x10 2
    let alone := fun (i : Instr) (r : W32) => ∃ t, exec i s = .next t ∧ SameBut [.mem, .journal, .fabric, .chains] s t ∧
      (Quiet s → t.mem = s.mem) ∧ OthersKept s t e ∧ Ended t e Status.ok r
    (Runs s .nop n q e → e.clean [] = true → alone (.nop n q) 0) ∧
    (Runs s .fence n q e → e.clean [] = true →
      ((∃ x ∈ s.entriesOf e.ctx, x.id < e.id ∧ x.live = true) → exec (.fence n q) s = .next s) ∧
      ((∀ x ∈ s.entriesOf e.ctx, x.id < e.id → x.live = false) → alone (.fence n q) 0)) ∧
    (Runs s .signal n q e → e.clean [(0x10, 0, 16), (0x14, 0, 32)] = true → (s.ctx e.ctx).hasFence k = true →
      ∃ t, exec (.signal n q) s = .next t ∧ SameBut [.mem, .journal, .fabric, .chains, .fences] s t ∧
        (Quiet s → t.mem = s.mem) ∧ OthersKept s t e ∧
        t.fence k = s.fence k + BitVec.ofNat 64 (e.field 0x14 4) ∧ (∀ j, j ≠ k → t.fence j = s.fence j) ∧
        Ended t e Status.ok ((t.fence k).setWidth 32)) ∧
    (Runs s .wait n q e → e.clean [(0x10, 0, 16), (0x18, 0, 64)] = true → (s.ctx e.ctx).hasFence k = true →
      ((s.fence k).toNat < e.field 0x18 8 → exec (.wait n q) s = .next s) ∧
      (e.field 0x18 8 ≤ (s.fence k).toNat → alone (.wait n q) ((s.fence k).setWidth 32))) ∧
    (Runs s .chain n q e →
      let mine := fun (m : Entry) => m ∈ s.entriesOf e.ctx ∧ m.member ≠ none ∧ m.chain = e.seq ∧ e.id < m.id
      ((∃ m, mine m ∧ m.live = true) → exec (.chain n q) s = .next s) ∧
      ((∀ m, mine m → m.live = false ∧ m.status = Status.ok) → alone (.chain n q) 0))) ∧
  (∀ (n : Nat) (q : W32) (s : State) (e : Entry) (d : TDesc) (r : VRef), Runs s .versionRelease n q e →
    e.clean [(0x10, 0, 64), (0x18, 0, 64), (0x20, 0, 16)] = true →
    s.readVersion e (e.field 0x10 8) (BitVec.ofNat 64 (e.field 0x18 8)) = .slot d r →
    s.sealIssues e.ctx [] [] (s.structRuns e) = [] →
    let count := e.field 0x20 2
    let left := if count = 0 then 0 else s.retainedOf r - count
    ∃ t, exec (.versionRelease n q) s = .next t ∧
      SameBut [.seams, .mem, .journal, .fabric, .chains, .retained] s t ∧
      Ended t e Status.ok (BitVec.ofNat 32 left) ∧ t.retainedOf r = left ∧ ∀ v, v ≠ r → t.retainedOf v = s.retainedOf v)

/-- R208, R242, R473: CONTEXT_OPEN of a closed context with an attribute block in range, over regions that are all
there. The context is open with the block's attributes, its page at its reset values, and no other context has
changed. R232, R178, R341, R408: CONTEXT_CLOSE of another context. Its commands are cancelled and counted, its
streams, schedules, ladders, jobs, chains, rounds, retained versions and reservation go, its sealed pages are zero and
its seals forgotten; no other context has changed. Its first step puts the target into CLOSING and cancels every
command whose outcome is not decided; it waits for the records of the others, then the rest goes. Of a closed context
it does nothing. The model's choices in it: logs 21 (ENDPOINT stays) and 96 (decided commands go on to their records).
-/
def Obligations.ContextsOpenAndClose : Prop :=
  (∀ (n : Nat) (q : W32) (s : State) (e : Entry) (b : List (BitVec 8)), Runs s .contextOpen n q e →
    let m := e.field 0x10 2
    e.clean [(0x10, 0, 10), (0x18, 0, 64)] = true → m ≠ 0 → (s.ctx m).state = .closed → s.journal.enable = true →
    (s.asRead e).readStruct 0 (e.field 0x18 8) 128 64 = .ok b → attrOk b = true → (s.openedCtx m b).1 = [] →
    ∃ t, exec (.contextOpen n q) s = .next t ∧ SameBut (frameOf (.contextOpen n q)) s t ∧
      Ended t e Status.ok (BitVec.ofNat 32 m) ∧ (∀ k, k ≠ m → t.ctx k = s.ctx k) ∧
      let c := t.ctx m
      c.state = .opened ∧ c.sqEntries = fieldOf b 0x10 4 ∧ c.cqEntries = fieldOf b 0x14 4 ∧
      c.initialSeq = BitVec.ofNat 32 (fieldOf b 0x18 4) ∧ c.acceptSeq = BitVec.ofNat 32 (fieldOf b 0x18 4) - 1 ∧
      c.inflight = fieldOf b 0x1C 4 ∧ c.fenceBase = fieldOf b 0x20 4 ∧ c.fenceN = fieldOf b 0x24 4 ∧
      c.placement = BitVec.ofNat 128 (fieldOf b 0x28 16) ∧ c.share = fieldOf b 0x38 1 ∧
      c.streamQuota = fieldOf b 0x3A 2 ∧ c.endpoint = fieldOf b 0x3C 2 ∧ c.translation = fieldOf b 0x68 8 ∧
      c.sqTail = 0 ∧ c.sqHead = 0 ∧ c.cqHead = 0 ∧ c.cqTail = 0 ∧ c.dbErr = false ∧ c.seqErr = false ∧ c.cqErr = false ∧
      c.dup = 0 ∧ c.streams = [] ∧ c.schedules = [] ∧ c.jobs = []) ∧
  (∀ (q : W32) (s : State) (e : Entry), Runs s .contextClose 0 q e →
    let m := e.field 0x10 2
    e.clean [(0x10, 0, 10)] = true → m ≠ 0 →
    ((s.ctx m).state = .closed → ∃ t, exec (.contextClose 0 q) s = .next t ∧
      SameBut [.mem, .journal, .fabric, .chains, .lining] s t ∧ Ended t e Status.ok 0) ∧
    ((s.ctx m).state ≠ .closed → (s.ctx m).state ≠ .closing → ∃ t, exec (.contextClose 0 q) s = .next t ∧
      SameBut (frameOf (.contextClose 0 q)) s t ∧ (t.ctx m).state = .closing ∧
      (t.ctx m).closing = some (q, ((s.entriesOf m).filter (fun x => x.live && !x.decided)).length) ∧
      (∀ k, k ≠ m → t.ctx k = s.ctx k) ∧ (∀ x ∈ s.journal.entries, x.ctx ≠ m → x ∈ t.journal.entries) ∧
      (∀ x ∈ t.journal.entries, x.ctx = m → x.live = true → x.decided = true)) ∧
    ((s.ctx m).state = .closing → (∀ p k, (s.ctx m).closing = some (p, k) → p ≠ q ∨ s.stillEnding m = true →
      exec (.contextClose 0 q) s = .next s)) ∧
    (∀ k, (s.ctx m).state = .closing → (s.ctx m).closing = some (q, k) → s.stillEnding m = false →
      ∃ t, exec (.contextClose 0 q) s = .next t ∧ SameBut (frameOf (.contextClose 0 q)) s t ∧
      Ended t e Status.ok (BitVec.ofNat 32 (k + ((s.entriesOf m).filter Entry.live).length)) ∧
      (∀ k, k ≠ m → t.ctx k = s.ctx k) ∧ (t.ctx m).state = .closed ∧ (t.ctx m).endpoint = (s.ctx m).endpoint ∧
      (t.ctx m).streams = [] ∧ (t.ctx m).schedules = [] ∧ (t.ctx m).ladders = [] ∧ (t.ctx m).jobs = [] ∧
      (∀ x ∈ t.journal.entries, x.ctx = m → x.live = false) ∧ (∀ c ∈ t.chains, c.ctx ≠ m) ∧
      (∀ g ∈ t.groups, g.2.ctx ≠ m) ∧ (∀ r ∈ t.retained, r.1.ctx ≠ m) ∧
      (∀ r ∈ t.belt.resv, ∀ v, r = some v → v.ctx ≠ m) ∧ (∀ u ∈ t.cores, ∀ b ∈ u.2.queues, b.ctx ≠ m) ∧
      (∀ x ∈ t.lining.seals, x.ctx ≠ m) ∧
      (Quiet s → ∀ x ∈ s.lining.seals, x.ctx = m → ∀ p ∈ x.pages, ∀ k, k < 65536 → memGet t.mem (65536 * p + k) = 0)))

/-- R231: PREEMPT of another context. A STOP of an open one whose commands have not begun their work stops them all as
they stand and leaves it PREEMPTED; one at work that can stop at the boundaries that timing gives stops there, its
cursors and the place of its resume state recorded (R99); where one is at work that cannot stop, it goes on and the
context is PREEMPTING. A RESUME opens a PREEMPTED context again, and does nothing to one that is open or closed. The
model's choices in it: log 22 (the size of the resume state). -/
def Obligations.PreemptStopsAndResumes : Prop :=
  ∀ (n : Nat) (q : W32) (cur : List (Nat × Nat × Nat)) (s : State) (e : Entry), Runs s .preempt n q e →
    let m := e.field 0x10 2
    let c := s.ctx m
    let held := (s.entriesOf m).filter Entry.inWork
    e.clean [(0x10, 0, 10), (0x12, 0, 1)] = true → m ≠ 0 → m ≠ e.ctx → c.stopping = none →
    ((e.field 0x12 1).testBit 0 = false → c.state = .opened →
      (∀ x ∈ held, x.exempt = false ∧ x.working = false) → ∃ t, exec (.preempt n q cur) s = .next t ∧
        SameBut (frameOf (.preempt n q cur)) s t ∧ t.ctx m = { c with state := .preempted } ∧
        (∀ a, ¬Logged s a → memGet t.mem a = memGet s.mem a) ∧ Ended t e Status.ok (BitVec.ofNat 32 held.length) ∧
        ∀ x ∈ held, ∃ y ∈ t.journal.entries, y.id = x.id ∧ y.state = .stopped ∧ y.preempted = true ∧
          y.tileCursor = x.tileCursor ∧ y.rowCursor = x.rowCursor ∧ y.saved = x.saved ∧ y.packet = x.packet) ∧
    ((e.field 0x12 1).testBit 0 = false → c.state = .opened →
      (∀ x cs d v, held = [x] → s.haltOf cur x = .stops cs d v → ∃ t, exec (.preempt n q cur) s = .next t ∧
        SameBut (frameOf (.preempt n q cur)) s t ∧ (t.ctx m).state = .preempted ∧ Ended t e Status.ok 1 ∧
        (t.ctx m).saveUsed = ((s.freeSave x).ctx m).saveUsed + v.bytes ∧
        ∃ y ∈ t.journal.entries, y.id = x.id ∧ y.state = .stopped ∧ y.saved = some v ∧ y.packet = x.packet ∧
          y.tileCursor = BitVec.ofNat 32 (v.cursors.headD (0, 0)).1 ∧
          y.rowCursor = BitVec.ofNat 32 (v.cursors.headD (0, 0)).2)) ∧
    ((e.field 0x12 1).testBit 0 = false → c.state = .opened → (∃ x ∈ held, x.exempt = true) →
      ∃ t, exec (.preempt n q cur) s = .next t ∧ SameBut (frameOf (.preempt n q cur)) s t ∧
        (t.ctx m).state = .preempting ∧ ∃ x, t.entryAt e.id = some x ∧ x.decided = false) ∧
    ((e.field 0x12 1).testBit 0 = true → ∃ t, exec (.preempt n q cur) s = .next t ∧
      SameBut [.mem, .ctxs, .journal, .fabric, .lining] s t ∧ Ended t e Status.ok 0 ∧
      (∀ a, ¬Logged s a → memGet t.mem a = memGet s.mem a) ∧ (∀ k, k ≠ m → t.ctx k = s.ctx k) ∧
      t.ctx m = if c.state = .preempted then { c with state := .opened } else c)

/-! ## The data rows: how each ends, and what stands in memory then (03 to 07, 10_opcode_reference, 15) -/

namespace Sys2Proof.Claims

/-- The rows that work on data, with the plan that each makes of its entry. -/
def dataRow : Instr → Option (Op × Nat × W32 × (State → Entry → Plan))
  | .queryCaps n q => some (.queryCaps, n, q, queryCapsPlan)
  | .copy n q => some (.copy, n, q, copyPlan)
  | .gather n q _ => some (.gather, n, q, gatherPlan)
  | .scatter n q _ => some (.scatter, n, q, scatterPlan)
  | .pocketWrite n q => some (.pocketWrite, n, q, pocketWritePlan)
  | .pocketRead n q => some (.pocketRead, n, q, pocketReadPlan)
  | .mmFwd n q _ => some (.mmFwd, n, q, mmFwdPlan)
  | .mmDx n q _ => some (.mmDx, n, q, mmDxPlan)
  | .mmDw n q _ => some (.mmDw, n, q, mmDwPlan)
  | .mmConvFwd n q _ => some (.mmConvFwd, n, q, mmConvFwdPlan)
  | .mmConvDx n q _ => some (.mmConvDx, n, q, mmConvDxPlan)
  | .mmConvDw n q _ => some (.mmConvDw, n, q, mmConvDwPlan)
  | .mmDist n q _ => some (.mmDist, n, q, mmDistPlan)
  | .mmSafe n q _ => some (.mmSafe, n, q, mmSafePlan)
  | .vecOp n q _ => some (.vecOp, n, q, vecOpPlan)
  | .softmaxBwd n q _ => some (.softmaxBwd, n, q, softmaxBwdPlan)
  | .normBwd n q _ => some (.normBwd, n, q, normBwdPlan)
  | .maskPack n q _ => some (.maskPack, n, q, maskPackPlan)
  | .tieSum n q _ => some (.tieSum, n, q, tieSumPlan)
  | .update n q _ _ => some (.update, n, q, updatePlan)
  | .updateRows n q _ => some (.updateRows, n, q, updateRowsPlan)
  | .precondFactor n q _ _ => some (.precondFactor, n, q, precondPlan)
  | .counterSnap n q => some (.counterSnap, n, q, counterSnapPlan)
  | _ => none

/-- The errors of its step that a row names. -/
def coreFaults : Instr → List CoreFault
  | .gather _ _ fs | .scatter _ _ fs | .mmFwd _ _ fs | .mmDx _ _ fs | .mmDw _ _ fs | .mmConvFwd _ _ fs
  | .mmConvDx _ _ fs | .mmConvDw _ _ fs | .mmDist _ _ fs | .mmSafe _ _ fs | .vecOp _ _ fs | .softmaxBwd _ _ fs
  | .normBwd _ _ fs | .maskPack _ _ fs | .tieSum _ _ fs | .update _ _ fs _ | .updateRows _ _ fs
  | .precondFactor _ _ fs _ => fs
  | _ => []

/-- What the checksums of the Gussets see, as a row names it. -/
def gussetFaults : Instr → List GussetFault
  | .update _ _ _ gs | .precondFactor _ _ _ gs => gs
  | _ => []

/-- A data row whose command is at work, allowed to, with its queues and its steps, and done with a plan; the journal has
room for its commit record. -/
def Works (s : State) (i : Instr) (e : Entry) (d : Delta) : Prop :=
  ∃ op n q plan, dataRow i = some (op, n, q, plan) ∧ Runs s op n q e ∧ s.mayWork op e = true ∧
    s.hasStarted op e = true ∧ plan (s.viewFor e) e = .done d ∧ s.commitRoom e d = true

/-- A command whose chain, if it is in one, has not been broken for a deadlock: no link goes to an overflow region (R294).
-/
def LinksInCores (s : State) (e : Entry) : Prop := ∀ c, s.chainOf e = some c → c.overflow = false

end Sys2Proof.Claims

/-- R225, R229, R284, R380: how the data commands complete where nothing faults. The entry is decided with the RESULT
of its work, committed where it updates state in place, and it holds the bytes that it wrote. Every other byte of
memory is as it was, but for the journal's and the trace's own, where no link of its chain lies in an overflow region. A
command that commits nothing, of a context without a bounce window and outside a chain, leaves exactly its writes in
memory. -/
def Obligations.DataCommandsComplete : Prop :=
  ∀ (i : Instr) (s : State) (e : Entry) (d : Delta), Works s i e d → coreFaults i = [] → gussetFaults i = [] →
    ∃ t x, exec i s = .next t ∧ SameBut workParts s t ∧ OthersKept s t e ∧
      t.entryAt e.id = some x ∧ x.decided = true ∧ x.result = d.result ∧ x.sumSat = d.sat ∧ x.tFinished = t.stamp ∧
      x.status = ({ e with notes := e.notes ++ d.notes } : Entry).finalStatus Status.ok ∧ x.wrote = d.runs ∧
      x.stats = d.stats ++ s.sealMarks e d.landed ∧ x.commit = d.commit ∧ x.taken = [] ∧
      x.state = (if d.commit = [] then .dispatched else .committed) ∧
      ((s.ctx e.ctx).bounce = none → LinksInCores s e →
        ∀ a, ¬Written d a → ¬Logged s a → memGet t.mem a = memGet s.mem a) ∧
      ((s.ctx e.ctx).bounce = none → Quiet s → d.scratch = [] → d.steps = [] → d.slot = none → d.commit = [] →
        (∀ w ∈ d.writes, w.1 < linkBase) →
        t.mem = d.writes.foldl (fun m w => memPut m w.1 w.2) s.mem)

/-- R229, R231, R236, R272, R340: how the data commands end otherwise. One that fails is decided with the failed code that
R236 ranks first and RESULT 0; memory is as it was but for the outputs that it leaves undefined, and those too where its
rule says that nothing is written, where it had taken no version slot. One that has to wait is not decided, and has changed
no memory of its own; one whose queues or steps are still to be granted has changed nothing. The model's choices in it:
log 41 (deduced). -/
def Obligations.DataCommandsFail : Prop :=
  ∀ (i : Instr) (op : Op) (n : Nat) (q : W32) (plan : State → Entry → Plan) (s : State) (e : Entry),
    dataRow i = some (op, n, q, plan) → Runs s op n q e →
    (s.mayWork op e = false → exec i s = .next s) ∧
    (s.mayWork op e = true →
      (∀ is, plan (s.viewFor e) e = .fail is → ∃ t, exec i s = .next t ∧ SameBut workParts s t ∧ OthersKept s t e ∧
        Ended t e ((Status.first is).getD Status.malformed) 0 ∧
        (e.taken = [] → ∀ a, ¬InRuns (s.lostRuns e is) a → ¬Logged s a → memGet t.mem a = memGet s.mem a)) ∧
      (∀ is, plan (s.viewFor e) e = .refuse is → ∃ t, exec i s = .next t ∧ SameBut workParts s t ∧ OthersKept s t e ∧
        Ended t e ((Status.first is).getD Status.malformed) 0 ∧
        (e.taken = [] → ∀ a, ¬Logged s a → memGet t.mem a = memGet s.mem a)) ∧
      (∀ d, plan (s.viewFor e) e = .done d → s.hasStarted op e = false → exec i s = .next s) ∧
      ((plan (s.viewFor e) e = .wait ∨ ∃ st, plan (s.viewFor e) e = .hold st) → ∃ t x, exec i s = .next t ∧
        SameBut [.mem, .journal, .cores, .fabric, .counters, .belt] s t ∧ OthersKept s t e ∧ t.entryAt e.id = some x ∧
        x.decided = false ∧ x.working = false ∧ x.packet = e.packet ∧
        ∀ a, ¬Logged s a → memGet t.mem a = memGet s.mem a))

/-- R366, R367, R368: a fault in the work of a data command, charged to a core of it (R361, R363, R370). The first discards
the work and resets the core: FAULT_RETRIED is among the command's notes, it is undecided and runs again once it has its
queues, and neither a unit nor a byte of memory goes. The second, charged to the same core, retires the core, which is gone
for good, CORE_RETIRED among the notes; the command runs again on the cores that are left. Where none is left, which is
always so for MM_SAFE (R81), or where it would be the third core that one command retires, it completes with UNIT_ABSENT,
and in that last case no core goes. R372: a row whose checksum fails at a Gusset of the command. The first discards the work,
which runs again. The second takes the Gusset out of service for good, and the command ends with UNIT_ABSENT (that it ends so
is the model's reading, log 40); no core goes with it. -/
def Obligations.FaultsRetryThenRetire : Prop :=
  (∀ (i : Instr) (s : State) (e : Entry) (d : Delta) (kind : FaultKind) (x : Nat), Works s i e d → gussetFaults i = [] →
    d.charged (coreFaults i) = [(kind, x)] → s.corePresent x = true → x ∈ s.queueCores e →
    (e.faultCore = none → e.faults = 0 → ∃ t y, exec i s = .next t ∧ OthersIdsKept s t ∧ t.entryAt e.id = some y ∧
      y.decided = false ∧ y.packet = e.packet ∧ y.faultCore = some x ∧ y.faults = 1 ∧ y.faulted = true ∧
      Status.faultRetried ∈ y.notes ∧ t.caps = s.caps ∧ t.collar = s.collar ∧ (t.core x).queues = [] ∧
      (t.core x).hem = [] ∧ ∀ a, ¬Logged s a → memGet t.mem a = memGet s.mem a) ∧
    (e.faultCore = some x → e.faults = 1 →
      let left := e.op ≠ some .mmSafe ∧ ∃ c ∈ s.placed e.ctx, c ≠ x
      ∃ t y, exec i s = .next t ∧ t.entryAt e.id = some y ∧ y.packet = e.packet ∧
      (e.retirements < 2 → t.caps.cores = s.caps.cores &&& ~~~(1#128 <<< x) ∧ t.caps.sleeves = s.caps.sleeves ∧
        t.collar.retired.getLsbD x = true ∧ t.collar.fault.getLsbD FaultBit.coreRetired.pos = true ∧
        y.retirements = e.retirements + 1 ∧ Status.coreRetired ∈ y.notes ∧ (left → y.decided = false) ∧
        (¬left → y.decided = true ∧ y.status = e.finalStatus Status.unitAbsent ∧ y.result = 0)) ∧
      (2 ≤ e.retirements → t.caps = s.caps ∧ y.decided = true ∧ y.status = e.finalStatus Status.unitAbsent ∧
        y.result = 0 ∧ y.commit = e.commit ∧ t.collar.fault.getLsbD FaultBit.retireLimit.pos = true))) ∧
  (∀ (i : Instr) (s : State) (e : Entry) (d : Delta) (k : Nat), Works s i e d → coreFaults i = [] →
    s.gussetFails e.ctx d (gussetFaults i) = [k] → s.caps.gusset.getLsbD k = true → s.shapeOk →
    ((s.sleeve k).gussetCharge = none → ∃ t y, exec i s = .next t ∧ t.entryAt e.id = some y ∧ y.decided = false ∧
      Status.faultRetried ∈ y.notes ∧ t.caps = s.caps ∧ (t.sleeve k).gussetCharge = some (e.ctx, e.seq, 1) ∧
      ∀ a, ¬Logged s a → memGet t.mem a = memGet s.mem a) ∧
    ((s.sleeve k).gussetCharge = some (e.ctx, e.seq, 1) → ∃ t, exec i s = .next t ∧
      t.caps = { s.caps with gusset := s.caps.gusset &&& ~~~(1#16 <<< k) } ∧ Ended t e Status.unitAbsent 0))

/-! ## Numbers and moves (02_formats, 04_accumulation, 10_opcode_reference, 12_stacks_and_addresses) -/

namespace Sys2Proof.Claims

/-- A finite value in units of 2^k. -/
def inUnits (k : Int) : Val → Int
  | .num neg m e => Val.at k neg m e
  | _ => 0

end Sys2Proof.Claims

/-- R50, R51: a conversion of a finite value to a format gives a finite code whose value is nearest to it among all
finite codes of the format, and of two that are equally near the one further from 0; beyond the range that is the
largest magnitude. The units 2^k are fine enough for every format and for the value. -/
def Obligations.ConversionsAreNearest : Prop :=
  ∀ (f : Format) (neg : Bool) (m : Nat) (e k : Int) (c : Nat), c < 2 ^ fmtWidth f → (fmtVal f c).finite = true →
    k ≤ -1074 → k ≤ e →
    let v := Val.at k neg m e
    let r := fmtVal f (convert f (.num neg m e)).code
    let d := (inUnits k r - v).natAbs
    let d' := (inUnits k (fmtVal f c) - v).natAbs
    r.finite = true ∧ d ≤ d' ∧ (d = d' → (inUnits k (fmtVal f c)).natAbs ≤ (inUnits k r).natAbs)

/-- R31, R32, R35, R46, R86: products are exact. The cells of a pleat form the whole product of two significands; the
product of two elements of the narrow formats is one binary32 term, without rounding; and the total of an integer
product is the sum over its elements with their zero points taken off, whatever the order of its units. -/
def Obligations.ProductsAreExact : Prop :=
  (∀ p a b : Nat, a < 16 ^ p → b < 16 ^ p → sliceProduct p a b = a * b) ∧
  (∀ (f g : Format) (x y : Nat), fmtPleat f = 1 → fmtPleat g = 1 → (fmtVal f x).finite = true →
    (fmtVal g y).finite = true → (fmtVal f x).isZero = false → (fmtVal g y).isZero = false →
    ∃ c, productTerms 1 (fmtVal f x) (fmtVal g y) = [c] ∧ (val32 c).eq ((fmtVal f x).mul (fmtVal g y)) = true) ∧
  (∀ (r : Red) (zx zw : Int) (xs ys : List Val), r.isInt = true → xs.length = ys.length →
    r.total zx zw xs ys = valOfInt (sumInt (List.zipWith (fun x y => (intOf x - zx) * (intOf y - zw)) xs ys)))

/-- R244, R247, R248, R223: COPY, POCKET_WRITE and POCKET_READ outside chains and bounce windows, over extents that
are there, in memory as the command's work sees it (R234). The bytes of the source, in order, are the bytes of the
destination afterwards; nothing else in memory has changed where nothing is journalled or traced. RESULT is the lines
of COPY's destination, the bytes of a Pocket write, and the first four bytes that a Pocket read brings. -/
def Obligations.MovesMoveBytes : Prop :=
  ∀ (n : Nat) (q : W32) (s : State) (e : Entry) (rs ws : List Run), Numbered s → e.member = none →
    (s.ctx e.ctx).bounce = none → Quiet s →
    let v := s.viewFor e
    let moved := fun (t : State) (bs : List (BitVec 8)) =>
      t.mem = (splitRuns ws bs).foldl (fun m w => memPut m w.1 w.2) s.mem
    let src := e.field 0x10 8
    let dst := e.field 0x18 8
    let len := e.field 0x20 8
    let k := e.pocketLen
    (s.runnable .copy n q = some e → e.clean [(0x10, 0, 64), (0x18, 0, 64), (0x20, 0, 64)] = true → src ≠ 0 → dst ≠ 0 →
      1 ≤ len → len ≤ 1099511627776 → (src + len ≤ dst ∨ dst + len ≤ src) → v.resolve e.ctx src len false = .ok rs →
      v.resolve e.ctx dst len true = .ok ws → v.sealIssues e.ctx rs ws [] = [] →
      ∃ t, exec (.copy n q) s = .next t ∧ SameBut workParts s t ∧ moved t (v.readRuns rs) ∧
        Ended t e Status.ok (BitVec.ofNat 32 (min ((dst % 64 + len + 63) / 64) 0xFFFFFFFF))) ∧
    (s.runnable .pocketWrite n q = some e →
      e.clean [(0x10, 0, 64), (0x18, 0, 64), (0x20, 0, 9), (0x28, 0, 192)] = true → src ≠ 0 → 1 ≤ k → k ≤ 256 →
      src % 65536 + k ≤ 65536 → v.resolve e.ctx src k true = .ok ws →
      (dst = 0 → k ≤ 24 → v.sealIssues e.ctx [] ws [] = [] →
        ∃ t, exec (.pocketWrite n q) s = .next t ∧ SameBut workParts s t ∧ moved t ((e.packet.drop 0x28).take k) ∧
          Ended t e Status.ok (BitVec.ofNat 32 k)) ∧
      (dst ≠ 0 → dst % 65536 + k ≤ 65536 → v.resolve e.ctx dst k false = .ok rs → v.sealIssues e.ctx rs ws [] = [] →
        ∃ t, exec (.pocketWrite n q) s = .next t ∧ SameBut workParts s t ∧ moved t (v.readRuns rs) ∧
          Ended t e Status.ok (BitVec.ofNat 32 k))) ∧
    (s.runnable .pocketRead n q = some e → e.clean [(0x10, 0, 64), (0x18, 0, 64), (0x20, 0, 9)] = true →
      src ≠ 0 → 1 ≤ k → k ≤ 256 → src % 65536 + k ≤ 65536 → v.resolve e.ctx src k false = .ok rs →
      v.anySealed rs = false → (dst = 0 → k ≤ 4 ∧ ws = []) →
      (dst ≠ 0 → dst % 65536 + k ≤ 65536 ∧ v.resolve e.ctx dst k true = .ok ws ∧ v.sealIssues e.ctx [] ws [] = []) →
      ∃ t, exec (.pocketRead n q) s = .next t ∧ SameBut workParts s t ∧ moved t (v.readRuns rs) ∧
        Ended t e Status.ok (BitVec.ofNat 32 (leNat ((v.readRuns rs).take 4))))

/-! ## Registers and rights (16_lining_and_attestation, 19_register_map) -/

namespace Sys2Proof.Claims

/-- A source that may write the installer's registers now: a session on an encrypted channel, and room in the audit
log. -/
def InstallerMay (s : State) (src : Source) : Prop := s.srcRole src 1 = true ∧ s.auditRoom = true

/-- The rows that write one register, with its offset. -/
def registerRow : Instr → Option (Source × Nat × W32)
  | .doorbell src n v => some (src, 0x010000 + 0x40 * (n % 1024), v)
  | .ctxCqHeadWrite src n v => some (src, 0x01000C + 0x40 * (n % 1024), v)
  | .colXlateInval src v => some (src, 0x020000, v)
  | .colJrnlCtlEnable src v => some (src, 0x020110, v)
  | .colRetireReq src v => some (src, 0x020130, v)
  | .colLossClear src v => some (src, 0x020148, v)
  | .colCtx0Apply src v => some (src, 0x020218, v)
  | .linCtx0EpWrite src v => some (src, 0x300004, v)
  | .tbLoadHiWrite src v => some (src, 0x200C, v)
  | .beltPowerCapWrite src v => some (src, 0x200018, v)
  | .beltCoolantInWrite src v => some (src, 0x20001C, v)
  | .beltCalWrite src d v => some (src, 0x200100 + 4 * d, v)
  | .enrol src v | .enrolRemove src v => some (src, 0x300180, v)
  | .registerWrite src off v => some (src, off, v)
  | _ => none

end Sys2Proof.Claims

/-- R344: the installer sets BELT_POWER_CAP in the range 100 W to the BELT_SUS_MAX in force (R337). A write outside the range leaves it
and sets CFG_ERR. A new cap takes effect at the end of the current interval; the write is audited (R15). -/
def Obligations.PowerCapIsSet : Prop :=
  ∀ (src : Source) (v : W32) (s : State), InstallerMay s src →
    let w := v.setWidth 16
    let f := s.belt.inForce (s.stamp.toNat / 10000 * 10000)
    (100 ≤ w.toNat ∧ w.toNat ≤ f.susMax.toNat → ∃ t, exec (.beltPowerCapWrite src v) s = .next t ∧
      SameBut [.belt, .lining] s t ∧ t.belt = { s.belt with capNext := some w } ∧ t.regRead 0x200018 = w.setWidth 32 ∧
      t.lining.audit.length = s.lining.audit.length + 1 ∧
      (s.inReset = false → s.belt.lastInterval < s.stamp.toNat / 10000 * 10000 → ∀ m, ∃ u,
        exec (.meteringInterval m) t = .next u ∧ u.belt.powerCap = w ∧ u.belt.capNext = none)) ∧
    (w.toNat < 100 ∨ f.susMax.toNat < w.toNat →
      exec (.beltPowerCapWrite src v) s = .next { s with belt := { s.belt with cfgErr := true } })

/-- R15, R322, R346, R351, R369, R374, R392: the other registers that the installer writes. Each write has its effect,
and one audit entry more; a value out of range leaves its register and sets the error bit; the calibration register of
a domain that is not present reads 0 and takes no write (R350, R14). The model's choices in
it: log 70 (COL_FAULT needs no encryption). -/
def Obligations.InstallerWrites : Prop :=
  ∀ (src : Source) (d : Nat) (v : W32) (s : State), InstallerMay s src → d < 27 →
    let w := v.setWidth 16
    let logged := fun (t : State) => t.lining.audit.length = s.lining.audit.length + 1
    let bad := Host.Outcome.next { s with belt := { s.belt with cfgErr := true } }
    let f := s.belt.inForce (s.stamp.toNat / 10000 * 10000)
    let ok := f.gainMin.toNat ≤ w.toNat ∧ w.toNat ≤ f.gainMax.toNat ∧
      ((v >>> 16).setWidth 16).toInt.natAbs ≤ f.offsMax.toNat
    (∃ t, exec (.tbLoadHiWrite src v) s = .next t ∧ SameBut [.tb, .lining] s t ∧ logged t ∧
      t.tb = { s.tb with loadHi := v, loadPending := true }) ∧
    (∃ t, exec (.registerWrite src 0x2008 v) s = .next t ∧ SameBut [.tb, .lining] s t ∧ logged t ∧
      t.tb = { s.tb with loadLo := v }) ∧
    (∃ t, exec (.registerWrite src 0x020118 v) s = .next t ∧ SameBut [.collar, .i3c] s t ∧
      t.collar = { s.collar with fault := s.collar.fault &&& ~~~(v.setWidth 11) }) ∧
    (0 ≤ w.toInt ∧ w.toInt ≤ 1280 → ∃ t, exec (.beltCoolantInWrite src v) s = .next t ∧
      SameBut [.belt, .lining] s t ∧ logged t ∧ t.belt = { s.belt with coolant := w }) ∧
    (w.toInt < 0 ∨ 1280 < w.toInt → exec (.beltCoolantInWrite src v) s = bad) ∧
    (s.domainPresent d = true → ok → ∃ t, exec (.beltCalWrite src d v) s = .next t ∧ SameBut [.belt, .lining] s t ∧
      logged t ∧
      t.belt = { s.belt with calNext := s.belt.calNext ++ [(d, v)] }) ∧
    (s.domainPresent d = true → ¬ok → exec (.beltCalWrite src d v) s = bad) ∧
    (s.domainPresent d = false → s.regRead (0x200100 + 4 * d) = 0 ∧
      exec (.beltCalWrite src d v) s = .next (s.count (.control 0) 1)) ∧
    (∃ t, exec (.linCtx0EpWrite src v) s = .next t ∧ SameBut [.lining] s t ∧ logged t ∧ t.lining.ctx0Ep = w ∧
      t.lining.ctx0Latched = true) ∧
    (s.journal.enable = false → v.getLsbD 0 = true → s.shapeOk →
      ∃ t, exec (.colJrnlCtlEnable src v) s = .next t ∧ logged t ∧
        (s.journalPlace s.journal.base.toNat 0 = true → s.journalPlace s.journal.mirror.toNat 3 = true →
          SameBut [.journal, .stks, .lining] s t ∧ t.journal = { s.journal with enable := true, state := 1 } ∧
          (t.stack 0).journal = true ∧ (t.stack 3).journal = true) ∧
        (s.journalPlace s.journal.base.toNat 0 = false ∨ s.journalPlace s.journal.mirror.toNat 3 = false →
          SameBut [.collar, .i3c, .lining] s t ∧ t.journal = s.journal ∧
          t.collar.fault.getLsbD FaultBit.jrnlCfg.pos = true)) ∧
    (v.getLsbD 31 = true → s.corePresent (v.toNat % 128) = true → ∃ t, exec (.colRetireReq src v) s = .next t ∧
      logged t ∧ t.caps = { s.caps with cores := s.caps.cores &&& ~~~(1#128 <<< (v.toNat % 128)) } ∧
      t.collar.retired.getLsbD (v.toNat % 128) = true ∧
      ∀ e ∈ s.journal.entries, e.live = true → e.decided = false →
        (∃ b ∈ (s.core (v.toNat % 128)).queues, b.ctx = e.ctx ∧ b.seq = e.seq) →
        ∀ x ∈ t.journal.entries, x.id = e.id → Status.coreRetired ∈ x.notes)

/-- R393, R462, R14: a write to an RW/role register takes effect only from an endpoint that holds a session of the
role, over an encrypted channel; the Tag port has no session, and its writes reach nothing but the enrolment buffer
and status. A write that is refused, from any source, changes nothing but DENIED_WRITES, which counts it. -/
def Obligations.WritesRefused : Prop :=
  ∀ (i : Instr) (src : Source) (off : Nat) (v : W32) (s : State), registerRow i = some (src, off, v) →
    let refused := exec i s = .next (s.count (.control 0) 1) ∧
      (s.count (.control 0) 1).counterAt 0x400600 = s.counterAt 0x400600 + 1 ∧
      (s.count (.control 0) 1).regRead 0x400600 = (s.counterAt 0x400600 + 1).setWidth 32
    let may := fun (role : Nat) => ∃ p ep, src = .seam p ep true ∧
      ∃ x, some x ∈ s.lining.sessions ∧ x.role = role ∧ x.endpoint = ep
    (exec i s = exec (.registerWrite src off v) s) ∧
    (s.tryWrite src off v = none → refused) ∧
    (off % 4 ≠ 0 → refused) ∧
    (off < 0x2000 ∨ (0x080000 ≤ off ∧ off < 0x200000) ∨ (0x380000 ≤ off ∧ off < 0x1000000) → refused) ∧
    (s.auditRoom = false → off ∈ [0x2008, 0x200C, 0x020130, 0x300004] → refused) ∧
    (¬may 1 → off ∈ [0x2008, 0x200C, 0x020100, 0x020104, 0x020108, 0x02010C, 0x020110, 0x020130,
      0x200018, 0x20001C, 0x300004] ∨ (0x200100 ≤ off ∧ off < 0x20016C) → refused) ∧
    (off = 0x300180 → ¬may (if v.toNat % 4 = 2 then 0 else 1) → refused) ∧
    (s.latches = [] → (s.readWord .i3c off).1 = s.regRead off) ∧
    (src = .i3c → off < 0x300100 ∨ 0x300188 ≤ off ∨ off = 0x300180 → off < 0x1000000 → refused)

/-- R305, R388, R464, R392: the Collar's own registers. COL_XLATE_INVAL is busy until XLATE_INVAL_DONE, which drops
the cached translations and the staged blocks of its context; clearing a loss record lets the commands that wait on no
other be accepted again; and APPLY takes the rings of context 0, its page at its reset values, or sets CFG_ERR and
changes nothing. The model's choices in it: logs 19 and 70 (deduced). -/
def Obligations.CollarRegisters : Prop :=
  ∀ (src : Source) (v : W32) (s : State),
    (s.srcOwns src (v.toNat % 1024) = true → ∃ t, exec (.colXlateInval src v) s = .next t ∧ SameBut [.collar] s t ∧
      t.collar.xlateBusy = some (s.collar.xlateBusy.getD (v.toNat % 1024)) ∧
      t.collar.xlateNext = (if s.collar.xlateBusy.isSome then some (v.toNat % 1024) else s.collar.xlateNext)) ∧
    (∀ n, s.collar.xlateBusy = some n → ∃ t, exec .xlateInvalDone s = .next t ∧ SameBut [.collar, .cores, .fabric] s t ∧
      t.collar = { s.collar with xlateBusy := s.collar.xlateNext, xlateNext := none } ∧
      (∀ u ∈ t.cores, ∀ b ∈ u.2.stage, b.ctx ≠ n) ∧ (∀ k, ∀ x ∈ (t.fabric.cache k).xlate, x.1 ≠ n) ∧
      (∀ k, (t.fabric.cache k).l2 = (s.fabric.cache k).l2) ∧
      ∀ u ∈ s.cores, ∃ w ∈ t.cores, w.1 = u.1 ∧ w.2.queues = u.2.queues ∧ ∀ b ∈ u.2.stage, b.ctx ≠ n → b ∈ w.2.stage) ∧
    (s.srcHolds src 1 = true ∨ s.srcHolds src 2 = true → Numbered s →
      ∃ t, exec (.colLossClear src v) s = .next t ∧ SameBut [.mem, .journal, .collar, .fabric] s t ∧
        t.collar = { s.collar with lossClear := v.setWidth 12 } ∧
        t.journal.losses = s.journal.losses.set (v.toNat % 4096) none ∧
        ∀ e ∈ s.journal.entries, e.state = .lostWait → (s.journal.losses.getD (v.toNat % 4096) none).isSome = true →
          (∀ l ∈ t.journal.losses, ∀ x, l = some x → x.ctx ≠ e.ctx ∨ e.seq ∉ x.seqs) →
          { e with state := .accepted, refs := [] } ∈ t.journal.entries) ∧
    (∀ p ep enc, src = .seam p ep enc → (s.lining.ctx0Latched = false ∨ s.lining.ctx0Ep.toNat = ep) → ep < 0x10000 →
      v.getLsbD 0 = true → v.getLsbD 2 = false →
      let k := s.collar
      let ok := k.ctx0Sq.toNat % 64 = 0 ∧ k.ctx0Cq.toNat % 64 = 0 ∧ ringSize k.ctx0SqEntries.toNat 64 65536 = true ∧
        ringSize k.ctx0CqEntries.toNat 64 131072 = true ∧
        s.ringPlace k.ctx0Sq.toNat (64 * k.ctx0SqEntries.toNat) = true ∧
        s.ringPlace k.ctx0Cq.toNat (32 * k.ctx0CqEntries.toNat) = true ∧ ∀ e ∈ s.entriesOf 0, e.live = false
      ∃ t, exec (.colCtx0Apply src v) s = .next t ∧ SameBut (frameOf (.colCtx0Apply src v)) s t ∧
        t.lining.ctx0Latched = true ∧ t.lining.ctx0Ep.toNat = ep ∧
        (ok → t.collar = { k with ctx0Active := true } ∧ (∀ n, n ≠ 0 → t.ctx n = s.ctx n) ∧
          let c := t.ctx 0
          c.sqEntries = k.ctx0SqEntries.toNat ∧ c.cqEntries = k.ctx0CqEntries.toNat ∧ c.sqHead = 0 ∧ c.cqHead = 0 ∧
          c.cqTail = 0 ∧ c.acceptSeq = 0xFFFFFFFF ∧ c.initialSeq = 0 ∧ c.seqErr = false ∧ c.cqErr = false ∧ c.dup = 0 ∧
          (k.ctx0Active = true ∨ (s.ctx 0).sqTail = 0 → c.sqTail = 0 ∧ c.dbErr = false) ∧
          (k.ctx0Active = false → 0 < (s.ctx 0).sqTail.toNat → (s.ctx 0).sqTail.toNat ≤ c.sqEntries →
            c.sqTail = (s.ctx 0).sqTail)) ∧
        (¬ok → t.collar = { k with ctx0CfgErr := true } ∧ t.ctxs = s.ctxs ∧ t.journal = s.journal))

/-- R397, R418: LIN_ENROL_CMD with GO, from a session of the role that its TABLE names. A valid key goes into its slot
and DONE is set; removing empties the slot. Sessions that a key that goes had opened are closed, and no others; a
key that is no point, or a slot out of range, sets ERR and changes no table. R396, R397: a challenge of a role and
endpoint closes once 60,000,000,000 ticks have passed since it was made, and an endpoint's lockout ends
1,000,000,000 ticks after its eighth failure; those of others stay, and nothing else changes. -/
def Obligations.KeysAndChallenges : Prop :=
  (∀ (src : Source) (v : W32) (s : State),
    let table := v.toNat % 4
    let i := v.toNat / 4 % 32
    let key := s.lining.enrolBuf.take 97
    let slots := fun (t : State) => if table = 0 then t.lining.opKeys else if table = 1 then t.lining.anchors
      else t.lining.instKeys
    let closes := fun (x : Session) => (table = 0 ∧ x.role = 2 ∨ table = 2 ∧ x.role = 1) ∧ x.key = i
    let good := fun (row : Instr) (k : Option (List (BitVec 8))) => ∃ t, exec row s = .next t ∧ SameBut [.lining] s t ∧
      slots t = (slots s).set i k ∧ t.lining.enrolDone = true ∧ t.lining.enrolErr = s.lining.enrolErr ∧
      t.lining.sessions.length = s.lining.sessions.length ∧
      (∀ (n : Nat) (x : Session), s.lining.sessions[n]? = some (some x) →
        (closes x → t.lining.sessions[n]? = some none) ∧ (¬closes x → t.lining.sessions[n]? = some (some x))) ∧
      s.lining.audit.length < t.lining.audit.length
    table < 3 → v.getLsbD 8 = true → s.srcRole src (enrolRole table) = true →
    s.auditRoomFor (s.enrolEntries table i (v.getLsbD 7)) = true →
    (v.getLsbD 7 = false → i < enrolSlots table → (p384Point key).isSome = true → good (.enrol src v) (some key)) ∧
    (v.getLsbD 7 = true → i < enrolSlots table → good (.enrolRemove src v) none) ∧
    (enrolSlots table ≤ i ∨ (v.getLsbD 7 = false ∧ p384Point key = none) → ∃ t, exec (.enrol src v) s = .next t ∧
      SameBut [.lining] s t ∧ t.lining.enrolErr = true ∧ slots t = slots s ∧ t.lining.sessions = s.lining.sessions)) ∧
  (∀ (ep role : Nat) (s : State),
    (∃ t, exec (.challengeExpiry ep role) s = .next t ∧ SameBut [.lining] s t ∧
      (∀ c, c ∈ t.lining.challenges ↔ c ∈ s.lining.challenges ∧
        ¬(c.role = role ∧ c.endpoint = ep ∧ c.t.toNat + 60000000000 ≤ s.tb.now.toNat)) ∧
      t.lining.failures = s.lining.failures ∧ t.lining.sessions = s.lining.sessions) ∧
    (∃ t, exec (.authLockoutEnd ep) s = .next t ∧ SameBut [.lining] s t ∧
      (∀ f, f ∈ t.lining.failures ↔ f ∈ s.lining.failures ∧
        ¬(f.1 = ep ∧ ∃ k, f.2.2 = some k ∧ k + 1000000000 ≤ s.tb.now.toNat)) ∧
      t.lining.challenges = s.lining.challenges ∧ t.lining.sessions = s.lining.sessions))

/-! ## Rounds between engines: the commands (08_ryround_exchange) -/

namespace Sys2Proof.Claims

/-- What a command of a round touches as it completes: its entry, its chain, its array and vector steps, and the account of
what it moved. -/
def roundParts : List Part := [.seams, .mem, .journal, .cores, .fabric, .chains, .counters, .belt]

end Sys2Proof.Claims

/-- R189, R190, R191, R192: RY_ROUND_OPEN and PRIMARY RY_CONTRIBUTE. A round that nothing stands in the way of opens
in the ready phase; both commands are at work until this position leaves it (that they complete then is the model's
reading, log 43): with OK or BACKUP_TAKEN in the data phase, with ROUND_ABORTED where the round has ended. R373: where a
port of the round fails while they wait, they end with UNIT_ABSENT. -/
def Obligations.RoundsBegin : Prop :=
  ∀ (n : Nat) (q : W32) (s : State) (e : Entry) (d : RyDesc) (k : Nat) (g : RyGroup),
    (Runs s .ryRoundOpen n q e → e.clean [(0x10, 0, 64)] = true →
      (e.working = false → s.roundDesc e = .ok d → (∀ h, smGet? s.groups d.group = some h → h.isOpen = false) →
        (s.openRound e d).1 = [] → ∃ t h x, exec (.ryRoundOpen n q) s = .next t ∧
          SameBut [.mem, .journal, .fabric, .groups, .counters, .trace] s t ∧ OthersKept s t e ∧
          smGet? t.groups d.group = some h ∧ h.isOpen = true ∧ h.phase = .ready ∧ h.settled = none ∧ h.d = d ∧
          h.ctx = e.ctx ∧ h.openId = e.id ∧ h.tOpen = s.stamp ∧ h.finals = [] ∧ h.window = [] ∧
          t.entryAt e.id = some x ∧ x.working = true ∧ x.decided = false) ∧
      (e.working = true → s.groups.find? (fun x => x.2.openId == e.id) = some (k, g) →
        (g.phase = .ready → g.isOpen = true → s.portGone g.d.ports = false → exec (.ryRoundOpen n q) s = .next s) ∧
        (g.phase = .ready → g.isOpen = true → s.portGone g.d.ports = true → ∃ t, exec (.ryRoundOpen n q) s = .next t ∧
          Ended t e Status.unitAbsent 0) ∧
        (g.phase = .data → ∃ t, exec (.ryRoundOpen n q) s = .next t ∧
          SameBut [.seams, .mem, .journal, .fabric, .chains] s t ∧ Ended t e Status.ok (BitVec.ofNat 32 g.d.size)) ∧
        (g.phase = .aborted → ∃ t, exec (.ryRoundOpen n q) s = .next t ∧
          SameBut [.seams, .mem, .journal, .fabric, .chains] s t ∧
          Ended t e Status.roundAborted (BitVec.ofNat 32 g.d.size)))) ∧
    (Runs s .ryContribute n q e → e.clean [(0x10, 0, 5)] = true → (e.field 0x10 1).testBit 4 = false →
      s.openGroup e = some (k, g) →
      (g.primary = none → g.given.getLsbD 0 = false → g.phase = .ready →
        s.bufferWait e ((s.ryBuffers e g.tensors RyTensor.buffer false).map (fun b => b.head)) = false →
        s.bufIssues e g.d.ports (s.ryBuffers e g.tensors RyTensor.buffer false) = [] → g.settled = none →
        s.stamp.toNat < g.d.deadline.toNat → ∃ t h x, exec (.ryContribute n q) s = .next t ∧
          smGet? t.groups k = some h ∧ h.primary = some e.seq ∧ h.given.getLsbD 0 = true ∧ h.settled = some 0 ∧
          h.phase = .ready ∧ t.entryAt e.id = some x ∧ x.working = true ∧ x.decided = false) ∧
      (g.primary = some e.seq → g.phase = .ready → s.portGone g.d.ports = false →
        exec (.ryContribute n q) s = .next s) ∧
      (g.primary = some e.seq → g.phase = .ready → s.portGone g.d.ports = true →
        ∃ t, exec (.ryContribute n q) s = .next t ∧ SameBut (.groups :: roundParts) s t ∧
          Ended t e Status.unitAbsent 0) ∧
      (g.primary = some e.seq → g.phase = .data → ∃ t, exec (.ryContribute n q) s = .next t ∧ SameBut roundParts s t ∧
        (g.settled = some 1 → Ended t e Status.backupTaken 1) ∧
        (g.settled ≠ some 1 → Ended t e Status.ok (BitVec.ofNat 32 (g.settled.getD 0)))) ∧
      (g.primary = some e.seq → g.phase = .aborted → ∃ t, exec (.ryContribute n q) s = .next t ∧ SameBut roundParts s t ∧
        Ended t e Status.roundAborted (BitVec.ofNat 32 (g.settled.getD 2))))

/-- R186, R195, R201, R203, R205: RY_HOP, RY_OWN, RY_ROUND_CLOSE and RY_PARAM_RECV. A hop completes when every shard
but its own has gone on, an owner when its shard's sums and norms are whole, each with the blocks that escalated as
RESULT; either waits while its blocks cannot be sent or have not come (R199), ends with UNIT_ABSENT where a port of its
round has failed meanwhile (R373), and completes with ROUND_ABORTED where the round has been aborted (R191). A close that commits ends the round, with ROUND_ABORTED in the ready phase, and a parameter
lap commits when its streams are whole. The model's choices in it: log 45 (a close in the ready phase). -/
def Obligations.RoundsEnd : Prop :=
  ∀ (n : Nat) (q : W32) (s : State) (e : Entry) (k : Nat) (g : RyGroup),
    (Runs s .ryHop n q e → e.clean [(0x10, 0, 4)] = true → s.openGroup e = some (k, g) → g.hop = some e.seq →
      (g.phase = .data → g.inbox = [] → g.started = g.count g.first →
        (∀ j m, g.up.expects g.incoming = some (j, m) → j = g.d.position) →
        ∃ t x, exec (.ryHop n q []) s = .next t ∧ SameBut (frameOf (.ryHop n q [])) s t ∧ t.entryAt e.id = some x ∧
          x.decided = true ∧ x.result = (resultCount g.n.escHere).1 ∧
          (0 < g.n.escHere → Status.escalated ∈ x.notes) ∧ (g.hopBackup = true → Status.backupTaken ∈ x.notes) ∧
          x.status = x.finalStatus Status.ok) ∧
      (g.phase = .data → g.inbox = [] → g.own = none → g.started < g.count g.first → 256 ≤ g.window.length →
        (s.portGone g.d.ports = false → exec (.ryHop n q []) s = .next s) ∧
        (s.portGone g.d.ports = true → ∃ t, exec (.ryHop n q []) s = .next t ∧ SameBut (.groups :: roundParts) s t ∧
          Ended t e Status.unitAbsent 0)) ∧
      (g.phase = .aborted → ∃ t, exec (.ryHop n q []) s = .next t ∧ SameBut roundParts s t ∧
        Ended t e Status.roundAborted 0)) ∧
    (Runs s .ryOwn n q e → e.clean [(0x10, 0, 4)] = true → s.openGroup e = some (k, g) → g.own = some e.seq →
      (g.phase = .data → g.inbox = [] → (g.hop = none ∨ g.count g.first ≤ g.started) →
        g.finals.length = g.count g.d.position →
        (∀ (m : Nat) (x : RyTensor), g.tensors[m]? = some x → x.norm ≠ 0 → m ∈ g.normDone) →
        ∃ t x, exec (.ryOwn n q) s = .next t ∧ t.entryAt e.id = some x ∧ x.decided = true ∧
          x.result = (resultCount g.n.escFinal).1 ∧ (g.ownBackup = true → Status.backupTaken ∈ x.notes) ∧
          x.status = x.finalStatus Status.ok ∧
          ∀ c, s.chainOf e = some c → ∃ c', t.chain? c.ctx c.seq = some c' ∧
            c'.gvals = g.values.1.map (fun r => r.map (BitVec.ofNat 32))) ∧
      (g.phase = .data → g.inbox = [] → (g.hop = none ∨ g.count g.first ≤ g.started) →
        g.finals.length ≠ g.count g.d.position →
        (s.portGone g.d.ports = false → exec (.ryOwn n q) s = .next s) ∧
        (s.portGone g.d.ports = true → ∃ t, exec (.ryOwn n q) s = .next t ∧ SameBut (.groups :: roundParts) s t ∧
          Ended t e Status.unitAbsent 0)) ∧
      (g.phase = .aborted → ∃ t, exec (.ryOwn n q) s = .next t ∧ SameBut roundParts s t ∧
        Ended t e Status.roundAborted 0)) ∧
    (Runs s .ryRoundClose n q e → e.clean [(0x10, 0, 4), (0x10, 5, 1)] = true → s.openGroup e = some (k, g) →
      (∀ st ∈ e.notes, Status.completed st = true) → ∀ d,
      (let u := if g.phase = .ready then s.abortRound k g 3 else s
       roundClosePlan (u.viewFor e) e = .done d ∧ u.commitRoom e d = true) →
      ∃ t x h, exec (.ryRoundClose n q) s = .next t ∧ t.entryAt e.id = some x ∧ x.decided = true ∧ x.result = d.result ∧
        (g.phase ≠ .data → x.status = Status.roundAborted) ∧ x.commit = d.commit ∧
        smGet? t.groups k = some h ∧ h.isOpen = false ∧ h.closeId = some e.id ∧ h.tensors = g.tensors ∧
        (g.phase = .ready → h.phase = .aborted ∧ h.why = 3)) ∧
    (Runs s .ryParamRecv n q e → (∀ st ∈ e.notes, Status.completed st = true) → s.lapBegin e = none →
      ∀ d, ryParamRecvPlan (s.viewFor e) e = .done d →
      s.commitRoom e d = true → ∃ t x, exec (.ryParamRecv n q) s = .next t ∧ SameBut workParts s t ∧
        t.entryAt e.id = some x ∧ x.decided = true ∧ x.result = d.result ∧ x.wrote = d.runs ∧ x.commit = d.commit ∧
        ((s.ctx e.ctx).bounce = none → LinksInCores s e →
          ∀ a, ¬Written d a → ¬Logged s a → memGet t.mem a = memGet s.mem a))

/-! ## Resets of parts, recovery and firmware (15_reliability_and_recovery, 17_ports_and_bringup) -/

/-- R381, R383, R384: a Collar soft reset and the recovery that follows it. The reset stops the Collar, releases every
queue and discards the work in flight; accepted commands are untouched, and one that had dispatched and has no record
is to carry REPLAYED. Recovery makes the Collar ready. From a journal whose lines all stand (R375) it finds each open
context's last accepted command, behind which packets are fetched again; accepted commands are as they were, and
dispatched ones without an outcome are there to run again, with no version slot taken. R268, R437:
FW_COMMIT. REVERT drops the staged image; COMMIT waits until every earlier command of context 0 has completed, then
runs the staged image through a Collar soft reset, and its record is left to recovery. Where there is no staged image
then, it is MALFORMED. The model's choices in it: logs 80 and 82 (what keeps its outcome, REPLAYED). -/
def Obligations.CollarRecovers : Prop :=
  (∀ (cause : SoftCause) (s : State), Numbered s →
    (s.ready.collar = false → exec (.collarSoftReset cause) s = .next s) ∧
    (s.ready.collar = true → ∃ t, exec (.collarSoftReset cause) s = .next t ∧
      SameBut (frameOf (.collarSoftReset cause)) s t ∧ t.ready = { s.ready with collar := false } ∧
      t.boot = { s.boot with stage := .measuring } ∧ t.lining = { s.lining with measured := false } ∧
      (∀ u ∈ t.cores, u.2.queues = []) ∧ (∀ a, ¬Logged s a → memGet t.mem a = memGet s.mem a) ∧
      t.journal.entries.length = s.journal.entries.length ∧
      ∀ e ∈ s.journal.entries, (e.state = .accepted ∨ e.state = .completed → e ∈ t.journal.entries) ∧
        (e.dispatchedOnce = true → e.live = true → e.state ≠ .accepted → ∃ x ∈ t.journal.entries, x.id = e.id ∧
          x.replayed = true ∧ x.state = e.state ∧ x.decided = e.decided ∧ x.packet = e.packet)) ∧
    (s.inReset = false → s.pins.warmResetN = true → s.boot.stage = .measuring → s.ready.lining = true →
      s.journalReady = true → ∃ t, exec .recovery s = .next t ∧ SameBut (frameOf .recovery) s t ∧
        t.ready.collar = true ∧ t.boot.stage = .running ∧ t.boot.commitBy = none ∧ t.lining.measured = true ∧
        t.collar.fault.getLsbD FaultBit.recovered.pos = true ∧
        (∀ n, (t.ctx n).state = (s.ctx n).state ∧ ((s.ctx n).state ≠ .closed →
          (t.ctx n).sqHead = (t.ctx n).acceptHead ∧ (t.ctx n).dup = 0)) ∧
        ((∀ e ∈ s.journal.entries, s.entryPresent e = true) →
          (∀ x ∈ s.journal.entries, x.journalled = true → (s.ctx x.ctx).state ≠ .closed →
            (∀ y ∈ s.journal.entries, y.journalled = true → y.ctx = x.ctx → y.id ≤ x.id) →
            (t.ctx x.ctx).acceptSeq = x.seq ∧ (t.ctx x.ctx).sqHead = x.sqCount) ∧
        ∀ e ∈ s.journal.entries, (e.state = .accepted → { e with taken := [] } ∈ t.journal.entries) ∧
          (e.state = .dispatched → e.decided = false →
            (s.boot.commitBy = some (e.ctx, e.seq) → ∃ x ∈ t.journal.entries, x.id = e.id ∧ x.decided = true ∧
              x.status = e.finalStatus Status.ok) ∧
            (s.boot.commitBy ≠ some (e.ctx, e.seq) → e.op = some .attest → ∃ x ∈ t.journal.entries, x.id = e.id ∧
              x.decided = true ∧ x.status = e.finalStatus Status.notReady) ∧
            (s.boot.commitBy ≠ some (e.ctx, e.seq) → e.op ≠ some .attest →
              { e with taken := [] } ∈ t.journal.entries))))) ∧
  (∀ (n : Nat) (q : W32) (s : State) (e : Entry), Runs s .fwCommit n q e →
    let first := ∀ x ∈ s.entriesOf 0, x.id < e.id → x.live = false
    (e.clean [(0x10, 0, 1)] = false ∨ (s.boot.fwStaged = none ∧ ((e.field 0x10 1).testBit 0 = true ∨ first)) →
      ∃ t, exec (.fwCommit n q) s = .next t ∧ SameBut [.mem, .journal, .fabric] s t ∧ Ended t e Status.malformed 0) ∧
    (e.clean [(0x10, 0, 1)] = true → (e.field 0x10 1).testBit 0 = false → ¬first → exec (.fwCommit n q) s = .next s) ∧
    (∀ body, s.boot.fwStaged = some body → e.clean [(0x10, 0, 1)] = true →
      ((e.field 0x10 1).testBit 0 = true → ∃ t, exec (.fwCommit n q) s = .next t ∧
        SameBut [.mem, .journal, .fabric, .boot, .lining] s t ∧ t.boot = { s.boot with fwStaged := none } ∧
        Ended t e Status.ok 0) ∧
      ((e.field 0x10 1).testBit 0 = false → first →
        ∃ t x, exec (.fwCommit n q) s = .next t ∧ SameBut (frameOf (.fwCommit n q)) s t ∧
          t.boot.fwRunning = body ∧ t.boot.fwRunningDigest = digest384 body ∧ t.boot.fwStaged = none ∧
          t.boot.commitBy = some (e.ctx, e.seq) ∧ t.boot.stage = .measuring ∧ t.ready.collar = false ∧
          t.entryAt e.id = some x ∧ x.decided = false)))

/-- R371: a fault of a sleeve. It is counted, the sleeve's queues, blocks, Hems and lines are dropped, and at first
the sleeve is checked again, the commands at work on it retried with FAULT_RETRIED, and no memory changes. At the
second during one command, whatever hit the sleeve between, the sleeve and its cores are gone for good; a command without
a core left completes with UNIT_ABSENT, and the others run again on the cores that are left. The model's choices in it:
logs 79 and 81 (deduced). -/
def Obligations.SleevesFault : Prop :=
  ∀ (k : Nat) (cause : SleeveCause) (s : State), k < 16 → s.shapeOk → Numbered s → s.ready.collar = true →
    s.caps.sleeves.getLsbD k = true →
    let stays := fun (e : Entry) => if e.op = some .mmSafe
      then s.corePresent (e.field 0x27 1 % 128) = true ∧ e.field 0x27 1 % 128 / 8 ≠ k
      else ∃ c ∈ s.placed e.ctx, c / 8 ≠ k
    ∃ t, exec (.sleeveFault k cause) s = .next t ∧ SameBut (frameOf (.sleeveFault k cause)) s t ∧
      (t.sleeve k).faults = (s.sleeve k).faults + 1 ∧
      (t.fabric.cache k).l2 = [] ∧ (t.fabric.cache k).xlate = [] ∧
      (∀ u ∈ t.cores, u.1 / 8 = k → u.2.queues = [] ∧ u.2.stage = [] ∧ u.2.hem = [] ∧ u.2.held = none) ∧
      ((∀ e ∈ s.atWorkOn k, ∀ h ∈ (s.sleeve k).hit, h.1 ≠ e.id) →
        (∀ a, ¬Logged s a → memGet t.mem a = memGet s.mem a) ∧ t.caps = s.caps ∧ t.boot.checking.getLsbD k = true ∧
        t.ready.sleeves.getLsbD k = false ∧ ∀ e ∈ s.atWorkOn k, ∃ x ∈ t.journal.entries, x.id = e.id ∧
          x.decided = false ∧ x.working = false ∧ x.faults = 1 ∧ Status.faultRetried ∈ x.notes) ∧
      ((∃ e ∈ s.atWorkOn k, ∃ h ∈ (s.sleeve k).hit, h.1 = e.id) → t.caps.sleeves = s.caps.sleeves &&& ~~~(1#16 <<< k) ∧
        (∀ i, i < 8 → t.caps.cores.getLsbD (8 * k + i) = false) ∧
        (∀ c, c / 8 ≠ k → t.caps.cores.getLsbD c = s.caps.cores.getLsbD c) ∧ t.ready.sleeves.getLsbD k = false ∧
        ((∀ e ∈ s.atWorkOn k, stays e) → ∀ a, ¬Logged s a → memGet t.mem a = memGet s.mem a) ∧
        ∀ e ∈ s.atWorkOn k, ∃ x ∈ t.journal.entries, x.id = e.id ∧ x.working = false ∧ x.retiredFlag = true ∧
          Status.coreRetired ∈ x.notes ∧ (stays e → x.decided = false) ∧
          (¬stays e → x.decided = true ∧ x.status = e.finalStatus Status.unitAbsent ∧ x.result = 0))

/-! ## What no row stores to -/

namespace Sys2Proof.Claims

/-- The rows whose commands and events store no byte in memory of their own accord. -/
def storesNothing : Instr → Bool
  | .meteringInterval _ | .tripEnd | .seamEqualiseDone _ _ _ | .keyx _ _ _ | .queueGrant _
  | .nop _ _ | .fence _ _ | .signal _ _ | .wait _ _ | .chain _ _ | .streamDefine _ _ | .prefetch _ _
  | .multicast _ _ _ | .versionRelease _ _ | .ryRoundOpen _ _ | .ryParamSend _ _ | .schedLoad _ _ | .energyMark _ _
  | .powerReserve _ _ | .profileLoad _ _ | .fwStage _ _ | .fwCommit _ _ | .traceCtl _ _ | .traceTrigger _ _
  | .ctxCqHeadWrite _ _ _ | .colRetireReq _ _ | .colLossClear _ _ | .colCtx0Apply _ _ | .registerWrite _ _ _
  | .collarSoftReset _ | .stackTrainingDone _ _ _ _ _ _ | .stackAccessReturn _ _ _ _
  | .stackUnrecoverableCondition _ => true
  | _ => false

/-- The row is a sleeve's self-check. -/
def isSelfCheck : Instr → Bool
  | .selfCheck _ _ _ _ => true
  | _ => false

/-- The extent that a row's command stores to at most, as its packet names it: virtual address and bytes. -/
def storesAt : Instr → Entry → Option (Op × Nat × W32 × Nat × Nat)
  | .govRead n q, e => some (.govRead, n, q, e.field 0x18 8, 704)
  | .receiptIssue n q, e => some (.receiptIssue, n, q, e.field 0x18 8, 256)
  | .attest n q, e => some (.attest, n, q, e.field 0x10 8, 768)
  | .roleSession n q, e => some (.roleSession, n, q, e.field 0x18 8, 128)
  | _, _ => none

end Sys2Proof.Claims

/-- The frame of memory for the rows that `EveryRowKeepsItsFrame` gives memory to only because the engine writes its
journal and its trace (R374, R449): no other byte of memory changes. And the rows that store one structure, at the
address that their packet names, change no byte outside its extent (R244, R263, R266, R267, R396). A self-check that
leaves every command at work a core changes no memory either (R371). -/
def Obligations.NothingElseStored : Prop :=
  (∀ (i : Instr) (s t : State), storesNothing i = true → exec i s = .next t →
    ∀ a, ¬Logged s a → memGet t.mem a = memGet s.mem a) ∧
  (∀ (i : Instr) (s t : State), isSelfCheck i = true → exec i s = .next t →
    (∀ e ∈ s.journal.entries, e.inWork = true → t.noCoreLeft e = false) →
    ∀ a, ¬Logged s a → memGet t.mem a = memGet s.mem a) ∧
  (∀ (i : Instr) (op : Op) (n : Nat) (q : W32) (va len : Nat) (s t : State) (e : Entry) (rs : List Run),
    storesAt i e = some (op, n, q, va, len) → s.runnable op n q = some e → (s.ctx e.ctx).bounce = none →
    exec i s = .next t → s.resolve e.ctx va len true = .ok rs →
    ∀ a, ¬InRuns rs a → ¬Logged s a → memGet t.mem a = memGet s.mem a)

/-! ## Commands that need no core, each in its own terms (06, 10_opcode_reference, 12 to 16, 18) -/

namespace Sys2Proof.Claims

/-- A row completes with OK and this RESULT, within these parts, in a machine of which P holds. -/
def Completes (i : Instr) (parts : List Part) (s : State) (e : Entry) (r : W32) (P : State → Prop) : Prop :=
  ∃ t, exec i s = .next t ∧ SameBut parts s t ∧ Ended t e Status.ok r ∧ P t

/-- Memory with bytes written over some runs, and nothing else changed. -/
def Stored (s t : State) (rs : List Run) (bs : List (BitVec 8)) : Prop :=
  t.mem = (splitRuns rs bs).foldl (fun m w => memPut m w.1 w.2) s.mem

end Sys2Proof.Claims

/-- R246, R278, R285, R286: explicit streams. STREAM_DEFINE makes the stream of its block list active, within the
context's quota and 16,384 descriptors in all on every sleeve, and with RELEASE takes it away once no earlier command
of the context that names it is left. A PREFETCH moves the run-ahead point of its level by the blocks that it fetched,
and RESULT counts them over the units that received them, once no line of them is on its way for the context (R282); a
MULTICAST delivers from block 0 on, and RESULT counts the receivers that were detached: those that the row names as slow,
from the first block on that an attached receiver's work is waiting for while they hold 8. Both wait for their
queues. The model's choices in it: log 36 (deduced). -/
def Obligations.StreamsDefinedAndFetched : Prop :=
  ∀ (n : Nat) (q : W32) (s : State) (e : Entry) (x : Stream),
    let c := s.ctx e.ctx
    let num := e.streamNo
    let r : W32 := BitVec.ofNat 32 num
    (Runs s .streamDefine n q e → e.clean [(0x10, 0, 16), (0x12, 0, 1), (0x18, 0, 64)] = true →
      ((e.field 0x12 1).testBit 0 = false → c.stream? num = none → s.sleeveIssues e.ctx = [] →
        (s.asRead e).readStream e.ctx num (e.field 0x18 8) = .ok x → s.sealIssues e.ctx [] [] (s.structRuns e) = [] →
        (∀ k, k < 16 → x.active.getLsbD k = true → c.streamsOn k < c.streamQuota ∧ s.streamsOn k < 16384) →
        Completes (.streamDefine n q) [.seams, .mem, .ctxs, .journal, .fabric, .chains] s e r (fun t =>
          t.ctx e.ctx = { c with streams := c.streams ++ [x] } ∧ ∀ k, k ≠ e.ctx → t.ctx k = s.ctx k)) ∧
      ((e.field 0x12 1).testBit 0 = true → e.field 0x18 8 = 0 → c.stream? num = some x →
        (s.streamBusy e = true → exec (.streamDefine n q) s = .next s) ∧
        (s.streamBusy e = false → s.sleeveIssues e.ctx = [] →
          Completes (.streamDefine n q) [.seams, .mem, .ctxs, .journal, .fabric, .chains] s e r (fun t =>
          t.ctx e.ctx = { c with streams := c.streams.filter (fun y => y.num != num) } ∧
          (t.ctx e.ctx).stream? num = none ∧ ∀ k, k ≠ e.ctx → t.ctx k = s.ctx k)))) ∧
    (Runs s .prefetch n q e → e.clean [(0x10, 0, 16), (0x12, 0, 1), (0x14, 0, 32)] = true → c.stream? num = some x →
      s.coreIssues e.ctx = [] → s.mayWork .prefetch e = true →
      let level1 := (e.field 0x12 1).testBit 0
      let at_ := if level1 then x.point1 else x.point0
      let left := x.blocks - at_
      let want := if e.field 0x14 4 = 0 then left else min left (e.field 0x14 4)
      let blocks := (s.fetchable e.ctx x want at_).1
      let got := blocks.length
      let homes := (coreList x.home).filter s.coreReady
      let sleeves := x.activeOn.filter (fun k => s.ready.sleeves.getLsbD k)
      let units := if level1 then homes.length else sleeves.length
      let busy := blocks.any (fun b =>
        (if level1 then sleevesOf homes else sleeves).any (fun k => s.inFlight k e.ctx b.2))
      (busy = true → exec (.prefetch n q) s = .next s) ∧
      (busy = false → s.hasStarted .prefetch e = true →
        Completes (.prefetch n q) (frameOf (.prefetch n q)) s e (BitVec.ofNat 32 (min (got * units) 0xFFFFFFFF)) (fun t =>
          (t.ctx e.ctx).stream? num =
            some (if level1 then { x with point1 := at_ + got } else { x with point0 := at_ + got }) ∧
          ∀ k, k ≠ e.ctx → t.ctx k = s.ctx k))) ∧
    (∀ detached, Runs s .multicast n q e → e.clean [(0x10, 0, 16), (0x18, 0, 64), (0x20, 0, 64)] = true →
      c.stream? num = some x → e.receivers ≠ 0 → e.receivers &&& ~~~c.placement = 0 →
      (∀ k ∈ coreList e.receivers, s.corePresent k = true ∧ s.coreReady k = true) → s.mayWork .multicast e = true →
      s.hasStarted .multicast e = true →
      let cores := coreList e.receivers
      let blocks := (s.fetchable e.ctx x x.blocks 0).1
      let wants := fun (k b : Nat) => (blocks.lookup b).any (fun rs => s.wantsRuns e k rs)
      let cut := cores.filter (fun k => ((detachFrom wants blocks.length 0 cores detached).lookup k).isSome)
      Completes (.multicast n q detached) (frameOf (.multicast n q detached)) s e (BitVec.ofNat 32 cut.length)
        (fun t => t.ctxs = s.ctxs))

/-- R341, R356, R357, R358, R266: ENERGY_MARK begins a job, whose members so far are the commands behind it that
have completed already (R241), and ends it; POWER_RESERVE gives a context its reservation,
within half of the cap and four holders, or takes it away, and no other context's changes; RECEIPT_ISSUE writes a
signed receipt of 256 bytes at DEST, counts it, and a job whose receipt is written is forgotten. The model's choices
in it: logs 59 and 60 (deduced). -/
def Obligations.EnergyAndPowerCommands : Prop :=
  ∀ (n : Nat) (q : W32) (s : State) (e : Entry),
    let c := s.ctx e.ctx
    let job : W32 := BitVec.ofNat 32 (e.field 0x10 4)
    (Runs s .energyMark n q e → e.clean [(0x10, 0, 32), (0x14, 0, 1)] = true →
      ((e.field 0x14 1).testBit 0 = false → c.jobs.length < 16 → (∀ j ∈ c.jobs, j.id ≠ job) →
        let behind := fun (x : Entry) => x ∈ s.entriesOf e.ctx ∧ e.id < x.id ∧ (x.state = .completed ∨ x.state = .released)
        Completes (.energyMark n q) [.mem, .ctxs, .journal, .fabric, .chains] s e 0 (fun t =>
          (∃ k last, t.ctx e.ctx = { c with jobs := c.jobs ++ [Job.mk job e.seq none false Energy.zero k last] } ∧
            (k = 0 ↔ ∀ x, ¬behind x) ∧ (k = 0 → last = 0) ∧ ∀ x, behind x → x.tRecord.toNat ≤ last.toNat) ∧
          ∀ k, k ≠ e.ctx → t.ctx k = s.ctx k)) ∧
      (∀ j, (e.field 0x14 1).testBit 0 = true → c.jobs.find? (fun j => j.id == job) = some j → j.ended = false →
        (∀ x ∈ s.entriesOf e.ctx, x.live = true → ({ j with endSeq := some e.seq } : Job).covers x.seq = false) →
        (j.members = 0 ∨ j.lastDone.toNat < s.belt.lastInterval) →
        Completes (.energyMark n q) [.mem, .ctxs, .journal, .fabric, .chains] s e 0 (fun t =>
          (t.ctx e.ctx).jobs.find? (fun j => j.id == job) = some { j with endSeq := some e.seq, ended := true } ∧
          (t.ctx e.ctx).jobs.length = c.jobs.length ∧ ∀ k, k ≠ e.ctx → t.ctx k = s.ctx k))) ∧
    (Runs s .powerReserve n q e → e.clean [(0x10, 0, 10), (0x12, 0, 1), (0x14, 0, 7), (0x18, 0, 16)] = true →
      let m := e.field 0x10 2
      let ramp := bitsOf (e.field 0x14 1) 0 7
      let watts := e.field 0x18 2
      let held := ((s.belt.resvOf m).map (fun r => r.watts)).getD 0
      let done := fun (r : Option Reservation) => ∃ t, exec (.powerReserve n q) s = .next t ∧
        SameBut [.mem, .journal, .fabric, .chains, .belt, .lining] s t ∧ t.belt.resvOf m = r ∧
        (∀ k, k ≠ m → t.belt.resvOf k = s.belt.resvOf k) ∧ t.belt = { s.belt with resv := t.belt.resv } ∧
        Ended t e Status.ok (BitVec.ofNat 32 (t.belt.resv.filterMap id).length)
      ((e.field 0x12 1).testBit 0 = false → (s.ctx m).state = .opened → watts ≠ 0 →
        (ramp = 0 ∨ (ramp % 8 = 0 ∧ 16 ≤ ramp ∧ ramp ≤ 96)) →
          2 * (s.belt.reserved - held + watts) ≤ s.belt.powerCap.toNat →
        (s.belt.resvOf m ≠ none ∨ none ∈ s.belt.resv) →
          done (some (Reservation.mk m (if ramp = 0 then 48 else ramp) watts))) ∧
      ((e.field 0x12 1).testBit 0 = true → done none)) ∧
    (∀ k a rs, Runs s .receiptIssue n q e → e.clean [(0x10, 0, 1), (0x14, 0, 32), (0x18, 0, 64), (0x20, 0, 32)] = true →
      e.field 0x18 8 ≠ 0 → 256 ≤ e.field 0x20 4 → s.ready.lining = true →
      let byJob := (e.field 0x10 1).testBit 0
      let id : W32 := BitVec.ofNat 32 (e.field 0x14 4)
      let body := receiptBytes byJob.toNat e.ctx id.toNat k (s.belt.receipts + 1).toNat
        (bootHash s.lining.bootNonce) (deviceId s.rootOf) a
      s.covered e byJob id = .account k a → s.resolve e.ctx (e.field 0x18 8) 256 true = .ok rs →
      s.sealIssues e.ctx [] rs [] = [] → c.bounce = none → Quiet s →
      Completes (.receiptIssue n q) (frameOf (.receiptIssue n q)) s e 256 (fun t =>
        t.belt = { s.belt with receipts := s.belt.receipts + 1 } ∧
        Stored s t rs (body ++ signBytes (dikPrivate s.rootOf) body) ∧
        (t.ctx e.ctx).jobs = (if byJob then c.jobs.filter (fun j => j.id != id) else c.jobs)))

/-- R263, R264, R327 to R329: SCHED_LOAD keeps a schedule under its number with the digest of its image, and RESULT is
its slots; SCHED_ARM arms a loaded schedule whose image still has that digest, from a START that leaves 10,000 ticks,
and disarms. R143, R148: a GOV_BOUNDS puts its ladder into effect, at once where its role has none and else at the
next step; GOV_READ writes the last step's record and ladder at DEST; GOV_STEP closes the step once every earlier command that
names a layer is completing, in the other epoch of the region, and RESULT counts its ledger records. The model's
choices in it: logs 50, 53 and 54 (deduced). -/
def Obligations.SchedulesAndLadders : Prop :=
  ∀ (n : Nat) (q : W32) (s : State) (e : Entry),
    let c := s.ctx e.ctx
    let num := e.field 0x10 1
    let parts : List Part := [.seams, .mem, .ctxs, .journal, .fabric, .chains]
    let others := fun (t : State) => ∀ k, k ≠ e.ctx → t.ctx k = s.ctx k
    (∀ rs, Runs s .schedLoad n q e → e.clean [(0x10, 0, 8), (0x18, 0, 64), (0x20, 0, 64)] = true →
      (∀ a, c.armed = some a → a.num ≠ num) →
      let bytes := e.field 0x20 8
      let b := (s.asRead e).readRuns rs
      let slots := fieldOf b 4 4
      e.field 0x18 8 ≠ 0 → e.field 0x18 8 % 64 = 0 → 80 ≤ bytes → bytes ≤ 2 ^ 48 →
      s.resolve e.ctx (e.field 0x18 8) bytes false = .ok rs → inStacks rs = true → 64 + 16 * slots ≤ bytes →
      schedHeadOk b (fieldOf b (64 + 16 * (slots - 1)) 6) = true → imageSlotsOk slots 0 (b.drop 64) = true →
      s.sealIssues e.ctx [] [] rs = [] →
        Completes (.schedLoad n q) parts s e (BitVec.ofNat 32 slots) (fun t => others t ∧
        ∃ x, t.ctx e.ctx = { c with schedules := c.schedules.filter (fun y => y.num != num) ++ [x] } ∧
          x.num = num ∧ x.bytes = bytes ∧ x.slots = slots ∧ x.firstSeq = BitVec.ofNat 32 (fieldOf b 8 4) ∧
          x.repeats = fieldOf b 0xC 4 ∧ x.period = fieldOf b 0x10 8 ∧ x.digest = digest384 b)) ∧
    (Runs s .schedArm n q e →
      (∀ x rs, e.clean [(0x10, 0, 8), (0x11, 0, 1), (0x18, 0, 64)] = true → (e.field 0x11 1).testBit 0 = false →
        c.schedules.find? (fun x => x.num == num) = some x → c.armed = none →
        (e.tStarted.getD 0).toNat + 10000 ≤ e.field 0x18 8 → 1 ≤ (x.firstSeq - e.seq).toNat →
        (x.firstSeq - e.seq).toNat ≤ 2 ^ 31 → s.resolve e.ctx x.image x.bytes false = .ok rs →
        digest384 (s.readRuns rs) = x.digest → Completes (.schedArm n q) (frameOf (.schedArm n q)) s e 0 (fun t =>
          others t ∧ t.ctx e.ctx = { c with armed := some (Armed.mk num (e.field 0x18 8) 0) })) ∧
      (e.clean [(0x10, 0, 8), (0x11, 0, 1)] = true → (e.field 0x11 1).testBit 0 = true →
        (c.armed = none → Completes (.schedArm n q) [.mem, .journal, .fabric, .chains] s e 0 (fun _ => True)) ∧
        (∀ a, c.armedSched = some a → s.govSettled e = true → s.pendingRoom e.ctx = true →
          Completes (.schedArm n q) (frameOf (.schedArm n q)) s e 0 (fun t => others t ∧
            (t.ctx e.ctx).armed = none)))) ∧
    (Runs s .govBounds n q e → c.gov ≠ none → e.boundsOk = true → c.govLost = false →
      let l := e.boundsLadder
      s.govWait e (fun x => x.op == some .govStep || x.op == some .govBounds || s.resolvesRole x l.layer l.role) = false →
      (c.ladder? l.layer l.role = none → s.regionStops c.ledger = [] → 1 ≤ s.ledgerRoom e.ctx →
        Completes (.govBounds n q) (frameOf (.govBounds n q)) s e 0 (fun t => others t ∧
          (t.ctx e.ctx).ladders = setLadder c.ladders l ∧ (t.ctx e.ctx).ledgerHead = (c.ledgerHead + 1) % 2 ^ 64)) ∧
      (c.ladder? l.layer l.role ≠ none → Completes (.govBounds n q) parts s e 0 (fun t =>
        others t ∧ t.ctx e.ctx = { c with bounds := c.bounds ++ [(e.seq, l)] }))) ∧
    (∀ rs, Runs s .govRead n q e → c.gov ≠ none → c.govLost = false →
      s.govWait e (fun x => x.op == some .govStep) = false →
      e.clean [(0x10, 0, 12), (0x12, 0, 2), (0x18, 0, 64)] = true →
      let layer := bitsOf (e.field 0x10 2) 0 12
      let role := bitsOf (e.field 0x12 1) 0 2
      layer ≠ 0 → role ≠ 3 → e.field 0x18 8 ≠ 0 → s.resolve e.ctx (e.field 0x18 8) 704 true = .ok rs →
      s.sealIssues e.ctx [] rs [] = [] → s.regionStops c.gov = [] → c.bounce = none → Quiet s →
      let x := (c.lastRecs.find? (fun r => r.layer == layer && r.role == role)).getD (StatRec.empty layer role)
      let ladder := c.lastLadders.find? (fun l => l.layer == layer && l.role == role)
      Completes (.govRead n q) (frameOf (.govRead n q)) s e (match ladder with
          | some l => BitVec.ofNat 32 (l.code l.rung + 16 * l.code l.advised)
          | none => 0xFF) (fun t =>
        Stored s t rs ((if x.sealedBy then zeroBytes 640 else x.bytes) ++
          govTail ladder x.sealedBy (if c.step = 0 then 0 else c.step - 1)))) ∧
    (Runs s .govStep n q e → c.gov ≠ none → e.clean [(0x10, 0, 1), (0x18, 0, 64)] = true →
      (e.field 0x10 1).testBit 0 = false → e.field 0x18 8 = 0 → c.govLost = false →
      (s.layersDone e.ctx e.id = false → exec (.govStep n q) s = .next s) ∧
      (s.layersDone e.ctx e.id = true → s.regionStops c.gov = [] → s.regionStops c.ledger = [] →
        c.ladders.length ≤ s.ledgerRoom e.ctx →
        (∀ k, k ≤ c.ladders.length → s.journalRoom (commitLines (c.stepItems e k)) = true) → ∃ k,
        Completes (.govStep n q) (frameOf (.govStep n q)) s e (BitVec.ofNat 32 k) (fun t => others t ∧
          (t.ctx e.ctx).step = c.step + 1 ∧ (t.ctx e.ctx).area = [] ∧ (t.ctx e.ctx).bounds = [] ∧
          (t.ctx e.ctx).ladders.length = c.ladders.length ∧ k ≤ c.ladders.length ∧
          (t.ctx e.ctx).ledgerHead = (c.ledgerHead + k) % 2 ^ 64 ∧ (t.ctx e.ctx).govEpoch = !c.govEpoch ∧
          (t.ctx e.ctx).waiting = c.waiting.filter (fun w => decide (e.id < w.id)))))

/-- R403, R404: SEAL_IMPORT of a good blob seals its pages with their plain bytes in place and answers the handle.
R415: ATTEST writes a report with the verifier's nonce. R396, R397: ROLE_SESSION. A challenge is written and a slot
kept for it; a good response opens its session; CLOSE closes it. R268, R437: PROFILE_LOAD takes the profile's values
once, and FW_STAGE holds a verified image. The model's choices in it: logs 61, 63, 64 and 65 (the slot, the statuses,
the place of the signatures). -/
def Obligations.LiningCommands : Prop :=
  ∀ (n : Nat) (q : W32) (s : State) (e : Entry) (rs : List Run), s.ready.lining = true →
    let c := s.ctx e.ctx
    let ep := s.endpointOf e.ctx
    let role := bitsOf (e.field 0x10 1) 0 2
    let buf := e.field 0x18 8
    (∀ b key p (h : Nat), Runs s .sealImport n q e →
      e.clean [(0x10, 0, 64), (0x18, 0, 64), (0x20, 0, 64), (0x28, 0, 8)] = true →
      let bytes := e.field 0x20 8
      e.field 0x18 8 ≠ 0 → e.field 0x18 8 % 65536 = 0 → 0 < bytes → bytes % 65536 = 0 → bytes ≤ 2 ^ 35 →
      e.field 0x28 1 < 32 → s.auditRoom = true → (s.asRead e).readStruct e.ctx (e.field 0x10 8) 320 1 = .ok b →
      (∃ k, s.lining.anchors.getD (e.field 0x28 1) none = some k ∧ verifyBytes k (b.take 0xE0) (b.drop 0xE0) = true) →
      blobOk b = true → s.unwrap b = some key → fieldOf b 8 8 = bytes →
      (∀ x ∈ s.lining.seals, x.ctx = e.ctx → x.sealId = BitVec.ofNat 128 (fieldOf b 0x10 16) →
        x.key.toNat = leNat key) →
      s.resolve e.ctx (e.field 0x18 8) bytes true = .ok rs → inStacks rs = true → s.sealsOf rs = [] →
      s.lining.freeHandle = some h →
        s.sealIssues e.ctx [] [] (s.runsOf e.ctx false [(e.field 0x10 8, 320)]).2.flatten = [] →
      (if (fieldOf b 2 1).testBit 0 then some (zeroBytes bytes)
        else gcmDecrypt key ((b.drop 0xC8).take 12) ((b.drop 0x10).take 16) (s.readRuns rs) ((b.drop 0xB8).take 16)) =
          some p →
      Completes (.sealImport n q) (frameOf (.sealImport n q)) s e (BitVec.ofNat 32 h) (fun t =>
        (Quiet s → Stored s t rs p) ∧ t.lining.audit.length = s.lining.audit.length + 1 ∧
        ∃ x, t.lining.seals = s.lining.seals ++ [x] ∧ x.handle = h ∧ x.ctx = e.ctx ∧ x.pages = pagesOf rs)) ∧
    (Runs s .attest n q e → e.clean [(0x10, 0, 64), (0x18, 0, 256)] = true → e.field 0x10 8 ≠ 0 →
      s.lining.measured = true → s.resolve e.ctx (e.field 0x10 8) 768 true = .ok rs → s.sealIssues e.ctx [] rs [] = [] →
      c.bounce = none → Quiet s → Completes (.attest n q) (frameOf (.attest n q)) s e 768 (fun t =>
        let body := s.reportBytes ((e.packet.drop 0x18).take 32)
        Stored s t rs (body ++ signBytes (dikPrivate s.rootOf) body))) ∧
    (Runs s .roleSession n q e → e.clean [(0x10, 0, 4), (0x18, 0, 64)] = true → role ≠ 3 →
      (∀ k, bitsOf (e.field 0x10 1) 2 2 = 0 → buf ≠ 0 → s.resolve e.ctx buf 128 true = .ok rs →
        s.lining.locked ep s.stamp.toNat = false → s.sealIssues e.ctx [] rs [] = [] →
          s.lining.reserve role ep = some k →
        Completes (.roleSession n q) (frameOf (.roleSession n q)) s e (BitVec.ofNat 32 k) (fun t =>
          t.lining.challengeNo = s.lining.challengeNo + 1 ∧ t.lining.sessions = s.lining.sessions ∧
          ∃ x, t.lining.openChallenge role ep s.stamp.toNat = some x ∧ x.slot = k ∧ x.t = s.stamp ∧
            (c.bounce = none → Quiet s → Stored s t rs x.bytes))) ∧
      (∀ x k, bitsOf (e.field 0x10 1) 2 2 = 1 → buf ≠ 0 → s.resolve e.ctx buf 128 false = .ok rs →
        let b := (s.asRead e).readRuns rs
        fieldOf b 0 1 < 32 → (∀ y ∈ (b.drop 1).take 31, y = 0) → s.sealIssues e.ctx [] [] rs = [] →
        s.auditRoomFor (s.openEntries role ep) = true → s.lining.openChallenge role ep s.stamp.toNat = some x →
        s.roleKey role (fieldOf b 0 1) = some k →
        (ecdsaVerify k x.bytes (beNat ((b.drop 0x20).take 48)) (beNat ((b.drop 0x50).take 48)) = true →
          x.slot < s.lining.sessions.length → Completes (.roleSession n q) (frameOf (.roleSession n q)) s e
            (BitVec.ofNat 32 x.slot) (fun t =>
              t.lining.sessions[x.slot]? = some (some (Session.mk role (fieldOf b 0 1) ep)) ∧
              t.lining.openChallenge role ep s.stamp.toNat = none)) ∧
        (ecdsaVerify k x.bytes (beNat ((b.drop 0x20).take 48)) (beNat ((b.drop 0x50).take 48)) = false → ∃ t,
          exec (.roleSession n q) s = .next t ∧ SameBut [.seams, .mem, .journal, .fabric, .chains, .lining] s t ∧
          Ended t e Status.deniedRole 0 ∧ t.lining.sessions = s.lining.sessions ∧
          t.lining.authFails = s.lining.authFails + 1)) ∧
      (bitsOf (e.field 0x10 1) 2 2 = 2 → buf = 0 → s.auditRoom = true → ∃ k,
        Completes (.roleSession n q) (frameOf (.roleSession n q)) s e k (fun t =>
          ∀ x ∈ t.lining.sessions, ∀ v, x = some v → ¬(v.role = role ∧ v.endpoint = ep)))) ∧
    (∀ b k, Runs s .profileLoad n q e → e.clean [(0x10, 0, 64), (0x18, 0, 32)] = true → s.boot.profile = none →
      let bytes := e.field 0x18 4
      let body := b.take (bytes - 96)
      let d := digest384 body
      96 < bytes → (s.asRead e).readStruct e.ctx (e.field 0x10 8) bytes 1 = .ok b → s.boot.makerKey = some k →
      verifyBytes k body (b.drop (bytes - 96)) = true →
      Config.profileBound body (BitVec.ofNat 776 (leNat (p384Public (dikPrivate s.rootOf)))) = true →
      s.cutsOff (profileDisabled d) = false →
      s.sealIssues e.ctx [] [] (s.runsOf e.ctx false [(e.field 0x10 8, bytes)]).2.flatten = [] →
      Completes (.profileLoad n q) (frameOf (.profileLoad n q)) s e 0 (fun t => t.boot = { s.boot with profile := some d } ∧
        t.belt.defaults = false ∧ t.belt.powerCap = t.belt.susMax ∧
        t.belt.susMax = (Config.profileWord d 2).setWidth 16 ∧ Caps.le t.caps s.caps ∧
        ∀ x ∈ t.stks, x.rate.toNat ≤ profileRate d)) ∧
    (∀ b body k, Runs s .fwStage n q e → e.clean [(0x10, 0, 64), (0x18, 0, 32)] = true →
      (s.asRead e).readStruct e.ctx (e.field 0x10 8) (e.field 0x18 4) 1 = .ok b → s.boot.makerKey = some k →
      signedBody k b = some body →
      s.sealIssues e.ctx [] [] (s.runsOf e.ctx false [(e.field 0x10 8, e.field 0x18 4)]).2.flatten = [] →
      Completes (.fwStage n q) (frameOf (.fwStage n q)) s e 0 (fun t => t.boot = { s.boot with fwStaged := some body }))

/-- R270, R452, R453: TRACE_CTL sets the mode and the sources, over a new region where it places one, and
TRACE_TRIGGER freezes a ring of mode 3 once; RESULT is the slot of its record. R239: QUERY_CAPS writes the identity
block. R448: a COUNTER_SNAP waits 2,000 ticks from its dispatch and writes the counters as they are then; it never
ends with SEALED. R204, R260: RY_PARAM_SEND sends the lap of a round that has closed, one stream for each tensor, a
header alone where this position has no row of it, and after them what it kept back. The model's choices in it: logs
48 and 84 (deduced). -/
def Obligations.ObservationCommands : Prop :=
  ∀ (n : Nat) (q : W32) (s : State) (e : Entry) (rs : List Run),
    let c := s.ctx e.ctx
    let v := s.viewFor e
    (Runs s .traceCtl n q e →
      e.clean [(0x10, 0, 3), (0x18, 0, 64), (0x20, 0, 64), (0x28, 0, 32), (0x30, 0, 64)] = true →
      sourcesOk (e.field 0x30 8) = true →
      let mode := e.field 0x10 1 % 4
      let set := fun (t : Trace) => t.set mode (BitVec.ofNat 64 (e.field 0x30 8))
      ((e.field 0x10 1).testBit 2 = false → (mode = 0 ∨ s.trace.placed = true) →
        Completes (.traceCtl n q) [.seams, .mem, .journal, .fabric, .chains, .trace] s e 0 (fun t => t.trace = set s.trace)) ∧
      ((e.field 0x10 1).testBit 2 = true → s.trace.mode = 0 → e.field 0x18 8 ≠ 0 →
        traceRangeOk (e.field 0x20 8) (e.field 0x28 4) = true →
        s.resolve e.ctx (e.field 0x18 8) (e.field 0x20 8) true = .ok rs → inStacks rs = true → s.anySealed rs = false →
        Completes (.traceCtl n q) (frameOf (.traceCtl n q)) s e 0 (fun t => t.trace = set { s.trace with
          placed := true, pages := rs.map (fun r => r.1 / 65536), offset := e.field 0x18 8 % 65536
          bytes := e.field 0x20 8, post := e.field 0x28 4 }))) ∧
    (Runs s .traceTrigger n q e → e.clean [(0x10, 0, 32)] = true →
      (s.trace.mode ≠ 3 → Completes (.traceTrigger n q) [.mem, .journal, .fabric, .chains] s e 0 (fun _ => True)) ∧
      (s.trace.mode = 3 → s.trace.triggered = false →
        let at_ := s.trace.bytes / 32 - s.trace.post / 32
        Completes (.traceTrigger n q) (frameOf (.traceTrigger n q)) s e (BitVec.ofNat 32 at_) (fun t =>
          t.trace = { s.trace with triggered := true, preNext := s.trace.next, trigIndex := at_, next := at_ + 1 }))) ∧
    (Runs s .queryCaps n q e → e.clean [(0x10, 0, 64), (0x18, 0, 32)] = true →
      let k := e.field 0x18 4
      64 ≤ k → k ≤ 4096 → k % 64 = 0 → e.field 0x10 8 ≠ 0 → v.resolve e.ctx (e.field 0x10 8) k true = .ok rs →
      v.sealIssues e.ctx [] [] rs = [] → e.member = none → c.bounce = none → Quiet s →
      Completes (.queryCaps n q) workParts s e (BitVec.ofNat 32 k) (fun t =>
        Stored s t rs ((List.range (k / 4)).flatMap (fun i => leBytes 4 (s.idRead (4 * i)).toNat)))) ∧
    (∀ t0, Runs s .counterSnap n q e → e.tStarted = some t0 →
      e.clean [(0x10, 0, 64), (0x18, 0, 32), (0x1C, 0, 2), (0x1D, 0, 7), (0x1E, 0, 16)] = true →
      let scope := e.field 0x1C 1
      let unit := e.field 0x1D 1
      let mask := e.field 0x1E 2
      e.field 0x10 8 ≠ 0 → mask ≠ 0 → mask < 4096 → scope < 3 → (scope = 0 → unit = 0) →
      (∀ g ∈ snapGroups mask, ∀ k, groupScope g = some k → k = scope) → (scope = 1 → unit < dieSleeves s.die) →
      (scope = 2 → unit < dieCores s.die) → snapBytes mask ≤ e.field 0x18 4 → t0.toNat + 2000 < 2 ^ 64 →
      e.member = none → c.bounce = none →
      (s.stamp.toNat < t0.toNat + 2000 → ∃ t x, exec (.counterSnap n q) s = .next t ∧ t.entryAt e.id = some x ∧
        x.decided = false ∧ x.packet = e.packet) ∧
      (t0.toNat + 2000 ≤ s.stamp.toNat → v.resolve e.ctx (e.field 0x10 8) (snapBytes mask) true = .ok rs → Quiet s →
        Completes (.counterSnap n q) workParts s e (BitVec.ofNat 32 (snapBytes mask)) (fun t =>
          Stored s t rs (v.snapshot scope unit mask e.ctx (t0 + 2000))))) ∧
    (∀ d k g, Runs s .ryParamSend n q e → e.clean [(0x10, 0, 64)] = true → s.roundDesc e = .ok d →
      s.lapGroup e d = some (.ok (k, g)) →
      (∀ x ∈ s.entriesOf e.ctx, some x.chain = g.ownChain → 0 < x.member.getD 0 → x.live = false ∨ x.decided = true) →
      let pend := s.lapPending e g
      s.coreIssues e.ctx = [] → s.portIssues g.d.ports = [] → pend.1 = [] →
      (∀ t ∈ g.tensors.zipIdx, (s.lapTensor e g t.2 t.1 (s.readRuns pend.2) true).issues = []) →
      s.sealIssues e.ctx [] [] (s.structRuns e) = [] →
      Completes (.ryParamSend n q) (frameOf (.ryParamSend n q)) s e (BitVec.ofNat 32 g.tensors.length) (fun t =>
        ∃ h, smGet? t.groups k = some h ∧ h.sent = true ∧ h.forward = [] ∧ h.isOpen = g.isOpen))
end

