-- ==== Sys2Proof/Laws/Memory.lean ====
section
/-!
SUPPORT. Sys2Proof/Laws/Memory.lean: laws of the memory: what a write leaves at each address, and the canonical
form that every memory operation keeps.
-/
namespace Sys2Proof.Machine

/-! ## What an address reads as -/

/-- No listed address is `a`: it reads as 0. -/
theorem memGet_absent {m : List Host.Cell} {a : Nat} (h : ∀ c ∈ m, c.1 ≠ a) : memGet m a = 0 := by
  induction m with
  | nil => rfl
  | cons c r ih =>
    have hc : c.1 ≠ a := h c (by simp)
    simp [memGet, hc, ih (fun d hd => h d (by simp [hd]))]

/-- Reading looks into the first list that lists the address. -/
theorem memGet_append_absent {m n : List Host.Cell} {a : Nat} (h : ∀ c ∈ m, c.1 ≠ a) :
    memGet (m ++ n) a = memGet n a := by
  induction m with
  | nil => rfl
  | cons c r ih =>
    have hc : c.1 ≠ a := h c (by simp)
    simp [memGet, hc, ih (fun d hd => h d (by simp [hd]))]

/-- A second list that does not list the address changes nothing. -/
theorem memGet_append_other {m n : List Host.Cell} {a : Nat} (h : ∀ c ∈ n, c.1 ≠ a) :
    memGet (m ++ n) a = memGet m a := by
  induction m with
  | nil => exact memGet_absent h
  | cons c r ih => by_cases hc : c.1 = a <;> simp [memGet, hc, ih]

/-- Leaving out other addresses changes nothing at `a`. -/
theorem memGet_filter {m : List Host.Cell} {a : Nat} {p : Host.Cell → Bool} (h : ∀ c ∈ m, c.1 = a → p c = true) :
    memGet (m.filter p) a = memGet m a := by
  induction m with
  | nil => rfl
  | cons c r ih =>
    have ih := ih (fun d hd => h d (by simp [hd]))
    by_cases hp : p c = true
    · by_cases hc : c.1 = a <;> simp [List.filter, hp, memGet, hc, ih]
    · have hc : c.1 ≠ a := fun e => hp (h c (by simp) e)
      simp [List.filter, hp, memGet, hc, ih]

/-- The cells of a run lie within it. -/
theorem cellsOf_within {bs : Bytes} : ∀ {a : Nat}, ∀ c ∈ cellsOf a bs, a ≤ c.1 ∧ c.1 < a + bs.length := by
  induction bs with
  | nil => simp [cellsOf]
  | cons b r ih =>
    intro a c hc
    by_cases hb : b = 0
    · simp only [cellsOf, hb, if_true] at hc
      have := ih c hc
      simp only [List.length_cons]; omega
    · simp only [cellsOf, hb, if_false, List.mem_cons] at hc
      rcases hc with rfl | hc
      · simp
      · have := ih c hc
        simp only [List.length_cons]; omega

/-- The cells of a run read as its bytes. -/
theorem memGet_cellsOf {bs : Bytes} : ∀ {a i : Nat}, i < bs.length → memGet (cellsOf a bs) (a + i) = bs.getD i 0 := by
  induction bs with
  | nil => intro a i h; simp at h
  | cons b r ih =>
    intro a i h
    rcases i with _ | i
    · by_cases hb : b = 0
      · have hz : memGet (cellsOf (a + 1) r) a = 0 :=
          memGet_absent (fun c hc => by have := cellsOf_within c hc; omega)
        simp [cellsOf, hb, hz]
      · rw [cellsOf, if_neg hb]; simp [memGet]
    · have hi : i < r.length := by simpa using h
      have e : a + (i + 1) = a + 1 + i := by omega
      by_cases hb : b = 0
      · rw [cellsOf, if_pos hb, e, ih hi, List.getD_cons_succ]
      · have ha : a ≠ a + 1 + i := by omega
        rw [cellsOf, if_neg hb, e]; simp only [memGet, if_neg ha, ih hi, List.getD_cons_succ]

/-- Reading outside the written run gives what it gave. -/
theorem memGet_memPut_outside {m : List Host.Cell} {a x : Nat} {bs : Bytes} (h : x < a ∨ a + bs.length ≤ x) :
    memGet (memPut m a bs) x = memGet m x := by
  have hc : ∀ c ∈ cellsOf a bs, c.1 ≠ x := fun c hc => by have := cellsOf_within c hc; omega
  unfold memPut
  rcases h with h | h
  · rw [memGet_append_other (fun c hc => by simp at hc; omega), memGet_append_other hc]
    exact memGet_filter (fun c _ e => by simp; omega)
  · rw [List.append_assoc, memGet_append_absent (fun c hc => by simp at hc; omega), memGet_append_absent hc]
    exact memGet_filter (fun c _ e => by simp; omega)

/-- Reading inside the written run gives the byte written. -/
theorem memGet_memPut_inside {m : List Host.Cell} {a i : Nat} {bs : Bytes} (h : i < bs.length) :
    memGet (memPut m a bs) (a + i) = bs.getD i 0 := by
  unfold memPut
  rw [memGet_append_other (fun c hc => by simp at hc; omega),
    memGet_append_absent (fun c hc => by simp at hc; omega), memGet_cellsOf h]

/-- Reading outside a zeroed run gives what it gave. -/
theorem memGet_memZero_outside {m : List Host.Cell} {a n x : Nat} (h : x < a ∨ a + n ≤ x) :
    memGet (memZero m a n) x = memGet m x := by
  unfold memZero
  rcases h with h | h
  · rw [memGet_append_other (fun c hc => by simp at hc; omega)]
    exact memGet_filter (fun c _ e => by simp; omega)
  · rw [memGet_append_absent (fun c hc => by simp at hc; omega)]
    exact memGet_filter (fun c _ e => by simp; omega)

/-- A zeroed run reads as zeros. -/
theorem memGet_memZero_inside {m : List Host.Cell} {a n x : Nat} (h : a ≤ x ∧ x < a + n) :
    memGet (memZero m a n) x = 0 :=
  memGet_absent (fun c hc => by simp [memZero] at hc; omega)

/-! ## The canonical form -/

/-- A higher bound may be lowered. -/
theorem memOk_mono {m : List Host.Cell} {lo hi : Nat} (h : memOk hi m = true) (hl : lo ≤ hi) : memOk lo m = true := by
  cases m with
  | nil => rfl
  | cons c r => simp only [memOk, Bool.and_eq_true, decide_eq_true_eq] at h ⊢; exact ⟨⟨by omega, h.1.2⟩, h.2⟩

/-- A canonical list lists addresses from its bound on. -/
theorem memOk_bound {m : List Host.Cell} : ∀ {lo : Nat}, memOk lo m = true → ∀ c ∈ m, lo ≤ c.1 := by
  induction m with
  | nil => simp
  | cons c r ih =>
    intro lo h d hd
    simp only [memOk, Bool.and_eq_true, decide_eq_true_eq] at h
    rcases List.mem_cons.1 hd with rfl | hd
    · exact h.1.1
    · have := ih h.2 d hd; omega

/-- Leaving cells out keeps the form. -/
theorem memOk_filter {m : List Host.Cell} {p : Host.Cell → Bool} :
    ∀ {lo : Nat}, memOk lo m = true → memOk lo (m.filter p) = true := by
  induction m with
  | nil => intro _ _; rfl
  | cons c r ih =>
    intro lo h
    simp only [memOk, Bool.and_eq_true, decide_eq_true_eq] at h
    by_cases hp : p c = true
    · simp only [List.filter, hp, memOk, Bool.and_eq_true, decide_eq_true_eq]
      exact ⟨h.1, ih h.2⟩
    · simp only [List.filter, hp]
      exact memOk_mono (ih h.2) (by omega)

/-- A bound may be raised to what every cell meets. -/
theorem memOk_raise {m : List Host.Cell} {lo hi : Nat} (h : memOk lo m = true) (hb : ∀ c ∈ m, hi ≤ c.1) :
    memOk hi m = true := by
  cases m with
  | nil => rfl
  | cons c r =>
    simp only [memOk, Bool.and_eq_true, decide_eq_true_eq] at h ⊢
    exact ⟨⟨hb c (by simp), h.1.2⟩, h.2⟩

/-- Two canonical lists join where the second begins above the first. -/
theorem memOk_append {m n : List Host.Cell} {mid : Nat} :
    ∀ {lo : Nat}, memOk lo m = true → (∀ c ∈ m, c.1 < mid) → memOk mid n = true → lo ≤ mid →
      memOk lo (m ++ n) = true := by
  induction m with
  | nil => intro lo _ _ hn hl; exact memOk_mono hn hl
  | cons c r ih =>
    intro lo hm hb hn hl
    simp only [memOk, Bool.and_eq_true, decide_eq_true_eq] at hm
    have hc := hb c (by simp)
    simp only [List.cons_append, memOk, Bool.and_eq_true, decide_eq_true_eq]
    exact ⟨hm.1, ih hm.2 (fun d hd => hb d (by simp [hd])) hn (by omega)⟩

/-- The cells of a run are canonical. -/
theorem memOk_cellsOf {bs : Bytes} : ∀ {a : Nat}, memOk a (cellsOf a bs) = true := by
  induction bs with
  | nil => intro _; rfl
  | cons b r ih =>
    intro a
    by_cases hb : b = 0
    · rw [cellsOf, if_pos hb]; exact memOk_mono ih (by omega)
    · simp only [cellsOf, if_neg hb, memOk, Bool.and_eq_true, decide_eq_true_eq]
      exact ⟨⟨Nat.le_refl _, hb⟩, ih⟩

/-- A write keeps the canonical form. -/
theorem Memory.wf_memPut {m : List Host.Cell} (h : Memory.wf m = true) (a : Nat) (bs : Bytes) :
    Memory.wf (memPut m a bs) = true := by
  unfold Memory.wf memPut
  rw [List.append_assoc]
  refine memOk_append (mid := a) (memOk_filter h) (fun c hc => by simp at hc; omega) ?_ (Nat.zero_le _)
  refine memOk_append (mid := a + bs.length) memOk_cellsOf (fun c hc => (cellsOf_within c hc).2) ?_ (by omega)
  exact memOk_raise (memOk_filter (lo := 0) h) (fun c hc => by simp at hc; omega)

/-- Zeroing keeps the canonical form. -/
theorem Memory.wf_memZero {m : List Host.Cell} (h : Memory.wf m = true) (a n : Nat) :
    Memory.wf (memZero m a n) = true := by
  unfold Memory.wf memZero
  refine memOk_append (mid := a + n) (memOk_filter h) (fun c hc => by simp at hc; omega) ?_ (Nat.zero_le _)
  exact memOk_raise (memOk_filter (lo := 0) h) (fun c hc => by simp at hc; omega)

/-- Leaving cells out keeps the canonical form. -/
theorem Memory.wf_filter {m : List Host.Cell} (h : Memory.wf m = true) (p : Host.Cell → Bool) :
    Memory.wf (m.filter p) = true := memOk_filter h

/-- Reset memory is canonical. -/
theorem Memory.wf_reset : Memory.wf State.reset.mem = true := rfl

end Sys2Proof.Machine
end

