-- ==== Sys2Proof/Laws/Kept.lean ====
section
/-!
SUPPORT. Sys2Proof/Laws/Kept.lean: what the operations on the state keep: the canonical memory, the die, units that
do not come back, an audit log that only grows with its hash chain, and the number of ports. One lemma per operation.
-/
namespace Sys2Proof.Machine

set_option Elab.async false

variable {d : Die} {c : Caps} {a : List Audit} {pend : List Instr}

/-- What is kept, seen from an earlier state with die `d`, units `c`, audit entries `a` and waiting commands `pend`. -/
structure Kept (d : Die) (c : Caps) (a : List Audit) (pend : List Instr) (s : State) : Prop where
  die : s.die = d
  mem : Memory.wf s.mem = true
  caps : Caps.le s.caps c
  log : a <+: s.lining.audit
  chain : s.auditSound
  shape : s.shapeOk
  queue : s.pending = pend

theorem and_compl_refl {n : Nat} (x : BitVec n) : x &&& ~~~x = 0 := by
  ext i; simp

theorem and_compl_trans {n : Nat} {x y z : BitVec n} (h : x &&& ~~~y = 0) (g : y &&& ~~~z = 0) : x &&& ~~~z = 0 := by
  apply BitVec.eq_of_getLsbD_eq
  intro i hi
  have h1 := congrArg (fun v => v.getLsbD i) h
  have g1 := congrArg (fun v => v.getLsbD i) g
  simp [hi] at h1 g1 ⊢
  intro hx
  exact g1 (h1 hx)

theorem and_compl_sub {n : Nat} (x y : BitVec n) : (x &&& y) &&& ~~~x = 0 := by
  apply BitVec.eq_of_getLsbD_eq
  intro i hi
  simp [hi]
  intro h _ ; exact h

theorem Caps.le_refl (x : Caps) : Caps.le x x :=
  ⟨and_compl_refl _, and_compl_refl _, and_compl_refl _, and_compl_refl _, and_compl_refl _, id⟩

theorem Caps.le_trans {x y z : Caps} (h : Caps.le x y) (g : Caps.le y z) : Caps.le x z :=
  ⟨and_compl_trans h.1 g.1, and_compl_trans h.2.1 g.2.1, and_compl_trans h.2.2.1 g.2.2.1,
    and_compl_trans h.2.2.2.1 g.2.2.2.1, and_compl_trans h.2.2.2.2.1 g.2.2.2.2.1,
    fun e => g.2.2.2.2.2 (h.2.2.2.2.2 e)⟩

/-- Taking units out leaves units of before. -/
theorem Caps.le_less (x : Caps) (sl : BitVec 16) (st : BitVec 6) (se : BitVec 4) (co : BitVec 128) (gu : BitVec 16) :
    Caps.le (Caps.mk (x.sleeves &&& sl) (x.stks &&& st) (x.seam &&& se) x.dist (x.cores &&& co) (x.gusset &&& gu)) x :=
  ⟨and_compl_sub _ _, and_compl_sub _ _, and_compl_sub _ _, and_compl_sub _ _, and_compl_sub _ _, id⟩

/-- A state that agrees in what is kept, its memory apart. -/
theorem Kept.congr {s t : State} (h : Kept d c a pend s) (hm : Memory.wf t.mem = true) (hd : t.die = s.die)
    (hc : Caps.le t.caps s.caps) (ha : t.lining.audit = s.lining.audit) (hh : t.lining.auditHead = s.lining.auditHead)
    (hn : t.lining.bootNonce = s.lining.bootNonce) (h1 : t.stks.length = s.stks.length)
    (h2 : t.seams.length = s.seams.length) (h3 : t.sleeves.length = s.sleeves.length)
    (hp : t.pending = s.pending := by rfl) : Kept d c a pend t where
  die := hd.trans h.die
  mem := hm
  caps := Caps.le_trans hc h.caps
  log := ha ▸ h.log
  chain := by unfold State.auditSound; rw [hh, hn, ha]; exact h.chain
  shape := by unfold State.shapeOk; rw [h1, h2, h3]; exact h.shape
  queue := hp.trans h.queue

/-- A state built on another, whatever its other fields. -/
theorem kept_mk {s : State} (h : Kept d c a pend s) {die pins tb caps ready boot stks seams hr ctxs journal collar fences
    retained cores sleeves fabric chains starved groups counters trace belt lining i3c tap latches stamps free pending}
    (hd : die = s.die := by rfl) (hc : Caps.le caps s.caps := by exact Caps.le_refl _)
    (ha : lining.audit = s.lining.audit := by rfl) (hh : lining.auditHead = s.lining.auditHead := by rfl)
    (hn : lining.bootNonce = s.lining.bootNonce := by rfl)
    (h1 : stks.length = s.stks.length := by first | rfl | simp)
    (h2 : seams.length = s.seams.length := by first | rfl | simp)
    (h3 : sleeves.length = s.sleeves.length := by first | rfl | simp)
    (hp : pending = s.pending := by rfl) :
    Kept d c a pend (State.mk die pins tb caps ready boot stks seams hr s.mem ctxs journal collar fences
      retained cores sleeves fabric chains starved groups counters trace belt lining i3c tap latches stamps free pending) :=
  h.congr h.mem hd hc ha hh hn h1 h2 h3 hp

/-- A fold over operations that keep it. -/
theorem kept_foldl {α : Type} {f : State → α → State} {l : List α} {s : State}
    (hf : ∀ s x, Kept d c a pend s → Kept d c a pend (f s x)) (h : Kept d c a pend s) : Kept d c a pend (l.foldl f s) := by
  induction l generalizing s with
  | nil => exact h
  | cons x r ih => exact ih (hf s x h)

/-- A write to memory. -/
theorem State.lay_kept {s : State} (h : Kept d c a pend s) (x : Nat) (bs : Bytes) : Kept d c a pend (s.lay x bs) :=
  h.congr (Memory.wf_memPut h.mem x bs) rfl (Caps.le_refl _) rfl rfl rfl rfl rfl rfl

/-- Bytes laid into a view of memory. -/
theorem State.poke_kept {s : State} (h : Kept d c a pend s) (x : Nat) (bs : Bytes) : Kept d c a pend (s.poke x bs) :=
  h.congr (Memory.wf_memPut h.mem x bs) rfl (Caps.le_refl _) rfl rfl rfl rfl rfl rfl

/-- One more audit entry. -/
theorem State.auditAdd?_kept {s t : State} (h : Kept d c a pend s) {kind role ep target seq value}
    (ht : s.auditAdd? kind role ep target seq value = some t) : Kept d c a pend t := by
  unfold State.auditAdd? at ht
  by_cases hl : s.lining.audit.length ≥ 8192
  · simp [hl] at ht
  · simp only [hl, if_false, Option.some.injEq] at ht
    subst ht
    refine ⟨h.die, h.mem, h.caps, h.log.trans (List.prefix_append _ _), ?_, h.shape, h.queue⟩
    have hc := h.chain
    simp only [State.auditSound, auditChain] at hc ⊢
    simp [List.zipIdx_append, List.foldl_append, hc]

/-- One more audit entry where there is room. -/
theorem State.audited_kept {s : State} (h : Kept d c a pend s) (kind role ep target seq value) :
    Kept d c a pend (s.audited kind role ep target seq value) := by
  unfold State.audited
  cases e : s.auditAdd? kind role ep target seq value with
  | none => exact h
  | some t => exact State.auditAdd?_kept h e

/-- The same of a verdict's state. -/
def KeptV (d : Die) (c : Caps) (a : List Audit) (pend : List Instr) : Verdict → Prop
  | .done _ _ _ t => Kept d c a pend t
  | _ => True

/-- The same of a state that may not be there. -/
def KeptO (d : Die) (c : Caps) (a : List Audit) (pend : List Instr) : Option State → Prop
  | some t => Kept d c a pend t
  | none => True

/-- The same of an outcome, which is a next state. -/
def KeptX (d : Die) (c : Caps) (a : List Audit) (pend : List Instr) : Host.Outcome State Fault Refusal → Prop
  | .next t => Kept d c a pend t
  | _ => False

theorem keptV_wait : KeptV d c a pend .wait := True.intro
theorem keptV_fail {i r} : KeptV d c a pend (.fail i r) := True.intro
theorem keptV_done {st r sat t} (h : Kept d c a pend t) : KeptV d c a pend (.done st r sat t) := h
theorem keptO_none : KeptO d c a pend none := True.intro
theorem keptO_some {t} (h : Kept d c a pend t) : KeptO d c a pend (some t) := h
theorem keptX_next {t} (h : Kept d c a pend t) : KeptX d c a pend (.next t) := h
theorem keptO_of {o : Option State} {t : State} (e : o = some t) (h : KeptO d c a pend o) : Kept d c a pend t := by
  subst e; exact h
theorem keptV_of {v : Verdict} {st r sat t} (e : v = .done st r sat t) (h : KeptV d c a pend v) : Kept d c a pend t := by
  subst e; exact h
theorem keptX_of {o : Host.Outcome State Fault Refusal} {t : State} (e : o = .next t) (h : KeptX d c a pend o) :
    Kept d c a pend t := by
  subst e; exact h
theorem keptO_getD {o : Option State} {s : State} (h : KeptO d c a pend o) (g : Kept d c a pend s) : Kept d c a pend (o.getD s) := by
  cases o with
  | none => exact g
  | some t => exact h


theorem ite_elim {p : Prop} {_ : Decidable p} {x y : Option State} (hx : KeptO d c a pend x) (hy : KeptO d c a pend y) :
    KeptO d c a pend (if p then x else y) := by
  split
  · exact hx
  · exact hy

theorem ite_elim' {p : Prop} {_ : Decidable p} {x y : State} (hx : Kept d c a pend x) (hy : Kept d c a pend y) :
    Kept d c a pend (if p then x else y) := by
  split
  · exact hx
  · exact hy
theorem State.atPort_kept {s : State} (h : Kept d c a pend s) (ctx : Nat) (x3 : Nat) (n : Nat) (f : Traffic → Request → Traffic) :
    Kept d c a pend (State.atPort s ctx x3 n f) := by
  unfold State.atPort
  try dsimp only
  repeat' first | (with_reducible first | assumption | apply kept_foldl) | split | intro _ _ _ | intro _ _
  any_goals (refine kept_mk ?_)
  repeat' first | with_reducible assumption

theorem State.engineLines_kept {s : State} (h : Kept d c a pend s) (x2 : Nat) (n : Nat) :
    Kept d c a pend (State.engineLines s x2 n) := by
  unfold State.engineLines
  try dsimp only
  repeat' with_reducible first | assumption | apply State.atPort_kept

theorem State.put_kept {s : State} (h : Kept d c a pend s) (x2 : Nat) (bs : Bytes) :
    Kept d c a pend (State.put s x2 bs) := by
  unfold State.put
  try dsimp only
  repeat' with_reducible first | assumption | apply State.engineLines_kept | apply State.lay_kept

theorem State.journalPut_kept {s : State} (h : Kept d c a pend s) (off : Nat) (bs : Bytes) :
    Kept d c a pend (State.journalPut s off bs) := by
  unfold State.journalPut
  try dsimp only
  repeat' first | (with_reducible first | assumption | apply State.put_kept | apply kept_foldl) | split

theorem State.linePut_kept {s : State} (h : Kept d c a pend s) (pos : Nat) (bs : Bytes) :
    Kept d c a pend (State.linePut s pos bs) := by
  unfold State.linePut
  try dsimp only
  repeat' with_reducible first | assumption | apply State.journalPut_kept

theorem State.setEntry_kept {s : State} (h : Kept d c a pend s) (e : Entry) :
    Kept d c a pend (State.setEntry s e) := by
  unfold State.setEntry
  try dsimp only
  repeat' first | (with_reducible first | assumption | apply State.linePut_kept | apply kept_foldl) | split
                | intro _ _ _ | intro _ _
  any_goals (refine kept_mk ?_)
  repeat' first | with_reducible assumption

theorem State.chargeEnergy_kept {s : State} (h : Kept d c a pend s) (ps : List Piece) (stop : Nat) (k : Nat × W32) :
    Kept d c a pend (State.chargeEnergy s ps stop k) := by
  unfold State.chargeEnergy
  try dsimp only
  repeat' first | (with_reducible first | assumption | apply State.setEntry_kept | apply kept_foldl) | split

theorem State.setCtx_kept {s : State} (h : Kept d c a pend s) (n : Nat) (x3 : Ctx) :
    Kept d c a pend (State.setCtx s n x3) := by
  unfold State.setCtx
  try dsimp only
  any_goals (refine kept_mk ?_)
  repeat' first | with_reducible assumption

theorem State.chargeJobs_kept {s : State} (h : Kept d c a pend s) (ps : List Piece) (keys : List (Nat × W32))
    (stop : Nat) (ctx : Nat) :
    Kept d c a pend (State.chargeJobs s ps keys stop ctx) := by
  unfold State.chargeJobs
  try dsimp only
  repeat' first | (with_reducible first | assumption | apply State.setCtx_kept | apply kept_foldl) | split

theorem State.attribute_kept {s : State} (h : Kept d c a pend s) (es : List Nat) (stop : Nat) :
    Kept d c a pend (State.attribute s es stop) := by
  unfold State.attribute
  try dsimp only
  any_goals (refine kept_mk ?_)
  repeat' first | (with_reducible first | assumption | apply State.chargeEnergy_kept
                                        | apply State.chargeJobs_kept | apply kept_foldl) | split | intro _ _ _

theorem State.dropShares_kept {s : State} (h : Kept d c a pend s) (stop : Nat) :
    Kept d c a pend (State.dropShares s stop) := by
  unfold State.dropShares
  try dsimp only
  any_goals (refine kept_mk ?_)
  repeat' first | with_reducible assumption

theorem State.addAt_kept {s : State} (h : Kept d c a pend s) (x2 : Nat) (n : Nat) :
    Kept d c a pend (State.addAt s x2 n) := by
  unfold State.addAt
  try dsimp only
  any_goals (refine kept_mk ?_)
  repeat' first | with_reducible assumption

theorem State.count_kept {s : State} (h : Kept d c a pend s) (x2 : Counter) (n : Nat) :
    Kept d c a pend (State.count s x2 n) := by
  unfold State.count
  try dsimp only
  repeat' with_reducible first | assumption | apply State.addAt_kept

theorem State.stretchCycles_kept {s : State} (h : Kept d c a pend s)  :
    Kept d c a pend (State.stretchCycles s) := by
  unfold State.stretchCycles
  try dsimp only
  repeat' first | (with_reducible first | assumption | apply State.count_kept | apply kept_foldl) | split
                | intro _ _ _

theorem State.traceSlot_kept {s : State} (h : Kept d c a pend s) (slot : Nat) (r : TraceRec) :
    Kept d c a pend (State.traceSlot s slot r) := by
  unfold State.traceSlot
  try dsimp only
  repeat' first | (with_reducible first | assumption | apply State.put_kept | apply kept_foldl) | split

theorem State.traceWrite_kept {s : State} (h : Kept d c a pend s) (slot : Nat) (r : TraceRec) :
    Kept d c a pend (State.traceWrite s slot r) := by
  unfold State.traceWrite
  try dsimp only
  repeat' with_reducible first | assumption | apply State.count_kept | apply State.traceSlot_kept

theorem State.traceDrop_kept {s : State} (h : Kept d c a pend s) (t : W64) :
    Kept d c a pend (State.traceDrop s t) := by
  unfold State.traceDrop
  try dsimp only
  repeat' first | (with_reducible first | assumption | apply State.count_kept | apply State.traceSlot_kept
                                        | apply kept_foldl) | split | intro _ _ _ | intro _ _
  any_goals (refine kept_mk ?_)
  repeat' first | with_reducible assumption

theorem State.traceTrip_kept {s : State} (h : Kept d c a pend s) (data : W64) (ctx : Nat) (seq : W32) :
    Kept d c a pend (State.traceTrip s data ctx seq) := by
  unfold State.traceTrip
  try dsimp only
  repeat' first | (with_reducible first | assumption | apply State.count_kept | apply State.traceWrite_kept
                                        | apply kept_foldl) | split | intro _ _ _ | intro _ _
  any_goals (refine kept_mk ?_)
  repeat' first | with_reducible assumption

theorem State.traceArrive_kept {s : State} (h : Kept d c a pend s) (r : TraceRec) :
    Kept d c a pend (State.traceArrive s r) := by
  unfold State.traceArrive
  try dsimp only
  repeat' first | (with_reducible first | assumption | apply State.traceWrite_kept | apply State.traceDrop_kept
                                        | apply State.traceTrip_kept | apply kept_foldl) | split | intro _ _ _
                | intro _ _
  any_goals (refine kept_mk ?_)
  repeat' with_reducible first | assumption | apply State.traceWrite_kept

theorem State.traceRec_kept {s : State} (h : Kept d c a pend s) (type : Nat) (unit : TraceUnit) (ctx : Nat) (seq :
    W32) (data : Nat) :
    Kept d c a pend (State.traceRec s type unit ctx seq data) := by
  unfold State.traceRec
  try dsimp only
  repeat' first | (with_reducible first | assumption | apply State.traceArrive_kept | apply kept_foldl) | split
                | intro _ _ _ | intro _ _
  any_goals (refine kept_mk ?_)
  repeat' first | with_reducible assumption

theorem State.traceFault_kept {s : State} (h : Kept d c a pend s) (k : FaultKind) (action : Nat) (unit :
    TraceUnit) (ctx : Nat) (seq : W32) :
    Kept d c a pend (State.traceFault s k action unit ctx seq) := by
  unfold State.traceFault
  try dsimp only
  repeat' with_reducible first | assumption | apply State.traceRec_kept

theorem State.traceStep_kept {s : State} (h : Kept d c a pend s) (old : Nat) :
    Kept d c a pend (State.traceStep s old) := by
  unfold State.traceStep
  try dsimp only
  repeat' first | (with_reducible first | assumption | apply State.traceRec_kept | apply kept_foldl) | split

theorem State.ibi_kept {s : State} (h : Kept d c a pend s)  :
    Kept d c a pend (State.ibi s) := by
  unfold State.ibi
  try dsimp only
  any_goals (refine kept_mk ?_)
  repeat' first | with_reducible assumption

theorem State.onPort_kept {s : State} (h : Kept d c a pend s) (m : Nat) (f : Traffic → Traffic) :
    Kept d c a pend (State.onPort s m f) := by
  unfold State.onPort
  try dsimp only
  any_goals (refine kept_mk ?_)
  repeat' first | with_reducible assumption

theorem State.admitAt_kept {s : State} (h : Kept d c a pend s) (m : Nat) :
    Kept d c a pend (State.admitAt s m) := by
  unfold State.admitAt
  try dsimp only
  repeat' first | (with_reducible first | assumption | apply State.onPort_kept | apply kept_foldl) | split

theorem State.dropRequests_kept {s : State} (h : Kept d c a pend s) (e : Entry) :
    Kept d c a pend (State.dropRequests s e) := by
  unfold State.dropRequests
  try dsimp only
  repeat' first | (with_reducible first | assumption | apply State.admitAt_kept | apply kept_foldl) | split
                | intro _ _ _ | intro _ _
  any_goals (refine kept_mk ?_)
  repeat' first | with_reducible assumption

theorem State.trips_kept {s : State} (h : Kept d c a pend s)  :
    Kept d c a pend (State.trips s) := by
  unfold State.trips
  try dsimp only
  repeat' first | (with_reducible first | assumption | apply State.traceFault_kept | apply State.traceStep_kept
                                        | apply State.ibi_kept | apply State.setEntry_kept
                                        | apply State.dropRequests_kept | apply kept_foldl) | split
                | intro _ _ _ | intro _ _
  any_goals (refine kept_mk ?_)
  repeat' first | with_reducible assumption

theorem State.readSensors_kept {s : State} (h : Kept d c a pend s) (xs : List Int) :
    Kept d c a pend (State.readSensors s xs) := by
  unfold State.readSensors
  try dsimp only
  repeat' first | (with_reducible first | assumption | apply State.trips_kept | apply kept_foldl) | split
                | intro _ _ _ | intro _ _
  any_goals (refine kept_mk ?_)
  repeat' first | with_reducible assumption

theorem State.endInterval_kept {s : State} (h : Kept d c a pend s) (m : Metering) (stop : Nat) :
    Kept d c a pend (State.endInterval s m stop) := by
  unfold State.endInterval
  try dsimp only
  repeat' first | (with_reducible first | assumption | apply State.stretchCycles_kept
                                        | apply State.dropShares_kept | apply State.attribute_kept
                                        | apply State.readSensors_kept | apply State.traceStep_kept
                                        | apply kept_foldl) | split | intro _ _ _ | intro _ _
  any_goals (refine kept_mk ?_)
  repeat' first | (with_reducible first | assumption | apply State.stretchCycles_kept
                                        | apply State.dropShares_kept | apply State.attribute_kept
                                        | apply State.readSensors_kept | apply State.traceStep_kept
                                        | apply kept_foldl) | split | intro _ _ _ | intro _ _
  any_goals (refine kept_mk ?_)
  repeat' with_reducible first | assumption | apply State.stretchCycles_kept | apply State.dropShares_kept
                               | apply State.attribute_kept

theorem State.grantFall_kept {s : State} (h : Kept d c a pend s) (r : StepReq) :
    Kept d c a pend (State.grantFall s r) := by
  unfold State.grantFall
  try dsimp only
  any_goals (refine kept_mk ?_)
  repeat' first | with_reducible assumption

theorem State.setCore_kept {s : State} (h : Kept d c a pend s) (x2 : Nat) (x3 : CoreUnit) :
    Kept d c a pend (State.setCore s x2 x3) := by
  unfold State.setCore
  try dsimp only
  any_goals (refine kept_mk ?_)
  repeat' first | with_reducible assumption

theorem State.slewCycles_kept {s : State} (h : Kept d c a pend s) (core : Nat) (units : Nat) :
    Kept d c a pend (State.slewCycles s core units) := by
  unfold State.slewCycles
  try dsimp only
  repeat' first | (with_reducible first | assumption | apply State.count_kept | apply State.setCore_kept
                                        | apply kept_foldl) | split

theorem State.grantRise_kept {s : State} (h : Kept d c a pend s) (r : StepReq) :
    Kept d c a pend (State.grantRise s r) := by
  unfold State.grantRise
  try dsimp only
  any_goals (refine kept_mk ?_)
  repeat' with_reducible first | assumption | apply State.slewCycles_kept | apply State.setCore_kept

theorem State.setSeam_kept {s : State} (h : Kept d c a pend s) (p : Nat) (x3 : SeamPort) :
    Kept d c a pend (State.setSeam s p x3) := by
  unfold State.setSeam
  try dsimp only
  any_goals (refine kept_mk ?_)
  repeat' first | with_reducible assumption

theorem State.movedBytes_kept {s : State} (h : Kept d c a pend s) (p : Nat) (n : Nat) (who : Option (Nat × W32)) :
    Kept d c a pend (State.movedBytes s p n who) := by
  unfold State.movedBytes
  try dsimp only
  repeat' first | (with_reducible first | assumption | apply State.setSeam_kept | apply kept_foldl) | split

theorem State.moved_kept {s : State} (h : Kept d c a pend s) (p : Nat) (k : Packet) (who : Option (Nat × W32)) :
    Kept d c a pend (State.moved s p k who) := by
  unfold State.moved
  try dsimp only
  repeat' first | (with_reducible first | assumption | apply State.movedBytes_kept | apply kept_foldl) | split

theorem State.setChannel_kept {s : State} (h : Kept d c a pend s) (x2 : Channel) :
    Kept d c a pend (State.setChannel s x2) := by
  unfold State.setChannel
  try dsimp only
  any_goals (refine kept_mk ?_)
  repeat' first | with_reducible assumption

theorem State.sendOne_kept {s : State} (h : Kept d c a pend s) (p : Nat) (k : Packet) (rest : List Packet) :
    KeptO d c a pend (State.sendOne s p k rest) := by
  unfold State.sendOne
  try dsimp only
  repeat' first | (with_reducible first | assumption | apply State.count_kept | apply State.setSeam_kept
                                        | apply State.setChannel_kept | apply keptO_none | apply keptO_some
                                        | apply kept_foldl) | split

theorem State.pumpAux_kept {s : State} (h : Kept d c a pend s) (p n : Nat) (done todo : List Packet) :
    Kept d c a pend (State.pumpAux p n done todo s) := by
  induction n generalizing done todo s with
  | zero => exact State.setSeam_kept h _ _
  | succ n ih =>
    cases todo with
    | nil => exact State.setSeam_kept h _ _
    | cons k ks =>
      unfold State.pumpAux
      split
      · exact ih h _ _
      · split
        · exact ih (keptO_of (by assumption) (State.sendOne_kept h _ _ _)) _ _
        · exact ih h _ _

theorem State.pump_kept {s : State} (h : Kept d c a pend s) (p : Nat) :
    Kept d c a pend (State.pump s p) := by
  unfold State.pump
  try dsimp only
  repeat' with_reducible first | assumption | apply State.pumpAux_kept

theorem State.send_kept {s : State} (h : Kept d c a pend s) (p : Nat) (k : Packet) (who : optParam (Option (Nat ×
    W32)) none) :
    Kept d c a pend (State.send s p k who) := by
  unfold State.send
  try dsimp only
  repeat' with_reducible first | assumption | apply State.moved_kept | apply State.pump_kept
                               | apply State.setSeam_kept

theorem State.mwrs_kept {s : State} (h : Kept d c a pend s) (who : Option (Nat × W32)) (ep : Nat) (x4 : Nat) (bs :
    Bytes) :
    Kept d c a pend (State.mwrs s who ep x4 bs) := by
  unfold State.mwrs
  try dsimp only
  repeat' first | (with_reducible first | assumption | apply State.send_kept | apply kept_foldl) | split | intro _ _ _

theorem State.store_kept {s : State} (h : Kept d c a pend s) (ep : Nat) (x3 : Nat) (bs : Bytes) :
    Kept d c a pend (State.store s ep x3 bs) := by
  unfold State.store
  try dsimp only
  repeat' with_reducible first | assumption | apply State.mwrs_kept | apply State.put_kept

theorem State.contextLines_kept {s : State} (h : Kept d c a pend s) (ctx : Nat) (x3 : Nat) (n : Nat) :
    Kept d c a pend (State.contextLines s ctx x3 n) := by
  unfold State.contextLines
  try dsimp only
  repeat' with_reducible first | assumption | apply State.atPort_kept

theorem State.putFor_kept {s : State} (h : Kept d c a pend s) (ctx : Nat) (x3 : Nat) (bs : Bytes) :
    Kept d c a pend (State.putFor s ctx x3 bs) := by
  unfold State.putFor
  try dsimp only
  repeat' with_reducible first | assumption | apply State.contextLines_kept | apply State.lay_kept

theorem State.storeFor_kept {s : State} (h : Kept d c a pend s) (ctx : Nat) (x3 : Nat) (bs : Bytes) :
    Kept d c a pend (State.storeFor s ctx x3 bs) := by
  unfold State.storeFor
  try dsimp only
  repeat' with_reducible first | assumption | apply State.mwrs_kept | apply State.putFor_kept

theorem State.storeAs_kept {s : State} (h : Kept d c a pend s) (pocket : Bool) (ctx : Nat) (x4 : Nat) (bs : Bytes) :
    Kept d c a pend (State.storeAs s pocket ctx x4 bs) := by
  unfold State.storeAs
  try dsimp only
  repeat' first | (with_reducible first | assumption | apply State.store_kept | apply State.storeFor_kept
                                        | apply kept_foldl) | split

theorem State.bounceStore_kept {s : State} (h : Kept d c a pend s) (ctx : Nat) (x3 : Nat) (bs : Bytes) (pocket :
    optParam Bool false) :
    Kept d c a pend (State.bounceStore s ctx x3 bs pocket) := by
  unfold State.bounceStore
  try dsimp only
  repeat' first | (with_reducible first | assumption | apply State.storeAs_kept | apply State.setCtx_kept
                                        | apply kept_foldl) | split

theorem State.l2Invalidate_kept {s : State} (h : Kept d c a pend s) (xs : List (Nat × Nat)) :
    Kept d c a pend (State.l2Invalidate s xs) := by
  unfold State.l2Invalidate
  try dsimp only
  any_goals (refine kept_mk ?_)
  repeat' first | with_reducible assumption

theorem State.dropCopies_kept {s : State} (h : Kept d c a pend s) (xs : List (Nat × Nat)) :
    Kept d c a pend (State.dropCopies s xs) := by
  unfold State.dropCopies
  try dsimp only
  repeat' first | (with_reducible first | assumption | apply State.count_kept | apply State.setCore_kept
                                        | apply kept_foldl) | split | intro _ _ _

theorem State.writeReceipt_kept {s : State} (h : Kept d c a pend s) (e : Entry) (rs : List Run) (kind : Nat) (id :
    Nat) (commands : Nat) (x7 : Energy) :
    Kept d c a pend (State.writeReceipt s e rs kind id commands x7) := by
  unfold State.writeReceipt
  try dsimp only
  repeat' first | (with_reducible first | assumption | apply State.bounceStore_kept | apply State.count_kept
                                        | apply State.setEntry_kept | apply State.l2Invalidate_kept
                                        | apply State.dropCopies_kept | apply kept_foldl) | split | intro _ _ _
                | intro _ _
  any_goals (refine kept_mk ?_)
  repeat' first | (with_reducible first | assumption | apply State.bounceStore_kept | apply State.count_kept
                                        | apply State.setEntry_kept | apply State.l2Invalidate_kept
                                        | apply State.dropCopies_kept | apply kept_foldl) | split | intro _ _ _

theorem energyMarkWork_kept {s : State} (h : Kept d c a pend s) (e : Entry) :
    KeptV d c a pend (energyMarkWork s e) := by
  unfold energyMarkWork
  try dsimp only
  repeat' first | (with_reducible first | assumption | apply State.setCtx_kept | apply keptV_wait
                                        | apply keptV_fail | apply keptV_done | apply kept_foldl) | split

theorem State.setChain_kept {s : State} (h : Kept d c a pend s) (x2 : ChainState) :
    Kept d c a pend (State.setChain s x2) := by
  unfold State.setChain
  try dsimp only
  any_goals (refine kept_mk ?_)
  repeat' first | with_reducible assumption

theorem State.memberEnd_kept {s : State} (h : Kept d c a pend s) (e : Entry) (st : Status) :
    Kept d c a pend (State.memberEnd s e st) := by
  unfold State.memberEnd
  try dsimp only
  repeat' first | (with_reducible first | assumption | apply State.setChain_kept | apply kept_foldl) | split

theorem State.conclude_kept {s : State} (h : Kept d c a pend s) (e : Entry) (st : Status) (result : W32) (sat :
    Bool) :
    Kept d c a pend (State.conclude s e st result sat) := by
  unfold State.conclude
  try dsimp only
  repeat' with_reducible first | assumption | apply State.setEntry_kept

theorem State.scramble_kept {s : State} (h : Kept d c a pend s) (rs : List Run) :
    Kept d c a pend (State.scramble s rs) := by
  unfold State.scramble
  try dsimp only
  repeat' first | (with_reducible first | assumption | apply State.lay_kept | apply kept_foldl) | split
                | intro _ _ _ | intro _ _
  any_goals (refine kept_mk ?_)
  repeat' with_reducible first | assumption | apply State.lay_kept

theorem State.settle_kept {s : State} (h : Kept d c a pend s) (e : Entry) (v : Verdict) (hv : KeptV d c a pend v) :
    Kept d c a pend (s.settle e v) := by
  cases v with
  | wait => exact h
  | fail issues lost => exact State.conclude_kept (State.scramble_kept h _) _ _ _ _
  | done st r sat t => exact State.conclude_kept hv _ _ _ _

theorem State.failPlain_kept {s : State} (h : Kept d c a pend s) (e : Entry) (issues : List Status) (lost : List
    Run) :
    Kept d c a pend (s.failPlain e issues lost) :=
  State.memberEnd_kept (State.settle_kept h e _ keptV_fail) _ _

theorem State.endSteps_kept {s : State} (h : Kept d c a pend s) (who : optParam (Option (Nat × W32)) none) :
    Kept d c a pend (State.endSteps s who) := by
  unfold State.endSteps
  try dsimp only
  repeat' first | (with_reducible first | assumption | apply State.slewCycles_kept | apply kept_foldl) | split
                | intro _ _ _ | intro _ _
  any_goals (refine kept_mk ?_)
  repeat' first | with_reducible assumption

theorem State.releaseQueues_kept {s : State} (h : Kept d c a pend s) (ctx : Nat) (seq : W32) :
    Kept d c a pend (State.releaseQueues s ctx seq) := by
  unfold State.releaseQueues
  try dsimp only
  repeat' first | (with_reducible first | assumption | apply State.endSteps_kept | apply kept_foldl) | split
                | intro _ _ _ | intro _ _
  any_goals (refine kept_mk ?_)
  repeat' first | with_reducible assumption

theorem State.endWork_kept {s : State} (h : Kept d c a pend s) (e : Entry) :
    Kept d c a pend (State.endWork s e) := by
  unfold State.endWork
  try dsimp only
  repeat' with_reducible first | assumption | apply State.releaseQueues_kept | apply State.dropRequests_kept

theorem State.slotsBack_kept {s : State} (h : Kept d c a pend s) (xs : List (Nat × BitVec 8)) :
    Kept d c a pend (State.slotsBack s xs) := by
  unfold State.slotsBack
  try dsimp only
  repeat' first | (with_reducible first | assumption | apply State.dropCopies_kept | apply State.put_kept
                                        | apply kept_foldl) | split | intro _ _ _

theorem State.emptyTaken_kept {s : State} (h : Kept d c a pend s) (e : Entry) :
    Kept d c a pend (State.emptyTaken s e) := by
  unfold State.emptyTaken
  try dsimp only
  repeat' with_reducible first | assumption | apply State.slotsBack_kept

theorem State.failNow_kept {s : State} (h : Kept d c a pend s) (e : Entry) (issues : List Status) (lost : List Run) :
    Kept d c a pend (s.failNow e issues lost) := by
  have hs := fun x => State.failPlain_kept (State.emptyTaken_kept h e) x issues lost
  unfold State.failNow
  exact hs _

theorem State.askEngine_kept {s : State} (h : Kept d c a pend s) (lines : List Nat) :
    Kept d c a pend (State.askEngine s lines) := by
  unfold State.askEngine
  try dsimp only
  repeat' first | (with_reducible first | assumption | apply State.engineLines_kept | apply kept_foldl) | split
                | intro _ _ _

theorem State.countIf_kept {s : State} (h : Kept d c a pend s) (x2 : Counter) (n : Nat) :
    Kept d c a pend (State.countIf s x2 n) := by
  unfold State.countIf
  try dsimp only
  repeat' first | (with_reducible first | assumption | apply State.count_kept | apply kept_foldl) | split

theorem State.fillLines_kept {s : State} (h : Kept d c a pend s) (k : Nat) (cls : LineClass) (n : Nat) (owner :
    Nat × Bool × Nat) (read : Bool) (lines : List Nat) :
    Kept d c a pend (State.fillLines s k cls n owner read lines) := by
  unfold State.fillLines
  try dsimp only
  repeat' first | (with_reducible first | assumption | apply State.countIf_kept | apply kept_foldl) | split
                | intro _ _ _ | intro _ _
  any_goals (refine kept_mk ?_)
  repeat' first | with_reducible assumption

theorem State.lookLines_kept {s : State} (h : Kept d c a pend s) (k : Nat) (lines : List Nat) (read : optParam
    Bool true) :
    Kept d c a pend (State.lookLines s k lines read) := by
  unfold State.lookLines
  try dsimp only
  repeat' first | (with_reducible first | assumption | apply State.countIf_kept | apply kept_foldl) | split
                | intro _ _ _ | intro _ _
  any_goals (refine kept_mk ?_)
  repeat' first | with_reducible assumption

theorem State.walkFor_kept {s : State} (h : Kept d c a pend s) (k : Nat) (ctx : Nat) (page : Nat) :
    Kept d c a pend (State.walkFor s k ctx page) := by
  unfold State.walkFor
  try dsimp only
  repeat' first | (with_reducible first | assumption | apply State.askEngine_kept | apply State.fillLines_kept
                                        | apply State.lookLines_kept | apply kept_foldl) | split

theorem State.xlate_kept {s : State} (h : Kept d c a pend s) (k : Nat) (ctx : Nat) (pages : List Nat) :
    Kept d c a pend (State.xlate s k ctx pages) := by
  unfold State.xlate
  try dsimp only
  repeat' first | (with_reducible first | assumption | apply State.walkFor_kept | apply State.countIf_kept
                                        | apply State.count_kept | apply kept_foldl) | split | intro _ _ _
                | intro _ _
  any_goals (refine kept_mk ?_)
  repeat' first | (with_reducible first | assumption | apply State.walkFor_kept | apply State.countIf_kept
                                        | apply State.count_kept | apply kept_foldl) | split | intro _ _ _

theorem State.walkNamed_kept {s : State} (h : Kept d c a pend s) (e : Entry) :
    Kept d c a pend (State.walkNamed s e) := by
  unfold State.walkNamed
  try dsimp only
  repeat' first | (with_reducible first | assumption | apply State.xlate_kept | apply kept_foldl) | split

theorem State.failWork_kept {s : State} (h : Kept d c a pend s) (e : Entry) (issues : List Status) (lost : List Run) :
    Kept d c a pend (s.failWork e issues lost) := by
  have hs := State.failNow_kept (State.walkNamed_kept h e) e issues lost
  unfold State.failWork
  exact State.endWork_kept hs _

theorem State.metered_kept {s : State} {t : State} (h : Kept d c a pend s) (h1 : Kept d c a pend t) (ctx : Nat)
    (seq : W32) :
    Kept d c a pend (State.metered s t ctx seq) := by
  unfold State.metered
  try dsimp only
  any_goals (refine kept_mk ?_)
  repeat' first | (with_reducible first | assumption | apply State.onPort_kept | apply kept_foldl) | split
                | intro _ _ _

theorem State.workEnd_kept {s : State} (h : Kept d c a pend s) (e : Entry) (st : Status) :
    Kept d c a pend (State.workEnd s e st) := by
  unfold State.workEnd
  try dsimp only
  repeat' first | (with_reducible first | assumption | apply State.memberEnd_kept | apply State.endWork_kept
                                        | apply kept_foldl) | split | intro _ _ _ | intro _ _
  any_goals (refine kept_mk ?_)
  repeat' with_reducible first | assumption | apply State.memberEnd_kept | apply State.endWork_kept

theorem State.runOp_kept {s : State} (h : Kept d c a pend s) (op : Op) (ctx : Nat) (seq : W32)
    (eff : State → Entry → Verdict) (he : ∀ t e, Kept d c a pend t → KeptV d c a pend (eff t e)) :
    KeptX d c a pend (s.runOp op ctx seq eff) := by
  unfold State.runOp
  split
  · exact h
  · rename_i f _
    split
    · exact State.memberEnd_kept (State.conclude_kept h _ _ _ _) _ _
    · split
      · exact h
      · have g := fun e => he s e h
        split
        · exact h
        · apply keptX_next
          split
          · exact State.failPlain_kept h _ _ _
          · split
            · exact State.endWork_kept (State.failPlain_kept (State.walkNamed_kept h _) _ _ _) _
            · exact State.failPlain_kept (State.walkNamed_kept h _) _ _ _
        · rename_i st r sat t ht
          have hs : Kept d c a pend (s.settle f (.done st r sat t)) :=
            State.settle_kept h _ _ (keptV_done (keptV_of ht (g _)))
          split
          · exact h
          · apply keptX_next
            generalize s.settle f (.done st r sat t) = u at hs
            split
            · exact State.memberEnd_kept hs _ _
            · refine State.metered_kept h ?_ _ _
              split
              · exact State.workEnd_kept hs _ _
              · exact State.memberEnd_kept hs _ _

theorem State.auditCommand_kept {s : State} (h : Kept d c a pend s) (e : Entry) (what : Option Bytes) :
    Kept d c a pend (State.auditCommand s e what) := by
  unfold State.auditCommand
  try dsimp only
  repeat' first | (with_reducible first | assumption | apply State.audited_kept | apply kept_foldl) | split

theorem powerReserveWork_kept {s : State} (h : Kept d c a pend s) (e : Entry) :
    KeptV d c a pend (powerReserveWork s e) := by
  unfold powerReserveWork
  try dsimp only
  repeat' first | (with_reducible first | assumption | apply State.auditCommand_kept | apply keptV_wait
                                        | apply keptV_fail | apply keptV_done | apply kept_foldl) | split
                | intro _ _ _ | intro _ _
  any_goals (refine kept_mk ?_)
  repeat' first | with_reducible assumption

theorem receiptIssueWork_kept {s : State} (h : Kept d c a pend s) (e : Entry) :
    KeptV d c a pend (receiptIssueWork s e) := by
  unfold receiptIssueWork
  try dsimp only
  repeat' first | (with_reducible first | assumption | apply State.writeReceipt_kept | apply State.setCtx_kept
                                        | apply keptV_wait | apply keptV_fail | apply keptV_done
                                        | apply kept_foldl) | split

theorem State.beginStep_kept {s : State} (h : Kept d c a pend s) (e : Entry) (core : Nat) (x4 : Bool) :
    Kept d c a pend (State.beginStep e core s x4) := by
  unfold State.beginStep
  try dsimp only
  repeat' first | (with_reducible first | assumption | apply kept_foldl) | split | intro _ _ _ | intro _ _
  any_goals (refine kept_mk ?_)
  repeat' first | with_reducible assumption

theorem State.beginSteps_kept {s : State} (h : Kept d c a pend s) (e : Entry) (core : Nat) :
    Kept d c a pend (State.beginSteps s e core) := by
  unfold State.beginSteps
  try dsimp only
  repeat' first | (with_reducible first | assumption | apply State.beginStep_kept | apply kept_foldl) | split
                | intro _ _ _

theorem State.bootFail_kept {s : State} (h : Kept d c a pend s) (err : BitVec 4) :
    Kept d c a pend (State.bootFail s err) := by
  unfold State.bootFail
  try dsimp only
  repeat' first | (with_reducible first | assumption | apply State.ibi_kept | apply kept_foldl) | split
                | intro _ _ _ | intro _ _
  any_goals (refine kept_mk ?_)
  repeat' first | with_reducible assumption

theorem State.bootBytes_kept {s : State} (h : Kept d c a pend s) (offset : Nat) (data : Bytes) :
    Kept d c a pend (State.bootBytes s offset data) := by
  unfold State.bootBytes
  try dsimp only
  repeat' first | (with_reducible first | assumption | apply State.bootFail_kept | apply kept_foldl) | split
                | intro _ _ _ | intro _ _
  any_goals (refine kept_mk ?_)
  repeat' first | with_reducible assumption

theorem State.helperFail_kept {s : State} (h : Kept d c a pend s) (err : BitVec 4) :
    Kept d c a pend (State.helperFail s err) := by
  unfold State.helperFail
  try dsimp only
  repeat' first | (with_reducible first | assumption | apply State.bootFail_kept | apply kept_foldl) | split
                | intro _ _ _ | intro _ _
  any_goals (refine kept_mk ?_)
  repeat' first | with_reducible assumption

theorem State.startChecks_kept {s : State} (h : Kept d c a pend s) (mask : BitVec 16) :
    Kept d c a pend (State.startChecks s mask) := by
  unfold State.startChecks
  try dsimp only
  any_goals (refine kept_mk ?_)
  repeat' first | with_reducible assumption

theorem State.releaseCollar_kept {s : State} (h : Kept d c a pend s)  :
    Kept d c a pend (State.releaseCollar s) := by
  unfold State.releaseCollar
  try dsimp only
  repeat' first | (with_reducible first | assumption | apply State.ibi_kept | apply State.startChecks_kept
                                        | apply kept_foldl) | split | intro _ _ _ | intro _ _
  any_goals (refine kept_mk ?_)
  repeat' first | with_reducible assumption

theorem State.freeCredits_kept {s : State} (h : Kept d c a pend s) (p : Nat) (vc : Nat) (size : Nat) :
    Kept d c a pend (State.freeCredits s p vc size) := by
  unfold State.freeCredits
  try dsimp only
  repeat' with_reducible first | assumption | apply State.setSeam_kept

theorem State.takeRx_kept {s : State} (h : Kept d c a pend s) (p : Nat) (kind : PacketKind) (vc : Nat) (ep : Nat)
    (type : Nat) (who : optParam (Option (Nat × W32)) none) :
    Kept d c a pend (State.takeRx s p kind vc ep type who) := by
  unfold State.takeRx
  try dsimp only
  repeat' first | (with_reducible first | assumption | apply State.freeCredits_kept | apply State.moved_kept
                                        | apply State.setSeam_kept | apply kept_foldl) | split

theorem State.setSleeve_kept {s : State} (h : Kept d c a pend s) (k : Nat) (x3 : Sleeve) :
    Kept d c a pend (State.setSleeve s k x3) := by
  unfold State.setSleeve
  try dsimp only
  any_goals (refine kept_mk ?_)
  repeat' first | with_reducible assumption

theorem State.notice_kept {s : State} (h : Kept d c a pend s) (ep : Nat) (ctx : Nat) (kind : Nat) (cqTail : W32) :
    Kept d c a pend (State.notice s ep ctx kind cqTail) := by
  unfold State.notice
  try dsimp only
  repeat' first | (with_reducible first | assumption | apply State.send_kept | apply kept_foldl) | split

theorem State.capChange_kept {s : State} (h : Kept d c a pend s)  :
    Kept d c a pend (State.capChange s) := by
  unfold State.capChange
  try dsimp only
  repeat' with_reducible first | assumption | apply State.ibi_kept | apply State.notice_kept

theorem State.setFault_kept {s : State} (h : Kept d c a pend s) (b : FaultBit) :
    Kept d c a pend (State.setFault s b) := by
  unfold State.setFault
  try dsimp only
  any_goals (refine kept_mk ?_)
  repeat' first | with_reducible assumption

theorem State.resetCore_kept {s : State} (h : Kept d c a pend s) (x2 : Nat) :
    Kept d c a pend (State.resetCore s x2) := by
  unfold State.resetCore
  try dsimp only
  any_goals (refine kept_mk ?_)
  repeat' with_reducible first | assumption | apply State.setCore_kept

theorem State.retireCore_kept {s : State} (h : Kept d c a pend s) (k : Nat) : Kept d c a pend (s.retireCore k) := by
  unfold State.retireCore
  split
  · dsimp only
    refine State.capChange_kept (State.traceRec_kept (State.setFault_kept ?_ _) _ _ _ _ _)
    exact kept_mk h (hc := ⟨and_compl_refl _, and_compl_refl _, and_compl_refl _, and_compl_sub _ _,
        and_compl_refl _, id⟩)
  · exact h

theorem chargeOne_kept {x : Charged} (h : Kept d c a pend x.s) (f : FaultKind × Nat) : Kept d c a pend (chargeOne
    x f).s := by
  unfold chargeOne
  extract_lets k n s1 s2
  split
  · exact h
  · have h2 : Kept d c a pend s2 := State.resetCore_kept (State.count_kept h _ _) _
    clear_value s2
    split
    · exact State.traceFault_kept (State.count_kept h2 _ _) _ _ _ _ _
    · split
      · exact State.setFault_kept h2 _
      · exact State.retireCore_kept (State.traceFault_kept h2 _ _ _ _ _) _

theorem State.charge_kept {s : State} (h : Kept d c a pend s) (e : Entry) (l : List (FaultKind × Nat)) :
    Kept d c a pend (s.charge e l).s := by
  have aux : ∀ (l : List (FaultKind × Nat)) (x : Charged), Kept d c a pend x.s → Kept d c a pend (l.foldl
      chargeOne x).s := by
    intro l
    induction l with
    | nil => exact fun _ g => g
    | cons n l ih => exact fun x g => ih _ (chargeOne_kept g n)
  exact aux l _ h

theorem State.retireGusset_kept {s : State} (h : Kept d c a pend s) (k : Nat) : Kept d c a pend (s.retireGusset k)
    := by
  unfold State.retireGusset
  split
  · dsimp only
    refine State.capChange_kept (State.traceRec_kept (State.setFault_kept (State.setSleeve_kept ?_ _ _) _) _ _ _ _ _)
    exact kept_mk h (hc := ⟨and_compl_refl _, and_compl_refl _, and_compl_refl _, and_compl_refl _, and_compl_sub
        _ _, id⟩)
  · exact h

theorem State.strand_kept {s : State} (h : Kept d c a pend s) (gone : List Nat) (ids : List Nat) :
    Kept d c a pend (State.strand s gone ids) := by
  unfold State.strand
  try dsimp only
  repeat' first | (with_reducible first | assumption | apply State.failWork_kept | apply State.setEntry_kept
                                        | apply kept_foldl) | split | intro _ _ _

theorem State.retireSleeve_kept {s : State} (h : Kept d c a pend s) (k : Nat) : Kept d c a pend (s.retireSleeve k)
    := by
  unfold State.retireSleeve
  split
  · dsimp only
    refine State.capChange_kept (State.traceRec_kept (State.setFault_kept (State.setSleeve_kept ?_ _ _) _) _ _ _ _ _)
    exact kept_mk (State.retireGusset_kept (kept_foldl (fun t i g => State.retireCore_kept g _) h) _)
      (hc := ⟨and_compl_sub _ _, and_compl_refl _, and_compl_refl _, and_compl_refl _, and_compl_refl _, id⟩)
  · exact h

theorem State.addEntry_kept {s : State} (h : Kept d c a pend s) (e : Entry) :
    Kept d c a pend (State.addEntry s e) := by
  unfold State.addEntry
  try dsimp only
  repeat' first | (with_reducible first | assumption | apply State.linePut_kept | apply kept_foldl) | split
                | intro _ _ _ | intro _ _
  any_goals (refine kept_mk ?_)
  repeat' first | (with_reducible first | assumption | apply State.linePut_kept | apply kept_foldl) | split
                | intro _ _ _ | intro _ _
  any_goals (refine kept_mk ?_)
  repeat' first | with_reducible assumption

theorem State.putRecord_kept {s : State} (h : Kept d c a pend s) (ctx : Nat) (rec : Bool → Bytes) :
    Kept d c a pend (State.putRecord s ctx rec) := by
  unfold State.putRecord
  try dsimp only
  repeat' with_reducible first | assumption | apply State.store_kept | apply State.setCtx_kept

theorem State.acceptOne_kept {s : State} (h : Kept d c a pend s) (ctx : Nat) (p : Bytes) (chain : W32) (member :
    Option Nat) (early : Option Status) :
    Kept d c a pend (State.acceptOne s ctx p chain member early) := by
  unfold State.acceptOne
  try dsimp only
  repeat' first | (with_reducible first | assumption | apply State.addEntry_kept | apply State.engineLines_kept
                                        | apply State.setCtx_kept | apply State.putRecord_kept
                                        | apply State.traceRec_kept | apply kept_foldl) | split

theorem State.acceptFailed_kept {s : State} (h : Kept d c a pend s) (ctx : Nat) (p : Bytes) (chain : W32) :
    Kept d c a pend (State.acceptFailed s ctx p chain) := by
  unfold State.acceptFailed
  try dsimp only
  repeat' first | (with_reducible first | assumption | apply State.acceptOne_kept | apply State.conclude_kept
                                        | apply kept_foldl) | split

theorem State.acceptChain_kept {s : State} (h : Kept d c a pend s) (ctx : Nat) (p : Bytes) :
    Kept d c a pend (State.acceptChain s ctx p) := by
  unfold State.acceptChain
  try dsimp only
  repeat' first | (with_reducible first | assumption | apply State.acceptFailed_kept | apply State.setCtx_kept
                                        | apply State.acceptOne_kept | apply kept_foldl) | split | intro _ _ _
                | intro _ _
  any_goals (refine kept_mk ?_)
  repeat' first | (with_reducible first | assumption | apply State.acceptFailed_kept | apply State.setCtx_kept
                                        | apply State.acceptOne_kept | apply kept_foldl) | split | intro _ _ _

theorem State.setFence_kept {s : State} (h : Kept d c a pend s) (n : Nat) (v : W64) :
    Kept d c a pend (State.setFence s n v) := by
  unfold State.setFence
  try dsimp only
  any_goals (refine kept_mk ?_)
  repeat' first | with_reducible assumption

theorem State.signalMark_kept {s : State} (h : Kept d c a pend s) (e : Entry) :
    Kept d c a pend (State.signalMark s e) := by
  unfold State.signalMark
  try dsimp only
  repeat' first | (with_reducible first | assumption | apply State.setFence_kept | apply kept_foldl) | split
                | intro _ _ _ | intro _ _
  any_goals (refine kept_mk ?_)
  repeat' with_reducible first | assumption | apply State.setFence_kept

theorem State.setRetained_kept {s : State} (h : Kept d c a pend s) (v : VRef) (n : Nat) :
    Kept d c a pend (State.setRetained s v n) := by
  unfold State.setRetained
  try dsimp only
  repeat' first | (with_reducible first | assumption | apply kept_foldl) | split | intro _ _ _ | intro _ _
  any_goals (refine kept_mk ?_)
  repeat' first | with_reducible assumption

theorem State.applyRefs_kept {s : State} (h : Kept d c a pend s) (e : Entry) :
    Kept d c a pend (State.applyRefs s e) := by
  unfold State.applyRefs
  try dsimp only
  repeat' first | (with_reducible first | assumption | apply State.setRetained_kept | apply kept_foldl) | split
                | intro _ _ _

theorem State.jobMember_kept {s : State} (h : Kept d c a pend s) (e : Entry) :
    Kept d c a pend (State.jobMember s e) := by
  unfold State.jobMember
  try dsimp only
  repeat' first | (with_reducible first | assumption | apply State.setCtx_kept | apply kept_foldl) | split

theorem State.freeSave_kept {s : State} (h : Kept d c a pend s) (e : Entry) :
    Kept d c a pend (State.freeSave s e) := by
  unfold State.freeSave
  try dsimp only
  repeat' first | (with_reducible first | assumption | apply State.setCtx_kept | apply kept_foldl) | split

theorem State.unpin_kept {s : State} (h : Kept d c a pend s) (mine : Nat × Bool × Nat → Bool) :
    Kept d c a pend (State.unpin s mine) := by
  unfold State.unpin
  try dsimp only
  any_goals (refine kept_mk ?_)
  repeat' first | with_reducible assumption

theorem State.unpromise_kept {s : State} (h : Kept d c a pend s) (ctx : Nat) (seq : W32) :
    Kept d c a pend (State.unpromise s ctx seq) := by
  unfold State.unpromise
  try dsimp only
  any_goals (refine kept_mk ?_)
  repeat' first | with_reducible assumption

theorem State.applyItem_kept {s : State} (h : Kept d c a pend s) (x2 : CommitItem) :
    Kept d c a pend (State.applyItem s x2) := by
  unfold State.applyItem
  try dsimp only
  repeat' first | (with_reducible first | assumption | apply State.put_kept | apply kept_foldl) | split

theorem State.applyItems_kept {s : State} (h : Kept d c a pend s) (items : List CommitItem) :
    Kept d c a pend (State.applyItems s items) := by
  unfold State.applyItems
  try dsimp only
  repeat' first | (with_reducible first | assumption | apply State.applyItem_kept | apply kept_foldl) | split
                | intro _ _ _

theorem State.itemLines_kept {s : State} (h : Kept d c a pend s) (n : Nat) (l : List Bytes) :
    Kept d c a pend (State.itemLines s n l) := by
  induction l generalizing n s with
  | nil => exact h
  | cons b l ih => exact ih (State.linePut_kept h _ _) _

theorem State.writeCommit_kept {s : State} (h : Kept d c a pend s) (ctx : Nat) (seq : W32) (journalled : Bool)
    (items : List CommitItem) :
    Kept d c a pend (State.writeCommit s ctx seq journalled items) := by
  unfold State.writeCommit
  try dsimp only
  repeat' first | (with_reducible first | assumption | apply State.itemLines_kept | apply State.linePut_kept
                                        | apply kept_foldl) | split | intro _ _ _ | intro _ _
  any_goals (refine kept_mk ?_)
  repeat' with_reducible first | assumption | apply State.itemLines_kept | apply State.linePut_kept

theorem State.govCommit_kept {s : State} (h : Kept d c a pend s) (ctx : Nat) (seq : W32) (journalled : Bool)
    (items : List CommitItem) :
    Kept d c a pend (State.govCommit s ctx seq journalled items) := by
  unfold State.govCommit
  try dsimp only
  repeat' with_reducible first | assumption | apply State.l2Invalidate_kept | apply State.dropCopies_kept
                               | apply State.applyItems_kept | apply State.writeCommit_kept

theorem State.zeroRegion_kept {s : State} (h : Kept d c a pend s) (r : Region) (i pages : Nat) :
    Kept d c a pend (s.zeroRegion r i pages) := by
  have aux : ∀ (l : List (Nat × Nat)) (m : List Host.Cell), Memory.wf m = true →
      Memory.wf (l.foldl (fun m x => memZero m x.1 x.2) m) = true := by
    intro l
    induction l with
    | nil => exact fun _ g => g
    | cons x l ih => exact fun m g => ih _ (Memory.wf_memZero g _ _)
  unfold State.zeroRegion
  exact State.l2Invalidate_kept (State.dropCopies_kept
    (h.congr (t := { s with mem := _ }) (aux _ _ h.mem) rfl (Caps.le_refl _) rfl rfl rfl rfl rfl rfl) _) _

theorem State.mergeOne_kept {s : State} (h : Kept d c a pend s) (ctx : Nat) (w : PendRec) :
    Kept d c a pend (State.mergeOne s ctx w) := by
  unfold State.mergeOne
  try dsimp only
  repeat' first | (with_reducible first | assumption | apply State.govCommit_kept | apply State.zeroRegion_kept
                                        | apply State.setCtx_kept | apply kept_foldl) | split

theorem State.mergeAux_kept {s : State} (h : Kept d c a pend s) (ctx : Nat) (l : List PendRec) :
    Kept d c a pend (State.mergeAux ctx l s) := by
  induction l generalizing s with
  | nil => exact h
  | cons w ws ih =>
    unfold State.mergeAux
    split
    · exact ih (State.mergeOne_kept h _ _)
    · exact h

theorem State.mergeStats_kept {s : State} (h : Kept d c a pend s) (ctx : Nat) :
    Kept d c a pend (State.mergeStats s ctx) := by
  unfold State.mergeStats
  try dsimp only
  repeat' with_reducible first | assumption | apply State.mergeAux_kept

theorem State.afterRecord_kept {s : State} (h : Kept d c a pend s) (e : Entry) :
    Kept d c a pend (State.afterRecord s e) := by
  unfold State.afterRecord
  try dsimp only
  repeat' first | (with_reducible first | assumption | apply State.traceRec_kept | apply State.count_kept
                                        | apply State.signalMark_kept | apply State.applyRefs_kept
                                        | apply State.jobMember_kept | apply State.setEntry_kept
                                        | apply State.freeSave_kept | apply State.unpin_kept
                                        | apply State.endWork_kept | apply State.unpromise_kept
                                        | apply State.mergeStats_kept | apply State.notice_kept
                                        | apply kept_foldl) | split | intro _ _ _ | intro _ _
  any_goals (refine kept_mk ?_)
  repeat' with_reducible first | assumption | apply State.traceRec_kept | apply State.count_kept
                               | apply State.signalMark_kept | apply State.applyRefs_kept
                               | apply State.jobMember_kept | apply State.setEntry_kept
                               | apply State.freeSave_kept | apply State.unpin_kept | apply State.endWork_kept

theorem State.putRegion_kept {s : State} (h : Kept d c a pend s) (r : Region) (i : Nat) (bs : Bytes) :
    Kept d c a pend (State.putRegion s r i bs) := by
  unfold State.putRegion
  try dsimp only
  repeat' first | (with_reducible first | assumption | apply State.l2Invalidate_kept
                                        | apply State.dropCopies_kept | apply State.put_kept | apply kept_foldl)
                | split | intro _ _ _

theorem State.putPending_kept {s : State} (h : Kept d c a pend s) (g : Region) (seq : W32) (l : List Nat)
    (rs : List StatRec) : Kept d c a pend (State.putPending s g seq l rs) := by
  induction l generalizing rs s with
  | nil => exact h
  | cons k ks ih =>
    cases rs with
    | nil => exact h
    | cons r rs => exact ih (State.putRegion_kept h _ _ _) _

theorem State.giveStats_kept {s : State} (h : Kept d c a pend s) (e : Entry) :
    Kept d c a pend (State.giveStats s e) := by
  unfold State.giveStats
  try dsimp only
  repeat' first | (with_reducible first | assumption | apply State.mergeStats_kept | apply State.mergeOne_kept
                                        | apply State.putPending_kept | apply State.setCtx_kept
                                        | apply kept_foldl) | split

theorem State.complete_kept {s : State} (h : Kept d c a pend s) (e : Entry) :
    Kept d c a pend (State.complete s e) := by
  unfold State.complete
  try dsimp only
  repeat' first | (with_reducible first | assumption | apply State.dropCopies_kept | apply State.setEntry_kept
                                        | apply State.giveStats_kept | apply State.afterRecord_kept
                                        | apply State.putRecord_kept | apply kept_foldl) | split

theorem State.ledgerLine_kept {s : State} (h : Kept d c a pend s) (ctx : Nat) (x3 : Nat) (r : LedgerRec) :
    Kept d c a pend (State.ledgerLine s ctx x3 r) := by
  unfold State.ledgerLine
  try dsimp only
  repeat' first | (with_reducible first | assumption | apply State.putRegion_kept | apply kept_foldl) | split

theorem State.ledgerTrace_kept {s : State} (h : Kept d c a pend s) (ctx : Nat) (r : LedgerRec) :
    Kept d c a pend (State.ledgerTrace s ctx r) := by
  unfold State.ledgerTrace
  try dsimp only
  repeat' first | (with_reducible first | assumption | apply State.traceRec_kept | apply kept_foldl) | split

theorem State.ledgerPut_kept {s : State} (h : Kept d c a pend s) (ctx : Nat) (r : LedgerRec) (traced : Bool) :
    Kept d c a pend (State.ledgerPut s ctx r traced) := by
  unfold State.ledgerPut
  try dsimp only
  repeat' first | (with_reducible first | assumption | apply State.putRegion_kept | apply State.ledgerLine_kept
                                        | apply State.setCtx_kept | apply State.ledgerTrace_kept
                                        | apply kept_foldl) | split

theorem State.applyPending_kept {s : State} (h : Kept d c a pend s) (ctx : Nat) (from_ : Nat) :
    Kept d c a pend (State.applyPending s ctx from_) := by
  unfold State.applyPending
  try dsimp only
  repeat' first | (with_reducible first | assumption | apply State.ledgerPut_kept | apply State.setCtx_kept
                                        | apply kept_foldl) | split | intro _ _ _

theorem State.disarm_kept {s : State} (h : Kept d c a pend s) (ctx : Nat) (from_ : Nat) (seq : W32) :
    Kept d c a pend (State.disarm s ctx from_ seq) := by
  unfold State.disarm
  try dsimp only
  repeat' first | (with_reducible first | assumption | apply State.applyPending_kept | apply State.setCtx_kept
                                        | apply State.traceRec_kept | apply kept_foldl) | split

theorem State.enterLost_kept {s : State} (h : Kept d c a pend s) (e : Entry) :
    Kept d c a pend (State.enterLost s e) := by
  unfold State.enterLost
  try dsimp only
  repeat' first | (with_reducible first | assumption | apply State.setFault_kept | apply State.setEntry_kept
                                        | apply State.freeSave_kept | apply State.endWork_kept
                                        | apply kept_foldl) | split

theorem State.putLoss_kept {s : State} (h : Kept d c a pend s) (i : Nat) (l : Loss) :
    Kept d c a pend (State.putLoss s i l) := by
  unfold State.putLoss
  try dsimp only
  repeat' first | (with_reducible first | assumption | apply State.journalPut_kept | apply kept_foldl) | split
                | intro _ _ _ | intro _ _
  any_goals (refine kept_mk ?_)
  repeat' first | with_reducible assumption

theorem State.addLoss_kept {s : State} (h : Kept d c a pend s) (part : BitVec 8) (ctx : Nat) (kind : Nat) (addr :
    Nat) (seq : Option W32) :
    Kept d c a pend (State.addLoss s part ctx kind addr seq) := by
  unfold State.addLoss
  try dsimp only
  repeat' first | (with_reducible first | assumption | apply State.putLoss_kept | apply kept_foldl) | split

theorem State.addRegionLoss_kept {s : State} (h : Kept d c a pend s) (ctx : Nat) (r : Region) (seq : Option W32) :
    Kept d c a pend (State.addRegionLoss s ctx r seq) := by
  unfold State.addRegionLoss
  try dsimp only
  repeat' first | (with_reducible first | assumption | apply State.addLoss_kept | apply kept_foldl) | split
                | intro _ _ _ | intro _ _
  any_goals (refine kept_mk ?_)
  repeat' with_reducible first | assumption | apply State.addLoss_kept

theorem State.loseFor_kept {s : State} (h : Kept d c a pend s) (e : Entry) (rs : List Region) :
    Kept d c a pend (State.loseFor s e rs) := by
  unfold State.loseFor
  try dsimp only
  repeat' first | (with_reducible first | assumption | apply State.enterLost_kept
                                        | apply State.addRegionLoss_kept | apply kept_foldl) | split
                | intro _ _ _

theorem State.loseRegionsOf_kept {s : State} (h : Kept d c a pend s) (e : Entry) :
    Kept d c a pend (State.loseRegionsOf s e) := by
  unfold State.loseRegionsOf
  try dsimp only
  repeat' with_reducible first | assumption | apply State.loseFor_kept

theorem State.readNamed_kept {s : State} (h : Kept d c a pend s) (ctx : Nat) (caches : List Nat) (xs : List (Nat ×
    Nat)) :
    Kept d c a pend (State.readNamed s ctx caches xs) := by
  unfold State.readNamed
  try dsimp only
  repeat' first | (with_reducible first | assumption | apply State.engineLines_kept | apply State.xlate_kept
                                        | apply kept_foldl) | split | intro _ _ _

theorem State.place_kept {s : State} (h : Kept d c a pend s) (e : Entry) (issues : List Status) (missed : Bool)
    (quiet : Bool) :
    Kept d c a pend (State.place s e issues missed quiet) := by
  unfold State.place
  try dsimp only
  repeat' first | (with_reducible first | assumption | apply State.traceRec_kept | apply State.readNamed_kept
                                        | apply State.setEntry_kept | apply State.failNow_kept
                                        | apply State.walkNamed_kept | apply kept_foldl) | split

theorem State.passSlot_kept {s : State} (h : Kept d c a pend s) (e : Entry) (i : SlotInfo) (missed : Bool)
    (lastSeq : W32) (lastId : Nat) :
    Kept d c a pend (State.passSlot s e i missed lastSeq lastId) := by
  unfold State.passSlot
  try dsimp only
  repeat' first | (with_reducible first | assumption | apply State.count_kept | apply State.traceRec_kept
                                        | apply State.setCtx_kept | apply State.disarm_kept | apply kept_foldl)
                | split

theorem State.dispatch_kept {s : State} (h : Kept d c a pend s) (e : Entry) :
    Kept d c a pend (State.dispatch s e) := by
  unfold State.dispatch
  try dsimp only
  repeat' first | (with_reducible first | assumption | apply State.loseRegionsOf_kept | apply State.place_kept
                                        | apply State.loseFor_kept | apply State.setEntry_kept
                                        | apply State.applyPending_kept | apply State.passSlot_kept
                                        | apply kept_foldl) | split | intro _ _ _

theorem State.endMembers_kept {s : State} (h : Kept d c a pend s) (x2 : ChainState) (st : Status) :
    Kept d c a pend (State.endMembers s x2 st) := by
  unfold State.endMembers
  try dsimp only
  repeat' first | (with_reducible first | assumption | apply State.workEnd_kept | apply State.conclude_kept
                                        | apply kept_foldl) | split | intro _ _ _

theorem State.noteMembers_kept {s : State} (h : Kept d c a pend s) (x2 : ChainState) (st : Status) :
    Kept d c a pend (State.noteMembers s x2 st) := by
  unfold State.noteMembers
  try dsimp only
  repeat' first | (with_reducible first | assumption | apply State.setEntry_kept | apply kept_foldl) | split
                | intro _ _ _

theorem State.fitStage_kept {s : State} (h : Kept d c a pend s) (x2 : Nat) :
    Kept d c a pend (State.fitStage s x2) := by
  unfold State.fitStage
  try dsimp only
  repeat' with_reducible first | assumption | apply State.countIf_kept | apply State.setCore_kept

theorem State.shrink_kept {s : State} (h : Kept d c a pend s) (x2 : Nat) :
    Kept d c a pend (State.shrink s x2) := by
  unfold State.shrink
  try dsimp only
  repeat' with_reducible first | assumption | apply State.fitStage_kept | apply State.setCore_kept

theorem State.promise_kept {s : State} (h : Kept d c a pend s) (ctx : Nat) (seq : W32) (links : Nat) (l : List Nat)
    (x n : Nat) : Kept d c a pend (State.promise ctx seq links l x n s) := by
  induction l generalizing x n s with
  | nil => exact h
  | cons k ks ih =>
    unfold State.promise
    dsimp only
    refine ih ?_ _ _
    split
    · exact h
    · exact State.shrink_kept (State.setCore_kept h _ _) _

theorem State.refuseOne_kept {s : State} (h : Kept d c a pend s) (ctx : Nat) (p : Bytes) :
    Kept d c a pend (State.refuseOne s ctx p) := by
  unfold State.refuseOne
  try dsimp only
  repeat' with_reducible first | assumption | apply State.putRecord_kept | apply State.count_kept
                               | apply State.setCtx_kept

theorem State.sendFlush_kept {s : State} (h : Kept d c a pend s) (e : Entry) (ps : List Nat) :
    Kept d c a pend (State.sendFlush s e ps) := by
  unfold State.sendFlush
  try dsimp only
  repeat' first | (with_reducible first | assumption | apply State.send_kept | apply kept_foldl) | split
                | intro _ _ _ | intro _ _
  any_goals (refine kept_mk ?_)
  repeat' first | with_reducible assumption

theorem State.ringStore_kept {s : State} (h : Kept d c a pend s) (x2 : ChainState) (k : Nat) (off : Nat) (bs :
    Bytes) :
    Kept d c a pend (State.ringStore s x2 k off bs) := by
  unfold State.ringStore
  try dsimp only
  repeat' first | (with_reducible first | assumption | apply State.dropCopies_kept | apply State.storeFor_kept
                                        | apply State.setChain_kept | apply kept_foldl) | split | intro _ _ _

theorem State.spillLinks_kept {s : State} (h : Kept d c a pend s) (x2 : ChainState) :
    Kept d c a pend (State.spillLinks s x2) := by
  unfold State.spillLinks
  try dsimp only
  repeat' first | (with_reducible first | assumption | apply State.ringStore_kept | apply kept_foldl) | split
                | intro _ _ _

theorem State.offerAll_kept {s : State} (h : Kept d c a pend s) (w : Nat) (rs : List Request) :
    Kept d c a pend (State.offerAll s w rs) := by
  unfold State.offerAll
  try dsimp only
  repeat' first | (with_reducible first | assumption | apply State.admitAt_kept | apply State.onPort_kept
                                        | apply kept_foldl) | split | intro _ _ _

theorem State.noteAsked_kept {s : State} (h : Kept d c a pend s) (id : Nat) (k : Nat) (lines : List Nat) :
    Kept d c a pend (State.noteAsked s id k lines) := by
  unfold State.noteAsked
  try dsimp only
  any_goals (refine kept_mk ?_)
  repeat' first | with_reducible assumption

theorem State.runQueue_kept {s : State} (h : Kept d c a pend s) (e : Entry) (x2 : Nat) (q : Feed × Nat) :
    Kept d c a pend (State.runQueue e x2 s q) := by
  unfold State.runQueue
  try dsimp only
  repeat' first | (with_reducible first | assumption | apply State.xlate_kept | apply State.offerAll_kept
                                        | apply State.noteAsked_kept | apply State.lookLines_kept
                                        | apply State.traceRec_kept | apply State.count_kept | apply kept_foldl)
                | split

theorem State.takeStaged_kept {s : State} (h : Kept d c a pend s) (e : Entry) (x3 : Nat) (fs : List Feed) :
    Kept d c a pend (State.takeStaged s e x3 fs) := by
  unfold State.takeStaged
  try dsimp only
  repeat' first | (with_reducible first | assumption | apply State.count_kept | apply State.setCore_kept
                                        | apply kept_foldl) | split | intro _ _ _ | intro _ _
  any_goals (refine kept_mk ?_)
  repeat' with_reducible first | assumption | apply State.count_kept | apply State.setCore_kept

theorem State.startQueues_kept {s : State} (h : Kept d c a pend s) (e : Entry) (x3 : Nat) :
    Kept d c a pend (State.startQueues s e x3) := by
  unfold State.startQueues
  try dsimp only
  repeat' first | (with_reducible first | assumption | apply State.setCore_kept | apply State.runQueue_kept
                                        | apply State.takeStaged_kept | apply State.fitStage_kept
                                        | apply kept_foldl) | split | intro _ _ _

theorem State.takeQueues_kept {s : State} (h : Kept d c a pend s) (e : Entry) (core : Nat) :
    Kept d c a pend (State.takeQueues s e core) := by
  unfold State.takeQueues
  try dsimp only
  repeat' with_reducible first | assumption | apply State.setCore_kept | apply State.setEntry_kept
                               | apply State.startQueues_kept

theorem State.cancelEntry_kept {s : State} (h : Kept d c a pend s) (e : Entry) :
    Kept d c a pend (State.cancelEntry s e) := by
  unfold State.cancelEntry
  try dsimp only
  repeat' with_reducible first | assumption | apply State.setEntry_kept | apply State.slotsBack_kept
                               | apply State.scramble_kept | apply State.setCtx_kept

theorem State.beginClose_kept {s : State} (h : Kept d c a pend s) (n : Nat) (seq : W32) :
    Kept d c a pend (State.beginClose s n seq) := by
  unfold State.beginClose
  try dsimp only
  repeat' first | (with_reducible first | assumption | apply State.disarm_kept | apply State.traceRec_kept
                                        | apply State.setCtx_kept | apply State.cancelEntry_kept
                                        | apply State.endWork_kept | apply kept_foldl) | split | intro _ _ _

theorem wf_foldl_zero {m : List Host.Cell} (h : Memory.wf m = true) (l : List Nat) :
    Memory.wf (l.foldl (fun m p => memZero m (65536 * p) 65536) m) = true := by
  induction l generalizing m with
  | nil => exact h
  | cons p l ih => exact ih (Memory.wf_memZero h _ _)

theorem State.dropSeals_kept {s : State} (h : Kept d c a pend s) (ctx : Nat) : Kept d c a pend (s.dropSeals ctx) := by
  unfold State.dropSeals
  dsimp only
  refine State.l2Invalidate_kept (State.dropCopies_kept ?_ _) _
  exact h.congr (wf_foldl_zero h.mem _) rfl (Caps.le_refl _) rfl rfl rfl rfl rfl rfl

theorem State.dropLosses_kept {s : State} (h : Kept d c a pend s) (n : Nat) :
    Kept d c a pend (State.dropLosses s n) := by
  unfold State.dropLosses
  try dsimp only
  repeat' first | (with_reducible first | assumption | apply State.journalPut_kept | apply kept_foldl) | split
                | intro _ _ _ | intro _ _
  any_goals (refine kept_mk ?_)
  repeat' first | with_reducible assumption

theorem State.reclaimAux_kept {s : State} (h : Kept d c a pend s) (l : List Entry) : Kept d c a pend
    (State.reclaimAux l s) := by
  induction l generalizing s with
  | nil => exact h
  | cons e es ih =>
    unfold State.reclaimAux
    split
    · dsimp only
      refine ih ?_
      split
      · exact State.journalPut_kept (kept_mk h) _ _
      · exact kept_mk h
    · split
      · exact h
      · exact ih h

theorem State.reclaim_kept {s : State} (h : Kept d c a pend s) : Kept d c a pend s.reclaim := by
  have hr := State.reclaimAux_kept h s.journal.entries
  unfold State.reclaim
  exact kept_mk hr

theorem State.closeContext_kept {s : State} (h : Kept d c a pend s) (n : Nat) :
    Kept d c a pend (State.closeContext s n) := by
  unfold State.closeContext
  try dsimp only
  repeat' first | (with_reducible first | assumption | apply State.cancelEntry_kept | apply State.dropSeals_kept
                                        | apply State.dropLosses_kept | apply State.unpin_kept
                                        | apply State.reclaim_kept | apply State.setCtx_kept
                                        | apply State.endSteps_kept | apply kept_foldl) | split | intro _ _ _
                | intro _ _
  any_goals (refine kept_mk ?_)
  repeat' first | (with_reducible first | assumption | apply State.cancelEntry_kept | apply State.dropSeals_kept
                                        | apply State.dropLosses_kept | apply State.unpin_kept
                                        | apply State.reclaim_kept | apply State.setCtx_kept
                                        | apply State.endSteps_kept | apply kept_foldl) | split | intro _ _ _

theorem State.releaseAll_kept {s : State} (h : Kept d c a pend s) (ctx : Nat) :
    Kept d c a pend (State.releaseAll s ctx) := by
  unfold State.releaseAll
  try dsimp only
  repeat' first | (with_reducible first | assumption | apply State.reclaim_kept | apply State.setEntry_kept
                                        | apply kept_foldl) | split | intro _ _ _

theorem State.openContext_kept {s : State} (h : Kept d c a pend s) (n : Nat) (x3 : Ctx) :
    Kept d c a pend (State.openContext s n x3) := by
  unfold State.openContext
  try dsimp only
  repeat' first | (with_reducible first | assumption | apply State.setCtx_kept | apply State.releaseAll_kept
                                        | apply State.putRegion_kept | apply State.zeroRegion_kept
                                        | apply kept_foldl) | split

theorem chainWork_kept {s : State} (h : Kept d c a pend s) (e : Entry) :
    KeptV d c a pend (chainWork s e) := by
  unfold chainWork
  try dsimp only
  repeat' first | (with_reducible first | assumption | apply keptV_wait | apply keptV_fail | apply keptV_done
                                        | apply kept_foldl) | split

theorem contextCloseWork_kept {s : State} (h : Kept d c a pend s) (e : Entry) :
    KeptV d c a pend (contextCloseWork s e) := by
  unfold contextCloseWork
  try dsimp only
  repeat' first | (with_reducible first | assumption | apply State.auditCommand_kept
                                        | apply State.closeContext_kept | apply keptV_wait | apply keptV_fail
                                        | apply keptV_done | apply kept_foldl) | split

theorem State.asRead_kept {s : State} (h : Kept d c a pend s) (e : Entry) :
    Kept d c a pend (State.asRead s e) := by
  unfold State.asRead
  try dsimp only
  repeat' first | (with_reducible first | assumption | apply State.poke_kept | apply kept_foldl) | split | intro _ _ _

theorem contextOpenWork_kept {s : State} (h : Kept d c a pend s) (e : Entry) :
    KeptV d c a pend (contextOpenWork s e) := by
  unfold contextOpenWork
  try dsimp only
  repeat' first | (with_reducible first | assumption | apply State.asRead_kept | apply State.auditCommand_kept
                                        | apply State.openContext_kept | apply keptV_wait | apply keptV_fail
                                        | apply keptV_done | apply kept_foldl) | split

theorem fenceWork_kept {s : State} (h : Kept d c a pend s) (e : Entry) :
    KeptV d c a pend (fenceWork s e) := by
  unfold fenceWork
  try dsimp only
  repeat' first | (with_reducible first | assumption | apply keptV_wait | apply keptV_fail | apply keptV_done
                                        | apply kept_foldl) | split

theorem nopWork_kept {s : State} (h : Kept d c a pend s) (e : Entry) :
    KeptV d c a pend (nopWork s e) := by
  unfold nopWork
  try dsimp only
  repeat' first | (with_reducible first | assumption | apply keptV_wait | apply keptV_fail | apply keptV_done
                                        | apply kept_foldl) | split

theorem State.rungsFor_kept {s : State} (h : Kept d c a pend s) (e : Entry) :
    Kept d c a pend (State.rungsFor s e) := by
  unfold State.rungsFor
  try dsimp only
  repeat' first | (with_reducible first | assumption | apply State.setCtx_kept | apply kept_foldl) | split

theorem State.bounceView_kept {s : State} (h : Kept d c a pend s) (ctx : Nat) :
    Kept d c a pend (State.bounceView s ctx) := by
  unfold State.bounceView
  try dsimp only
  repeat' first | (with_reducible first | assumption | apply State.poke_kept | apply State.setCtx_kept
                                        | apply kept_foldl) | split | intro _ _ _

theorem State.viewFor_kept {s : State} (h : Kept d c a pend s) (e : Entry) :
    Kept d c a pend (State.viewFor s e) := by
  unfold State.viewFor
  try dsimp only
  repeat' first | (with_reducible first | assumption | apply State.rungsFor_kept | apply State.asRead_kept
                                        | apply State.bounceView_kept | apply State.poke_kept
                                        | apply kept_foldl) | split | intro _ _ _

theorem State.standBack_kept {s : State} (h : Kept d c a pend s) (e : Entry) :
    Kept d c a pend (State.standBack s e) := by
  unfold State.standBack
  try dsimp only
  repeat' first | (with_reducible first | assumption | apply State.setEntry_kept | apply State.endWork_kept
                                        | apply kept_foldl) | split

theorem State.bitError_kept {s : State} (h : Kept d c a pend s) (x2 : CoreFault) :
    Kept d c a pend (State.bitError s x2) := by
  unfold State.bitError
  try dsimp only
  repeat' first | (with_reducible first | assumption | apply State.count_kept | apply kept_foldl) | split
                | intro _ _ _ | intro _ _
  any_goals (refine kept_mk ?_)
  repeat' first | with_reducible assumption

theorem State.bitErrors_kept {s : State} (h : Kept d c a pend s) (faults : List CoreFault) :
    Kept d c a pend (State.bitErrors s faults) := by
  unfold State.bitErrors
  try dsimp only
  repeat' first | (with_reducible first | assumption | apply State.bitError_kept | apply kept_foldl) | split
                | intro _ _ _

theorem State.markSlot_kept {s : State} (h : Kept d c a pend s) (slot : Option (Nat × Nat)) (state : Nat) :
    Kept d c a pend (State.markSlot s slot state) := by
  unfold State.markSlot
  try dsimp only
  repeat' first | (with_reducible first | assumption | apply State.dropCopies_kept | apply State.put_kept
                                        | apply kept_foldl) | split

theorem State.restorePairs_kept {s : State} (h : Kept d c a pend s) (e : Entry) :
    Kept d c a pend (State.restorePairs s e) := by
  unfold State.restorePairs
  try dsimp only
  repeat' first | (with_reducible first | assumption | apply State.countIf_kept | apply kept_foldl) | split

theorem State.countCapped_kept {s : State} (h : Kept d c a pend s) (rs : List Request) :
    Kept d c a pend (State.countCapped s rs) := by
  unfold State.countCapped
  try dsimp only
  repeat' first | (with_reducible first | assumption | apply State.count_kept | apply kept_foldl) | split
                | intro _ _ _ | intro _ _
  any_goals (refine kept_mk ?_)
  repeat' with_reducible first | assumption | apply State.count_kept

theorem State.finishRequests_kept {s : State} (h : Kept d c a pend s) (e : Entry) :
    Kept d c a pend (State.finishRequests s e) := by
  unfold State.finishRequests
  try dsimp only
  repeat' first | (with_reducible first | assumption | apply State.admitAt_kept | apply State.countCapped_kept
                                        | apply State.fillLines_kept | apply kept_foldl) | split | intro _ _ _
                | intro _ _
  any_goals (refine kept_mk ?_)
  repeat' first | with_reducible assumption

theorem State.askHost_kept {s : State} (h : Kept d c a pend s) (ctx : Nat) (rs : List Run) :
    Kept d c a pend (State.askHost s ctx rs) := by
  unfold State.askHost
  try dsimp only
  repeat' first | (with_reducible first | assumption | apply State.movedBytes_kept
                                        | apply State.contextLines_kept | apply kept_foldl) | split
                | intro _ _ _

theorem State.askLines_kept {s : State} (h : Kept d c a pend s) (ctx : Nat) (lines : List Nat) :
    Kept d c a pend (State.askLines s ctx lines) := by
  unfold State.askLines
  try dsimp only
  repeat' first | (with_reducible first | assumption | apply State.contextLines_kept | apply kept_foldl) | split
                | intro _ _ _

theorem State.readRest_kept {s : State} (h : Kept d c a pend s) (e : Entry) (k : Nat) (f : Feed) :
    Kept d c a pend (State.readRest e k s f) := by
  unfold State.readRest
  try dsimp only
  repeat' with_reducible first | assumption | apply State.xlate_kept | apply State.askHost_kept
                               | apply State.askLines_kept | apply State.fillLines_kept
                               | apply State.lookLines_kept

theorem State.readTraffic_kept {s : State} (h : Kept d c a pend s) (e : Entry) :
    Kept d c a pend (State.readTraffic s e) := by
  unfold State.readTraffic
  try dsimp only
  repeat' first | (with_reducible first | assumption | apply State.xlate_kept | apply State.finishRequests_kept
                                        | apply State.askEngine_kept | apply State.askHost_kept
                                        | apply State.askLines_kept | apply State.takeStaged_kept
                                        | apply State.readRest_kept | apply kept_foldl) | split | intro _ _ _

theorem State.viewStore_kept {s : State} (h : Kept d c a pend s) (e : Entry) (w : Nat × Bytes) :
    Kept d c a pend (State.viewStore s e w) := by
  unfold State.viewStore
  try dsimp only
  repeat' first | (with_reducible first | assumption | apply State.setChain_kept | apply State.ringStore_kept
                                        | apply State.bounceStore_kept | apply kept_foldl) | split | intro _ _ _
                | intro _ _
  any_goals (refine kept_mk ?_)
  repeat' with_reducible first | assumption | apply State.setChain_kept

theorem State.rowSteps_kept {s : State} (h : Kept d c a pend s) (e : Entry) (rows : List (Nat × List (Nat × Bytes))) :
    Kept d c a pend (State.rowSteps s e rows) := by
  unfold State.rowSteps
  try dsimp only
  repeat' first | (with_reducible first | assumption | apply State.viewStore_kept | apply kept_foldl) | split
                | intro _ _ _

theorem State.writeLines_kept {s : State} (h : Kept d c a pend s) (e : Entry) (old : List L2Line) (scratch : List
    Run) (rs : List Run) :
    Kept d c a pend (State.writeLines s e old scratch rs) := by
  unfold State.writeLines
  try dsimp only
  repeat' first | (with_reducible first | assumption | apply State.fillLines_kept | apply kept_foldl) | split
                | intro _ _ _ | intro _ _
  any_goals (refine kept_mk ?_)
  repeat' first | with_reducible assumption

theorem State.timedCore_kept {s : State} (h : Kept d c a pend s) (e : Entry) (x3 : Nat) :
    Kept d c a pend (State.timedCore e s x3) := by
  unfold State.timedCore
  try dsimp only
  repeat' first | (with_reducible first | assumption | apply State.count_kept | apply kept_foldl) | split
                | intro _ _ _ | intro _ _
  any_goals (refine kept_mk ?_)
  repeat' first | (with_reducible first | assumption | apply State.count_kept | apply kept_foldl) | split
                | intro _ _ _

theorem State.timedCores_kept {s : State} (h : Kept d c a pend s) (e : Entry) :
    Kept d c a pend (State.timedCores s e) := by
  unfold State.timedCores
  try dsimp only
  repeat' first | (with_reducible first | assumption | apply State.timedCore_kept | apply kept_foldl) | split
                | intro _ _ _

theorem State.applyEffects_kept {s : State} (h : Kept d c a pend s) (e : Entry) (x3 : Delta) :
    Kept d c a pend (State.applyEffects s e x3) := by
  unfold State.applyEffects
  try dsimp only
  repeat' first | (with_reducible first | assumption | apply State.restorePairs_kept
                                        | apply State.readTraffic_kept | apply State.markSlot_kept
                                        | apply State.scramble_kept | apply State.rowSteps_kept
                                        | apply State.viewStore_kept | apply State.applyItems_kept
                                        | apply State.writeCommit_kept | apply State.writeLines_kept
                                        | apply State.dropCopies_kept | apply State.timedCores_kept
                                        | apply State.count_kept | apply State.setCore_kept
                                        | apply State.traceRec_kept | apply kept_foldl) | split | intro _ _ _
                | intro _ _
  any_goals (refine kept_mk ?_)
  repeat' with_reducible first | assumption | apply State.restorePairs_kept | apply State.readTraffic_kept

theorem State.applyDelta_kept {s : State} (h : Kept d c a pend s) (e : Entry) (x3 : Delta) :
    Kept d c a pend (State.applyDelta s e x3) := by
  unfold State.applyDelta
  try dsimp only
  repeat' with_reducible first | assumption | apply State.applyEffects_kept | apply State.conclude_kept

theorem State.runWork_kept {s : State} (h : Kept d c a pend s) (op : Op) (ctx : Nat) (seq : W32) (faults : List
    CoreFault)
    (plan : State → Entry → Plan) : KeptX d c a pend (s.runWork op ctx seq faults plan) := by
  unfold State.runWork
  split
  · exact h
  · split
    · exact State.memberEnd_kept (State.conclude_kept h _ _ _ _) _ _
    · split
      · exact h
      · rename_i e _ _ _ _
        extract_lets failed
        have hf : ∀ i l, Kept d c a pend (failed i l) := by
          intro i l
          refine State.failWork_kept ?_ _ _ _
          split
          · split
            · exact State.count_kept h _ _
            · exact h
          · exact h
        clear_value failed
        split
        · exact State.standBack_kept h _
        · split
          · exact State.standBack_kept h _
          · exact State.standBack_kept (State.count_kept h _ _) _
        · exact hf _ _
        · exact hf _ _
        · split
          · exact h
          · extract_lets x
            have hx : Kept d c a pend x.s := State.charge_kept (State.bitErrors_kept h _) _ _
            clear_value x
            split
            · exact State.failWork_kept (State.markSlot_kept hx _ _) _ _ _
            · split
              · exact State.setEntry_kept hx _
              · exact State.metered_kept h (State.workEnd_kept (State.applyDelta_kept hx _ _) _ _) _ _

theorem signalWork_kept {s : State} (h : Kept d c a pend s) (e : Entry) :
    KeptV d c a pend (signalWork s e) := by
  unfold signalWork
  try dsimp only
  repeat' first | (with_reducible first | assumption | apply State.setFence_kept | apply keptV_wait
                                        | apply keptV_fail | apply keptV_done | apply kept_foldl) | split

theorem waitWork_kept {s : State} (h : Kept d c a pend s) (e : Entry) :
    KeptV d c a pend (waitWork s e) := by
  unfold waitWork
  try dsimp only
  repeat' first | (with_reducible first | assumption | apply keptV_wait | apply keptV_fail | apply keptV_done
                                        | apply kept_foldl) | split

theorem State.warmLoss_kept {s : State} (h : Kept d c a pend s)  :
    Kept d c a pend (State.warmLoss s) := by
  unfold State.warmLoss
  try dsimp only
  any_goals (refine kept_mk ?_)
  repeat' first | with_reducible assumption

theorem State.freeQueues_kept {s : State} (h : Kept d c a pend s)  :
    Kept d c a pend (State.freeQueues s) := by
  unfold State.freeQueues
  try dsimp only
  repeat' first | (with_reducible first | assumption | apply State.endSteps_kept | apply kept_foldl) | split
                | intro _ _ _ | intro _ _
  any_goals (refine kept_mk ?_)
  repeat' first | with_reducible assumption

theorem State.softReset_kept {s : State} (h : Kept d c a pend s)  :
    Kept d c a pend (State.softReset s) := by
  unfold State.softReset
  try dsimp only
  repeat' first | (with_reducible first | assumption | apply State.ibi_kept | apply State.freeQueues_kept
                                        | apply kept_foldl) | split | intro _ _ _ | intro _ _
  any_goals (refine kept_mk ?_)
  repeat' first | with_reducible assumption

theorem State.passCore_kept {s : State} (h : Kept d c a pend s) (n : Nat) (w : Nat × Wait) :
    Kept d c a pend (State.passCore n s w) := by
  unfold State.passCore
  try dsimp only
  repeat' first | (with_reducible first | assumption | apply State.count_kept | apply State.countIf_kept
                                        | apply State.setCore_kept | apply kept_foldl) | split | intro _ _ _
                | intro _ _
  any_goals (refine kept_mk ?_)
  repeat' with_reducible first | assumption | apply State.count_kept | apply State.countIf_kept
                               | apply State.setCore_kept

theorem State.pass_kept {s : State} (h : Kept d c a pend s) (n : Nat) :
    Kept d c a pend (State.pass s n) := by
  unfold State.pass
  try dsimp only
  repeat' first | (with_reducible first | assumption | apply State.passCore_kept | apply kept_foldl) | split
                | intro _ _ _ | intro _ _
  any_goals (refine kept_mk ?_)
  repeat' first | (with_reducible first | assumption | apply State.passCore_kept | apply kept_foldl) | split
                | intro _ _ _

theorem State.setStack_kept {s : State} (h : Kept d c a pend s) (m : Nat) (p : StackPort) :
    Kept d c a pend (State.setStack s m p) := by
  unfold State.setStack
  try dsimp only
  any_goals (refine kept_mk ?_)
  repeat' first | with_reducible assumption

theorem State.readyStack_kept {s : State} (h : Kept d c a pend s) (m : Nat) (x3 : StackPort) :
    Kept d c a pend (State.readyStack s m x3) := by
  unfold State.readyStack
  try dsimp only
  repeat' first | (with_reducible first | assumption | apply State.setStack_kept | apply State.ibi_kept
                                        | apply kept_foldl) | split | intro _ _ _ | intro _ _
  any_goals (refine kept_mk ?_)
  repeat' with_reducible first | assumption | apply State.setStack_kept

theorem State.regionLosses_kept {s : State} (h : Kept d c a pend s) (m : Nat) :
    Kept d c a pend (State.regionLosses s m) := by
  unfold State.regionLosses
  try dsimp only
  repeat' first | (with_reducible first | assumption | apply State.setFault_kept
                                        | apply State.addRegionLoss_kept | apply kept_foldl) | split
                | intro _ _ _

theorem State.loseRegions_kept {s : State} (h : Kept d c a pend s) (gone : Nat × Nat → Bool) :
    Kept d c a pend (State.loseRegions s gone) := by
  unfold State.loseRegions
  try dsimp only
  any_goals (refine kept_mk ?_)
  repeat' first | with_reducible assumption

theorem State.loseEntry_kept {s : State} (h : Kept d c a pend s) (part : BitVec 8) (e : Entry) :
    Kept d c a pend (State.loseEntry s part e) := by
  unfold State.loseEntry
  try dsimp only
  repeat' first | (with_reducible first | assumption | apply State.addLoss_kept | apply State.enterLost_kept
                                        | apply State.addRegionLoss_kept | apply kept_foldl) | split
                | intro _ _ _

theorem State.loseIn_kept {s : State} (h : Kept d c a pend s) (m : Nat) (whole : Bool) :
    Kept d c a pend (State.loseIn s m whole) := by
  unfold State.loseIn
  try dsimp only
  repeat' first | (with_reducible first | assumption | apply State.regionLosses_kept
                                        | apply State.loseRegions_kept | apply State.loseEntry_kept
                                        | apply kept_foldl) | split | intro _ _ _

theorem State.failStack_kept {s : State} (h : Kept d c a pend s) (m : Nat) : Kept d c a pend (s.failStack m) := by
  unfold State.failStack
  split
  · exact h
  · dsimp only
    refine State.capChange_kept (State.loseIn_kept (State.traceFault_kept ?_ _ _ _ _ _) _ _)
    have hc : ∀ j : Nat, Kept d c a pend { (s.setStack m { s.stack m with state := .failed, repeats := []
        }).onPort m Traffic.cleared with
        caps := { s.caps with stks := s.caps.stks &&& ~~~(1#6 <<< m) }
        ready := { s.ready with stks := s.ready.stks &&& ~~~(1#6 <<< m) }
        journal := { s.journal with state := j } } := fun j =>
      kept_mk (State.onPort_kept (State.setStack_kept h m { s.stack m with state := .failed, repeats := [] }) m _)
        (hc := ⟨and_compl_refl _, and_compl_sub _ _, and_compl_refl _, and_compl_refl _, and_compl_refl _, id⟩)
    split
    · exact State.setFault_kept (State.setFault_kept (hc _) _) _
    · exact State.setFault_kept (hc _) _

theorem State.returned_kept {s : State} (h : Kept d c a pend s) (m : Nat) (out : List Request) (aged : Bool) :
    Kept d c a pend (State.returned s m out aged) := by
  unfold State.returned
  try dsimp only
  repeat' first | (with_reducible first | assumption | apply State.fillLines_kept | apply State.admitAt_kept
                                        | apply State.countIf_kept | apply State.countCapped_kept
                                        | apply kept_foldl) | split | intro _ _ _

theorem State.lineBack_kept {s : State} (h : Kept d c a pend s) (m line : Nat) (keep : State → State)
    (hk : ∀ t, Kept d c a pend t → Kept d c a pend (keep t)) : Kept d c a pend (s.lineBack m line keep) := by
  unfold State.lineBack
  dsimp only
  split
  · exact State.count_kept (hk _ h) _ _
  · split
    · exact h
    · exact State.returned_kept (hk _ (State.onPort_kept h _ _)) _ _ _

theorem State.failPc_kept {s : State} (h : Kept d c a pend s) (m : Nat) (pc : Nat) :
    Kept d c a pend (State.failPc s m pc) := by
  unfold State.failPc
  try dsimp only
  repeat' first | (with_reducible first | assumption | apply State.onPort_kept | apply State.setStack_kept
                                        | apply State.traceFault_kept | apply State.setFault_kept
                                        | apply State.count_kept | apply State.failStack_kept
                                        | apply State.capChange_kept | apply State.loseIn_kept
                                        | apply kept_foldl) | split

theorem State.failSeam_kept {s : State} (h : Kept d c a pend s) (p : Nat) : Kept d c a pend (s.failSeam p) := by
  unfold State.failSeam
  dsimp only
  refine State.capChange_kept ?_
  exact kept_mk (State.loseRegions_kept (State.setSeam_kept h _ _) _) (hc := ⟨and_compl_refl _, and_compl_refl _,
      and_compl_sub _ _, and_compl_refl _, and_compl_refl _, id⟩)

theorem State.keepGroups_kept {s : State} (h : Kept d c a pend s) (p : Nat) (tx : BitVec 4) (rx : BitVec 4) :
    Kept d c a pend (State.keepGroups s p tx rx) := by
  unfold State.keepGroups
  try dsimp only
  repeat' first | (with_reducible first | assumption | apply State.setSeam_kept | apply State.traceFault_kept
                                        | apply State.setFault_kept | apply State.failSeam_kept
                                        | apply State.capChange_kept | apply kept_foldl) | split

theorem State.examineRegions_kept {s : State} (h : Kept d c a pend s)  :
    Kept d c a pend (State.examineRegions s) := by
  unfold State.examineRegions
  try dsimp only
  repeat' first | (with_reducible first | assumption | apply State.loseRegionsOf_kept | apply kept_foldl)
                | split | intro _ _ _

theorem State.reactivate_kept {s : State} (h : Kept d c a pend s) (p : Nat) :
    Kept d c a pend (State.reactivate s p) := by
  unfold State.reactivate
  try dsimp only
  repeat' first | (with_reducible first | assumption | apply State.setSeam_kept | apply State.pump_kept
                                        | apply State.ibi_kept | apply State.count_kept | apply kept_foldl)
                | split | intro _ _ _ | intro _ _
  any_goals (refine kept_mk ?_)
  repeat' with_reducible first | assumption | apply State.setSeam_kept

theorem State.dropRx_kept {s : State} (h : Kept d c a pend s) (p : Nat) (vc : Nat) (size : Nat) :
    Kept d c a pend (State.dropRx s p vc size) := by
  unfold State.dropRx
  try dsimp only
  repeat' with_reducible first | assumption | apply State.count_kept | apply State.freeCredits_kept

theorem State.setGroup_kept {s : State} (h : Kept d c a pend s) (k : Nat) (g : RyGroup) :
    Kept d c a pend (State.setGroup s k g) := by
  unfold State.setGroup
  try dsimp only
  any_goals (refine kept_mk ?_)
  repeat' first | with_reducible assumption

theorem State.ryCursor_kept {s : State} (h : Kept d c a pend s) (ctx : Nat) (q : Option W32) (stream : Nat)
    (before : Nat) (rows : Nat) :
    Kept d c a pend (State.ryCursor s ctx q stream before rows) := by
  unfold State.ryCursor
  try dsimp only
  repeat' first | (with_reducible first | assumption | apply State.setEntry_kept | apply kept_foldl) | split

theorem State.sendRy_kept {s : State} (h : Kept d c a pend s) (g : RyGroup) (q : Option W32) (x4 : RyChan) (type :
    Nat) (bs : Bytes) :
    Kept d c a pend (State.sendRy s g q x4 type bs) := by
  unfold State.sendRy
  try dsimp only
  repeat' with_reducible first | assumption | apply State.send_kept

theorem State.sendAck_kept {s : State} (h : Kept d c a pend s) (g : RyGroup) (j : Nat) (n : Nat) :
    Kept d c a pend (State.sendAck s g j n) := by
  unfold State.sendAck
  try dsimp only
  repeat' with_reducible first | assumption | apply State.sendRy_kept

theorem State.sendBlock_kept {s : State} (h : Kept d c a pend s) (k : Nat) (g : RyGroup) (j : Nat) (n : Nat) (y :
    YBlock) (escHere : Bool) (sat : Nat) :
    Kept d c a pend (State.sendBlock s k g j n y escHere sat) := by
  unfold State.sendBlock
  try dsimp only
  repeat' first | (with_reducible first | assumption | apply State.count_kept | apply State.sendRy_kept
                                        | apply State.setGroup_kept | apply kept_foldl) | split

theorem State.ryStart_kept {s : State} (h : Kept d c a pend s) (k : Nat) (g : RyGroup) :
    KeptO d c a pend (State.ryStart s k g) := by
  unfold State.ryStart
  try dsimp only
  repeat' first | (with_reducible first | assumption | apply State.sendBlock_kept | apply keptO_none
                                        | apply keptO_some | apply kept_foldl) | split

theorem State.transitFault_kept {s : State} (h : Kept d c a pend s) (g : RyGroup) (x3 : RyChan) (x4 : RyIn) (j :
    Nat) (n : Nat) :
    Kept d c a pend (State.transitFault s g x3 x4 j n).1 := by
  unfold State.transitFault
  try dsimp only
  repeat' first | (with_reducible first | assumption | apply State.sendRy_kept | apply State.keepGroups_kept
                                        | apply State.examineRegions_kept | apply kept_foldl) | split

theorem State.leaveRound_kept {s : State} (h : Kept d c a pend s) (e : Entry) :
    Kept d c a pend (State.leaveRound s e) := by
  unfold State.leaveRound
  try dsimp only
  repeat' first | (with_reducible first | assumption | apply State.setGroup_kept | apply kept_foldl) | split

theorem State.adderFaults_kept {s : State} (h : Kept d c a pend s) (ctx : Nat) (q : Option W32) (faults : List Nat) :
    Kept d c a pend (s.adderFaults ctx q faults) := by
  unfold State.adderFaults
  split
  · exact h
  · split
    · exact h
    · extract_lets x
      have hx : Kept d c a pend x.s := State.charge_kept h _ _
      clear_value x
      split
      · exact State.memberEnd_kept (State.conclude_kept (State.leaveRound_kept hx _) _ _ _ _) _ _
      · exact State.setEntry_kept hx _

theorem State.ryAdd_kept {s : State} (h : Kept d c a pend s) (k : Nat) (g : RyGroup) (j : Nat) (n : Nat) (y :
    YBlock) (x7 : Contrib) (sat : Bool) :
    Kept d c a pend (State.ryAdd s k g j n y x7 sat) := by
  unfold State.ryAdd
  try dsimp only
  repeat' first | (with_reducible first | assumption | apply State.count_kept | apply State.ryCursor_kept
                                        | apply State.sendAck_kept | apply State.setGroup_kept
                                        | apply State.sendBlock_kept | apply kept_foldl) | split

theorem State.ryTake_kept {s : State} (h : Kept d c a pend s) (k : Nat) (g : RyGroup) :
    KeptO d c a pend (State.ryTake s k g) := by
  unfold State.ryTake
  try dsimp only
  repeat' first | (with_reducible first | assumption | apply State.setGroup_kept | apply State.transitFault_kept
                                        | apply State.adderFaults_kept | apply State.ryAdd_kept
                                        | apply keptO_none | apply keptO_some | apply kept_foldl) | split

theorem State.sendNorm_kept {s : State} (h : Kept d c a pend s) (g : RyGroup) (lap : Nat) (tensor : Nat) (v : W64) :
    Kept d c a pend (State.sendNorm s g lap tensor v) := by
  unfold State.sendNorm
  try dsimp only
  repeat' with_reducible first | assumption | apply State.sendRy_kept

theorem State.beginNorms_kept {s : State} (h : Kept d c a pend s) (k : Nat) (g : RyGroup) :
    Kept d c a pend (State.beginNorms s k g) := by
  unfold State.beginNorms
  try dsimp only
  repeat' first | (with_reducible first | assumption | apply State.setGroup_kept | apply State.sendNorm_kept
                                        | apply kept_foldl) | split | intro _ _ _

theorem State.ryPump_kept {s : State} (h : Kept d c a pend s) (k n : Nat) : Kept d c a pend (State.ryPump k n s) := by
  induction n generalizing s with
  | zero => exact h
  | succ n ih =>
    unfold State.ryPump
    split
    · exact h
    · split
      · exact h
      · split
        · exact ih (keptO_of (by assumption) (State.ryStart_kept h _ _))
        · split
          · exact ih (keptO_of (by assumption) (State.ryTake_kept h _ _))
          · exact State.beginNorms_kept h _ _

theorem State.ryRun_kept {s : State} (h : Kept d c a pend s) (k : Nat) :
    Kept d c a pend (State.ryRun s k) := by
  unfold State.ryRun
  try dsimp only
  repeat' first | (with_reducible first | assumption | apply State.ryPump_kept | apply kept_foldl) | split

theorem State.ryAcked_kept {s : State} (h : Kept d c a pend s) (p : Nat) (ep : Nat) (vc : Nat) (payload : Bytes) :
    Kept d c a pend (State.ryAcked s p ep vc payload) := by
  unfold State.ryAcked
  try dsimp only
  repeat' first | (with_reducible first | assumption | apply State.setGroup_kept | apply State.ryCursor_kept
                                        | apply State.sendAck_kept | apply State.ryRun_kept | apply kept_foldl)
                | split | intro _ _ _

theorem State.putRx_kept {s : State} (h : Kept d c a pend s) (p : Nat) (k : Packet) :
    Kept d c a pend (State.putRx s p k) := by
  unfold State.putRx
  try dsimp only
  repeat' first | (with_reducible first | assumption | apply State.ryAcked_kept | apply State.freeCredits_kept
                                        | apply State.setSeam_kept | apply kept_foldl) | split

theorem State.ryBlockIn_kept {s : State} (h : Kept d c a pend s) (p : Nat) (ep : Nat) (vc : Nat) (block : Bytes)
    (adderFaults : List Nat) :
    Kept d c a pend (State.ryBlockIn s p ep vc block adderFaults) := by
  unfold State.ryBlockIn
  try dsimp only
  repeat' first | (with_reducible first | assumption | apply State.ryRun_kept | apply State.setGroup_kept
                                        | apply State.transitFault_kept | apply State.bounceStore_kept
                                        | apply State.l2Invalidate_kept | apply State.dropCopies_kept
                                        | apply kept_foldl) | split | intro _ _ _

theorem State.authFail_kept {s : State} (h : Kept d c a pend s) (p : Nat) (k : Packet) (x4 : Channel) :
    Kept d c a pend (State.authFail s p k x4) := by
  unfold State.authFail
  try dsimp only
  repeat' first | (with_reducible first | assumption | apply State.count_kept | apply State.freeCredits_kept
                                        | apply State.setChannel_kept | apply State.ryBlockIn_kept
                                        | apply kept_foldl) | split | intro _ _ _ | intro _ _
  any_goals (refine kept_mk ?_)
  repeat' with_reducible first | assumption | apply State.count_kept | apply State.freeCredits_kept
                               | apply State.setChannel_kept

theorem State.rxEncrypted_kept {s : State} (h : Kept d c a pend s) (p : Nat) (x3 : Bytes) (body : Bytes) (tag :
    Bytes) (k : Packet) :
    Kept d c a pend (State.rxEncrypted s p x3 body tag k) := by
  unfold State.rxEncrypted
  try dsimp only
  repeat' first | (with_reducible first | assumption | apply State.dropRx_kept | apply State.putRx_kept
                                        | apply State.setChannel_kept | apply State.authFail_kept
                                        | apply kept_foldl) | split

theorem State.rxPacket_kept {s : State} (h : Kept d c a pend s) (p : Nat) (w : Bytes) :
    Kept d c a pend (State.rxPacket s p w) := by
  unfold State.rxPacket
  try dsimp only
  repeat' first | (with_reducible first | assumption | apply State.count_kept | apply State.rxEncrypted_kept
                                        | apply State.putRx_kept | apply State.dropRx_kept | apply kept_foldl)
                | split

theorem State.rxPackets_kept {s : State} (h : Kept d c a pend s) (p n : Nat) (bs : Bytes) :
    Kept d c a pend (State.rxPackets s p n bs) := by
  induction n generalizing bs s with
  | zero => exact h
  | succ n ih =>
    unfold State.rxPackets
    split
    · exact State.setSeam_kept h _ _
    · split
      · exact State.setSeam_kept h _ _
      · split
        · exact State.setSeam_kept h _ _
        · exact ih (State.rxPacket_kept h _ _) _

theorem State.retrainSeam_kept {s : State} (h : Kept d c a pend s) (p : Nat) :
    Kept d c a pend (State.retrainSeam s p) := by
  unfold State.retrainSeam
  try dsimp only
  repeat' first | (with_reducible first | assumption | apply State.setSeam_kept | apply State.ibi_kept
                                        | apply State.count_kept | apply kept_foldl) | split | intro _ _ _
                | intro _ _
  any_goals (refine kept_mk ?_)
  repeat' with_reducible first | assumption | apply State.setSeam_kept

theorem State.replaySeam_kept {s : State} (h : Kept d c a pend s) (p : Nat) :
    Kept d c a pend (State.replaySeam s p) := by
  unfold State.replaySeam
  try dsimp only
  repeat' first | (with_reducible first | assumption | apply State.count_kept | apply State.setSeam_kept
                                        | apply State.retrainSeam_kept | apply kept_foldl) | split

theorem State.goodFrame_kept {s : State} (h : Kept d c a pend s) (p : Nat) (f : Frame) :
    Kept d c a pend (State.goodFrame s p f) := by
  unfold State.goodFrame
  try dsimp only
  repeat' first | (with_reducible first | assumption | apply State.setSeam_kept | apply State.rxPackets_kept
                                        | apply State.replaySeam_kept | apply State.pump_kept
                                        | apply kept_foldl) | split

theorem State.readWord_kept {s : State} (h : Kept d c a pend s) (src : Source) (off : Nat) :
    Kept d c a pend (State.readWord s src off).2 := by
  unfold State.readWord
  try dsimp only
  repeat' first | (with_reducible first | assumption | apply kept_foldl) | split | intro _ _ _ | intro _ _
  any_goals (refine kept_mk ?_)
  repeat' first | with_reducible assumption

theorem State.readWords_kept {s : State} (h : Kept d c a pend s) (src : Source) (off n : Nat) :
    Kept d c a pend (State.readWords s src off n).2 := by
  induction n generalizing off s with
  | zero => exact h
  | succ n ih => exact ih (State.readWord_kept h _ _) _

theorem State.rcpl_kept {s : State} (h : Kept d c a pend s) (p : Nat) (ep : Nat) (status : Nat) (tag : Nat) (bs :
    Bytes) :
    Kept d c a pend (State.rcpl s p ep status tag bs) := by
  unfold State.rcpl
  try dsimp only
  repeat' with_reducible first | assumption | apply State.send_kept

theorem State.auditWrite_kept {s : State} (h : Kept d c a pend s) (src : Source) (role : Nat) (off : Nat) (v : W32) :
    Kept d c a pend (State.auditWrite s src role off v) := by
  unfold State.auditWrite
  try dsimp only
  repeat' with_reducible first | assumption | apply State.audited_kept

theorem State.roleWrite_kept {s : State} {t : State} (h : Kept d c a pend s) (h1 : Kept d c a pend t) (src :
    Source) (role : Nat) (off : Nat) (v : W32) :
    KeptO d c a pend (State.roleWrite s src role off v t) := by
  unfold State.roleWrite
  try dsimp only
  repeat' first | (with_reducible first | assumption | apply State.auditWrite_kept | apply keptO_none
                                        | apply keptO_some | apply kept_foldl) | split

theorem State.tbWrite_kept {s : State} (h : Kept d c a pend s) (src : Source) (off : Nat) (v : W32) :
    KeptO d c a pend (State.tbWrite s src off v) := by
  unfold State.tbWrite
  try dsimp only
  repeat' first | (with_reducible first | assumption | apply State.roleWrite_kept | apply keptO_none
                                        | apply keptO_some | apply kept_foldl)
                | exact keptO_of (by assumption) (State.roleWrite_kept (by assumption) _ _ _ _) | split
                | intro _ _ _ | intro _ _
  any_goals (refine kept_mk ?_)
  repeat' first | with_reducible assumption

theorem State.doorbell_kept {s : State} (h : Kept d c a pend s) (ctx : Nat) (v : W32) :
    Kept d c a pend (State.doorbell s ctx v) := by
  unfold State.doorbell
  try dsimp only
  repeat' first | (with_reducible first | assumption | apply State.setCtx_kept | apply kept_foldl) | split

theorem State.cqHeadWrite_kept {s : State} (h : Kept d c a pend s) (ctx : Nat) (v : W32) :
    Kept d c a pend (State.cqHeadWrite s ctx v) := by
  unfold State.cqHeadWrite
  try dsimp only
  repeat' first | (with_reducible first | assumption | apply State.setCtx_kept | apply State.reclaim_kept
                                        | apply State.setEntry_kept | apply kept_foldl) | split | intro _ _ _

theorem State.pageWrite_kept {s : State} (h : Kept d c a pend s) (src : Source) (ctx : Nat) (reg : Nat) (v : W32) :
    KeptO d c a pend (State.pageWrite s src ctx reg v) := by
  unfold State.pageWrite
  try dsimp only
  repeat' first | (with_reducible first | assumption | apply State.doorbell_kept | apply State.cqHeadWrite_kept
                                        | apply State.setCtx_kept | apply keptO_none | apply keptO_some
                                        | apply kept_foldl) | split

theorem State.xlateWrite_kept {s : State} (h : Kept d c a pend s) (ctx : Nat) :
    Kept d c a pend (State.xlateWrite s ctx) := by
  unfold State.xlateWrite
  try dsimp only
  repeat' first | (with_reducible first | assumption | apply kept_foldl) | split | intro _ _ _ | intro _ _
  any_goals (refine kept_mk ?_)
  repeat' first | with_reducible assumption

theorem State.enableJournal_kept {s : State} (h : Kept d c a pend s)  :
    Kept d c a pend (State.enableJournal s) := by
  unfold State.enableJournal
  try dsimp only
  repeat' first | (with_reducible first | assumption | apply State.setStack_kept | apply State.setFault_kept
                                        | apply kept_foldl) | split | intro _ _ _ | intro _ _
  any_goals (refine kept_mk ?_)
  repeat' first | with_reducible assumption

theorem State.retireByRequest_kept {s : State} (h : Kept d c a pend s) (x2 : Nat) :
    Kept d c a pend (State.retireByRequest s x2) := by
  unfold State.retireByRequest
  try dsimp only
  repeat' first | (with_reducible first | assumption | apply State.setEntry_kept | apply State.retireCore_kept
                                        | apply kept_foldl) | split | intro _ _ _

theorem State.clearLoss_kept {s : State} (h : Kept d c a pend s) (i : Nat) :
    Kept d c a pend (State.clearLoss s i) := by
  unfold State.clearLoss
  try dsimp only
  repeat' first | (with_reducible first | assumption | apply State.journalPut_kept | apply State.setEntry_kept
                                        | apply kept_foldl) | split | intro _ _ _ | intro _ _
  any_goals (refine kept_mk ?_)
  repeat' first | with_reducible assumption

theorem State.journalWrite_kept {s : State} (h : Kept d c a pend s) (src : Source) (off : Nat) (v : W32) :
    KeptO d c a pend (s.journalWrite src off v) := by
  have place : ∀ k : Journal, KeptO d c a pend (if s.journal.enable then (if s.srcRole src 1 then some s else none)
      else s.roleWrite src 1 off v { s with journal := k }) := by
    intro k
    split
    · split
      · exact h
      · exact keptO_none
    · exact State.roleWrite_kept h (kept_mk h) _ _ _ _
  unfold State.journalWrite
  extract_lets j pl t
  refine ite_elim (place _) ?_
  refine ite_elim (place _) ?_
  refine ite_elim (place _) ?_
  refine ite_elim (place _) ?_
  refine ite_elim ?_ ?_
  · refine ite_elim (ite_elim h keptO_none) ?_
    exact State.roleWrite_kept h (State.enableJournal_kept h) _ _ _ _
  refine ite_elim (ite_elim (State.ibi_kept (kept_mk h)) keptO_none) ?_
  refine ite_elim ?_ ?_
  · refine State.roleWrite_kept h ?_ _ _ _ _
    exact ite_elim' (State.retireByRequest_kept (kept_mk h) _) (kept_mk h)
  refine ite_elim (ite_elim (kept_mk h) keptO_none) ?_
  exact ite_elim (ite_elim (State.clearLoss_kept (kept_mk h) _) keptO_none) keptO_none

theorem State.applyCtx0_kept {s : State} (h : Kept d c a pend s)  :
    Kept d c a pend (State.applyCtx0 s) := by
  unfold State.applyCtx0
  try dsimp only
  repeat' first | (with_reducible first | assumption | apply State.setEntry_kept | apply State.reclaim_kept
                                        | apply State.setCtx_kept | apply State.doorbell_kept
                                        | apply kept_foldl) | split | intro _ _ _ | intro _ _
  any_goals (refine kept_mk ?_)
  repeat' first | (with_reducible first | assumption | apply State.setEntry_kept | apply State.reclaim_kept
                                        | apply State.setCtx_kept | apply State.doorbell_kept
                                        | apply kept_foldl) | split | intro _ _ _

theorem State.ctx0Write_kept {s : State} (h : Kept d c a pend s) (src : Source) (off : Nat) (v : W32) :
    KeptO d c a pend (State.ctx0Write s src off v) := by
  unfold State.ctx0Write
  try dsimp only
  repeat' first | (with_reducible first | assumption | apply State.applyCtx0_kept | apply keptO_none
                                        | apply keptO_some | apply kept_foldl) | split | intro _ _ _ | intro _ _
  any_goals (refine kept_mk ?_)
  repeat' first | with_reducible assumption

theorem State.beltWrite_kept {s : State} (h : Kept d c a pend s) (src : Source) (off : Nat) (v : W32) :
    KeptO d c a pend (s.beltWrite src off v) := by
  unfold State.beltWrite
  extract_lets b v r lo err
  have herr : KeptO d c a pend err := ite_elim (kept_mk h) keptO_none
  clear_value r err
  with_reducible
    repeat' apply ite_elim
    all_goals first | assumption | apply keptO_none | skip
  · exact keptO_some (kept_mk h)
  · exact State.roleWrite_kept h (kept_mk h) _ _ _ _
  · exact State.roleWrite_kept h (kept_mk h) _ _ _ _
  · exact State.roleWrite_kept h (kept_mk h) _ _ _ _

theorem State.closeSessions_kept {s : State} (h : Kept d c a pend s) (dead : Session → Bool) :
    Kept d c a pend (State.closeSessions s dead) := by
  unfold State.closeSessions
  try dsimp only
  repeat' first | (with_reducible first | assumption | apply State.audited_kept | apply kept_foldl) | split
                | intro _ _ _ | intro _ _
  any_goals (refine kept_mk ?_)
  repeat' first | with_reducible assumption

theorem Lining.setKey_audit (l : Lining) (table i : Nat) (k : Option Bytes) :
    (l.setKey table i k).audit = l.audit ∧ (l.setKey table i k).auditHead = l.auditHead ∧
      (l.setKey table i k).bootNonce = l.bootNonce := by
  unfold Lining.setKey
  split
  · exact ⟨rfl, rfl, rfl⟩
  · split <;> exact ⟨rfl, rfl, rfl⟩

theorem State.enrolGo_kept {s : State} (h : Kept d c a pend s) (src : Source) (table i : Nat) (remove : Bool) :
    Kept d c a pend (s.enrolGo src table i remove) := by
  unfold State.enrolGo
  extract_lets key l s1
  have h1 : Kept d c a pend s1 := by
    show Kept d c a pend (match enrolKeys table with | some r => _ | none => _)
    split
    · exact State.closeSessions_kept h _
    · exact h
  split
  · exact kept_mk h
  · have h2 : Kept d c a pend { s1 with lining := { (s1.lining.setKey table i (if remove then none else some key))
      with
        enrolDone := true } } := kept_mk h1 (ha := (Lining.setKey_audit _ _ _ _).1)
      (hh := (Lining.setKey_audit _ _ _ _).2.1) (hn := (Lining.setKey_audit _ _ _ _).2.2)
    split
    · exact h2
    · exact State.audited_kept h2 _ _ _ _ _ _

theorem State.linWrite_kept {s : State} (h : Kept d c a pend s) (src : Source) (off : Nat) (v : W32) :
    KeptO d c a pend (s.linWrite src off v) := by
  unfold State.linWrite
  extract_lets l r
  clear_value r
  with_reducible apply ite_elim
  · exact State.roleWrite_kept h (kept_mk h) _ _ _ _
  with_reducible apply ite_elim
  · exact keptO_some (kept_mk h)
  with_reducible apply ite_elim
  · extract_lets table i remove role
    with_reducible refine ite_elim ?_ keptO_none
    extract_lets
    rename_i table i remove role t
    have ht : Kept d c a pend t := State.auditWrite_kept (kept_mk h) _ _ _ _
    exact keptO_some (ite_elim' (State.enrolGo_kept ht _ _ _ _) ht)
  with_reducible apply ite_elim
  · exact keptO_some (kept_mk h)
  · exact keptO_none

theorem State.tryWrite_kept {s : State} (h : Kept d c a pend s) (src : Source) (off : Nat) (v : W32) :
    KeptO d c a pend (s.tryWrite src off v) := by
  unfold State.tryWrite
  generalize off - 0x010000 = r
  refine @ite_elim d c a pend _ _ _ _ keptO_none ?_
  refine @ite_elim d c a pend _ _ _ _ (State.tbWrite_kept h _ _ _) ?_
  refine @ite_elim d c a pend _ _ _ _ (State.pageWrite_kept h _ _ _ _) ?_
  refine @ite_elim d c a pend _ _ _ _ ?_ ?_
  · exact ite_elim (keptO_some (State.xlateWrite_kept h _)) keptO_none
  refine @ite_elim d c a pend _ _ _ _ (State.journalWrite_kept h _ _ _) ?_
  refine @ite_elim d c a pend _ _ _ _ (State.ctx0Write_kept h _ _ _) ?_
  refine @ite_elim d c a pend _ _ _ _ ?_ ?_
  · with_reducible exact State.beltWrite_kept h src off v
  refine @ite_elim d c a pend _ _ _ _ ?_ keptO_none
  with_reducible exact State.linWrite_kept h src off v

theorem State.regWrite_kept {s : State} (h : Kept d c a pend s) (src : Source) (off : Nat) (v : W32) :
    Kept d c a pend (State.regWrite s src off v).2 := by
  unfold State.regWrite
  try dsimp only
  repeat' first | (with_reducible first | assumption | apply State.count_kept | apply kept_foldl)
                | exact keptO_of (by assumption) (State.tryWrite_kept (by assumption) _ _ _) | split

theorem State.writeWords_kept {s : State} (h : Kept d c a pend s) (src : Source) (off : Nat) (l : List W32) :
    Kept d c a pend (State.writeWords s src off l).2 := by
  induction l generalizing off s with
  | nil => exact h
  | cons w l ih => exact ih (State.regWrite_kept h _ _ _) _

theorem State.channelDenied_kept {s : State} (h : Kept d c a pend s) (p : Nat) (ep : Nat) :
    Kept d c a pend (State.channelDenied s p ep) := by
  unfold State.channelDenied
  try dsimp only
  repeat' first | (with_reducible first | assumption | apply State.setSeam_kept | apply State.conclude_kept
                                        | apply State.setEntry_kept | apply kept_foldl) | split | intro _ _ _

theorem State.spdmAnswer_kept {s : State} (h : Kept d c a pend s) (p : Nat) (ep : Nat) (code : Nat) :
    Kept d c a pend (State.spdmAnswer s p ep code) := by
  unfold State.spdmAnswer
  try dsimp only
  repeat' first | (with_reducible first | assumption | apply State.send_kept | apply kept_foldl) | split
                | intro _ _ _ | intro _ _
  any_goals (refine kept_mk ?_)
  repeat' first | with_reducible assumption

theorem State.endSpdm_kept {s : State} (h : Kept d c a pend s) (id : Nat) :
    Kept d c a pend (State.endSpdm s id) := by
  unfold State.endSpdm
  try dsimp only
  any_goals (refine kept_mk ?_)
  repeat' first | with_reducible assumption

theorem State.meteredFor_kept {s : State} {t : State} (h : Kept d c a pend s) (h1 : Kept d c a pend t) (who :
    Option (Nat × W32)) :
    Kept d c a pend (State.meteredFor s t who) := by
  unfold State.meteredFor
  try dsimp only
  repeat' first | (with_reducible first | assumption | apply State.metered_kept | apply kept_foldl) | split

theorem State.traceRound_kept {s : State} (h : Kept d c a pend s) (k : Nat) (event : Nat) (g : RyGroup) (seq :
    W32) (esc : Nat) :
    Kept d c a pend (State.traceRound s k event g seq esc) := by
  unfold State.traceRound
  try dsimp only
  repeat' with_reducible first | assumption | apply State.traceRec_kept

theorem State.abortRound_kept {s : State} (h : Kept d c a pend s) (k : Nat) (g : RyGroup) (why : Nat) :
    Kept d c a pend (State.abortRound s k g why) := by
  unfold State.abortRound
  try dsimp only
  repeat' with_reducible first | assumption | apply State.traceRound_kept | apply State.count_kept
                               | apply State.setGroup_kept

theorem State.leaveReady_kept {s : State} (h : Kept d c a pend s) (k : Nat) (g : RyGroup) (t : ReadyToken) :
    Kept d c a pend (State.leaveReady s k g t) := by
  unfold State.leaveReady
  try dsimp only
  repeat' first | (with_reducible first | assumption | apply State.abortRound_kept | apply State.traceRound_kept
                                        | apply State.setGroup_kept | apply State.sendRy_kept
                                        | apply State.ryRun_kept | apply kept_foldl) | split

theorem State.passToken_kept {s : State} (h : Kept d c a pend s) (g : RyGroup) (t : ReadyToken) :
    Kept d c a pend (State.passToken s g t) := by
  unfold State.passToken
  try dsimp only
  repeat' with_reducible first | assumption | apply State.sendRy_kept

theorem State.backupCursor_kept {s : State} (h : Kept d c a pend s) (k : Nat) (ctx : Nat) (bs : List (Nat × Nat ×
    YBlock × Contrib)) :
    Kept d c a pend (State.backupCursor s k ctx bs) := by
  unfold State.backupCursor
  try dsimp only
  repeat' first | (with_reducible first | assumption | apply State.ryCursor_kept | apply kept_foldl) | split
                | intro _ _ _

theorem State.settleAs_kept {s : State} (h : Kept d c a pend s) (k : Nat) (g : RyGroup) (how : Nat) :
    Kept d c a pend (State.settleAs s k g how) := by
  unfold State.settleAs
  try dsimp only
  repeat' first | (with_reducible first | assumption | apply State.setGroup_kept | apply State.count_kept
                                        | apply State.passToken_kept | apply kept_foldl) | split

theorem State.settleLate_kept {s : State} (h : Kept d c a pend s) (k : Nat) (g : RyGroup) :
    Kept d c a pend (State.settleLate s k g) := by
  unfold State.settleLate
  try dsimp only
  repeat' with_reducible first | assumption | apply State.settleAs_kept

theorem State.writeNorm_kept {s : State} (h : Kept d c a pend s) (k : Nat) (g : RyGroup) (tensor : Nat) (v : W64) :
    Kept d c a pend (State.writeNorm s k g tensor v) := by
  unfold State.writeNorm
  try dsimp only
  repeat' first | (with_reducible first | assumption | apply State.bounceStore_kept | apply State.setGroup_kept
                                        | apply State.l2Invalidate_kept | apply State.dropCopies_kept
                                        | apply kept_foldl) | split | intro _ _ _

theorem State.passLap_kept {s : State} (h : Kept d c a pend s) (k : Nat) (shard : Nat) (type : Nat) (b : Bytes) :
    Kept d c a pend (State.passLap s k shard type b) := by
  unfold State.passLap
  try dsimp only
  repeat' first | (with_reducible first | assumption | apply State.sendRy_kept | apply State.setGroup_kept
                                        | apply kept_foldl) | split

theorem State.lapStore_kept {s : State} (h : Kept d c a pend s) (k : Nat) (g : RyGroup) (va : Nat) (bs : Bytes) :
    Kept d c a pend (State.lapStore s k g va bs) := by
  unfold State.lapStore
  try dsimp only
  repeat' first | (with_reducible first | assumption | apply State.setGroup_kept | apply State.l2Invalidate_kept
                                        | apply State.dropCopies_kept | apply State.bounceStore_kept
                                        | apply kept_foldl) | split | intro _ _ _

theorem State.lapData_kept {s : State} (h : Kept d c a pend s) (k : Nat) (g : RyGroup) (x4 : RyHead) (b : Bytes) :
    Kept d c a pend (State.lapData s k g x4 b) := by
  unfold State.lapData
  try dsimp only
  repeat' first | (with_reducible first | assumption | apply State.setGroup_kept | apply State.lapStore_kept
                                        | apply State.l2Invalidate_kept | apply State.dropCopies_kept
                                        | apply State.bounceStore_kept | apply kept_foldl) | split | intro _ _ _

theorem State.lapStep_kept {s : State} (h : Kept d c a pend s) (k : Nat) (x3 : Nat × Bytes) :
    Kept d c a pend (State.lapStep s k x3) := by
  unfold State.lapStep
  try dsimp only
  repeat' first | (with_reducible first | assumption | apply State.passLap_kept | apply State.setGroup_kept
                                        | apply State.lapData_kept | apply kept_foldl) | split

theorem State.lapPacket_kept {s : State} (h : Kept d c a pend s) (p : Nat) (ep : Nat) (vc : Nat) (type : Nat) (b :
    Bytes) :
    Kept d c a pend (State.lapPacket s p ep vc type b) := by
  unfold State.lapPacket
  try dsimp only
  repeat' first | (with_reducible first | assumption | apply State.lapStep_kept | apply State.setGroup_kept
                                        | apply kept_foldl) | split

theorem State.lapIn_kept {s : State} (h : Kept d c a pend s) (p : Nat) (ep : Nat) (vc : Nat) (type : Nat) (data :
    Bytes) :
    Kept d c a pend (State.lapIn s p ep vc type data) := by
  unfold State.lapIn
  try dsimp only
  repeat' with_reducible first | assumption | apply State.meteredFor_kept | apply State.lapPacket_kept
                               | apply State.takeRx_kept

theorem State.i3cWords_kept {s : State} (h : Kept d c a pend s) (off : Nat) (l : List W32) :
    Kept d c a pend (State.i3cWords s off l) := by
  induction l generalizing off s with
  | nil => exact h
  | cons w l ih => exact ih (State.regWrite_kept h _ _ _) _

theorem State.i3cRead_kept {s : State} (h : Kept d c a pend s) (off n : Nat) :
    Kept d c a pend (State.i3cRead s off n).2 := by
  induction n generalizing off s with
  | zero => exact h
  | succ n ih => exact ih (State.readWord_kept h _ _) _

theorem State.i3cAnswer_kept {s : State} (h : Kept d c a pend s) (bs : Bytes) :
    Kept d c a pend (State.i3cAnswer s bs) := by
  unfold State.i3cAnswer
  try dsimp only
  any_goals (refine kept_mk ?_)
  repeat' first | with_reducible assumption

theorem State.i3cAddress_kept {s : State} (h : Kept d c a pend s) (x2 : Option (BitVec 7)) :
    Kept d c a pend (State.i3cAddress s x2) := by
  unfold State.i3cAddress
  try dsimp only
  any_goals (refine kept_mk ?_)
  repeat' first | with_reducible assumption

theorem State.tapSelect_kept {s : State} (h : Kept d c a pend s) (i : TapInstr) (out : W32) :
    Kept d c a pend (State.tapSelect s i out) := by
  unfold State.tapSelect
  try dsimp only
  repeat' first | (with_reducible first | assumption | apply kept_foldl) | split | intro _ _ _ | intro _ _
  any_goals (refine kept_mk ?_)
  repeat' first | with_reducible assumption

theorem State.tapDrive_kept {s : State} (h : Kept d c a pend s) (i : TapInstr) (out : W32) :
    Kept d c a pend (State.tapDrive s i out) := by
  unfold State.tapDrive
  try dsimp only
  repeat' first | (with_reducible first | assumption | apply State.tapSelect_kept | apply kept_foldl) | split

theorem State.stopWaiting_kept {s : State} (h : Kept d c a pend s) (e : Entry) :
    Kept d c a pend (State.stopWaiting s e) := by
  unfold State.stopWaiting
  try dsimp only
  repeat' first | (with_reducible first | assumption | apply State.setEntry_kept | apply State.endWork_kept
                                        | apply kept_foldl) | split

theorem State.stopStarted_kept {s : State} (h : Kept d c a pend s) (e : Entry) (x3 : Delta) (v : Saved) :
    Kept d c a pend (State.stopStarted s e x3 v) := by
  unfold State.stopStarted
  try dsimp only
  repeat' first | (with_reducible first | assumption | apply State.countIf_kept | apply State.freeSave_kept
                                        | apply State.rowSteps_kept | apply State.markSlot_kept
                                        | apply State.dropCopies_kept | apply State.scramble_kept
                                        | apply State.setCtx_kept | apply State.traceRec_kept
                                        | apply State.setEntry_kept | apply State.endWork_kept
                                        | apply kept_foldl) | split | intro _ _ _

theorem State.halt_kept {s : State} (h : Kept d c a pend s) (named : List (Nat × Nat × Nat)) (e : Entry) :
    Kept d c a pend (State.halt s named e).1 := by
  unfold State.halt
  try dsimp only
  repeat' first | (with_reducible first | assumption | apply State.stopWaiting_kept
                                        | apply State.stopStarted_kept | apply kept_foldl) | split

theorem State.stopMore_kept {s : State} (h : Kept d c a pend s) (e : Entry) (n k : Nat) (cursors : List (Nat × Nat
    × Nat)) :
    Kept d c a pend (s.stopMore e n k cursors) := by
  have aux : ∀ (l : List Entry) (r : State × Nat), Kept d c a pend r.1 → Kept d c a pend (l.foldl (fun (r : State
      × Nat) x =>
      let h := r.1.halt cursors x
      (h.1, r.2 + h.2)) r).1 := by
    intro l
    induction l with
    | nil => exact fun _ g => g
    | cons x l ih => exact fun r g => ih _ (State.halt_kept g _ _)
  unfold State.stopMore
  extract_lets r s1 v k1 s2
  have h1 : Kept d c a pend s1 := State.countIf_kept (aux _ _ h) _ _
  clear_value s1
  split
  · exact State.setCtx_kept h1 _ _
  · exact State.conclude_kept (State.auditCommand_kept (State.setCtx_kept h1 _ _) _ _) _ _ _ _

theorem State.preemptWork_kept {s : State} (h : Kept d c a pend s) (e : Entry) (cursors : List (Nat × Nat × Nat)) :
    Kept d c a pend (State.preemptWork s e cursors) := by
  unfold State.preemptWork
  try dsimp only
  repeat' first | (with_reducible first | assumption | apply State.conclude_kept | apply State.auditCommand_kept
                                        | apply State.stopMore_kept | apply State.setCtx_kept
                                        | apply kept_foldl) | split

theorem streamDefineEff_kept {s : State} (h : Kept d c a pend s) (e : Entry) :
    KeptV d c a pend (streamDefineEff s e) := by
  unfold streamDefineEff
  try dsimp only
  repeat' first | (with_reducible first | assumption | apply State.unpin_kept | apply State.setCtx_kept
                                        | apply State.asRead_kept | apply keptV_wait | apply keptV_fail
                                        | apply keptV_done | apply kept_foldl) | split

theorem State.fetchEntries_kept {s : State} (h : Kept d c a pend s) (ctx : Nat) (x3 : Stream) (sleeves : List Nat)
    (from_ : Nat) (n : Nat) :
    Kept d c a pend (State.fetchEntries s ctx x3 sleeves from_ n) := by
  unfold State.fetchEntries
  try dsimp only
  repeat' with_reducible first | assumption | apply State.readNamed_kept

theorem State.stageBlock_kept {s : State} (h : Kept d c a pend s) (core : Nat) (ctx : Nat) (stream : Nat) (block :
    Nat) (rs : List Run) :
    Kept d c a pend (State.stageBlock s core ctx stream block rs) := by
  unfold State.stageBlock
  try dsimp only
  any_goals (refine kept_mk ?_)
  repeat' with_reducible first | assumption | apply State.countIf_kept | apply State.setCore_kept

theorem State.takeBlock_kept {s : State} (h : Kept d c a pend s) (x2 : Nat) (ctx : Nat) (x4 : Stream) (b : Nat ×
    List Run) :
    Kept d c a pend (State.takeBlock s x2 ctx x4 b) := by
  unfold State.takeBlock
  try dsimp only
  repeat' with_reducible first | assumption | apply State.stageBlock_kept | apply State.askLines_kept
                               | apply State.fillLines_kept | apply State.lookLines_kept

theorem State.fetchL2_kept {s : State} (h : Kept d c a pend s) (k : Nat) (ctx : Nat) (x4 : Stream) (rs : List Run) :
    Kept d c a pend (State.fetchL2 s k ctx x4 rs) := by
  unfold State.fetchL2
  try dsimp only
  repeat' with_reducible first | assumption | apply State.fillLines_kept | apply State.askLines_kept
                               | apply State.lookLines_kept

theorem State.stopAt_kept {s : State} (h : Kept d c a pend s) (ctx : Nat) (seq : W32) (x4 : Stream) (b : Nat)
    (cores : List Nat) :
    Kept d c a pend (State.stopAt s ctx seq x4 b cores) := by
  unfold State.stopAt
  try dsimp only
  repeat' first | (with_reducible first | assumption | apply State.traceRec_kept | apply State.count_kept
                                        | apply kept_foldl) | split | intro _ _ _

theorem State.setStream_kept {s : State} (h : Kept d c a pend s) (ctx : Nat) (x3 : Stream) :
    Kept d c a pend (State.setStream s ctx x3) := by
  unfold State.setStream
  try dsimp only
  repeat' with_reducible first | assumption | apply State.setCtx_kept

theorem prefetchEff_kept {s : State} (h : Kept d c a pend s) (e : Entry) :
    KeptV d c a pend (prefetchEff s e) := by
  unfold prefetchEff
  try dsimp only
  repeat' first | (with_reducible first | assumption | apply State.xlate_kept | apply State.fetchEntries_kept
                                        | apply State.takeBlock_kept | apply State.fetchL2_kept
                                        | apply State.stopAt_kept | apply State.setStream_kept
                                        | apply keptV_wait | apply keptV_fail | apply keptV_done
                                        | apply kept_foldl) | split | intro _ _ _

theorem multicastEff_kept {s : State} (h : Kept d c a pend s) (slow : List (Nat × Nat)) (e : Entry) :
    KeptV d c a pend (multicastEff slow s e) := by
  unfold multicastEff
  try dsimp only
  repeat' first | (with_reducible first | assumption | apply State.xlate_kept | apply State.fetchEntries_kept
                                        | apply State.fillLines_kept | apply State.askLines_kept
                                        | apply State.takeBlock_kept | apply State.stageBlock_kept
                                        | apply State.stopAt_kept | apply State.traceRec_kept
                                        | apply State.count_kept | apply keptV_wait | apply keptV_fail
                                        | apply keptV_done | apply kept_foldl) | split | intro _ _ _

theorem State.chargeGussets_kept {s : State} (h : Kept d c a pend s) (e : Entry) (l : List Nat) :
    Kept d c a pend (s.chargeGussets e l).s := by
  have one : ∀ (x : Charged) (k : Nat), Kept d c a pend x.s → Kept d c a pend (chargeGusset x k).s := by
    intro x k g
    unfold chargeGusset
    split
    · exact g
    · extract_lets v n s1 e s2 s3
      split
      · exact State.setSleeve_kept (State.traceFault_kept (State.count_kept g _ _) _ _ _ _ _) _ _
      · exact State.setSleeve_kept (State.retireGusset_kept
          (State.traceFault_kept (State.count_kept g _ _) _ _ _ _ _) _) _ _
  have aux : ∀ (l : List Nat) (x : Charged), Kept d c a pend x.s → Kept d c a pend (l.foldl chargeGusset x).s := by
    intro l
    induction l with
    | nil => exact fun _ g => g
    | cons n l ih => exact fun x g => ih _ (one x n g)
  exact aux l _ h

theorem State.runGusset_kept {s : State} (h : Kept d c a pend s) (op : Op) (ctx : Nat) (seq : W32)
    (faults : List CoreFault) (gussets : List GussetFault) (plan : State → Entry → Plan) :
    KeptX d c a pend (s.runGusset op ctx seq faults gussets plan) := by
  unfold State.runGusset
  split
  · exact h
  · split
    · exact State.runWork_kept h _ _ _ _ _
    · split
      · extract_lets faulty x
        split
        · exact State.runWork_kept h _ _ _ _ _
        · have hx : Kept d c a pend x.s := State.chargeGussets_kept (State.bitErrors_kept h _) _ _
          clear_value x
          split
          · exact State.failWork_kept (State.markSlot_kept hx _ _) _ _ _
          · exact State.setEntry_kept hx _
      · exact State.runWork_kept h _ _ _ _ _

theorem versionReleaseEff_kept {s : State} (h : Kept d c a pend s) (e : Entry) :
    KeptV d c a pend (versionReleaseEff s e) := by
  unfold versionReleaseEff
  try dsimp only
  repeat' first | (with_reducible first | assumption | apply State.setRetained_kept | apply keptV_wait
                                        | apply keptV_fail | apply keptV_done | apply kept_foldl) | split

theorem State.openRound_kept {s : State} (h : Kept d c a pend s) (e : Entry) (x3 : RyDesc) :
    Kept d c a pend (State.openRound s e x3).2 := by
  unfold State.openRound
  try dsimp only
  repeat' first | (with_reducible first | assumption | apply State.asRead_kept | apply State.traceRound_kept
                                        | apply State.setEntry_kept | apply State.setGroup_kept
                                        | apply kept_foldl) | split

theorem State.ryWait_kept {s : State} (h : Kept d c a pend s) (ps : List Nat) :
    KeptV d c a pend (State.ryWait s ps) := by
  unfold State.ryWait
  try dsimp only
  repeat' first | (with_reducible first | assumption | apply keptV_wait | apply keptV_fail | apply keptV_done
                                        | apply kept_foldl) | split

theorem ryRoundOpenWork_kept {s : State} (h : Kept d c a pend s) (e : Entry) :
    KeptV d c a pend (ryRoundOpenWork s e) := by
  unfold ryRoundOpenWork
  try dsimp only
  repeat' first | (with_reducible first | assumption | apply State.ryWait_kept | apply State.openRound_kept
                                        | apply keptV_wait | apply keptV_fail | apply keptV_done
                                        | apply kept_foldl) | split

theorem State.ryAgain_kept {s : State} (h : Kept d c a pend s) (e : Entry) :
    Kept d c a pend (State.ryAgain s e) := by
  unfold State.ryAgain
  try dsimp only
  repeat' first | (with_reducible first | assumption | apply State.ryRun_kept | apply kept_foldl) | split

theorem State.startOrSettle_kept {s : State} (h : Kept d c a pend s) (e : Entry) (v : Verdict) (hv : KeptV d c a
    pend v) :
    Kept d c a pend (s.startOrSettle e v) := by
  cases v with
  | wait => exact h
  | fail issues lost =>
    have hs := State.settle_kept (State.leaveRound_kept h e) e _ hv
    exact State.endSteps_kept (State.memberEnd_kept hs _ _) _
  | done st r sat t =>
    unfold State.startOrSettle
    dsimp only
    split
    · generalize Entry.mk .. = f
      refine State.ryAgain_kept ?_ _
      split
      · exact kept_foldl (fun _ _ g => State.beginSteps_kept g _ _) (State.setEntry_kept hv _)
      · exact State.setEntry_kept hv _
    · exact State.metered_kept h (State.endSteps_kept (State.memberEnd_kept (State.settle_kept h _ _ hv) _ _) _) _ _

theorem State.roundWork_kept {s : State} (h : Kept d c a pend s) (e : Entry) (work : State → Entry → Verdict)
    (hw : ∀ t e, Kept d c a pend t → KeptV d c a pend (work t e)) : KeptV d c a pend (s.roundWork e work) := by
  unfold State.roundWork
  split
  · exact h
  · exact hw _ _ h

theorem doneCount_kept {s : State} (h : Kept d c a pend s) (n : Nat) :
    KeptV d c a pend (doneCount n s) := by
  unfold doneCount
  try dsimp only
  repeat' with_reducible first | assumption | apply keptV_wait | apply keptV_fail | apply keptV_done

theorem backupWork_kept {s : State} (h : Kept d c a pend s) (e : Entry) (k : Nat) (g : RyGroup) :
    KeptV d c a pend (backupWork s e k g) := by
  unfold backupWork
  try dsimp only
  repeat' first | (with_reducible first | assumption | apply doneCount_kept | apply State.ryWait_kept
                                        | apply State.sendRy_kept | apply State.setGroup_kept | apply keptV_wait
                                        | apply keptV_fail | apply keptV_done | apply kept_foldl) | split

theorem primaryWork_kept {s : State} (h : Kept d c a pend s) (e : Entry) (k : Nat) (g : RyGroup) :
    KeptV d c a pend (primaryWork s e k g) := by
  unfold primaryWork
  try dsimp only
  repeat' first | (with_reducible first | assumption | apply State.ryWait_kept | apply State.setGroup_kept
                                        | apply State.settleAs_kept | apply State.settleLate_kept
                                        | apply keptV_wait | apply keptV_fail | apply keptV_done
                                        | apply kept_foldl) | split

theorem State.giveLate_kept {s : State} (h : Kept d c a pend s) (k : Nat) (openId : Nat) :
    Kept d c a pend (State.giveLate s k openId) := by
  unfold State.giveLate
  try dsimp only
  repeat' first | (with_reducible first | assumption | apply State.setGroup_kept | apply kept_foldl) | split

theorem lateContribute_kept {s : State} (h : Kept d c a pend s) (e : Entry) (r : RyPast) :
    KeptV d c a pend (lateContribute s e r) := by
  unfold lateContribute
  try dsimp only
  repeat' first | (with_reducible first | assumption | apply doneCount_kept | apply State.giveLate_kept
                                        | apply keptV_wait | apply keptV_fail | apply keptV_done
                                        | apply kept_foldl) | split

theorem ryContributeWork_kept {s : State} (h : Kept d c a pend s) (e : Entry) :
    KeptV d c a pend (ryContributeWork s e) := by
  unfold ryContributeWork
  try dsimp only
  repeat' first | (with_reducible first | assumption | apply backupWork_kept | apply primaryWork_kept
                                        | apply lateContribute_kept | apply keptV_wait | apply keptV_fail
                                        | apply keptV_done | apply kept_foldl) | split

theorem State.noteRound_kept {s : State} (h : Kept d c a pend s) (e : Entry) (esc : Bool) (backup : Bool) :
    Kept d c a pend (State.noteRound s e esc backup) := by
  unfold State.noteRound
  try dsimp only
  repeat' first | (with_reducible first | assumption | apply State.setEntry_kept | apply kept_foldl) | split

theorem ryHopWork_kept {s : State} (h : Kept d c a pend s) (e : Entry) (adderFaults : List Nat) :
    KeptV d c a pend (ryHopWork s e adderFaults) := by
  unfold ryHopWork
  try dsimp only
  repeat' first | (with_reducible first | assumption | apply doneCount_kept | apply State.noteRound_kept
                                        | apply State.ryWait_kept | apply State.setGroup_kept
                                        | apply State.adderFaults_kept | apply keptV_wait | apply keptV_fail
                                        | apply keptV_done | apply kept_foldl) | split

theorem State.deliver_kept {s : State} (h : Kept d c a pend s) (e : Entry) (g : RyGroup) :
    Kept d c a pend (State.deliver s e g) := by
  unfold State.deliver
  try dsimp only
  repeat' first | (with_reducible first | assumption | apply State.count_kept | apply State.setChain_kept
                                        | apply kept_foldl) | split | intro _ _ _

theorem ryOwnWork_kept {s : State} (h : Kept d c a pend s) (e : Entry) :
    KeptV d c a pend (ryOwnWork s e) := by
  unfold ryOwnWork
  try dsimp only
  repeat' first | (with_reducible first | assumption | apply doneCount_kept | apply State.noteRound_kept
                                        | apply State.deliver_kept | apply State.ryWait_kept
                                        | apply State.setGroup_kept | apply keptV_wait | apply keptV_fail
                                        | apply keptV_done | apply kept_foldl) | split

theorem State.afterClose_kept {s : State} {t : State} (h : Kept d c a pend s) (h1 : Kept d c a pend t) (e : Entry) :
    Kept d c a pend (State.afterClose s t e) := by
  unfold State.afterClose
  try dsimp only
  repeat' first | (with_reducible first | assumption | apply State.traceRound_kept | apply State.setGroup_kept
                                        | apply State.traceFault_kept | apply kept_foldl) | split | intro _ _ _

theorem ryParamSendWork_kept {s : State} (h : Kept d c a pend s) (e : Entry) :
    KeptV d c a pend (ryParamSendWork s e) := by
  unfold ryParamSendWork
  try dsimp only
  repeat' first | (with_reducible first | assumption | apply State.sendRy_kept | apply State.setGroup_kept
                                        | apply keptV_wait | apply keptV_fail | apply keptV_done
                                        | apply kept_foldl) | split | intro _ _ _ | intro _ _
  any_goals (refine kept_mk ?_)
  repeat' first | (with_reducible first | assumption | apply State.sendRy_kept | apply State.setGroup_kept
                                        | apply keptV_wait | apply keptV_fail | apply keptV_done
                                        | apply kept_foldl) | split | intro _ _ _

theorem State.markReplicas_kept {s : State} (h : Kept d c a pend s) (rs : List RyReplica) (state : Nat) :
    Kept d c a pend (State.markReplicas s rs state) := by
  unfold State.markReplicas
  try dsimp only
  repeat' first | (with_reducible first | assumption | apply State.dropCopies_kept | apply State.put_kept
                                        | apply kept_foldl) | split | intro _ _ _

theorem State.lapBegin_kept {s : State} (h : Kept d c a pend s) (e : Entry) :
    KeptO d c a pend (State.lapBegin s e) := by
  unfold State.lapBegin
  try dsimp only
  repeat' first | (with_reducible first | assumption | apply State.lapStep_kept | apply State.setGroup_kept
                                        | apply State.setEntry_kept | apply State.markReplicas_kept
                                        | apply keptO_none | apply keptO_some | apply kept_foldl) | split
                | intro _ _ _

theorem State.lapFailed_kept {s : State} (h : Kept d c a pend s) (e : Entry) :
    Kept d c a pend (State.lapFailed s e) := by
  unfold State.lapFailed
  try dsimp only
  repeat' first | (with_reducible first | assumption | apply State.setGroup_kept | apply kept_foldl) | split

theorem govBoundsWork_kept {s : State} (h : Kept d c a pend s) (e : Entry) :
    KeptV d c a pend (govBoundsWork s e) := by
  unfold govBoundsWork
  try dsimp only
  repeat' first | (with_reducible first | assumption | apply State.setCtx_kept | apply State.ledgerPut_kept
                                        | apply keptV_wait | apply keptV_fail | apply keptV_done
                                        | apply kept_foldl) | split

theorem govReadWork_kept {s : State} (h : Kept d c a pend s) (e : Entry) :
    KeptV d c a pend (govReadWork s e) := by
  unfold govReadWork
  try dsimp only
  repeat' first | (with_reducible first | assumption | apply State.bounceStore_kept | apply State.setEntry_kept
                                        | apply State.l2Invalidate_kept | apply State.dropCopies_kept
                                        | apply keptV_wait | apply keptV_fail | apply keptV_done
                                        | apply kept_foldl) | split | intro _ _ _

theorem State.putEpoch_kept {s : State} (h : Kept d c a pend s) (g : Region) (epoch : Bool) (es : List (Nat ×
    Bytes)) :
    Kept d c a pend (State.putEpoch s g epoch es) := by
  unfold State.putEpoch
  try dsimp only
  repeat' first | (with_reducible first | assumption | apply State.putRegion_kept | apply State.zeroRegion_kept
                                        | apply kept_foldl) | split | intro _ _ _

theorem State.closeStep_kept {s : State} (h : Kept d c a pend s) (e : Entry) (recs : List StatRec) (merged : Bool) :
    KeptV d c a pend (State.closeStep s e recs merged) := by
  unfold State.closeStep
  try dsimp only
  repeat' first | (with_reducible first | assumption | apply State.putEpoch_kept | apply State.ledgerLine_kept
                                        | apply State.govCommit_kept | apply State.setCtx_kept
                                        | apply State.ledgerTrace_kept | apply State.setEntry_kept
                                        | apply keptV_wait | apply keptV_fail | apply keptV_done
                                        | apply kept_foldl) | split | intro _ _ _

theorem govStepWork_kept {s : State} (h : Kept d c a pend s) (e : Entry) :
    KeptV d c a pend (govStepWork s e) := by
  unfold govStepWork
  try dsimp only
  repeat' first | (with_reducible first | assumption | apply State.closeStep_kept | apply keptV_wait
                                        | apply keptV_fail | apply keptV_done | apply kept_foldl) | split

theorem schedLoadWork_kept {s : State} (h : Kept d c a pend s) (e : Entry) :
    KeptV d c a pend (schedLoadWork s e) := by
  unfold schedLoadWork
  try dsimp only
  repeat' first | (with_reducible first | assumption | apply State.asRead_kept | apply State.setCtx_kept
                                        | apply keptV_wait | apply keptV_fail | apply keptV_done
                                        | apply kept_foldl) | split

theorem State.armSched_kept {s : State} (h : Kept d c a pend s) (e : Entry) (x3 : Schedule) (start : Nat) :
    KeptV d c a pend (State.armSched s e x3 start) := by
  unfold State.armSched
  try dsimp only
  repeat' first | (with_reducible first | assumption | apply State.setCtx_kept | apply State.traceRec_kept
                                        | apply keptV_wait | apply keptV_fail | apply keptV_done
                                        | apply kept_foldl) | split

theorem schedArmWork_kept {s : State} (h : Kept d c a pend s) (e : Entry) :
    KeptV d c a pend (schedArmWork s e) := by
  unfold schedArmWork
  try dsimp only
  repeat' first | (with_reducible first | assumption | apply State.disarm_kept | apply State.armSched_kept
                                        | apply keptV_wait | apply keptV_fail | apply keptV_done
                                        | apply kept_foldl) | split

theorem State.putRuns_kept {s : State} (h : Kept d c a pend s) (rs : List Run) (bs : Bytes) :
    Kept d c a pend (State.putRuns s rs bs) := by
  unfold State.putRuns
  try dsimp only
  repeat' first | (with_reducible first | assumption | apply State.l2Invalidate_kept
                                        | apply State.dropCopies_kept | apply State.put_kept | apply kept_foldl)
                | split | intro _ _ _

theorem State.importSeal_kept {s : State} (h : Kept d c a pend s) (e : Entry) (b : Bytes) (key : Bytes) (rs : List
    Run) (x6 : Nat) :
    KeptV d c a pend (State.importSeal s e b key rs x6) := by
  unfold State.importSeal
  try dsimp only
  repeat' first | (with_reducible first | assumption | apply State.setEntry_kept | apply State.putRuns_kept
                                        | apply State.audited_kept | apply keptV_wait | apply keptV_fail
                                        | apply keptV_done | apply kept_foldl) | split | intro _ _ _ | intro _ _
  any_goals (refine kept_mk ?_)
  repeat' with_reducible first | assumption | apply State.setEntry_kept | apply State.putRuns_kept

theorem sealImportWork_kept {s : State} (h : Kept d c a pend s) (e : Entry) :
    KeptV d c a pend (sealImportWork s e) := by
  unfold sealImportWork
  try dsimp only
  repeat' first | (with_reducible first | assumption | apply State.asRead_kept | apply State.importSeal_kept
                                        | apply keptV_wait | apply keptV_fail | apply keptV_done
                                        | apply kept_foldl) | split

theorem attestWork_kept {s : State} (h : Kept d c a pend s) (e : Entry) :
    KeptV d c a pend (attestWork s e) := by
  unfold attestWork
  try dsimp only
  repeat' first | (with_reducible first | assumption | apply State.bounceStore_kept | apply State.setEntry_kept
                                        | apply State.l2Invalidate_kept | apply State.dropCopies_kept
                                        | apply keptV_wait | apply keptV_fail | apply keptV_done
                                        | apply kept_foldl) | split | intro _ _ _

theorem State.challenge_kept {s : State} (h : Kept d c a pend s) (e : Entry) (role : Nat) (ep : Nat) (buf : Nat) :
    KeptV d c a pend (State.challenge s e role ep buf) := by
  unfold State.challenge
  try dsimp only
  repeat' first | (with_reducible first | assumption | apply State.bounceStore_kept | apply State.setEntry_kept
                                        | apply State.l2Invalidate_kept | apply State.dropCopies_kept
                                        | apply keptV_wait | apply keptV_fail | apply keptV_done
                                        | apply kept_foldl) | split | intro _ _ _ | intro _ _
  any_goals (refine kept_mk ?_)
  repeat' first | with_reducible assumption

theorem State.openSession_kept {s : State} (h : Kept d c a pend s) (role : Nat) (ep : Nat) (key : Nat) (slot : Nat) :
    Kept d c a pend (State.openSession s role ep key slot) := by
  unfold State.openSession
  try dsimp only
  repeat' first | (with_reducible first | assumption | apply State.closeSessions_kept | apply State.audited_kept
                                        | apply kept_foldl) | split | intro _ _ _ | intro _ _
  any_goals (refine kept_mk ?_)
  repeat' with_reducible first | assumption | apply State.closeSessions_kept

theorem State.respond_kept {s : State} (h : Kept d c a pend s) (e : Entry) (role : Nat) (ep : Nat) (buf : Nat) :
    KeptV d c a pend (State.respond s e role ep buf) := by
  unfold State.respond
  try dsimp only
  repeat' first | (with_reducible first | assumption | apply State.asRead_kept | apply State.openSession_kept
                                        | apply keptV_wait | apply keptV_fail | apply keptV_done
                                        | apply kept_foldl) | split | intro _ _ _ | intro _ _
  any_goals (refine kept_mk ?_)
  repeat' first | with_reducible assumption

theorem State.closeRole_kept {s : State} (h : Kept d c a pend s) (role : Nat) (ep : Nat) :
    KeptV d c a pend (State.closeRole s role ep) := by
  unfold State.closeRole
  try dsimp only
  repeat' first | (with_reducible first | assumption | apply State.closeSessions_kept | apply keptV_wait
                                        | apply keptV_fail | apply keptV_done | apply kept_foldl) | split

theorem roleSessionWork_kept {s : State} (h : Kept d c a pend s) (e : Entry) :
    KeptV d c a pend (roleSessionWork s e) := by
  unfold roleSessionWork
  try dsimp only
  repeat' first | (with_reducible first | assumption | apply State.challenge_kept | apply State.respond_kept
                                        | apply State.closeRole_kept | apply keptV_wait | apply keptV_fail
                                        | apply keptV_done | apply kept_foldl) | split

theorem State.disable_kept {s : State} (h : Kept d c a pend s) (x : Disabled) : Kept d c a pend (s.disable x) := by
  unfold State.disable
  extract_lets old caps r t
  have ht : Kept d c a pend t := kept_mk h (hc := ⟨and_compl_sub _ _, and_compl_sub _ _, and_compl_sub _ _,
      and_compl_sub _ _,
    and_compl_sub _ _, fun g => (Bool.and_eq_true _ _ ▸ g).1⟩)
  split
  · exact ht
  · exact State.capChange_kept ht

theorem State.loadProfile_kept {s : State} (h : Kept d c a pend s) (x2 : BitVec 384) :
    Kept d c a pend (State.loadProfile s x2) := by
  unfold State.loadProfile
  try dsimp only
  repeat' first | (with_reducible first | assumption | apply State.disable_kept | apply kept_foldl) | split
                | intro _ _ _ | intro _ _
  any_goals (refine kept_mk ?_)
  repeat' first | with_reducible assumption

theorem profileLoadWork_kept {s : State} (h : Kept d c a pend s) (e : Entry) :
    KeptV d c a pend (profileLoadWork s e) := by
  unfold profileLoadWork
  try dsimp only
  repeat' first | (with_reducible first | assumption | apply State.asRead_kept | apply State.auditCommand_kept
                                        | apply State.loadProfile_kept | apply keptV_wait | apply keptV_fail
                                        | apply keptV_done | apply kept_foldl) | split

theorem fwStageWork_kept {s : State} (h : Kept d c a pend s) (e : Entry) :
    KeptV d c a pend (fwStageWork s e) := by
  unfold fwStageWork
  try dsimp only
  repeat' first | (with_reducible first | assumption | apply State.asRead_kept | apply State.auditCommand_kept
                                        | apply keptV_wait | apply keptV_fail | apply keptV_done
                                        | apply kept_foldl) | split | intro _ _ _ | intro _ _
  any_goals (refine kept_mk ?_)
  repeat' first | with_reducible assumption

theorem State.commitFirmware_kept {s : State} (h : Kept d c a pend s) (e : Entry) (body : Bytes) :
    Kept d c a pend (State.commitFirmware s e body) := by
  unfold State.commitFirmware
  try dsimp only
  repeat' first | (with_reducible first | assumption | apply State.auditCommand_kept
                                        | apply State.softReset_kept | apply kept_foldl) | split | intro _ _ _
                | intro _ _
  any_goals (refine kept_mk ?_)
  repeat' with_reducible first | assumption | apply State.auditCommand_kept

theorem State.fwCommitStep_kept {s : State} (h : Kept d c a pend s) (e : Entry) :
    Kept d c a pend (State.fwCommitStep s e) := by
  unfold State.fwCommitStep
  try dsimp only
  repeat' first | (with_reducible first | assumption | apply State.conclude_kept | apply State.auditCommand_kept
                                        | apply State.commitFirmware_kept | apply kept_foldl) | split
                | intro _ _ _ | intro _ _
  any_goals (refine kept_mk ?_)
  repeat' first | with_reducible assumption

theorem traceCtlWork_kept {s : State} (h : Kept d c a pend s) (e : Entry) :
    KeptV d c a pend (traceCtlWork s e) := by
  unfold traceCtlWork
  try dsimp only
  repeat' first | (with_reducible first | assumption | apply State.auditCommand_kept | apply keptV_wait
                                        | apply keptV_fail | apply keptV_done | apply kept_foldl) | split
                | intro _ _ _ | intro _ _
  any_goals (refine kept_mk ?_)
  repeat' first | with_reducible assumption

theorem State.traceAgain_kept {s : State} (h : Kept d c a pend s) (ctx : Nat) (seq : W32) (tag : Nat) :
    Kept d c a pend (State.traceAgain s ctx seq tag).2 := by
  unfold State.traceAgain
  try dsimp only
  repeat' first | (with_reducible first | assumption | apply State.traceWrite_kept | apply kept_foldl) | split
                | intro _ _ _ | intro _ _
  any_goals (refine kept_mk ?_)
  repeat' with_reducible first | assumption | apply State.traceWrite_kept

theorem traceTriggerWork_kept {s : State} (h : Kept d c a pend s) (e : Entry) :
    KeptV d c a pend (traceTriggerWork s e) := by
  unfold traceTriggerWork
  try dsimp only
  repeat' first | (with_reducible first | assumption | apply State.traceAgain_kept | apply State.traceTrip_kept
                                        | apply keptV_wait | apply keptV_fail | apply keptV_done
                                        | apply kept_foldl) | split

theorem State.hitEntry_kept {s : State} (h : Kept d c a pend s) (x2 : Nat) (e : Entry) :
    Kept d c a pend (State.hitEntry s x2 e) := by
  unfold State.hitEntry
  try dsimp only
  repeat' with_reducible first | assumption | apply State.setEntry_kept | apply State.endWork_kept
                               | apply State.count_kept

theorem State.resetSleeve_kept {s : State} (h : Kept d c a pend s) (k : Nat) :
    Kept d c a pend (State.resetSleeve s k) := by
  unfold State.resetSleeve
  try dsimp only
  repeat' first | (with_reducible first | assumption | apply State.endSteps_kept | apply kept_foldl) | split
                | intro _ _ _ | intro _ _
  any_goals (refine kept_mk ?_)
  repeat' first | with_reducible assumption

theorem State.readRing_kept {s : State} (h : Kept d c a pend s)  :
    Kept d c a pend (State.readRing s) := by
  unfold State.readRing
  try dsimp only
  any_goals (refine kept_mk ?_)
  repeat' first | with_reducible assumption

theorem State.emptySlots_kept {s : State} (h : Kept d c a pend s)  :
    Kept d c a pend (State.emptySlots s) := by
  unfold State.emptySlots
  try dsimp only
  any_goals (refine kept_mk ?_)
  repeat' first | (with_reducible first | assumption | apply State.markSlot_kept | apply kept_foldl) | split
                | intro _ _ _

theorem State.restoreHeads_kept {s : State} (h : Kept d c a pend s)  :
    Kept d c a pend (State.restoreHeads s) := by
  unfold State.restoreHeads
  try dsimp only
  repeat' first | (with_reducible first | assumption | apply State.putRegion_kept | apply kept_foldl) | split
                | intro _ _ _

theorem State.applyCommits_kept {s : State} (h : Kept d c a pend s)  :
    Kept d c a pend (State.applyCommits s) := by
  unfold State.applyCommits
  try dsimp only
  repeat' first | (with_reducible first | assumption | apply State.l2Invalidate_kept
                                        | apply State.dropCopies_kept | apply State.applyItems_kept
                                        | apply kept_foldl) | split | intro _ _ _

theorem State.replayWindows_kept {s : State} (h : Kept d c a pend s)  :
    Kept d c a pend (State.replayWindows s) := by
  unfold State.replayWindows
  try dsimp only
  repeat' first | (with_reducible first | assumption | apply State.sendRy_kept | apply kept_foldl) | split
                | intro _ _ _

theorem State.recoverEntry_kept {s : State} (h : Kept d c a pend s) (e : Entry) :
    Kept d c a pend (State.recoverEntry s e) := by
  unfold State.recoverEntry
  try dsimp only
  repeat' first | (with_reducible first | assumption | apply State.conclude_kept | apply State.traceRec_kept
                                        | apply State.setEntry_kept | apply State.complete_kept
                                        | apply kept_foldl) | split

theorem State.recover_kept {s : State} (h : Kept d c a pend s)  :
    Kept d c a pend (State.recover s) := by
  unfold State.recover
  try dsimp only
  repeat' first | (with_reducible first | assumption | apply State.readRing_kept | apply State.emptySlots_kept
                                        | apply State.restoreHeads_kept | apply State.applyCommits_kept
                                        | apply State.replayWindows_kept | apply State.recoverEntry_kept
                                        | apply State.setFault_kept | apply kept_foldl) | split | intro _ _ _
                | intro _ _
  any_goals (refine kept_mk ?_)
  repeat' first | (with_reducible first | assumption | apply State.readRing_kept | apply State.emptySlots_kept
                                        | apply State.restoreHeads_kept | apply State.applyCommits_kept
                                        | apply State.replayWindows_kept | apply State.recoverEntry_kept
                                        | apply State.setFault_kept | apply kept_foldl) | split | intro _ _ _
                | intro _ _
  any_goals (refine kept_mk ?_)
  repeat' with_reducible first | assumption | apply State.readRing_kept

end Sys2Proof.Machine
end

