-- ==== Sys2Proof/Laws/KeptRows.lean ====
section
/-!
SUPPORT. Sys2Proof/Laws/KeptRows.lean: what the rows of the table keep (Laws/Kept.lean), one lemma per row, and what
every command keeps.
-/
namespace Sys2Proof.Machine

set_option Elab.async false

variable {d : Die} {c : Caps} {a : List Audit} {pend : List Instr}

theorem execEnergyMark_kept {s : State} (h : Kept d c a pend s) (ctx : Nat) (seq : W32) :
    KeptX d c a pend (execEnergyMark ctx seq s) := by
  unfold execEnergyMark
  try dsimp only
  repeat' first | (with_reducible first | assumption | apply State.runOp_kept | apply energyMarkWork_kept
                                        | apply keptX_next | apply kept_foldl) | split | intro _ _ _

theorem execMeteringInterval_kept {s : State} (h : Kept d c a pend s) (m : Metering) :
    KeptX d c a pend (execMeteringInterval m s) := by
  unfold execMeteringInterval
  try dsimp only
  repeat' first | (with_reducible first | assumption | apply State.endInterval_kept | apply keptX_next
                                        | apply kept_foldl) | split

theorem execPowerReserve_kept {s : State} (h : Kept d c a pend s) (ctx : Nat) (seq : W32) :
    KeptX d c a pend (execPowerReserve ctx seq s) := by
  unfold execPowerReserve
  try dsimp only
  repeat' first | (with_reducible first | assumption | apply State.runOp_kept | apply powerReserveWork_kept
                                        | apply keptX_next | apply kept_foldl) | split | intro _ _ _

theorem execReceiptIssue_kept {s : State} (h : Kept d c a pend s) (ctx : Nat) (seq : W32) :
    KeptX d c a pend (execReceiptIssue ctx seq s) := by
  unfold execReceiptIssue
  try dsimp only
  repeat' first | (with_reducible first | assumption | apply State.runOp_kept | apply receiptIssueWork_kept
                                        | apply keptX_next | apply kept_foldl) | split | intro _ _ _

theorem execSlewWindow_kept {s : State} (h : Kept d c a pend s)  :
    KeptX d c a pend (execSlewWindow s) := by
  unfold execSlewWindow
  try dsimp only
  repeat' first | (with_reducible first | assumption | apply State.endSteps_kept | apply State.grantRise_kept
                                        | apply State.grantFall_kept | apply keptX_next | apply kept_foldl)
                | split | intro _ _ _ | intro _ _
  any_goals (refine kept_mk ?_)
  repeat' with_reducible first | assumption | apply State.endSteps_kept

theorem execTripEnd_kept {s : State} (h : Kept d c a pend s)  :
    KeptX d c a pend (execTripEnd s) := by
  unfold execTripEnd
  try dsimp only
  repeat' first | (with_reducible first | assumption | apply State.traceStep_kept | apply State.ibi_kept
                                        | apply State.beginSteps_kept | apply keptX_next | apply kept_foldl)
                | split | intro _ _ _ | intro _ _
  any_goals (refine kept_mk ?_)
  repeat' first | with_reducible assumption

theorem execBootChunk_kept {s : State} (h : Kept d c a pend s) (src : Source) (offset : Nat) (data : List (BitVec
    8)) :
    KeptX d c a pend (execBootChunk src offset data s) := by
  unfold execBootChunk
  try dsimp only
  repeat' first | (with_reducible first | assumption | apply State.takeRx_kept | apply State.bootBytes_kept
                                        | apply keptX_next | apply kept_foldl) | split

theorem execBundleVerify_kept {s : State} (h : Kept d c a pend s)  :
    KeptX d c a pend (execBundleVerify s) := by
  unfold execBundleVerify
  try dsimp only
  repeat' first | (with_reducible first | assumption | apply State.helperFail_kept | apply State.bootFail_kept
                                        | apply State.releaseCollar_kept | apply keptX_next | apply kept_foldl)
                | split | intro _ _ _ | intro _ _
  any_goals (refine kept_mk ?_)
  repeat' first | with_reducible assumption

theorem execSelfCheck_kept {s : State} (h : Kept d c a pend s) (sleeve : Nat) (coresFailed : BitVec 8)
    (gussetFailed : Bool) (fabricFailed : Bool) :
    KeptX d c a pend (execSelfCheck sleeve coresFailed gussetFailed fabricFailed s) := by
  unfold execSelfCheck
  try dsimp only
  repeat' first | (with_reducible first | assumption | apply State.setSleeve_kept | apply State.count_kept
                                        | apply State.retireCore_kept | apply State.retireGusset_kept
                                        | apply State.strand_kept | apply State.retireSleeve_kept
                                        | apply keptX_next | apply kept_foldl) | split | intro _ _ _ | intro _ _
  any_goals (refine kept_mk ?_)
  repeat' first | (with_reducible first | assumption | apply State.setSleeve_kept | apply State.count_kept
                                        | apply State.retireCore_kept | apply State.retireGusset_kept
                                        | apply State.strand_kept | apply State.retireSleeve_kept
                                        | apply keptX_next | apply kept_foldl) | split | intro _ _ _ | intro _ _
  any_goals (refine kept_mk ?_)
  repeat' first | with_reducible assumption

theorem execChainAdmit_kept {s : State} (h : Kept d c a pend s)  :
    KeptX d c a pend (execChainAdmit s) := by
  unfold execChainAdmit
  try dsimp only
  repeat' first | (with_reducible first | assumption | apply State.setChain_kept | apply State.promise_kept
                                        | apply keptX_next | apply kept_foldl) | split

theorem execCommandComplete_kept {s : State} (h : Kept d c a pend s) (ctx : Nat) (seq : W32) :
    KeptX d c a pend (execCommandComplete ctx seq s) := by
  unfold execCommandComplete
  try dsimp only
  repeat' first | (with_reducible first | assumption | apply State.setEntry_kept | apply State.sendFlush_kept
                                        | apply State.complete_kept | apply keptX_next | apply kept_foldl)
                | split

theorem execCommandDispatch_kept {s : State} (h : Kept d c a pend s) (ctx : Nat) :
    KeptX d c a pend (execCommandDispatch ctx s) := by
  unfold execCommandDispatch
  try dsimp only
  repeat' first | (with_reducible first | assumption | apply State.dispatch_kept | apply keptX_next
                                        | apply kept_foldl) | split

theorem execDeadlockBreak_kept {s : State} (h : Kept d c a pend s)  :
    KeptX d c a pend (execDeadlockBreak s) := by
  unfold execDeadlockBreak
  try dsimp only
  repeat' first | (with_reducible first | assumption | apply State.endMembers_kept | apply State.unpromise_kept
                                        | apply State.spillLinks_kept | apply State.setChain_kept
                                        | apply State.count_kept | apply State.noteMembers_kept
                                        | apply State.traceRec_kept | apply keptX_next | apply kept_foldl)
                | split | intro _ _ _ | intro _ _
  any_goals (refine kept_mk ?_)
  repeat' first | with_reducible assumption

theorem execPacketAccept_kept {s : State} (h : Kept d c a pend s) (ctx : Nat) :
    KeptX d c a pend (execPacketAccept ctx s) := by
  unfold execPacketAccept
  try dsimp only
  repeat' first | (with_reducible first | assumption | apply State.setCtx_kept | apply State.refuseOne_kept
                                        | apply State.acceptFailed_kept | apply State.acceptChain_kept
                                        | apply State.acceptOne_kept | apply keptX_next | apply kept_foldl)
                | split

theorem execQueueGrant_kept {s : State} (h : Kept d c a pend s) (core : Nat) :
    KeptX d c a pend (execQueueGrant core s) := by
  unfold execQueueGrant
  try dsimp only
  repeat' first | (with_reducible first | assumption | apply State.beginSteps_kept | apply State.takeQueues_kept
                                        | apply keptX_next | apply kept_foldl) | split

theorem execChain_kept {s : State} (h : Kept d c a pend s) (ctx : Nat) (seq : W32) :
    KeptX d c a pend (execChain ctx seq s) := by
  unfold execChain
  try dsimp only
  repeat' first | (with_reducible first | assumption | apply State.runOp_kept | apply chainWork_kept
                                        | apply keptX_next | apply kept_foldl) | split | intro _ _ _

theorem execContextClose_kept {s : State} (h : Kept d c a pend s) (ctx : Nat) (seq : W32) :
    KeptX d c a pend (execContextClose ctx seq s) := by
  unfold execContextClose
  try dsimp only
  repeat' first | (with_reducible first | assumption | apply State.beginClose_kept | apply State.runOp_kept
                                        | apply contextCloseWork_kept | apply keptX_next | apply kept_foldl)
                | split | intro _ _ _

theorem execContextOpen_kept {s : State} (h : Kept d c a pend s) (ctx : Nat) (seq : W32) :
    KeptX d c a pend (execContextOpen ctx seq s) := by
  unfold execContextOpen
  try dsimp only
  repeat' first | (with_reducible first | assumption | apply State.runOp_kept | apply contextOpenWork_kept
                                        | apply keptX_next | apply kept_foldl) | split | intro _ _ _

theorem execFence_kept {s : State} (h : Kept d c a pend s) (ctx : Nat) (seq : W32) :
    KeptX d c a pend (execFence ctx seq s) := by
  unfold execFence
  try dsimp only
  repeat' first | (with_reducible first | assumption | apply State.runOp_kept | apply fenceWork_kept
                                        | apply keptX_next | apply kept_foldl) | split | intro _ _ _

theorem execNop_kept {s : State} (h : Kept d c a pend s) (ctx : Nat) (seq : W32) :
    KeptX d c a pend (execNop ctx seq s) := by
  unfold execNop
  try dsimp only
  repeat' first | (with_reducible first | assumption | apply State.runOp_kept | apply nopWork_kept
                                        | apply keptX_next | apply kept_foldl) | split | intro _ _ _

theorem execQueryCaps_kept {s : State} (h : Kept d c a pend s) (ctx : Nat) (seq : W32) :
    KeptX d c a pend (execQueryCaps ctx seq s) := by
  unfold execQueryCaps
  try dsimp only
  repeat' with_reducible first | assumption | apply State.runWork_kept

theorem execSignal_kept {s : State} (h : Kept d c a pend s) (ctx : Nat) (seq : W32) :
    KeptX d c a pend (execSignal ctx seq s) := by
  unfold execSignal
  try dsimp only
  repeat' first | (with_reducible first | assumption | apply State.runOp_kept | apply signalWork_kept
                                        | apply keptX_next | apply kept_foldl) | split | intro _ _ _

theorem execWait_kept {s : State} (h : Kept d c a pend s) (ctx : Nat) (seq : W32) :
    KeptX d c a pend (execWait ctx seq s) := by
  unfold execWait
  try dsimp only
  repeat' first | (with_reducible first | assumption | apply State.runOp_kept | apply waitWork_kept
                                        | apply keptX_next | apply kept_foldl) | split | intro _ _ _

theorem execWarmReset_kept {s : State} (h : Kept d c a pend s)  :
    KeptX d c a pend (execWarmReset s) := by
  unfold execWarmReset
  try dsimp only
  repeat' first | (with_reducible first | assumption | apply State.warmLoss_kept | apply State.softReset_kept
                                        | apply keptX_next | apply kept_foldl) | split | intro _ _ _ | intro _ _
  any_goals (refine kept_mk ?_)
  repeat' first | with_reducible assumption

theorem execWarmResetRelease_kept {s : State} (h : Kept d c a pend s)  :
    KeptX d c a pend (execWarmResetRelease s) := by
  unfold execWarmResetRelease
  try dsimp only
  repeat' first | (with_reducible first | assumption | apply keptX_next | apply kept_foldl) | split
                | intro _ _ _ | intro _ _
  any_goals (refine kept_mk ?_)
  repeat' first | with_reducible assumption

theorem execTimeSyncEdge_kept {s : State} (h : Kept d c a pend s) (elapsed : Nat) :
    KeptX d c a pend (execTimeSyncEdge elapsed s) := by
  unfold execTimeSyncEdge
  try dsimp only
  repeat' first | (with_reducible first | assumption | apply State.pass_kept | apply keptX_next
                                        | apply kept_foldl) | split | intro _ _ _ | intro _ _
  any_goals (refine kept_mk ?_)
  repeat' with_reducible first | assumption | apply State.pass_kept

theorem execSyncLost_kept {s : State} (h : Kept d c a pend s) (elapsed : Nat) :
    KeptX d c a pend (execSyncLost elapsed s) := by
  unfold execSyncLost
  try dsimp only
  repeat' first | (with_reducible first | assumption | apply State.pass_kept | apply keptX_next
                                        | apply kept_foldl) | split | intro _ _ _ | intro _ _
  any_goals (refine kept_mk ?_)
  repeat' with_reducible first | assumption | apply State.pass_kept

theorem execAliveToggle_kept {s : State} (h : Kept d c a pend s)  :
    KeptX d c a pend (execAliveToggle s) := by
  unfold execAliveToggle
  try dsimp only
  repeat' first | (with_reducible first | assumption | apply keptX_next | apply kept_foldl) | split
                | intro _ _ _ | intro _ _
  any_goals (refine kept_mk ?_)
  repeat' first | with_reducible assumption

theorem execLiningSelfTest_kept {s : State} (h : Kept d c a pend s)  :
    KeptX d c a pend (execLiningSelfTest s) := by
  unfold execLiningSelfTest
  try dsimp only
  repeat' first | (with_reducible first | assumption | apply State.ibi_kept | apply keptX_next
                                        | apply kept_foldl) | split | intro _ _ _ | intro _ _
  any_goals (refine kept_mk ?_)
  repeat' first | with_reducible assumption

theorem execStackTrainingDone_kept {s : State} (h : Kept d c a pend s) (m : Nat) (ok : Bool)
    (capacity height rate lanes : Nat) : KeptX d c a pend (execStackTrainingDone m ok capacity height rate lanes
        s) := by
  unfold execStackTrainingDone
  extract_lets x again y1 y2 n s1 s2
  have h1 : Kept d c a pend s1 := State.setStack_kept h _ _
  have h2 : Kept d c a pend s2 := State.setStack_kept h1 _ _
  clear_value s1 s2
  split
  · exact h
  · split
    · refine keptX_next ?_
      split
      · exact State.readyStack_kept h _ _
      · exact State.setStack_kept h _ _
    · split
      · exact keptX_next (State.failStack_kept h1 _)
      · split
        · refine keptX_next (State.capChange_kept ?_)
          exact kept_mk h2 (hc := ⟨and_compl_refl _, and_compl_sub _ _, and_compl_refl _, and_compl_refl _,
              and_compl_refl _, id⟩)
        · exact h1

theorem execStackZeroed_kept {s : State} (h : Kept d c a pend s) (m : Nat) : KeptX d c a pend (execStackZeroed m
    s) := by
  unfold execStackZeroed
  extract_lets x
  split
  · exact h
  · have h1 : Kept d c a pend { s with mem := memZero s.mem (m * stackWindow) stackWindow } :=
      h.congr (Memory.wf_memZero h.mem _ _) rfl (Caps.le_refl _) rfl rfl rfl rfl rfl rfl
    exact keptX_next (State.readyStack_kept h1 _ _)

theorem execRefreshManagementRequest_kept {s : State} (h : Kept d c a pend s) (m : Nat) (pc : Nat) (bank : Nat) :
    KeptX d c a pend (execRefreshManagementRequest m pc bank s) := by
  unfold execRefreshManagementRequest
  try dsimp only
  repeat' first | (with_reducible first | assumption | apply State.onPort_kept | apply State.setStack_kept
                                        | apply keptX_next | apply kept_foldl) | split

theorem execStackAccessReturn_kept {s : State} (h : Kept d c a pend s) (m : Nat) (pc : Nat) (line : Nat) (r :
    AccessResult) :
    KeptX d c a pend (execStackAccessReturn m pc line r s) := by
  unfold execStackAccessReturn
  try dsimp only
  repeat' first | (with_reducible first | assumption | apply State.count_kept | apply State.lineBack_kept
                                        | apply State.setStack_kept | apply State.failPc_kept | apply keptX_next
                                        | apply kept_foldl) | split | intro _ _ _ | intro _ _

theorem execSeamDetect_kept {s : State} (h : Kept d c a pend s) (p : Nat) (tx : BitVec 4) (rx : BitVec 4) :
    KeptX d c a pend (execSeamDetect p tx rx s) := by
  unfold execSeamDetect
  try dsimp only
  repeat' first | (with_reducible first | assumption | apply State.setSeam_kept | apply keptX_next
                                        | apply kept_foldl) | split

theorem execSeamEqualiseDone_kept {s : State} (h : Kept d c a pend s) (p : Nat) (tx : BitVec 4) (rx : BitVec 4) :
    KeptX d c a pend (execSeamEqualiseDone p tx rx s) := by
  unfold execSeamEqualiseDone
  try dsimp only
  repeat' first | (with_reducible first | assumption | apply State.setSeam_kept | apply State.keepGroups_kept
                                        | apply State.examineRegions_kept | apply State.reactivate_kept
                                        | apply keptX_next | apply kept_foldl) | split

theorem execConfigFrame_kept {s : State} (h : Kept d c a pend s) (p : Nat) (f : ConfigFrame) :
    KeptX d c a pend (execConfigFrame p f s) := by
  unfold execConfigFrame
  try dsimp only
  repeat' first | (with_reducible first | assumption | apply State.setSeam_kept | apply State.pump_kept
                                        | apply State.ibi_kept | apply State.count_kept | apply keptX_next
                                        | apply kept_foldl) | split | intro _ _ _ | intro _ _
  any_goals (refine kept_mk ?_)
  repeat' with_reducible first | assumption | apply State.setSeam_kept

theorem execSeamTrainTimeout_kept {s : State} (h : Kept d c a pend s) (p : Nat) :
    KeptX d c a pend (execSeamTrainTimeout p s) := by
  unfold execSeamTrainTimeout
  try dsimp only
  repeat' first | (with_reducible first | assumption | apply State.setSeam_kept
                                        | apply State.examineRegions_kept | apply State.failSeam_kept
                                        | apply keptX_next | apply kept_foldl) | split

theorem execFrameReceive_kept {s : State} (h : Kept d c a pend s) (p : Nat) (f : Frame) :
    KeptX d c a pend (execFrameReceive p f s) := by
  unfold execFrameReceive
  try dsimp only
  repeat' first | (with_reducible first | assumption | apply State.count_kept | apply State.setSeam_kept
                                        | apply State.goodFrame_kept | apply keptX_next | apply kept_foldl)
                | split

theorem execInboundMwr_kept {s : State} (h : Kept d c a pend s) (p : Nat) (ep : Nat) (addr : Nat) (data : List
    (BitVec 8)) :
    KeptX d c a pend (execInboundMwr p ep addr data s) := by
  unfold execInboundMwr
  try dsimp only
  repeat' first | (with_reducible first | assumption | apply State.takeRx_kept | apply State.count_kept
                                        | apply State.l2Invalidate_kept | apply State.dropCopies_kept
                                        | apply State.put_kept | apply keptX_next | apply kept_foldl) | split

theorem execInboundMrd_kept {s : State} (h : Kept d c a pend s) (p : Nat) (ep : Nat) (addr : Nat) (len : Nat) (tag
    : Nat) :
    KeptX d c a pend (execInboundMrd p ep addr len tag s) := by
  unfold execInboundMrd
  try dsimp only
  repeat' first | (with_reducible first | assumption | apply State.takeRx_kept | apply State.send_kept
                                        | apply State.count_kept | apply keptX_next | apply kept_foldl) | split

theorem execCpl_kept {s : State} (h : Kept d c a pend s) (p : Nat) (tag : Nat) (status : Nat) (data : List (BitVec
    8)) :
    KeptX d c a pend (execCpl p tag status data s) := by
  unfold execCpl
  try dsimp only
  repeat' first | (with_reducible first | assumption | apply State.takeRx_kept | apply keptX_next
                                        | apply kept_foldl) | split | intro _ _ _ | intro _ _
  any_goals (refine kept_mk ?_)
  repeat' with_reducible first | assumption | apply State.takeRx_kept

theorem execRrd_kept {s : State} (h : Kept d c a pend s) (p : Nat) (ep : Nat) (offset : Nat) (words : Nat) (tag :
    Nat) :
    KeptX d c a pend (execRrd p ep offset words tag s) := by
  unfold execRrd
  try dsimp only
  repeat' first | (with_reducible first | assumption | apply State.takeRx_kept | apply State.count_kept
                                        | apply State.readWords_kept | apply State.rcpl_kept | apply keptX_next
                                        | apply kept_foldl) | split

theorem execRwr_kept {s : State} (h : Kept d c a pend s) (p : Nat) (ep : Nat) (enc : Bool) (offset : Nat) (data :
    List (BitVec 32)) (tag : Nat) :
    KeptX d c a pend (execRwr p ep enc offset data tag s) := by
  unfold execRwr
  try dsimp only
  repeat' first | (with_reducible first | assumption | apply State.takeRx_kept | apply State.count_kept
                                        | apply State.writeWords_kept | apply State.rcpl_kept | apply keptX_next
                                        | apply kept_foldl) | split

theorem execKeyx_kept {s : State} (h : Kept d c a pend s) (p : Nat) (ep : Nat) (m : KeyxMsg) :
    KeptX d c a pend (execKeyx p ep m s) := by
  unfold execKeyx
  try dsimp only
  repeat' first | (with_reducible first | assumption | apply State.takeRx_kept | apply State.setChannel_kept
                                        | apply State.send_kept | apply State.channelDenied_kept
                                        | apply keptX_next | apply kept_foldl) | split | intro _ _ _ | intro _ _
  any_goals (refine kept_mk ?_)
  repeat' with_reducible first | assumption | apply State.takeRx_kept

theorem execSpdmRequest_kept {s : State} (h : Kept d c a pend s) (p : Nat) (ep : Nat) (r : SpdmReq) :
    KeptX d c a pend (execSpdmRequest p ep r s) := by
  unfold execSpdmRequest
  try dsimp only
  repeat' first | (with_reducible first | assumption | apply State.takeRx_kept | apply State.spdmAnswer_kept
                                        | apply State.endSpdm_kept | apply keptX_next | apply kept_foldl)
                | split | intro _ _ _ | intro _ _
  any_goals (refine kept_mk ?_)
  repeat' with_reducible first | assumption | apply State.takeRx_kept

theorem execBounceBind_kept {s : State} (h : Kept d c a pend s) (p : Nat) (ep : Nat) (session : Nat) (ctx : Nat)
    (base : Nat) (pages : Nat) (tags : Nat) :
    KeptX d c a pend (execBounceBind p ep session ctx base pages tags s) := by
  unfold execBounceBind
  try dsimp only
  repeat' first | (with_reducible first | assumption | apply State.takeRx_kept | apply State.spdmAnswer_kept
                                        | apply State.setCtx_kept | apply keptX_next | apply kept_foldl) | split

theorem execRyBlock_kept {s : State} (h : Kept d c a pend s) (p : Nat) (ep : Nat) (vc : Nat) (block : Bytes)
    (adderFaults : List Nat) :
    KeptX d c a pend (execRyBlock p ep vc block adderFaults s) := by
  unfold execRyBlock
  try dsimp only
  repeat' with_reducible first | assumption | apply State.meteredFor_kept | apply State.ryBlockIn_kept
                               | apply State.takeRx_kept | apply keptX_next

theorem execResend_kept {s : State} (h : Kept d c a pend s) (p : Nat) (ep : Nat) (vc : Nat) (stream : Nat)
    (blockSeq : Nat) :
    KeptX d c a pend (execResend p ep vc stream blockSeq s) := by
  unfold execResend
  try dsimp only
  repeat' first | (with_reducible first | assumption | apply State.takeRx_kept | apply State.count_kept
                                        | apply State.setGroup_kept | apply State.sendRy_kept | apply keptX_next
                                        | apply kept_foldl) | split

theorem execReadyToken_kept {s : State} (h : Kept d c a pend s) (p : Nat) (ep : Nat) (vc : Nat) (t : ReadyToken) :
    KeptX d c a pend (execReadyToken p ep vc t s) := by
  unfold execReadyToken
  try dsimp only
  repeat' first | (with_reducible first | assumption | apply State.takeRx_kept | apply State.leaveReady_kept
                                        | apply State.passToken_kept | apply State.setGroup_kept
                                        | apply keptX_next | apply kept_foldl) | split

theorem execBackupReady_kept {s : State} (h : Kept d c a pend s) (p : Nat) (ep : Nat) (vc : Nat) :
    KeptX d c a pend (execBackupReady p ep vc s) := by
  unfold execBackupReady
  try dsimp only
  repeat' first | (with_reducible first | assumption | apply State.takeRx_kept | apply State.setGroup_kept
                                        | apply keptX_next | apply kept_foldl) | split

theorem execBackupRequest_kept {s : State} (h : Kept d c a pend s) (p : Nat) (ep : Nat) (vc : Nat) :
    KeptX d c a pend (execBackupRequest p ep vc s) := by
  unfold execBackupRequest
  try dsimp only
  repeat' first | (with_reducible first | assumption | apply State.takeRx_kept | apply State.count_kept
                                        | apply State.backupCursor_kept | apply State.sendRy_kept
                                        | apply State.setGroup_kept | apply keptX_next | apply kept_foldl)
                | split | intro _ _ _

theorem execRyDeadline_kept {s : State} (h : Kept d c a pend s) (group : Nat) :
    KeptX d c a pend (execRyDeadline group s) := by
  unfold execRyDeadline
  try dsimp only
  repeat' first | (with_reducible first | assumption | apply State.settleLate_kept | apply keptX_next
                                        | apply kept_foldl) | split

theorem execNormToken_kept {s : State} (h : Kept d c a pend s) (p : Nat) (ep : Nat) (vc : Nat) (lap : Nat) (tensor
    : Nat) (value : BitVec 64) :
    KeptX d c a pend (execNormToken p ep vc lap tensor value s) := by
  unfold execNormToken
  try dsimp only
  repeat' first | (with_reducible first | assumption | apply State.takeRx_kept | apply State.setGroup_kept
                                        | apply State.writeNorm_kept | apply State.sendNorm_kept
                                        | apply keptX_next | apply kept_foldl) | split

theorem execParameterHeader_kept {s : State} (h : Kept d c a pend s) (p : Nat) (ep : Nat) (vc : Nat) (data : Bytes) :
    KeptX d c a pend (execParameterHeader p ep vc data s) := by
  unfold execParameterHeader
  try dsimp only
  repeat' with_reducible first | assumption | apply State.lapIn_kept | apply keptX_next

theorem execParameterData_kept {s : State} (h : Kept d c a pend s) (p : Nat) (ep : Nat) (vc : Nat) (data : Bytes) :
    KeptX d c a pend (execParameterData p ep vc data s) := by
  unfold execParameterData
  try dsimp only
  repeat' with_reducible first | assumption | apply State.lapIn_kept | apply keptX_next

theorem execForecastData_kept {s : State} (h : Kept d c a pend s) (p : Nat) (ep : Nat) (vc : Nat) (data : Bytes) :
    KeptX d c a pend (execForecastData p ep vc data s) := by
  unfold execForecastData
  try dsimp only
  repeat' with_reducible first | assumption | apply State.lapIn_kept | apply keptX_next

theorem execI3cPrivateWrite_kept {s : State} (h : Kept d c a pend s) (data : List (BitVec 8)) :
    KeptX d c a pend (execI3cPrivateWrite data s) := by
  unfold execI3cPrivateWrite
  try dsimp only
  repeat' first | (with_reducible first | assumption | apply State.bootBytes_kept | apply State.i3cWords_kept
                                        | apply keptX_next | apply kept_foldl) | split | intro _ _ _ | intro _ _
  any_goals (refine kept_mk ?_)
  repeat' first | with_reducible assumption

theorem execI3cPrivateRead_kept {s : State} (h : Kept d c a pend s) (count : Nat) :
    KeptX d c a pend (execI3cPrivateRead count s) := by
  unfold execI3cPrivateRead
  try dsimp only
  repeat' first | (with_reducible first | assumption | apply State.i3cRead_kept | apply State.i3cAnswer_kept
                                        | apply keptX_next | apply kept_foldl) | split | intro _ _ _ | intro _ _
  any_goals (refine kept_mk ?_)
  repeat' with_reducible first | assumption | apply State.i3cRead_kept

theorem execEntdaa_kept {s : State} (h : Kept d c a pend s) (address : BitVec 7) :
    KeptX d c a pend (execEntdaa address s) := by
  unfold execEntdaa
  try dsimp only
  repeat' first | (with_reducible first | assumption | apply State.i3cAddress_kept | apply keptX_next
                                        | apply kept_foldl) | split

theorem execSetdasa_kept {s : State} (h : Kept d c a pend s) (staticAddress : BitVec 7) (address : BitVec 7) :
    KeptX d c a pend (execSetdasa staticAddress address s) := by
  unfold execSetdasa
  try dsimp only
  repeat' first | (with_reducible first | assumption | apply State.i3cAddress_kept | apply keptX_next
                                        | apply kept_foldl) | split

theorem execSetnewda_kept {s : State} (h : Kept d c a pend s) (address : BitVec 7) :
    KeptX d c a pend (execSetnewda address s) := by
  unfold execSetnewda
  try dsimp only
  repeat' first | (with_reducible first | assumption | apply State.i3cAddress_kept | apply keptX_next
                                        | apply kept_foldl) | split

theorem execRstdaa_kept {s : State} (h : Kept d c a pend s)  :
    KeptX d c a pend (execRstdaa s) := by
  unfold execRstdaa
  try dsimp only
  repeat' first | (with_reducible first | assumption | apply State.i3cAddress_kept | apply keptX_next
                                        | apply kept_foldl) | split

theorem execGetpid_kept {s : State} (h : Kept d c a pend s)  :
    KeptX d c a pend (execGetpid s) := by
  unfold execGetpid
  try dsimp only
  repeat' first | (with_reducible first | assumption | apply State.i3cAnswer_kept | apply keptX_next
                                        | apply kept_foldl) | split

theorem execGetbcr_kept {s : State} (h : Kept d c a pend s)  :
    KeptX d c a pend (execGetbcr s) := by
  unfold execGetbcr
  try dsimp only
  repeat' first | (with_reducible first | assumption | apply State.i3cAnswer_kept | apply keptX_next
                                        | apply kept_foldl) | split

theorem execGetdcr_kept {s : State} (h : Kept d c a pend s)  :
    KeptX d c a pend (execGetdcr s) := by
  unfold execGetdcr
  try dsimp only
  repeat' first | (with_reducible first | assumption | apply State.i3cAnswer_kept | apply keptX_next
                                        | apply kept_foldl) | split

theorem execGetstatus_kept {s : State} (h : Kept d c a pend s)  :
    KeptX d c a pend (execGetstatus s) := by
  unfold execGetstatus
  try dsimp only
  repeat' first | (with_reducible first | assumption | apply State.i3cAnswer_kept | apply keptX_next
                                        | apply kept_foldl) | split | intro _ _ _ | intro _ _
  any_goals (refine kept_mk ?_)
  repeat' with_reducible first | assumption | apply State.i3cAnswer_kept

theorem execGetmwl_kept {s : State} (h : Kept d c a pend s)  :
    KeptX d c a pend (execGetmwl s) := by
  unfold execGetmwl
  try dsimp only
  repeat' first | (with_reducible first | assumption | apply State.i3cAnswer_kept | apply keptX_next
                                        | apply kept_foldl) | split

theorem execGetmrl_kept {s : State} (h : Kept d c a pend s)  :
    KeptX d c a pend (execGetmrl s) := by
  unfold execGetmrl
  try dsimp only
  repeat' first | (with_reducible first | assumption | apply State.i3cAnswer_kept | apply keptX_next
                                        | apply kept_foldl) | split

theorem execEnec_kept {s : State} (h : Kept d c a pend s) (events : BitVec 8) :
    KeptX d c a pend (execEnec events s) := by
  unfold execEnec
  try dsimp only
  repeat' first | (with_reducible first | assumption | apply keptX_next | apply kept_foldl) | split
                | intro _ _ _ | intro _ _
  any_goals (refine kept_mk ?_)
  repeat' first | with_reducible assumption

theorem execDisec_kept {s : State} (h : Kept d c a pend s) (events : BitVec 8) :
    KeptX d c a pend (execDisec events s) := by
  unfold execDisec
  try dsimp only
  repeat' first | (with_reducible first | assumption | apply keptX_next | apply kept_foldl) | split
                | intro _ _ _ | intro _ _
  any_goals (refine kept_mk ?_)
  repeat' first | with_reducible assumption

theorem execBypass_kept {s : State} (h : Kept d c a pend s)  :
    KeptX d c a pend (execBypass s) := by
  unfold execBypass
  try dsimp only
  repeat' with_reducible first | assumption | apply State.tapSelect_kept | apply keptX_next

theorem execIdcode_kept {s : State} (h : Kept d c a pend s)  :
    KeptX d c a pend (execIdcode s) := by
  unfold execIdcode
  try dsimp only
  repeat' with_reducible first | assumption | apply State.tapSelect_kept | apply keptX_next

theorem execSamplePreload_kept {s : State} (h : Kept d c a pend s) (cells : BitVec 32) :
    KeptX d c a pend (execSamplePreload cells s) := by
  unfold execSamplePreload
  try dsimp only
  repeat' first | (with_reducible first | assumption | apply State.tapSelect_kept | apply keptX_next
                                        | apply kept_foldl) | split | intro _ _ _ | intro _ _
  any_goals (refine kept_mk ?_)
  repeat' with_reducible first | assumption | apply State.tapSelect_kept

theorem execExtest_kept {s : State} (h : Kept d c a pend s)  :
    KeptX d c a pend (execExtest s) := by
  unfold execExtest
  try dsimp only
  repeat' first | (with_reducible first | assumption | apply State.tapSelect_kept | apply keptX_next
                                        | apply kept_foldl) | split | intro _ _ _ | intro _ _
  any_goals (refine kept_mk ?_)
  repeat' with_reducible first | assumption | apply State.tapSelect_kept

theorem execClamp_kept {s : State} (h : Kept d c a pend s)  :
    KeptX d c a pend (execClamp s) := by
  unfold execClamp
  try dsimp only
  repeat' with_reducible first | assumption | apply State.tapDrive_kept | apply keptX_next

theorem execHighz_kept {s : State} (h : Kept d c a pend s)  :
    KeptX d c a pend (execHighz s) := by
  unfold execHighz
  try dsimp only
  repeat' with_reducible first | assumption | apply State.tapDrive_kept | apply keptX_next

theorem execDoorbell_kept {s : State} (h : Kept d c a pend s) (src : Source) (ctx : Nat) (value : W32) :
    KeptX d c a pend (execDoorbell src ctx value s) := by
  unfold execDoorbell
  try dsimp only
  repeat' with_reducible first | assumption | apply State.regWrite_kept | apply keptX_next

theorem execPreempt_kept {s : State} (h : Kept d c a pend s) (ctx : Nat) (seq : W32) (cursors : List (Nat × Nat ×
    Nat)) :
    KeptX d c a pend (execPreempt ctx seq cursors s) := by
  unfold execPreempt
  try dsimp only
  repeat' first | (with_reducible first | assumption | apply State.preemptWork_kept | apply keptX_next
                                        | apply kept_foldl) | split

theorem execCopy_kept {s : State} (h : Kept d c a pend s) (ctx : Nat) (seq : W32) :
    KeptX d c a pend (execCopy ctx seq s) := by
  unfold execCopy
  try dsimp only
  repeat' with_reducible first | assumption | apply State.runWork_kept

theorem execStreamDefine_kept {s : State} (h : Kept d c a pend s) (ctx : Nat) (seq : W32) :
    KeptX d c a pend (execStreamDefine ctx seq s) := by
  unfold execStreamDefine
  try dsimp only
  repeat' first | (with_reducible first | assumption | apply State.runOp_kept | apply streamDefineEff_kept
                                        | apply keptX_next | apply kept_foldl) | split | intro _ _ _

theorem execPrefetch_kept {s : State} (h : Kept d c a pend s) (ctx : Nat) (seq : W32) :
    KeptX d c a pend (execPrefetch ctx seq s) := by
  unfold execPrefetch
  try dsimp only
  repeat' first | (with_reducible first | assumption | apply State.runOp_kept | apply prefetchEff_kept
                                        | apply keptX_next | apply kept_foldl) | split | intro _ _ _

theorem execMulticast_kept {s : State} (h : Kept d c a pend s) (ctx : Nat) (seq : W32) (detached : List (Nat × Nat)) :
    KeptX d c a pend (execMulticast ctx seq detached s) := by
  unfold execMulticast
  try dsimp only
  repeat' first | (with_reducible first | assumption | apply State.runOp_kept | apply multicastEff_kept
                                        | apply keptX_next | apply kept_foldl) | split | intro _ _ _

theorem execGather_kept {s : State} (h : Kept d c a pend s) (ctx : Nat) (seq : W32) (faults : List CoreFault) :
    KeptX d c a pend (execGather ctx seq faults s) := by
  unfold execGather
  try dsimp only
  repeat' with_reducible first | assumption | apply State.runWork_kept

theorem execScatter_kept {s : State} (h : Kept d c a pend s) (ctx : Nat) (seq : W32) (faults : List CoreFault) :
    KeptX d c a pend (execScatter ctx seq faults s) := by
  unfold execScatter
  try dsimp only
  repeat' with_reducible first | assumption | apply State.runWork_kept

theorem execPocketWrite_kept {s : State} (h : Kept d c a pend s) (ctx : Nat) (seq : W32) :
    KeptX d c a pend (execPocketWrite ctx seq s) := by
  unfold execPocketWrite
  try dsimp only
  repeat' with_reducible first | assumption | apply State.runWork_kept

theorem execPocketRead_kept {s : State} (h : Kept d c a pend s) (ctx : Nat) (seq : W32) :
    KeptX d c a pend (execPocketRead ctx seq s) := by
  unfold execPocketRead
  try dsimp only
  repeat' with_reducible first | assumption | apply State.runWork_kept

theorem execMmFwd_kept {s : State} (h : Kept d c a pend s) (ctx : Nat) (seq : W32) (faults : List CoreFault) :
    KeptX d c a pend (execMmFwd ctx seq faults s) := by
  unfold execMmFwd
  try dsimp only
  repeat' with_reducible first | assumption | apply State.runWork_kept

theorem execMmDx_kept {s : State} (h : Kept d c a pend s) (ctx : Nat) (seq : W32) (faults : List CoreFault) :
    KeptX d c a pend (execMmDx ctx seq faults s) := by
  unfold execMmDx
  try dsimp only
  repeat' with_reducible first | assumption | apply State.runWork_kept

theorem execMmDw_kept {s : State} (h : Kept d c a pend s) (ctx : Nat) (seq : W32) (faults : List CoreFault) :
    KeptX d c a pend (execMmDw ctx seq faults s) := by
  unfold execMmDw
  try dsimp only
  repeat' with_reducible first | assumption | apply State.runWork_kept

theorem execMmConvFwd_kept {s : State} (h : Kept d c a pend s) (ctx : Nat) (seq : W32) (faults : List CoreFault) :
    KeptX d c a pend (execMmConvFwd ctx seq faults s) := by
  unfold execMmConvFwd
  try dsimp only
  repeat' with_reducible first | assumption | apply State.runWork_kept

theorem execMmConvDx_kept {s : State} (h : Kept d c a pend s) (ctx : Nat) (seq : W32) (faults : List CoreFault) :
    KeptX d c a pend (execMmConvDx ctx seq faults s) := by
  unfold execMmConvDx
  try dsimp only
  repeat' with_reducible first | assumption | apply State.runWork_kept

theorem execMmConvDw_kept {s : State} (h : Kept d c a pend s) (ctx : Nat) (seq : W32) (faults : List CoreFault) :
    KeptX d c a pend (execMmConvDw ctx seq faults s) := by
  unfold execMmConvDw
  try dsimp only
  repeat' with_reducible first | assumption | apply State.runWork_kept

theorem execMmDist_kept {s : State} (h : Kept d c a pend s) (ctx : Nat) (seq : W32) (faults : List CoreFault) :
    KeptX d c a pend (execMmDist ctx seq faults s) := by
  unfold execMmDist
  try dsimp only
  repeat' with_reducible first | assumption | apply State.runWork_kept

theorem execMmSafe_kept {s : State} (h : Kept d c a pend s) (ctx : Nat) (seq : W32) (faults : List CoreFault) :
    KeptX d c a pend (execMmSafe ctx seq faults s) := by
  unfold execMmSafe
  try dsimp only
  repeat' with_reducible first | assumption | apply State.runWork_kept

theorem execVecOp_kept {s : State} (h : Kept d c a pend s) (ctx : Nat) (seq : W32) (faults : List CoreFault) :
    KeptX d c a pend (execVecOp ctx seq faults s) := by
  unfold execVecOp
  try dsimp only
  repeat' with_reducible first | assumption | apply State.runWork_kept

theorem execSoftmaxBwd_kept {s : State} (h : Kept d c a pend s) (ctx : Nat) (seq : W32) (faults : List CoreFault) :
    KeptX d c a pend (execSoftmaxBwd ctx seq faults s) := by
  unfold execSoftmaxBwd
  try dsimp only
  repeat' with_reducible first | assumption | apply State.runWork_kept

theorem execNormBwd_kept {s : State} (h : Kept d c a pend s) (ctx : Nat) (seq : W32) (faults : List CoreFault) :
    KeptX d c a pend (execNormBwd ctx seq faults s) := by
  unfold execNormBwd
  try dsimp only
  repeat' with_reducible first | assumption | apply State.runWork_kept

theorem execMaskPack_kept {s : State} (h : Kept d c a pend s) (ctx : Nat) (seq : W32) (faults : List CoreFault) :
    KeptX d c a pend (execMaskPack ctx seq faults s) := by
  unfold execMaskPack
  try dsimp only
  repeat' with_reducible first | assumption | apply State.runWork_kept

theorem execTieSum_kept {s : State} (h : Kept d c a pend s) (ctx : Nat) (seq : W32) (faults : List CoreFault) :
    KeptX d c a pend (execTieSum ctx seq faults s) := by
  unfold execTieSum
  try dsimp only
  repeat' with_reducible first | assumption | apply State.runWork_kept

theorem execUpdate_kept {s : State} (h : Kept d c a pend s) (ctx : Nat) (seq : W32) (faults : List CoreFault)
    (gussetFaults : List GussetFault) :
    KeptX d c a pend (execUpdate ctx seq faults gussetFaults s) := by
  unfold execUpdate
  try dsimp only
  repeat' with_reducible first | assumption | apply State.runGusset_kept

theorem execUpdateRows_kept {s : State} (h : Kept d c a pend s) (ctx : Nat) (seq : W32) (faults : List CoreFault) :
    KeptX d c a pend (execUpdateRows ctx seq faults s) := by
  unfold execUpdateRows
  try dsimp only
  repeat' with_reducible first | assumption | apply State.runWork_kept

theorem execPrecondFactor_kept {s : State} (h : Kept d c a pend s) (ctx : Nat) (seq : W32) (faults : List
    CoreFault) (gussetFaults : List GussetFault) :
    KeptX d c a pend (execPrecondFactor ctx seq faults gussetFaults s) := by
  unfold execPrecondFactor
  try dsimp only
  repeat' with_reducible first | assumption | apply State.runGusset_kept

theorem execVersionRelease_kept {s : State} (h : Kept d c a pend s) (ctx : Nat) (seq : W32) :
    KeptX d c a pend (execVersionRelease ctx seq s) := by
  unfold execVersionRelease
  try dsimp only
  repeat' first | (with_reducible first | assumption | apply State.runOp_kept | apply versionReleaseEff_kept
                                        | apply keptX_next | apply kept_foldl) | split | intro _ _ _

theorem execRyRoundOpen_kept {s : State} (h : Kept d c a pend s) (ctx : Nat) (seq : W32) :
    KeptX d c a pend (execRyRoundOpen ctx seq s) := by
  unfold execRyRoundOpen
  try dsimp only
  repeat' first | (with_reducible first | assumption | apply State.openRound_kept | apply State.runOp_kept
                                        | apply ryRoundOpenWork_kept | apply keptX_next | apply kept_foldl)
                | split | intro _ _ _

theorem execRyContribute_kept {s : State} (h : Kept d c a pend s) (ctx : Nat) (seq : W32) :
    KeptX d c a pend (execRyContribute ctx seq s) := by
  unfold execRyContribute
  try dsimp only
  repeat' first | (with_reducible first | assumption | apply State.startOrSettle_kept
                                        | apply State.roundWork_kept | apply ryContributeWork_kept
                                        | apply keptX_next | apply kept_foldl) | split | intro _ _ _

theorem execRyHop_kept {s : State} (h : Kept d c a pend s) (ctx : Nat) (seq : W32) (adderFaults : List Nat) :
    KeptX d c a pend (execRyHop ctx seq adderFaults s) := by
  unfold execRyHop
  try dsimp only
  repeat' first | (with_reducible first | assumption | apply State.ryAgain_kept | apply State.startOrSettle_kept
                                        | apply State.roundWork_kept | apply ryHopWork_kept | apply keptX_next
                                        | apply kept_foldl) | split | intro _ _ _

theorem execRyOwn_kept {s : State} (h : Kept d c a pend s) (ctx : Nat) (seq : W32) :
    KeptX d c a pend (execRyOwn ctx seq s) := by
  unfold execRyOwn
  try dsimp only
  repeat' first | (with_reducible first | assumption | apply State.ryAgain_kept | apply State.startOrSettle_kept
                                        | apply State.roundWork_kept | apply ryOwnWork_kept | apply keptX_next
                                        | apply kept_foldl) | split | intro _ _ _

theorem execRyRoundClose_kept {s : State} (h : Kept d c a pend s) (ctx : Nat) (seq : W32) :
    KeptX d c a pend (execRyRoundClose ctx seq s) := by
  unfold execRyRoundClose
  split
  · exact h
  · extract_lets s1
    have h1 : Kept d c a pend s1 := by
      unfold s1
      split
      · split
        · exact State.abortRound_kept h _ _ _
        · exact h
      · exact h
    clear_value s1
    have g := State.runWork_kept h1 .ryRoundClose ctx seq [] roundClosePlan
    split
    · exact keptX_next (State.afterClose_kept h1 (keptX_of (by assumption) g) _)
    · exact g

theorem execRyParamSend_kept {s : State} (h : Kept d c a pend s) (ctx : Nat) (seq : W32) :
    KeptX d c a pend (execRyParamSend ctx seq s) := by
  unfold execRyParamSend
  try dsimp only
  repeat' first | (with_reducible first | assumption | apply State.runOp_kept | apply ryParamSendWork_kept
                                        | apply keptX_next | apply kept_foldl) | split | intro _ _ _

theorem execRyParamRecv_kept {s : State} (h : Kept d c a pend s) (ctx : Nat) (seq : W32) :
    KeptX d c a pend (execRyParamRecv ctx seq s) := by
  unfold execRyParamRecv
  split
  · exact h
  · split
    · exact keptO_of (by assumption) (State.lapBegin_kept h _)
    · have g := State.runWork_kept h .ryParamRecv ctx seq [] ryParamRecvPlan
      split
      · exact keptX_next (State.lapFailed_kept (keptX_of (by assumption) g) _)
      · exact g

theorem execGovBounds_kept {s : State} (h : Kept d c a pend s) (ctx : Nat) (seq : W32) :
    KeptX d c a pend (execGovBounds ctx seq s) := by
  unfold execGovBounds
  try dsimp only
  repeat' first | (with_reducible first | assumption | apply State.runOp_kept | apply govBoundsWork_kept
                                        | apply keptX_next | apply kept_foldl) | split | intro _ _ _

theorem execGovRead_kept {s : State} (h : Kept d c a pend s) (ctx : Nat) (seq : W32) :
    KeptX d c a pend (execGovRead ctx seq s) := by
  unfold execGovRead
  try dsimp only
  repeat' first | (with_reducible first | assumption | apply State.runOp_kept | apply govReadWork_kept
                                        | apply keptX_next | apply kept_foldl) | split | intro _ _ _

theorem execGovStep_kept {s : State} (h : Kept d c a pend s) (ctx : Nat) (seq : W32) :
    KeptX d c a pend (execGovStep ctx seq s) := by
  unfold execGovStep
  try dsimp only
  repeat' first | (with_reducible first | assumption | apply State.runOp_kept | apply govStepWork_kept
                                        | apply keptX_next | apply kept_foldl) | split | intro _ _ _

theorem execSchedLoad_kept {s : State} (h : Kept d c a pend s) (ctx : Nat) (seq : W32) :
    KeptX d c a pend (execSchedLoad ctx seq s) := by
  unfold execSchedLoad
  try dsimp only
  repeat' first | (with_reducible first | assumption | apply State.runOp_kept | apply schedLoadWork_kept
                                        | apply keptX_next | apply kept_foldl) | split | intro _ _ _

theorem execSchedArm_kept {s : State} (h : Kept d c a pend s) (ctx : Nat) (seq : W32) :
    KeptX d c a pend (execSchedArm ctx seq s) := by
  unfold execSchedArm
  try dsimp only
  repeat' first | (with_reducible first | assumption | apply State.runOp_kept | apply schedArmWork_kept
                                        | apply keptX_next | apply kept_foldl) | split | intro _ _ _

theorem execSealImport_kept {s : State} (h : Kept d c a pend s) (ctx : Nat) (seq : W32) :
    KeptX d c a pend (execSealImport ctx seq s) := by
  unfold execSealImport
  try dsimp only
  repeat' first | (with_reducible first | assumption | apply State.runOp_kept | apply sealImportWork_kept
                                        | apply keptX_next | apply kept_foldl) | split | intro _ _ _

theorem execAttest_kept {s : State} (h : Kept d c a pend s) (ctx : Nat) (seq : W32) :
    KeptX d c a pend (execAttest ctx seq s) := by
  unfold execAttest
  try dsimp only
  repeat' first | (with_reducible first | assumption | apply State.runOp_kept | apply attestWork_kept
                                        | apply keptX_next | apply kept_foldl) | split | intro _ _ _

theorem execRoleSession_kept {s : State} (h : Kept d c a pend s) (ctx : Nat) (seq : W32) :
    KeptX d c a pend (execRoleSession ctx seq s) := by
  unfold execRoleSession
  try dsimp only
  repeat' first | (with_reducible first | assumption | apply State.runOp_kept | apply roleSessionWork_kept
                                        | apply keptX_next | apply kept_foldl) | split | intro _ _ _

theorem execProfileLoad_kept {s : State} (h : Kept d c a pend s) (ctx : Nat) (seq : W32) :
    KeptX d c a pend (execProfileLoad ctx seq s) := by
  unfold execProfileLoad
  try dsimp only
  repeat' first | (with_reducible first | assumption | apply State.runOp_kept | apply profileLoadWork_kept
                                        | apply keptX_next | apply kept_foldl) | split | intro _ _ _

theorem execFwStage_kept {s : State} (h : Kept d c a pend s) (ctx : Nat) (seq : W32) :
    KeptX d c a pend (execFwStage ctx seq s) := by
  unfold execFwStage
  try dsimp only
  repeat' first | (with_reducible first | assumption | apply State.runOp_kept | apply fwStageWork_kept
                                        | apply keptX_next | apply kept_foldl) | split | intro _ _ _

theorem execFwCommit_kept {s : State} (h : Kept d c a pend s) (ctx : Nat) (seq : W32) :
    KeptX d c a pend (execFwCommit ctx seq s) := by
  unfold execFwCommit
  try dsimp only
  repeat' first | (with_reducible first | assumption | apply State.fwCommitStep_kept | apply keptX_next
                                        | apply kept_foldl) | split

theorem execCounterSnap_kept {s : State} (h : Kept d c a pend s) (ctx : Nat) (seq : W32) :
    KeptX d c a pend (execCounterSnap ctx seq s) := by
  unfold execCounterSnap
  try dsimp only
  repeat' with_reducible first | assumption | apply State.runWork_kept

theorem execTraceCtl_kept {s : State} (h : Kept d c a pend s) (ctx : Nat) (seq : W32) :
    KeptX d c a pend (execTraceCtl ctx seq s) := by
  unfold execTraceCtl
  try dsimp only
  repeat' first | (with_reducible first | assumption | apply State.runOp_kept | apply traceCtlWork_kept
                                        | apply keptX_next | apply kept_foldl) | split | intro _ _ _

theorem execTraceTrigger_kept {s : State} (h : Kept d c a pend s) (ctx : Nat) (seq : W32) :
    KeptX d c a pend (execTraceTrigger ctx seq s) := by
  unfold execTraceTrigger
  try dsimp only
  repeat' first | (with_reducible first | assumption | apply State.runOp_kept | apply traceTriggerWork_kept
                                        | apply keptX_next | apply kept_foldl) | split | intro _ _ _

theorem execCtxCqHeadWrite_kept {s : State} (h : Kept d c a pend s) (src : Source) (ctx : Nat) (value : W32) :
    KeptX d c a pend (execCtxCqHeadWrite src ctx value s) := by
  unfold execCtxCqHeadWrite
  try dsimp only
  repeat' with_reducible first | assumption | apply State.regWrite_kept | apply keptX_next

theorem execColXlateInval_kept {s : State} (h : Kept d c a pend s) (src : Source) (value : W32) :
    KeptX d c a pend (execColXlateInval src value s) := by
  unfold execColXlateInval
  try dsimp only
  repeat' with_reducible first | assumption | apply State.regWrite_kept | apply keptX_next

theorem execXlateInvalDone_kept {s : State} (h : Kept d c a pend s)  :
    KeptX d c a pend (execXlateInvalDone s) := by
  unfold execXlateInvalDone
  try dsimp only
  repeat' first | (with_reducible first | assumption | apply keptX_next | apply kept_foldl) | split
                | intro _ _ _ | intro _ _
  any_goals (refine kept_mk ?_)
  repeat' first | with_reducible assumption

theorem execColJrnlCtlEnable_kept {s : State} (h : Kept d c a pend s) (src : Source) (value : W32) :
    KeptX d c a pend (execColJrnlCtlEnable src value s) := by
  unfold execColJrnlCtlEnable
  try dsimp only
  repeat' with_reducible first | assumption | apply State.regWrite_kept | apply keptX_next

theorem execColRetireReq_kept {s : State} (h : Kept d c a pend s) (src : Source) (value : W32) :
    KeptX d c a pend (execColRetireReq src value s) := by
  unfold execColRetireReq
  try dsimp only
  repeat' with_reducible first | assumption | apply State.regWrite_kept | apply keptX_next

theorem execColLossClear_kept {s : State} (h : Kept d c a pend s) (src : Source) (value : W32) :
    KeptX d c a pend (execColLossClear src value s) := by
  unfold execColLossClear
  try dsimp only
  repeat' with_reducible first | assumption | apply State.regWrite_kept | apply keptX_next

theorem execColCtx0Apply_kept {s : State} (h : Kept d c a pend s) (src : Source) (value : W32) :
    KeptX d c a pend (execColCtx0Apply src value s) := by
  unfold execColCtx0Apply
  try dsimp only
  repeat' with_reducible first | assumption | apply State.regWrite_kept | apply keptX_next

theorem execLinCtx0EpWrite_kept {s : State} (h : Kept d c a pend s) (src : Source) (value : W32) :
    KeptX d c a pend (execLinCtx0EpWrite src value s) := by
  unfold execLinCtx0EpWrite
  try dsimp only
  repeat' with_reducible first | assumption | apply State.regWrite_kept | apply keptX_next

theorem execTbLoadHiWrite_kept {s : State} (h : Kept d c a pend s) (src : Source) (value : W32) :
    KeptX d c a pend (execTbLoadHiWrite src value s) := by
  unfold execTbLoadHiWrite
  try dsimp only
  repeat' with_reducible first | assumption | apply State.regWrite_kept | apply keptX_next

theorem execBeltPowerCapWrite_kept {s : State} (h : Kept d c a pend s) (src : Source) (value : W32) :
    KeptX d c a pend (execBeltPowerCapWrite src value s) := by
  unfold execBeltPowerCapWrite
  try dsimp only
  repeat' with_reducible first | assumption | apply State.regWrite_kept | apply keptX_next

theorem execBeltCoolantInWrite_kept {s : State} (h : Kept d c a pend s) (src : Source) (value : W32) :
    KeptX d c a pend (execBeltCoolantInWrite src value s) := by
  unfold execBeltCoolantInWrite
  try dsimp only
  repeat' with_reducible first | assumption | apply State.regWrite_kept | apply keptX_next

theorem execBeltCalWrite_kept {s : State} (h : Kept d c a pend s) (src : Source) (domain : Nat) (value : W32) :
    KeptX d c a pend (execBeltCalWrite src domain value s) := by
  unfold execBeltCalWrite
  try dsimp only
  repeat' with_reducible first | assumption | apply State.regWrite_kept | apply keptX_next

theorem execEnrol_kept {s : State} (h : Kept d c a pend s) (src : Source) (value : W32) :
    KeptX d c a pend (execEnrol src value s) := by
  unfold execEnrol
  try dsimp only
  repeat' with_reducible first | assumption | apply State.regWrite_kept | apply keptX_next

theorem execEnrolRemove_kept {s : State} (h : Kept d c a pend s) (src : Source) (value : W32) :
    KeptX d c a pend (execEnrolRemove src value s) := by
  unfold execEnrolRemove
  try dsimp only
  repeat' with_reducible first | assumption | apply State.regWrite_kept | apply keptX_next

theorem execLatchedPairRead_kept {s : State} (h : Kept d c a pend s) (src : Source) (offset : Nat) :
    KeptX d c a pend (execLatchedPairRead src offset s) := by
  unfold execLatchedPairRead
  try dsimp only
  repeat' with_reducible first | assumption | apply State.readWord_kept | apply keptX_next

theorem execRegisterWrite_kept {s : State} (h : Kept d c a pend s) (src : Source) (offset : Nat) (value : W32) :
    KeptX d c a pend (execRegisterWrite src offset value s) := by
  unfold execRegisterWrite
  try dsimp only
  repeat' with_reducible first | assumption | apply State.regWrite_kept | apply keptX_next

theorem execChallengeExpiry_kept {s : State} (h : Kept d c a pend s) (endpoint : Nat) (role : Nat) :
    KeptX d c a pend (execChallengeExpiry endpoint role s) := by
  unfold execChallengeExpiry
  try dsimp only
  repeat' first | (with_reducible first | assumption | apply keptX_next | apply kept_foldl) | split
                | intro _ _ _ | intro _ _
  any_goals (refine kept_mk ?_)
  repeat' first | with_reducible assumption

theorem execAuthLockoutEnd_kept {s : State} (h : Kept d c a pend s) (endpoint : Nat) :
    KeptX d c a pend (execAuthLockoutEnd endpoint s) := by
  unfold execAuthLockoutEnd
  try dsimp only
  repeat' first | (with_reducible first | assumption | apply keptX_next | apply kept_foldl) | split
                | intro _ _ _ | intro _ _
  any_goals (refine kept_mk ?_)
  repeat' first | with_reducible assumption

theorem execSleeveFault_kept {s : State} (h : Kept d c a pend s) (sleeve : Nat) (cause : SleeveCause) :
    KeptX d c a pend (execSleeveFault sleeve cause s) := by
  unfold execSleeveFault
  try dsimp only
  repeat' first | (with_reducible first | assumption | apply State.setSleeve_kept | apply State.traceFault_kept
                                        | apply State.hitEntry_kept | apply State.resetSleeve_kept
                                        | apply State.retireSleeve_kept | apply State.strand_kept
                                        | apply State.startChecks_kept | apply keptX_next | apply kept_foldl)
                | split | intro _ _ _ | intro _ _
  any_goals (refine kept_mk ?_)
  repeat' first | (with_reducible first | assumption | apply State.setSleeve_kept | apply State.traceFault_kept
                                        | apply State.hitEntry_kept | apply State.resetSleeve_kept
                                        | apply State.retireSleeve_kept | apply State.strand_kept
                                        | apply State.startChecks_kept | apply keptX_next | apply kept_foldl)
                | split | intro _ _ _

theorem execCollarSoftReset_kept {s : State} (h : Kept d c a pend s) (cause : SoftCause) :
    KeptX d c a pend (execCollarSoftReset cause s) := by
  unfold execCollarSoftReset
  try dsimp only
  repeat' first | (with_reducible first | assumption | apply State.traceFault_kept | apply State.softReset_kept
                                        | apply keptX_next | apply kept_foldl) | split

theorem execRecovery_kept {s : State} (h : Kept d c a pend s)  :
    KeptX d c a pend (execRecovery s) := by
  unfold execRecovery
  try dsimp only
  repeat' first | (with_reducible first | assumption | apply State.releaseCollar_kept | apply State.recover_kept
                                        | apply keptX_next | apply kept_foldl) | split

theorem execStackUnrecoverableCondition_kept {s : State} (h : Kept d c a pend s) (m : Nat) :
    KeptX d c a pend (execStackUnrecoverableCondition m s) := by
  unfold execStackUnrecoverableCondition
  try dsimp only
  repeat' first | (with_reducible first | assumption | apply State.failStack_kept | apply keptX_next
                                        | apply kept_foldl) | split

theorem execTimeBaseSlew_kept {s : State} (h : Kept d c a pend s) : KeptX d c a pend (execTimeBaseSlew s) := by
  unfold execTimeBaseSlew
  split
  · exact h
  · exact State.pass_kept h _

theorem execPerBankRefresh_kept {s : State} (h : Kept d c a pend s) (m : Nat) (pc : Nat) (bank : Nat) :
    KeptX d c a pend (execPerBankRefresh m pc bank s) := by
  unfold execPerBankRefresh
  try dsimp only
  repeat' first | (with_reducible first | assumption | apply State.onPort_kept | apply State.setStack_kept
                                        | apply keptX_next | apply kept_foldl) | split

theorem execStackTemperatureReadOut_kept {s : State} (h : Kept d c a pend s) (m : Nat) (temperature : BitVec 16) :
    KeptX d c a pend (execStackTemperatureReadOut m temperature s) := by
  unfold execStackTemperatureReadOut
  try dsimp only
  repeat' first | (with_reducible first | assumption | apply State.setStack_kept | apply keptX_next
                                        | apply kept_foldl) | split

/-! ## Every command -/

/-- Every command but the cold resets answers a next state that keeps it. -/
theorem exec_kept {s : State} (h : Kept d c a pend s) (i : Instr) (hi : isCold i = false) :
    KeptX d c a pend (exec i s) := by
  cases i with
  | coldReset _ => exact Bool.noConfusion hi
  | powerFail => exact Bool.noConfusion hi
  | warmReset => exact execWarmReset_kept h
  | warmResetRelease => exact execWarmResetRelease_kept h
  | timeSyncEdge _ => exact execTimeSyncEdge_kept h _
  | syncLost _ => exact execSyncLost_kept h _
  | slewWindow => exact execSlewWindow_kept h
  | meteringInterval _ => exact execMeteringInterval_kept h _
  | tripEnd => exact execTripEnd_kept h
  | aliveToggle => exact execAliveToggle_kept h
  | liningSelfTest => exact execLiningSelfTest_kept h
  | bootChunk _ _ _ => exact execBootChunk_kept h _ _ _
  | bundleVerify => exact execBundleVerify_kept h
  | selfCheck _ _ _ _ => exact execSelfCheck_kept h _ _ _ _
  | stackTrainingDone _ _ _ _ _ _ => exact execStackTrainingDone_kept h _ _ _ _ _ _
  | stackZeroed _ => exact execStackZeroed_kept h _
  | refreshManagementRequest _ _ _ => exact execRefreshManagementRequest_kept h _ _ _
  | stackAccessReturn _ _ _ _ => exact execStackAccessReturn_kept h _ _ _ _
  | seamDetect _ _ _ => exact execSeamDetect_kept h _ _ _
  | seamEqualiseDone _ _ _ => exact execSeamEqualiseDone_kept h _ _ _
  | configFrame _ _ => exact execConfigFrame_kept h _ _
  | seamTrainTimeout _ => exact execSeamTrainTimeout_kept h _
  | frameReceive _ _ => exact execFrameReceive_kept h _ _
  | inboundMwr _ _ _ _ => exact execInboundMwr_kept h _ _ _ _
  | inboundMrd _ _ _ _ _ => exact execInboundMrd_kept h _ _ _ _ _
  | cpl _ _ _ _ => exact execCpl_kept h _ _ _ _
  | rrd _ _ _ _ _ => exact execRrd_kept h _ _ _ _ _
  | rwr _ _ _ _ _ _ => exact execRwr_kept h _ _ _ _ _ _
  | keyx _ _ _ => exact execKeyx_kept h _ _ _
  | spdmRequest _ _ _ => exact execSpdmRequest_kept h _ _ _
  | bounceBind _ _ _ _ _ _ _ => exact execBounceBind_kept h _ _ _ _ _ _ _
  | ryBlock _ _ _ _ _ => exact execRyBlock_kept h _ _ _ _ _
  | resend _ _ _ _ _ => exact execResend_kept h _ _ _ _ _
  | readyToken _ _ _ _ => exact execReadyToken_kept h _ _ _ _
  | backupReady _ _ _ => exact execBackupReady_kept h _ _ _
  | backupRequest _ _ _ => exact execBackupRequest_kept h _ _ _
  | ryDeadline _ => exact execRyDeadline_kept h _
  | normToken _ _ _ _ _ _ => exact execNormToken_kept h _ _ _ _ _ _
  | parameterHeader _ _ _ _ => exact execParameterHeader_kept h _ _ _ _
  | parameterData _ _ _ _ => exact execParameterData_kept h _ _ _ _
  | forecastData _ _ _ _ => exact execForecastData_kept h _ _ _ _
  | i3cPrivateWrite _ => exact execI3cPrivateWrite_kept h _
  | i3cPrivateRead _ => exact execI3cPrivateRead_kept h _
  | entdaa _ => exact execEntdaa_kept h _
  | setdasa _ _ => exact execSetdasa_kept h _ _
  | setnewda _ => exact execSetnewda_kept h _
  | rstdaa => exact execRstdaa_kept h
  | getpid => exact execGetpid_kept h
  | getbcr => exact execGetbcr_kept h
  | getdcr => exact execGetdcr_kept h
  | getstatus => exact execGetstatus_kept h
  | getmwl => exact execGetmwl_kept h
  | getmrl => exact execGetmrl_kept h
  | enec _ => exact execEnec_kept h _
  | disec _ => exact execDisec_kept h _
  | bypass => exact execBypass_kept h
  | idcode => exact execIdcode_kept h
  | samplePreload _ => exact execSamplePreload_kept h _
  | extest => exact execExtest_kept h
  | clamp => exact execClamp_kept h
  | highz => exact execHighz_kept h
  | doorbell _ _ _ => exact execDoorbell_kept h _ _ _
  | packetAccept _ => exact execPacketAccept_kept h _
  | commandDispatch _ => exact execCommandDispatch_kept h _
  | queueGrant _ => exact execQueueGrant_kept h _
  | chainAdmit => exact execChainAdmit_kept h
  | deadlockBreak => exact execDeadlockBreak_kept h
  | commandComplete _ _ => exact execCommandComplete_kept h _ _
  | nop _ _ => exact execNop_kept h _ _
  | fence _ _ => exact execFence_kept h _ _
  | signal _ _ => exact execSignal_kept h _ _
  | wait _ _ => exact execWait_kept h _ _
  | chain _ _ => exact execChain_kept h _ _
  | contextOpen _ _ => exact execContextOpen_kept h _ _
  | contextClose _ _ => exact execContextClose_kept h _ _
  | preempt _ _ _ => exact execPreempt_kept h _ _ _
  | queryCaps _ _ => exact execQueryCaps_kept h _ _
  | copy _ _ => exact execCopy_kept h _ _
  | streamDefine _ _ => exact execStreamDefine_kept h _ _
  | prefetch _ _ => exact execPrefetch_kept h _ _
  | multicast _ _ _ => exact execMulticast_kept h _ _ _
  | gather _ _ _ => exact execGather_kept h _ _ _
  | scatter _ _ _ => exact execScatter_kept h _ _ _
  | pocketWrite _ _ => exact execPocketWrite_kept h _ _
  | pocketRead _ _ => exact execPocketRead_kept h _ _
  | mmFwd _ _ _ => exact execMmFwd_kept h _ _ _
  | mmDx _ _ _ => exact execMmDx_kept h _ _ _
  | mmDw _ _ _ => exact execMmDw_kept h _ _ _
  | mmConvFwd _ _ _ => exact execMmConvFwd_kept h _ _ _
  | mmConvDx _ _ _ => exact execMmConvDx_kept h _ _ _
  | mmConvDw _ _ _ => exact execMmConvDw_kept h _ _ _
  | mmDist _ _ _ => exact execMmDist_kept h _ _ _
  | mmSafe _ _ _ => exact execMmSafe_kept h _ _ _
  | vecOp _ _ _ => exact execVecOp_kept h _ _ _
  | softmaxBwd _ _ _ => exact execSoftmaxBwd_kept h _ _ _
  | normBwd _ _ _ => exact execNormBwd_kept h _ _ _
  | maskPack _ _ _ => exact execMaskPack_kept h _ _ _
  | tieSum _ _ _ => exact execTieSum_kept h _ _ _
  | update _ _ _ _ => exact execUpdate_kept h _ _ _ _
  | updateRows _ _ _ => exact execUpdateRows_kept h _ _ _
  | precondFactor _ _ _ _ => exact execPrecondFactor_kept h _ _ _ _
  | versionRelease _ _ => exact execVersionRelease_kept h _ _
  | ryRoundOpen _ _ => exact execRyRoundOpen_kept h _ _
  | ryContribute _ _ => exact execRyContribute_kept h _ _
  | ryHop _ _ _ => exact execRyHop_kept h _ _ _
  | ryOwn _ _ => exact execRyOwn_kept h _ _
  | ryRoundClose _ _ => exact execRyRoundClose_kept h _ _
  | ryParamSend _ _ => exact execRyParamSend_kept h _ _
  | ryParamRecv _ _ => exact execRyParamRecv_kept h _ _
  | govBounds _ _ => exact execGovBounds_kept h _ _
  | govRead _ _ => exact execGovRead_kept h _ _
  | govStep _ _ => exact execGovStep_kept h _ _
  | schedLoad _ _ => exact execSchedLoad_kept h _ _
  | schedArm _ _ => exact execSchedArm_kept h _ _
  | energyMark _ _ => exact execEnergyMark_kept h _ _
  | receiptIssue _ _ => exact execReceiptIssue_kept h _ _
  | powerReserve _ _ => exact execPowerReserve_kept h _ _
  | sealImport _ _ => exact execSealImport_kept h _ _
  | attest _ _ => exact execAttest_kept h _ _
  | roleSession _ _ => exact execRoleSession_kept h _ _
  | profileLoad _ _ => exact execProfileLoad_kept h _ _
  | fwStage _ _ => exact execFwStage_kept h _ _
  | fwCommit _ _ => exact execFwCommit_kept h _ _
  | counterSnap _ _ => exact execCounterSnap_kept h _ _
  | traceCtl _ _ => exact execTraceCtl_kept h _ _
  | traceTrigger _ _ => exact execTraceTrigger_kept h _ _
  | ctxCqHeadWrite _ _ _ => exact execCtxCqHeadWrite_kept h _ _ _
  | colXlateInval _ _ => exact execColXlateInval_kept h _ _
  | xlateInvalDone => exact execXlateInvalDone_kept h
  | colJrnlCtlEnable _ _ => exact execColJrnlCtlEnable_kept h _ _
  | colRetireReq _ _ => exact execColRetireReq_kept h _ _
  | colLossClear _ _ => exact execColLossClear_kept h _ _
  | colCtx0Apply _ _ => exact execColCtx0Apply_kept h _ _
  | linCtx0EpWrite _ _ => exact execLinCtx0EpWrite_kept h _ _
  | tbLoadHiWrite _ _ => exact execTbLoadHiWrite_kept h _ _
  | beltPowerCapWrite _ _ => exact execBeltPowerCapWrite_kept h _ _
  | beltCoolantInWrite _ _ => exact execBeltCoolantInWrite_kept h _ _
  | beltCalWrite _ _ _ => exact execBeltCalWrite_kept h _ _ _
  | enrol _ _ => exact execEnrol_kept h _ _
  | enrolRemove _ _ => exact execEnrolRemove_kept h _ _
  | latchedPairRead _ _ => exact execLatchedPairRead_kept h _ _
  | registerWrite _ _ _ => exact execRegisterWrite_kept h _ _ _
  | challengeExpiry _ _ => exact execChallengeExpiry_kept h _ _
  | authLockoutEnd _ => exact execAuthLockoutEnd_kept h _
  | sleeveFault _ _ => exact execSleeveFault_kept h _ _
  | collarSoftReset _ => exact execCollarSoftReset_kept h _
  | recovery => exact execRecovery_kept h
  | coldResetAssert => exact Bool.noConfusion hi
  | stackUnrecoverableCondition _ => exact execStackUnrecoverableCondition_kept h _
  | timeBaseSlew => exact execTimeBaseSlew_kept h
  | perBankRefresh _ _ _ => exact execPerBankRefresh_kept h _ _ _
  | stackTemperatureReadOut _ _ => exact execStackTemperatureReadOut_kept h _ _

/-- The three cold resets answer a next state: of the same die, with canonical memory, the waiting commands, and all
units of the die; the audit log begins again. -/
theorem exec_cold {s : State} (hm : Memory.wf s.mem = true) (hs : Caps.le s.caps (Caps.ofDie s.die))
    (hc : s.auditSound) (hh : s.shapeOk) (i : Instr) (hi : isCold i = true) :
    ∃ t, exec i s = .next t ∧ t.die = s.die ∧ Memory.wf t.mem = true ∧ Caps.le t.caps (Caps.ofDie t.die) ∧
      t.auditSound ∧ t.shapeOk ∧ t.pending = s.pending := by
  have cold : ∀ straps, (s.afterCold straps).die = s.die ∧ Memory.wf (s.afterCold straps).mem = true ∧
      Caps.le (s.afterCold straps).caps (Caps.ofDie (s.afterCold straps).die) ∧
      (s.afterCold straps).auditSound ∧ (s.afterCold straps).shapeOk ∧
      (s.afterCold straps).pending = s.pending := fun straps =>
    ⟨rfl, Memory.wf_filter hm _, Caps.le_refl _, rfl, ⟨rfl, rfl, rfl⟩, rfl⟩
  cases i with
  | coldReset straps => exact ⟨_, rfl, cold straps⟩
  | powerFail => exact ⟨_, rfl, cold 0⟩
  | coldResetAssert =>
    show ∃ t, execColdResetAssert s = .next t ∧ _
    unfold execColdResetAssert
    split
    · exact ⟨_, rfl, cold 0⟩
    · exact ⟨s, rfl, rfl, hm, hs, hc, hh, rfl⟩
  | _ => exact Bool.noConfusion hi

end Sys2Proof.Machine
end

