-- ==== Sys2Proof/Laws/PerInstr.lean ====
section
/-!
SUPPORT. Sys2Proof/Laws/PerInstr.lean: the family Operands, one lemma per constructor: the numbers that a well-formed
command names are numbers of units, contexts, endpoints and words that the machine has (R1, R10, R20, R426, R456).
-/
set_option Elab.async false
set_option linter.unusedSimpArgs false

namespace Sys2Proof

/-- The Seam port of a source. -/
def Source.ports : Source → List Nat
  | .seam p _ _ => [p]
  | .i3c => []

/-- The far endpoint of a source. -/
def Source.endpoints : Source → List Nat
  | .seam _ ep _ => [ep]
  | .i3c => []

namespace Laws.Operands

/-- The contexts that a command names. -/
def contexts : Instr → List Nat
  | .bounceBind _ _ _ ctx _ _ _ | .doorbell _ ctx _ | .packetAccept ctx | .commandDispatch ctx
  | .commandComplete ctx _ | .nop ctx _ | .fence ctx _ | .signal ctx _ | .wait ctx _ | .chain ctx _
  | .contextOpen ctx _ | .contextClose ctx _ | .preempt ctx _ _ | .queryCaps ctx _ | .copy ctx _
  | .streamDefine ctx _ | .prefetch ctx _ | .multicast ctx _ _ | .gather ctx _ _ | .scatter ctx _ _
  | .pocketWrite ctx _ | .pocketRead ctx _ | .mmFwd ctx _ _ | .mmDx ctx _ _ | .mmDw ctx _ _
  | .mmConvFwd ctx _ _ | .mmConvDx ctx _ _ | .mmConvDw ctx _ _ | .mmDist ctx _ _ | .mmSafe ctx _ _
  | .vecOp ctx _ _ | .softmaxBwd ctx _ _ | .normBwd ctx _ _ | .maskPack ctx _ _ | .tieSum ctx _ _
  | .update ctx _ _ _ | .updateRows ctx _ _ | .precondFactor ctx _ _ _ | .versionRelease ctx _
  | .ryRoundOpen ctx _ | .ryContribute ctx _ | .ryHop ctx _ _ | .ryOwn ctx _ | .ryRoundClose ctx _
  | .ryParamSend ctx _ | .ryParamRecv ctx _ | .govBounds ctx _ | .govRead ctx _ | .govStep ctx _
  | .schedLoad ctx _ | .schedArm ctx _ | .energyMark ctx _ | .receiptIssue ctx _ | .powerReserve ctx _
  | .sealImport ctx _ | .attest ctx _ | .roleSession ctx _ | .profileLoad ctx _ | .fwStage ctx _
  | .fwCommit ctx _ | .counterSnap ctx _ | .traceCtl ctx _ | .traceTrigger ctx _
  | .ctxCqHeadWrite _ ctx _ => [ctx]
  | _ => []

/-- The Seam ports. -/
def ports : Instr → List Nat
  | .bootChunk src _ _ | .doorbell src _ _ | .ctxCqHeadWrite src _ _ | .colXlateInval src _
  | .colJrnlCtlEnable src _ | .colRetireReq src _ | .colLossClear src _ | .colCtx0Apply src _
  | .linCtx0EpWrite src _ | .tbLoadHiWrite src _ | .beltPowerCapWrite src _ | .beltCoolantInWrite src _
  | .beltCalWrite src _ _ | .enrol src _ | .enrolRemove src _ | .latchedPairRead src _
  | .registerWrite src _ _ => src.ports
  | .seamDetect p _ _ | .seamEqualiseDone p _ _ | .configFrame p _ | .seamTrainTimeout p
  | .frameReceive p _ | .inboundMwr p _ _ _ | .inboundMrd p _ _ _ _ | .cpl p _ _ _ | .rrd p _ _ _ _
  | .rwr p _ _ _ _ _ | .keyx p _ _ | .spdmRequest p _ _ | .bounceBind p _ _ _ _ _ _ | .ryBlock p _ _ _ _
  | .resend p _ _ _ _ | .readyToken p _ _ _ | .backupReady p _ _ | .backupRequest p _ _
  | .normToken p _ _ _ _ _ | .parameterHeader p _ _ _ | .parameterData p _ _ _ | .forecastData p _ _ _ => [p]
  | _ => []

/-- The far endpoints. -/
def endpoints : Instr → List Nat
  | .bootChunk src _ _ | .doorbell src _ _ | .ctxCqHeadWrite src _ _ | .colXlateInval src _
  | .colJrnlCtlEnable src _ | .colRetireReq src _ | .colLossClear src _ | .colCtx0Apply src _
  | .linCtx0EpWrite src _ | .tbLoadHiWrite src _ | .beltPowerCapWrite src _ | .beltCoolantInWrite src _
  | .beltCalWrite src _ _ | .enrol src _ | .enrolRemove src _ | .latchedPairRead src _
  | .registerWrite src _ _ => src.endpoints
  | .inboundMwr _ ep _ _ | .inboundMrd _ ep _ _ _ | .rrd _ ep _ _ _ | .rwr _ ep _ _ _ _ | .keyx _ ep _
  | .spdmRequest _ ep _ | .bounceBind _ ep _ _ _ _ _ | .ryBlock _ ep _ _ _ | .resend _ ep _ _ _
  | .readyToken _ ep _ _ | .backupReady _ ep _ | .backupRequest _ ep _ | .normToken _ ep _ _ _ _
  | .parameterHeader _ ep _ _ | .parameterData _ ep _ _ | .forecastData _ ep _ _ => [ep]
  | .challengeExpiry endpoint _ | .authLockoutEnd endpoint => [endpoint]
  | _ => []

/-- The cores. -/
def cores : Instr → List Nat
  | .ryBlock _ _ _ _ adderFaults | .ryHop _ _ adderFaults => adderFaults
  | .queueGrant core => [core]
  | .gather _ _ faults | .scatter _ _ faults | .mmFwd _ _ faults | .mmDx _ _ faults | .mmDw _ _ faults
  | .mmConvFwd _ _ faults | .mmConvDx _ _ faults | .mmConvDw _ _ faults | .mmDist _ _ faults
  | .mmSafe _ _ faults | .vecOp _ _ faults | .softmaxBwd _ _ faults | .normBwd _ _ faults
  | .maskPack _ _ faults | .tieSum _ _ faults | .update _ _ faults _ | .updateRows _ _ faults
  | .precondFactor _ _ faults _ => faultCores faults
  | _ => []

/-- The sleeves. -/
def sleeves : Instr → List Nat
  | .selfCheck sleeve _ _ _ | .sleeveFault sleeve _ => [sleeve]
  | .update _ _ faults gussetFaults | .precondFactor _ _ faults gussetFaults =>
    faultSleeves faults ++ gussetSleeves gussetFaults
  | .gather _ _ faults | .scatter _ _ faults | .mmFwd _ _ faults | .mmDx _ _ faults | .mmDw _ _ faults
  | .mmConvFwd _ _ faults | .mmConvDx _ _ faults | .mmConvDw _ _ faults | .mmDist _ _ faults
  | .mmSafe _ _ faults | .vecOp _ _ faults | .softmaxBwd _ _ faults | .normBwd _ _ faults
  | .maskPack _ _ faults | .tieSum _ _ faults | .updateRows _ _ faults => faultSleeves faults
  | _ => []

/-- The stacks. -/
def stks : Instr → List Nat
  | .stackTrainingDone m _ _ _ _ _ | .stackZeroed m | .refreshManagementRequest m _ _
  | .stackAccessReturn m _ _ _ | .stackUnrecoverableCondition m | .perBankRefresh m _ _
  | .stackTemperatureReadOut m _ => [m]
  | _ => []

/-- The words of the aperture. -/
def offsets : Instr → List Nat
  | .rrd _ _ offset _ _ | .rwr _ _ _ offset _ _ | .latchedPairRead _ offset | .registerWrite _ offset _ => [offset]
  | _ => []

/-- What a well-formed command names is there. -/
def Statement (i : Instr) : Prop :=
  wellFormed i = true →
    (∀ c ∈ contexts i, c < 1024) ∧ (∀ p ∈ ports i, p < 4) ∧ (∀ e ∈ endpoints i, 0 < e ∧ e < 0xFFFF) ∧
    (∀ c ∈ cores i, c < 128) ∧ (∀ k ∈ sleeves i, k < 16) ∧ (∀ m ∈ stks i, m < 6) ∧
    (∀ o ∈ offsets i, o < 2 ^ 24 ∧ o % 4 = 0)

theorem source_ok {src : Source} (h : src.ok = true) :
    (∀ p ∈ src.ports, p < 4) ∧ ∀ e ∈ src.endpoints, 0 < e ∧ e < 0xFFFF := by
  cases src <;> simp_all [Source.ok, Source.ports, Source.endpoints, endpointOk]

theorem coldReset (straps : BitVec 6) : Statement (.coldReset straps) := by
  simp_all [Statement, wellFormed, contexts, ports, endpoints, cores, sleeves, stks, offsets, ctxOk, offsetOk,
    endpointOk, laneOk, coresOk, sleevesOk, faultsOk]

theorem powerFail : Statement .powerFail := by
  simp_all [Statement, wellFormed, contexts, ports, endpoints, cores, sleeves, stks, offsets, ctxOk, offsetOk,
    endpointOk, laneOk, coresOk, sleevesOk, faultsOk]

theorem warmReset : Statement .warmReset := by
  simp_all [Statement, wellFormed, contexts, ports, endpoints, cores, sleeves, stks, offsets, ctxOk, offsetOk,
    endpointOk, laneOk, coresOk, sleevesOk, faultsOk]

theorem warmResetRelease : Statement .warmResetRelease := by
  simp_all [Statement, wellFormed, contexts, ports, endpoints, cores, sleeves, stks, offsets, ctxOk, offsetOk,
    endpointOk, laneOk, coresOk, sleevesOk, faultsOk]

theorem timeSyncEdge (elapsed : Nat) : Statement (.timeSyncEdge elapsed) := by
  simp_all [Statement, wellFormed, contexts, ports, endpoints, cores, sleeves, stks, offsets, ctxOk, offsetOk,
    endpointOk, laneOk, coresOk, sleevesOk, faultsOk]

theorem syncLost (elapsed : Nat) : Statement (.syncLost elapsed) := by
  simp_all [Statement, wellFormed, contexts, ports, endpoints, cores, sleeves, stks, offsets, ctxOk, offsetOk,
    endpointOk, laneOk, coresOk, sleevesOk, faultsOk]

theorem slewWindow : Statement .slewWindow := by
  simp_all [Statement, wellFormed, contexts, ports, endpoints, cores, sleeves, stks, offsets, ctxOk, offsetOk,
    endpointOk, laneOk, coresOk, sleevesOk, faultsOk]

theorem meteringInterval (m : Metering) : Statement (.meteringInterval m) := by
  simp_all [Statement, wellFormed, contexts, ports, endpoints, cores, sleeves, stks, offsets, ctxOk, offsetOk,
    endpointOk, laneOk, coresOk, sleevesOk, faultsOk]

theorem tripEnd : Statement .tripEnd := by
  simp_all [Statement, wellFormed, contexts, ports, endpoints, cores, sleeves, stks, offsets, ctxOk, offsetOk,
    endpointOk, laneOk, coresOk, sleevesOk, faultsOk]

theorem aliveToggle : Statement .aliveToggle := by
  simp_all [Statement, wellFormed, contexts, ports, endpoints, cores, sleeves, stks, offsets, ctxOk, offsetOk,
    endpointOk, laneOk, coresOk, sleevesOk, faultsOk]

theorem liningSelfTest : Statement .liningSelfTest := by
  simp_all [Statement, wellFormed, contexts, ports, endpoints, cores, sleeves, stks, offsets, ctxOk, offsetOk,
    endpointOk, laneOk, coresOk, sleevesOk, faultsOk]

theorem bootChunk (src : Source) (offset : Nat) (data : List (BitVec 8)) :
    Statement (.bootChunk src offset data) := by
  intro h
  have hs : src.ok = true := by simp_all [wellFormed]
  have hq := source_ok hs
  simp_all [wellFormed, contexts, ports, endpoints, cores, sleeves, stks, offsets, ctxOk, offsetOk]

theorem bundleVerify : Statement .bundleVerify := by
  simp_all [Statement, wellFormed, contexts, ports, endpoints, cores, sleeves, stks, offsets, ctxOk, offsetOk,
    endpointOk, laneOk, coresOk, sleevesOk, faultsOk]

theorem selfCheck (sleeve : Nat) (coresFailed : BitVec 8) (gussetFailed : Bool) (fabricFailed : Bool) :
    Statement (.selfCheck sleeve coresFailed gussetFailed fabricFailed) := by
  simp_all [Statement, wellFormed, contexts, ports, endpoints, cores, sleeves, stks, offsets, ctxOk, offsetOk,
    endpointOk, laneOk, coresOk, sleevesOk, faultsOk]

theorem stackTrainingDone (m : Nat) (ok : Bool) (capacity : Nat) (height : Nat) (rate : Nat) (lanes : Nat) :
    Statement (.stackTrainingDone m ok capacity height rate lanes) := by
  simp_all [Statement, wellFormed, contexts, ports, endpoints, cores, sleeves, stks, offsets, ctxOk, offsetOk,
    endpointOk, laneOk, coresOk, sleevesOk, faultsOk]

theorem stackZeroed (m : Nat) : Statement (.stackZeroed m) := by
  simp_all [Statement, wellFormed, contexts, ports, endpoints, cores, sleeves, stks, offsets, ctxOk, offsetOk,
    endpointOk, laneOk, coresOk, sleevesOk, faultsOk]

theorem refreshManagementRequest (m : Nat) (pc : Nat) (bank : Nat) :
    Statement (.refreshManagementRequest m pc bank) := by
  simp_all [Statement, wellFormed, contexts, ports, endpoints, cores, sleeves, stks, offsets, ctxOk, offsetOk,
    endpointOk, laneOk, coresOk, sleevesOk, faultsOk]

theorem stackAccessReturn (m : Nat) (pc : Nat) (line : Nat) (r : AccessResult) :
    Statement (.stackAccessReturn m pc line r) := by
  simp_all [Statement, wellFormed, contexts, ports, endpoints, cores, sleeves, stks, offsets, ctxOk, offsetOk,
    endpointOk, laneOk, coresOk, sleevesOk, faultsOk]

theorem seamDetect (p : Nat) (tx : BitVec 4) (rx : BitVec 4) : Statement (.seamDetect p tx rx) := by
  simp_all [Statement, wellFormed, contexts, ports, endpoints, cores, sleeves, stks, offsets, ctxOk, offsetOk,
    endpointOk, laneOk, coresOk, sleevesOk, faultsOk]

theorem seamEqualiseDone (p : Nat) (tx : BitVec 4) (rx : BitVec 4) : Statement (.seamEqualiseDone p tx rx) := by
  simp_all [Statement, wellFormed, contexts, ports, endpoints, cores, sleeves, stks, offsets, ctxOk, offsetOk,
    endpointOk, laneOk, coresOk, sleevesOk, faultsOk]

theorem configFrame (p : Nat) (f : ConfigFrame) : Statement (.configFrame p f) := by
  simp_all [Statement, wellFormed, contexts, ports, endpoints, cores, sleeves, stks, offsets, ctxOk, offsetOk,
    endpointOk, laneOk, coresOk, sleevesOk, faultsOk]

theorem seamTrainTimeout (p : Nat) : Statement (.seamTrainTimeout p) := by
  simp_all [Statement, wellFormed, contexts, ports, endpoints, cores, sleeves, stks, offsets, ctxOk, offsetOk,
    endpointOk, laneOk, coresOk, sleevesOk, faultsOk]

theorem frameReceive (p : Nat) (f : Frame) : Statement (.frameReceive p f) := by
  simp_all [Statement, wellFormed, contexts, ports, endpoints, cores, sleeves, stks, offsets, ctxOk, offsetOk,
    endpointOk, laneOk, coresOk, sleevesOk, faultsOk]

theorem inboundMwr (p : Nat) (ep : Nat) (addr : Nat) (data : List (BitVec 8)) :
    Statement (.inboundMwr p ep addr data) := by
  simp_all [Statement, wellFormed, contexts, ports, endpoints, cores, sleeves, stks, offsets, ctxOk, offsetOk,
    endpointOk, laneOk, coresOk, sleevesOk, faultsOk]

theorem inboundMrd (p : Nat) (ep : Nat) (addr : Nat) (len : Nat) (tag : Nat) :
    Statement (.inboundMrd p ep addr len tag) := by
  simp_all [Statement, wellFormed, contexts, ports, endpoints, cores, sleeves, stks, offsets, ctxOk, offsetOk,
    endpointOk, laneOk, coresOk, sleevesOk, faultsOk]

theorem cpl (p : Nat) (tag : Nat) (status : Nat) (data : List (BitVec 8)) :
    Statement (.cpl p tag status data) := by
  simp_all [Statement, wellFormed, contexts, ports, endpoints, cores, sleeves, stks, offsets, ctxOk, offsetOk,
    endpointOk, laneOk, coresOk, sleevesOk, faultsOk]

theorem rrd (p : Nat) (ep : Nat) (offset : Nat) (words : Nat) (tag : Nat) :
    Statement (.rrd p ep offset words tag) := by
  simp_all [Statement, wellFormed, contexts, ports, endpoints, cores, sleeves, stks, offsets, ctxOk, offsetOk,
    endpointOk, laneOk, coresOk, sleevesOk, faultsOk]

theorem rwr (p : Nat) (ep : Nat) (enc : Bool) (offset : Nat) (data : List (BitVec 32)) (tag : Nat) :
    Statement (.rwr p ep enc offset data tag) := by
  simp_all [Statement, wellFormed, contexts, ports, endpoints, cores, sleeves, stks, offsets, ctxOk, offsetOk,
    endpointOk, laneOk, coresOk, sleevesOk, faultsOk]

theorem keyx (p : Nat) (ep : Nat) (m : KeyxMsg) : Statement (.keyx p ep m) := by
  simp_all [Statement, wellFormed, contexts, ports, endpoints, cores, sleeves, stks, offsets, ctxOk, offsetOk,
    endpointOk, laneOk, coresOk, sleevesOk, faultsOk]

theorem spdmRequest (p : Nat) (ep : Nat) (r : SpdmReq) : Statement (.spdmRequest p ep r) := by
  simp_all [Statement, wellFormed, contexts, ports, endpoints, cores, sleeves, stks, offsets, ctxOk, offsetOk,
    endpointOk, laneOk, coresOk, sleevesOk, faultsOk]

theorem bounceBind (p : Nat) (ep : Nat) (session : Nat) (ctx : Nat) (base : Nat) (pages : Nat) (tags : Nat) :
    Statement (.bounceBind p ep session ctx base pages tags) := by
  simp_all [Statement, wellFormed, contexts, ports, endpoints, cores, sleeves, stks, offsets, ctxOk, offsetOk,
    endpointOk, laneOk, coresOk, sleevesOk, faultsOk]

theorem ryBlock (p : Nat) (ep : Nat) (vc : Nat) (block : List (BitVec 8)) (adderFaults : List Nat) :
    Statement (.ryBlock p ep vc block adderFaults) := by
  simp_all [Statement, wellFormed, contexts, ports, endpoints, cores, sleeves, stks, offsets, ctxOk, offsetOk,
    endpointOk, laneOk, coresOk, sleevesOk, faultsOk]

theorem resend (p : Nat) (ep : Nat) (vc : Nat) (stream : Nat) (blockSeq : Nat) :
    Statement (.resend p ep vc stream blockSeq) := by
  simp_all [Statement, wellFormed, contexts, ports, endpoints, cores, sleeves, stks, offsets, ctxOk, offsetOk,
    endpointOk, laneOk, coresOk, sleevesOk, faultsOk]

theorem readyToken (p : Nat) (ep : Nat) (vc : Nat) (t : ReadyToken) : Statement (.readyToken p ep vc t) := by
  simp_all [Statement, wellFormed, contexts, ports, endpoints, cores, sleeves, stks, offsets, ctxOk, offsetOk,
    endpointOk, laneOk, coresOk, sleevesOk, faultsOk]

theorem backupReady (p : Nat) (ep : Nat) (vc : Nat) : Statement (.backupReady p ep vc) := by
  simp_all [Statement, wellFormed, contexts, ports, endpoints, cores, sleeves, stks, offsets, ctxOk, offsetOk,
    endpointOk, laneOk, coresOk, sleevesOk, faultsOk]

theorem backupRequest (p : Nat) (ep : Nat) (vc : Nat) : Statement (.backupRequest p ep vc) := by
  simp_all [Statement, wellFormed, contexts, ports, endpoints, cores, sleeves, stks, offsets, ctxOk, offsetOk,
    endpointOk, laneOk, coresOk, sleevesOk, faultsOk]

theorem ryDeadline (group : Nat) : Statement (.ryDeadline group) := by
  simp_all [Statement, wellFormed, contexts, ports, endpoints, cores, sleeves, stks, offsets, ctxOk, offsetOk,
    endpointOk, laneOk, coresOk, sleevesOk, faultsOk]

theorem normToken (p : Nat) (ep : Nat) (vc : Nat) (lap : Nat) (tensor : Nat) (value : BitVec 64) :
    Statement (.normToken p ep vc lap tensor value) := by
  simp_all [Statement, wellFormed, contexts, ports, endpoints, cores, sleeves, stks, offsets, ctxOk, offsetOk,
    endpointOk, laneOk, coresOk, sleevesOk, faultsOk]

theorem parameterHeader (p : Nat) (ep : Nat) (vc : Nat) (data : List (BitVec 8)) :
    Statement (.parameterHeader p ep vc data) := by
  simp_all [Statement, wellFormed, contexts, ports, endpoints, cores, sleeves, stks, offsets, ctxOk, offsetOk,
    endpointOk, laneOk, coresOk, sleevesOk, faultsOk]

theorem parameterData (p : Nat) (ep : Nat) (vc : Nat) (data : List (BitVec 8)) :
    Statement (.parameterData p ep vc data) := by
  simp_all [Statement, wellFormed, contexts, ports, endpoints, cores, sleeves, stks, offsets, ctxOk, offsetOk,
    endpointOk, laneOk, coresOk, sleevesOk, faultsOk]

theorem forecastData (p : Nat) (ep : Nat) (vc : Nat) (data : List (BitVec 8)) :
    Statement (.forecastData p ep vc data) := by
  simp_all [Statement, wellFormed, contexts, ports, endpoints, cores, sleeves, stks, offsets, ctxOk, offsetOk,
    endpointOk, laneOk, coresOk, sleevesOk, faultsOk]

theorem i3cPrivateWrite (data : List (BitVec 8)) : Statement (.i3cPrivateWrite data) := by
  simp_all [Statement, wellFormed, contexts, ports, endpoints, cores, sleeves, stks, offsets, ctxOk, offsetOk,
    endpointOk, laneOk, coresOk, sleevesOk, faultsOk]

theorem i3cPrivateRead (count : Nat) : Statement (.i3cPrivateRead count) := by
  simp_all [Statement, wellFormed, contexts, ports, endpoints, cores, sleeves, stks, offsets, ctxOk, offsetOk,
    endpointOk, laneOk, coresOk, sleevesOk, faultsOk]

theorem entdaa (address : BitVec 7) : Statement (.entdaa address) := by
  simp_all [Statement, wellFormed, contexts, ports, endpoints, cores, sleeves, stks, offsets, ctxOk, offsetOk,
    endpointOk, laneOk, coresOk, sleevesOk, faultsOk]

theorem setdasa (staticAddress : BitVec 7) (address : BitVec 7) :
    Statement (.setdasa staticAddress address) := by
  simp_all [Statement, wellFormed, contexts, ports, endpoints, cores, sleeves, stks, offsets, ctxOk, offsetOk,
    endpointOk, laneOk, coresOk, sleevesOk, faultsOk]

theorem setnewda (address : BitVec 7) : Statement (.setnewda address) := by
  simp_all [Statement, wellFormed, contexts, ports, endpoints, cores, sleeves, stks, offsets, ctxOk, offsetOk,
    endpointOk, laneOk, coresOk, sleevesOk, faultsOk]

theorem rstdaa : Statement .rstdaa := by
  simp_all [Statement, wellFormed, contexts, ports, endpoints, cores, sleeves, stks, offsets, ctxOk, offsetOk,
    endpointOk, laneOk, coresOk, sleevesOk, faultsOk]

theorem getpid : Statement .getpid := by
  simp_all [Statement, wellFormed, contexts, ports, endpoints, cores, sleeves, stks, offsets, ctxOk, offsetOk,
    endpointOk, laneOk, coresOk, sleevesOk, faultsOk]

theorem getbcr : Statement .getbcr := by
  simp_all [Statement, wellFormed, contexts, ports, endpoints, cores, sleeves, stks, offsets, ctxOk, offsetOk,
    endpointOk, laneOk, coresOk, sleevesOk, faultsOk]

theorem getdcr : Statement .getdcr := by
  simp_all [Statement, wellFormed, contexts, ports, endpoints, cores, sleeves, stks, offsets, ctxOk, offsetOk,
    endpointOk, laneOk, coresOk, sleevesOk, faultsOk]

theorem getstatus : Statement .getstatus := by
  simp_all [Statement, wellFormed, contexts, ports, endpoints, cores, sleeves, stks, offsets, ctxOk, offsetOk,
    endpointOk, laneOk, coresOk, sleevesOk, faultsOk]

theorem getmwl : Statement .getmwl := by
  simp_all [Statement, wellFormed, contexts, ports, endpoints, cores, sleeves, stks, offsets, ctxOk, offsetOk,
    endpointOk, laneOk, coresOk, sleevesOk, faultsOk]

theorem getmrl : Statement .getmrl := by
  simp_all [Statement, wellFormed, contexts, ports, endpoints, cores, sleeves, stks, offsets, ctxOk, offsetOk,
    endpointOk, laneOk, coresOk, sleevesOk, faultsOk]

theorem enec (events : BitVec 8) : Statement (.enec events) := by
  simp_all [Statement, wellFormed, contexts, ports, endpoints, cores, sleeves, stks, offsets, ctxOk, offsetOk,
    endpointOk, laneOk, coresOk, sleevesOk, faultsOk]

theorem disec (events : BitVec 8) : Statement (.disec events) := by
  simp_all [Statement, wellFormed, contexts, ports, endpoints, cores, sleeves, stks, offsets, ctxOk, offsetOk,
    endpointOk, laneOk, coresOk, sleevesOk, faultsOk]

theorem bypass : Statement .bypass := by
  simp_all [Statement, wellFormed, contexts, ports, endpoints, cores, sleeves, stks, offsets, ctxOk, offsetOk,
    endpointOk, laneOk, coresOk, sleevesOk, faultsOk]

theorem idcode : Statement .idcode := by
  simp_all [Statement, wellFormed, contexts, ports, endpoints, cores, sleeves, stks, offsets, ctxOk, offsetOk,
    endpointOk, laneOk, coresOk, sleevesOk, faultsOk]

theorem samplePreload (cells : BitVec 32) : Statement (.samplePreload cells) := by
  simp_all [Statement, wellFormed, contexts, ports, endpoints, cores, sleeves, stks, offsets, ctxOk, offsetOk,
    endpointOk, laneOk, coresOk, sleevesOk, faultsOk]

theorem extest : Statement .extest := by
  simp_all [Statement, wellFormed, contexts, ports, endpoints, cores, sleeves, stks, offsets, ctxOk, offsetOk,
    endpointOk, laneOk, coresOk, sleevesOk, faultsOk]

theorem clamp : Statement .clamp := by
  simp_all [Statement, wellFormed, contexts, ports, endpoints, cores, sleeves, stks, offsets, ctxOk, offsetOk,
    endpointOk, laneOk, coresOk, sleevesOk, faultsOk]

theorem highz : Statement .highz := by
  simp_all [Statement, wellFormed, contexts, ports, endpoints, cores, sleeves, stks, offsets, ctxOk, offsetOk,
    endpointOk, laneOk, coresOk, sleevesOk, faultsOk]

theorem doorbell (src : Source) (ctx : Nat) (value : BitVec 32) : Statement (.doorbell src ctx value) := by
  intro h
  have hs : src.ok = true := by simp_all [wellFormed]
  have hq := source_ok hs
  simp_all [wellFormed, contexts, ports, endpoints, cores, sleeves, stks, offsets, ctxOk, offsetOk]

theorem packetAccept (ctx : Nat) : Statement (.packetAccept ctx) := by
  simp_all [Statement, wellFormed, contexts, ports, endpoints, cores, sleeves, stks, offsets, ctxOk, offsetOk,
    endpointOk, laneOk, coresOk, sleevesOk, faultsOk]

theorem commandDispatch (ctx : Nat) : Statement (.commandDispatch ctx) := by
  simp_all [Statement, wellFormed, contexts, ports, endpoints, cores, sleeves, stks, offsets, ctxOk, offsetOk,
    endpointOk, laneOk, coresOk, sleevesOk, faultsOk]

theorem queueGrant (core : Nat) : Statement (.queueGrant core) := by
  simp_all [Statement, wellFormed, contexts, ports, endpoints, cores, sleeves, stks, offsets, ctxOk, offsetOk,
    endpointOk, laneOk, coresOk, sleevesOk, faultsOk]

theorem chainAdmit : Statement .chainAdmit := by
  simp_all [Statement, wellFormed, contexts, ports, endpoints, cores, sleeves, stks, offsets, ctxOk, offsetOk,
    endpointOk, laneOk, coresOk, sleevesOk, faultsOk]

theorem deadlockBreak : Statement .deadlockBreak := by
  simp_all [Statement, wellFormed, contexts, ports, endpoints, cores, sleeves, stks, offsets, ctxOk, offsetOk,
    endpointOk, laneOk, coresOk, sleevesOk, faultsOk]

theorem commandComplete (ctx : Nat) (seq : BitVec 32) : Statement (.commandComplete ctx seq) := by
  simp_all [Statement, wellFormed, contexts, ports, endpoints, cores, sleeves, stks, offsets, ctxOk, offsetOk,
    endpointOk, laneOk, coresOk, sleevesOk, faultsOk]

theorem nop (ctx : Nat) (seq : BitVec 32) : Statement (.nop ctx seq) := by
  simp_all [Statement, wellFormed, contexts, ports, endpoints, cores, sleeves, stks, offsets, ctxOk, offsetOk,
    endpointOk, laneOk, coresOk, sleevesOk, faultsOk]

theorem fence (ctx : Nat) (seq : BitVec 32) : Statement (.fence ctx seq) := by
  simp_all [Statement, wellFormed, contexts, ports, endpoints, cores, sleeves, stks, offsets, ctxOk, offsetOk,
    endpointOk, laneOk, coresOk, sleevesOk, faultsOk]

theorem signal (ctx : Nat) (seq : BitVec 32) : Statement (.signal ctx seq) := by
  simp_all [Statement, wellFormed, contexts, ports, endpoints, cores, sleeves, stks, offsets, ctxOk, offsetOk,
    endpointOk, laneOk, coresOk, sleevesOk, faultsOk]

theorem wait (ctx : Nat) (seq : BitVec 32) : Statement (.wait ctx seq) := by
  simp_all [Statement, wellFormed, contexts, ports, endpoints, cores, sleeves, stks, offsets, ctxOk, offsetOk,
    endpointOk, laneOk, coresOk, sleevesOk, faultsOk]

theorem chain (ctx : Nat) (seq : BitVec 32) : Statement (.chain ctx seq) := by
  simp_all [Statement, wellFormed, contexts, ports, endpoints, cores, sleeves, stks, offsets, ctxOk, offsetOk,
    endpointOk, laneOk, coresOk, sleevesOk, faultsOk]

theorem contextOpen (ctx : Nat) (seq : BitVec 32) : Statement (.contextOpen ctx seq) := by
  simp_all [Statement, wellFormed, contexts, ports, endpoints, cores, sleeves, stks, offsets, ctxOk, offsetOk,
    endpointOk, laneOk, coresOk, sleevesOk, faultsOk]

theorem contextClose (ctx : Nat) (seq : BitVec 32) : Statement (.contextClose ctx seq) := by
  simp_all [Statement, wellFormed, contexts, ports, endpoints, cores, sleeves, stks, offsets, ctxOk, offsetOk,
    endpointOk, laneOk, coresOk, sleevesOk, faultsOk]

theorem preempt (ctx : Nat) (seq : BitVec 32) (cursors : List (Nat × Nat × Nat)) :
    Statement (.preempt ctx seq cursors) := by
  simp_all [Statement, wellFormed, contexts, ports, endpoints, cores, sleeves, stks, offsets, ctxOk, offsetOk,
    endpointOk, laneOk, coresOk, sleevesOk, faultsOk]

theorem queryCaps (ctx : Nat) (seq : BitVec 32) : Statement (.queryCaps ctx seq) := by
  simp_all [Statement, wellFormed, contexts, ports, endpoints, cores, sleeves, stks, offsets, ctxOk, offsetOk,
    endpointOk, laneOk, coresOk, sleevesOk, faultsOk]

theorem copy (ctx : Nat) (seq : BitVec 32) : Statement (.copy ctx seq) := by
  simp_all [Statement, wellFormed, contexts, ports, endpoints, cores, sleeves, stks, offsets, ctxOk, offsetOk,
    endpointOk, laneOk, coresOk, sleevesOk, faultsOk]

theorem streamDefine (ctx : Nat) (seq : BitVec 32) : Statement (.streamDefine ctx seq) := by
  simp_all [Statement, wellFormed, contexts, ports, endpoints, cores, sleeves, stks, offsets, ctxOk, offsetOk,
    endpointOk, laneOk, coresOk, sleevesOk, faultsOk]

theorem prefetch (ctx : Nat) (seq : BitVec 32) : Statement (.prefetch ctx seq) := by
  simp_all [Statement, wellFormed, contexts, ports, endpoints, cores, sleeves, stks, offsets, ctxOk, offsetOk,
    endpointOk, laneOk, coresOk, sleevesOk, faultsOk]

theorem multicast (ctx : Nat) (seq : BitVec 32) (detached : List (Nat × Nat)) :
    Statement (.multicast ctx seq detached) := by
  simp_all [Statement, wellFormed, contexts, ports, endpoints, cores, sleeves, stks, offsets, ctxOk, offsetOk,
    endpointOk, laneOk, coresOk, sleevesOk, faultsOk]

theorem gather (ctx : Nat) (seq : BitVec 32) (faults : List CoreFault) : Statement (.gather ctx seq faults) := by
  simp_all [Statement, wellFormed, contexts, ports, endpoints, cores, sleeves, stks, offsets, ctxOk, offsetOk,
    endpointOk, laneOk, coresOk, sleevesOk, faultsOk]

theorem scatter (ctx : Nat) (seq : BitVec 32) (faults : List CoreFault) : Statement (.scatter ctx seq faults) := by
  simp_all [Statement, wellFormed, contexts, ports, endpoints, cores, sleeves, stks, offsets, ctxOk, offsetOk,
    endpointOk, laneOk, coresOk, sleevesOk, faultsOk]

theorem pocketWrite (ctx : Nat) (seq : BitVec 32) : Statement (.pocketWrite ctx seq) := by
  simp_all [Statement, wellFormed, contexts, ports, endpoints, cores, sleeves, stks, offsets, ctxOk, offsetOk,
    endpointOk, laneOk, coresOk, sleevesOk, faultsOk]

theorem pocketRead (ctx : Nat) (seq : BitVec 32) : Statement (.pocketRead ctx seq) := by
  simp_all [Statement, wellFormed, contexts, ports, endpoints, cores, sleeves, stks, offsets, ctxOk, offsetOk,
    endpointOk, laneOk, coresOk, sleevesOk, faultsOk]

theorem mmFwd (ctx : Nat) (seq : BitVec 32) (faults : List CoreFault) : Statement (.mmFwd ctx seq faults) := by
  simp_all [Statement, wellFormed, contexts, ports, endpoints, cores, sleeves, stks, offsets, ctxOk, offsetOk,
    endpointOk, laneOk, coresOk, sleevesOk, faultsOk]

theorem mmDx (ctx : Nat) (seq : BitVec 32) (faults : List CoreFault) : Statement (.mmDx ctx seq faults) := by
  simp_all [Statement, wellFormed, contexts, ports, endpoints, cores, sleeves, stks, offsets, ctxOk, offsetOk,
    endpointOk, laneOk, coresOk, sleevesOk, faultsOk]

theorem mmDw (ctx : Nat) (seq : BitVec 32) (faults : List CoreFault) : Statement (.mmDw ctx seq faults) := by
  simp_all [Statement, wellFormed, contexts, ports, endpoints, cores, sleeves, stks, offsets, ctxOk, offsetOk,
    endpointOk, laneOk, coresOk, sleevesOk, faultsOk]

theorem mmConvFwd (ctx : Nat) (seq : BitVec 32) (faults : List CoreFault) : Statement (.mmConvFwd ctx seq faults) := by
  simp_all [Statement, wellFormed, contexts, ports, endpoints, cores, sleeves, stks, offsets, ctxOk, offsetOk,
    endpointOk, laneOk, coresOk, sleevesOk, faultsOk]

theorem mmConvDx (ctx : Nat) (seq : BitVec 32) (faults : List CoreFault) : Statement (.mmConvDx ctx seq faults) := by
  simp_all [Statement, wellFormed, contexts, ports, endpoints, cores, sleeves, stks, offsets, ctxOk, offsetOk,
    endpointOk, laneOk, coresOk, sleevesOk, faultsOk]

theorem mmConvDw (ctx : Nat) (seq : BitVec 32) (faults : List CoreFault) : Statement (.mmConvDw ctx seq faults) := by
  simp_all [Statement, wellFormed, contexts, ports, endpoints, cores, sleeves, stks, offsets, ctxOk, offsetOk,
    endpointOk, laneOk, coresOk, sleevesOk, faultsOk]

theorem mmDist (ctx : Nat) (seq : BitVec 32) (faults : List CoreFault) : Statement (.mmDist ctx seq faults) := by
  simp_all [Statement, wellFormed, contexts, ports, endpoints, cores, sleeves, stks, offsets, ctxOk, offsetOk,
    endpointOk, laneOk, coresOk, sleevesOk, faultsOk]

theorem mmSafe (ctx : Nat) (seq : BitVec 32) (faults : List CoreFault) : Statement (.mmSafe ctx seq faults) := by
  simp_all [Statement, wellFormed, contexts, ports, endpoints, cores, sleeves, stks, offsets, ctxOk, offsetOk,
    endpointOk, laneOk, coresOk, sleevesOk, faultsOk]

theorem vecOp (ctx : Nat) (seq : BitVec 32) (faults : List CoreFault) : Statement (.vecOp ctx seq faults) := by
  simp_all [Statement, wellFormed, contexts, ports, endpoints, cores, sleeves, stks, offsets, ctxOk, offsetOk,
    endpointOk, laneOk, coresOk, sleevesOk, faultsOk]

theorem softmaxBwd (ctx : Nat) (seq : BitVec 32) (faults : List CoreFault) :
    Statement (.softmaxBwd ctx seq faults) := by
  simp_all [Statement, wellFormed, contexts, ports, endpoints, cores, sleeves, stks, offsets, ctxOk, offsetOk,
    endpointOk, laneOk, coresOk, sleevesOk, faultsOk]

theorem normBwd (ctx : Nat) (seq : BitVec 32) (faults : List CoreFault) : Statement (.normBwd ctx seq faults) := by
  simp_all [Statement, wellFormed, contexts, ports, endpoints, cores, sleeves, stks, offsets, ctxOk, offsetOk,
    endpointOk, laneOk, coresOk, sleevesOk, faultsOk]

theorem maskPack (ctx : Nat) (seq : BitVec 32) (faults : List CoreFault) : Statement (.maskPack ctx seq faults) := by
  simp_all [Statement, wellFormed, contexts, ports, endpoints, cores, sleeves, stks, offsets, ctxOk, offsetOk,
    endpointOk, laneOk, coresOk, sleevesOk, faultsOk]

theorem tieSum (ctx : Nat) (seq : BitVec 32) (faults : List CoreFault) : Statement (.tieSum ctx seq faults) := by
  simp_all [Statement, wellFormed, contexts, ports, endpoints, cores, sleeves, stks, offsets, ctxOk, offsetOk,
    endpointOk, laneOk, coresOk, sleevesOk, faultsOk]

theorem update (ctx : Nat) (seq : BitVec 32) (faults : List CoreFault) (gussetFaults : List GussetFault) :
    Statement (.update ctx seq faults gussetFaults) := by
  simp_all [Statement, wellFormed, contexts, ports, endpoints, cores, sleeves, stks, offsets, ctxOk, offsetOk,
    endpointOk, laneOk, coresOk, sleevesOk, faultsOk]
  intro _ _ h1 h2 k hk
  exact hk.elim (h1 k) (h2 k)

theorem updateRows (ctx : Nat) (seq : BitVec 32) (faults : List CoreFault) :
    Statement (.updateRows ctx seq faults) := by
  simp_all [Statement, wellFormed, contexts, ports, endpoints, cores, sleeves, stks, offsets, ctxOk, offsetOk,
    endpointOk, laneOk, coresOk, sleevesOk, faultsOk]

theorem precondFactor (ctx : Nat) (seq : BitVec 32) (faults : List CoreFault) (gussetFaults : List GussetFault) :
    Statement (.precondFactor ctx seq faults gussetFaults) := by
  simp_all [Statement, wellFormed, contexts, ports, endpoints, cores, sleeves, stks, offsets, ctxOk, offsetOk,
    endpointOk, laneOk, coresOk, sleevesOk, faultsOk]
  intro _ _ h1 h2 k hk
  exact hk.elim (h1 k) (h2 k)

theorem versionRelease (ctx : Nat) (seq : BitVec 32) : Statement (.versionRelease ctx seq) := by
  simp_all [Statement, wellFormed, contexts, ports, endpoints, cores, sleeves, stks, offsets, ctxOk, offsetOk,
    endpointOk, laneOk, coresOk, sleevesOk, faultsOk]

theorem ryRoundOpen (ctx : Nat) (seq : BitVec 32) : Statement (.ryRoundOpen ctx seq) := by
  simp_all [Statement, wellFormed, contexts, ports, endpoints, cores, sleeves, stks, offsets, ctxOk, offsetOk,
    endpointOk, laneOk, coresOk, sleevesOk, faultsOk]

theorem ryContribute (ctx : Nat) (seq : BitVec 32) : Statement (.ryContribute ctx seq) := by
  simp_all [Statement, wellFormed, contexts, ports, endpoints, cores, sleeves, stks, offsets, ctxOk, offsetOk,
    endpointOk, laneOk, coresOk, sleevesOk, faultsOk]

theorem ryHop (ctx : Nat) (seq : BitVec 32) (adderFaults : List Nat) :
    Statement (.ryHop ctx seq adderFaults) := by
  simp_all [Statement, wellFormed, contexts, ports, endpoints, cores, sleeves, stks, offsets, ctxOk, offsetOk,
    endpointOk, laneOk, coresOk, sleevesOk, faultsOk]

theorem ryOwn (ctx : Nat) (seq : BitVec 32) : Statement (.ryOwn ctx seq) := by
  simp_all [Statement, wellFormed, contexts, ports, endpoints, cores, sleeves, stks, offsets, ctxOk, offsetOk,
    endpointOk, laneOk, coresOk, sleevesOk, faultsOk]

theorem ryRoundClose (ctx : Nat) (seq : BitVec 32) : Statement (.ryRoundClose ctx seq) := by
  simp_all [Statement, wellFormed, contexts, ports, endpoints, cores, sleeves, stks, offsets, ctxOk, offsetOk,
    endpointOk, laneOk, coresOk, sleevesOk, faultsOk]

theorem ryParamSend (ctx : Nat) (seq : BitVec 32) : Statement (.ryParamSend ctx seq) := by
  simp_all [Statement, wellFormed, contexts, ports, endpoints, cores, sleeves, stks, offsets, ctxOk, offsetOk,
    endpointOk, laneOk, coresOk, sleevesOk, faultsOk]

theorem ryParamRecv (ctx : Nat) (seq : BitVec 32) : Statement (.ryParamRecv ctx seq) := by
  simp_all [Statement, wellFormed, contexts, ports, endpoints, cores, sleeves, stks, offsets, ctxOk, offsetOk,
    endpointOk, laneOk, coresOk, sleevesOk, faultsOk]

theorem govBounds (ctx : Nat) (seq : BitVec 32) : Statement (.govBounds ctx seq) := by
  simp_all [Statement, wellFormed, contexts, ports, endpoints, cores, sleeves, stks, offsets, ctxOk, offsetOk,
    endpointOk, laneOk, coresOk, sleevesOk, faultsOk]

theorem govRead (ctx : Nat) (seq : BitVec 32) : Statement (.govRead ctx seq) := by
  simp_all [Statement, wellFormed, contexts, ports, endpoints, cores, sleeves, stks, offsets, ctxOk, offsetOk,
    endpointOk, laneOk, coresOk, sleevesOk, faultsOk]

theorem govStep (ctx : Nat) (seq : BitVec 32) : Statement (.govStep ctx seq) := by
  simp_all [Statement, wellFormed, contexts, ports, endpoints, cores, sleeves, stks, offsets, ctxOk, offsetOk,
    endpointOk, laneOk, coresOk, sleevesOk, faultsOk]

theorem schedLoad (ctx : Nat) (seq : BitVec 32) : Statement (.schedLoad ctx seq) := by
  simp_all [Statement, wellFormed, contexts, ports, endpoints, cores, sleeves, stks, offsets, ctxOk, offsetOk,
    endpointOk, laneOk, coresOk, sleevesOk, faultsOk]

theorem schedArm (ctx : Nat) (seq : BitVec 32) : Statement (.schedArm ctx seq) := by
  simp_all [Statement, wellFormed, contexts, ports, endpoints, cores, sleeves, stks, offsets, ctxOk, offsetOk,
    endpointOk, laneOk, coresOk, sleevesOk, faultsOk]

theorem energyMark (ctx : Nat) (seq : BitVec 32) : Statement (.energyMark ctx seq) := by
  simp_all [Statement, wellFormed, contexts, ports, endpoints, cores, sleeves, stks, offsets, ctxOk, offsetOk,
    endpointOk, laneOk, coresOk, sleevesOk, faultsOk]

theorem receiptIssue (ctx : Nat) (seq : BitVec 32) : Statement (.receiptIssue ctx seq) := by
  simp_all [Statement, wellFormed, contexts, ports, endpoints, cores, sleeves, stks, offsets, ctxOk, offsetOk,
    endpointOk, laneOk, coresOk, sleevesOk, faultsOk]

theorem powerReserve (ctx : Nat) (seq : BitVec 32) : Statement (.powerReserve ctx seq) := by
  simp_all [Statement, wellFormed, contexts, ports, endpoints, cores, sleeves, stks, offsets, ctxOk, offsetOk,
    endpointOk, laneOk, coresOk, sleevesOk, faultsOk]

theorem sealImport (ctx : Nat) (seq : BitVec 32) : Statement (.sealImport ctx seq) := by
  simp_all [Statement, wellFormed, contexts, ports, endpoints, cores, sleeves, stks, offsets, ctxOk, offsetOk,
    endpointOk, laneOk, coresOk, sleevesOk, faultsOk]

theorem attest (ctx : Nat) (seq : BitVec 32) : Statement (.attest ctx seq) := by
  simp_all [Statement, wellFormed, contexts, ports, endpoints, cores, sleeves, stks, offsets, ctxOk, offsetOk,
    endpointOk, laneOk, coresOk, sleevesOk, faultsOk]

theorem roleSession (ctx : Nat) (seq : BitVec 32) : Statement (.roleSession ctx seq) := by
  simp_all [Statement, wellFormed, contexts, ports, endpoints, cores, sleeves, stks, offsets, ctxOk, offsetOk,
    endpointOk, laneOk, coresOk, sleevesOk, faultsOk]

theorem profileLoad (ctx : Nat) (seq : BitVec 32) : Statement (.profileLoad ctx seq) := by
  simp_all [Statement, wellFormed, contexts, ports, endpoints, cores, sleeves, stks, offsets, ctxOk, offsetOk,
    endpointOk, laneOk, coresOk, sleevesOk, faultsOk]

theorem fwStage (ctx : Nat) (seq : BitVec 32) : Statement (.fwStage ctx seq) := by
  simp_all [Statement, wellFormed, contexts, ports, endpoints, cores, sleeves, stks, offsets, ctxOk, offsetOk,
    endpointOk, laneOk, coresOk, sleevesOk, faultsOk]

theorem fwCommit (ctx : Nat) (seq : BitVec 32) : Statement (.fwCommit ctx seq) := by
  simp_all [Statement, wellFormed, contexts, ports, endpoints, cores, sleeves, stks, offsets, ctxOk, offsetOk,
    endpointOk, laneOk, coresOk, sleevesOk, faultsOk]

theorem counterSnap (ctx : Nat) (seq : BitVec 32) : Statement (.counterSnap ctx seq) := by
  simp_all [Statement, wellFormed, contexts, ports, endpoints, cores, sleeves, stks, offsets, ctxOk, offsetOk,
    endpointOk, laneOk, coresOk, sleevesOk, faultsOk]

theorem traceCtl (ctx : Nat) (seq : BitVec 32) : Statement (.traceCtl ctx seq) := by
  simp_all [Statement, wellFormed, contexts, ports, endpoints, cores, sleeves, stks, offsets, ctxOk, offsetOk,
    endpointOk, laneOk, coresOk, sleevesOk, faultsOk]

theorem traceTrigger (ctx : Nat) (seq : BitVec 32) : Statement (.traceTrigger ctx seq) := by
  simp_all [Statement, wellFormed, contexts, ports, endpoints, cores, sleeves, stks, offsets, ctxOk, offsetOk,
    endpointOk, laneOk, coresOk, sleevesOk, faultsOk]

theorem ctxCqHeadWrite (src : Source) (ctx : Nat) (value : BitVec 32) :
    Statement (.ctxCqHeadWrite src ctx value) := by
  intro h
  have hs : src.ok = true := by simp_all [wellFormed]
  have hq := source_ok hs
  simp_all [wellFormed, contexts, ports, endpoints, cores, sleeves, stks, offsets, ctxOk, offsetOk]

theorem colXlateInval (src : Source) (value : BitVec 32) : Statement (.colXlateInval src value) := by
  intro h
  have hs : src.ok = true := by simp_all [wellFormed]
  have hq := source_ok hs
  simp_all [wellFormed, contexts, ports, endpoints, cores, sleeves, stks, offsets, ctxOk, offsetOk]

theorem xlateInvalDone : Statement .xlateInvalDone := by
  simp_all [Statement, wellFormed, contexts, ports, endpoints, cores, sleeves, stks, offsets, ctxOk, offsetOk,
    endpointOk, laneOk, coresOk, sleevesOk, faultsOk]

theorem colJrnlCtlEnable (src : Source) (value : BitVec 32) : Statement (.colJrnlCtlEnable src value) := by
  intro h
  have hs : src.ok = true := by simp_all [wellFormed]
  have hq := source_ok hs
  simp_all [wellFormed, contexts, ports, endpoints, cores, sleeves, stks, offsets, ctxOk, offsetOk]

theorem colRetireReq (src : Source) (value : BitVec 32) : Statement (.colRetireReq src value) := by
  intro h
  have hs : src.ok = true := by simp_all [wellFormed]
  have hq := source_ok hs
  simp_all [wellFormed, contexts, ports, endpoints, cores, sleeves, stks, offsets, ctxOk, offsetOk]

theorem colLossClear (src : Source) (value : BitVec 32) : Statement (.colLossClear src value) := by
  intro h
  have hs : src.ok = true := by simp_all [wellFormed]
  have hq := source_ok hs
  simp_all [wellFormed, contexts, ports, endpoints, cores, sleeves, stks, offsets, ctxOk, offsetOk]

theorem colCtx0Apply (src : Source) (value : BitVec 32) : Statement (.colCtx0Apply src value) := by
  intro h
  have hs : src.ok = true := by simp_all [wellFormed]
  have hq := source_ok hs
  simp_all [wellFormed, contexts, ports, endpoints, cores, sleeves, stks, offsets, ctxOk, offsetOk]

theorem linCtx0EpWrite (src : Source) (value : BitVec 32) : Statement (.linCtx0EpWrite src value) := by
  intro h
  have hs : src.ok = true := by simp_all [wellFormed]
  have hq := source_ok hs
  simp_all [wellFormed, contexts, ports, endpoints, cores, sleeves, stks, offsets, ctxOk, offsetOk]

theorem tbLoadHiWrite (src : Source) (value : BitVec 32) : Statement (.tbLoadHiWrite src value) := by
  intro h
  have hs : src.ok = true := by simp_all [wellFormed]
  have hq := source_ok hs
  simp_all [wellFormed, contexts, ports, endpoints, cores, sleeves, stks, offsets, ctxOk, offsetOk]

theorem beltPowerCapWrite (src : Source) (value : BitVec 32) : Statement (.beltPowerCapWrite src value) := by
  intro h
  have hs : src.ok = true := by simp_all [wellFormed]
  have hq := source_ok hs
  simp_all [wellFormed, contexts, ports, endpoints, cores, sleeves, stks, offsets, ctxOk, offsetOk]

theorem beltCoolantInWrite (src : Source) (value : BitVec 32) : Statement (.beltCoolantInWrite src value) := by
  intro h
  have hs : src.ok = true := by simp_all [wellFormed]
  have hq := source_ok hs
  simp_all [wellFormed, contexts, ports, endpoints, cores, sleeves, stks, offsets, ctxOk, offsetOk]

theorem beltCalWrite (src : Source) (domain : Nat) (value : BitVec 32) :
    Statement (.beltCalWrite src domain value) := by
  intro h
  have hs : src.ok = true := by simp_all [wellFormed]
  have hq := source_ok hs
  simp_all [wellFormed, contexts, ports, endpoints, cores, sleeves, stks, offsets, ctxOk, offsetOk]

theorem enrol (src : Source) (value : BitVec 32) : Statement (.enrol src value) := by
  intro h
  have hs : src.ok = true := by simp_all [wellFormed]
  have hq := source_ok hs
  simp_all [wellFormed, contexts, ports, endpoints, cores, sleeves, stks, offsets, ctxOk, offsetOk]

theorem enrolRemove (src : Source) (value : BitVec 32) : Statement (.enrolRemove src value) := by
  intro h
  have hs : src.ok = true := by simp_all [wellFormed]
  have hq := source_ok hs
  simp_all [wellFormed, contexts, ports, endpoints, cores, sleeves, stks, offsets, ctxOk, offsetOk]

theorem latchedPairRead (src : Source) (offset : Nat) : Statement (.latchedPairRead src offset) := by
  intro h
  have hs : src.ok = true := by simp_all [wellFormed]
  have hq := source_ok hs
  simp_all [wellFormed, contexts, ports, endpoints, cores, sleeves, stks, offsets, ctxOk, offsetOk]

theorem registerWrite (src : Source) (offset : Nat) (value : BitVec 32) :
    Statement (.registerWrite src offset value) := by
  intro h
  have hs : src.ok = true := by simp_all [wellFormed]
  have hq := source_ok hs
  simp_all [wellFormed, contexts, ports, endpoints, cores, sleeves, stks, offsets, ctxOk, offsetOk]

theorem challengeExpiry (endpoint : Nat) (role : Nat) : Statement (.challengeExpiry endpoint role) := by
  simp_all [Statement, wellFormed, contexts, ports, endpoints, cores, sleeves, stks, offsets, ctxOk, offsetOk,
    endpointOk, laneOk, coresOk, sleevesOk, faultsOk]

theorem authLockoutEnd (endpoint : Nat) : Statement (.authLockoutEnd endpoint) := by
  simp_all [Statement, wellFormed, contexts, ports, endpoints, cores, sleeves, stks, offsets, ctxOk, offsetOk,
    endpointOk, laneOk, coresOk, sleevesOk, faultsOk]

theorem sleeveFault (sleeve : Nat) (cause : SleeveCause) : Statement (.sleeveFault sleeve cause) := by
  simp_all [Statement, wellFormed, contexts, ports, endpoints, cores, sleeves, stks, offsets, ctxOk, offsetOk,
    endpointOk, laneOk, coresOk, sleevesOk, faultsOk]

theorem collarSoftReset (cause : SoftCause) : Statement (.collarSoftReset cause) := by
  simp_all [Statement, wellFormed, contexts, ports, endpoints, cores, sleeves, stks, offsets, ctxOk, offsetOk,
    endpointOk, laneOk, coresOk, sleevesOk, faultsOk]

theorem recovery : Statement .recovery := by
  simp_all [Statement, wellFormed, contexts, ports, endpoints, cores, sleeves, stks, offsets, ctxOk, offsetOk,
    endpointOk, laneOk, coresOk, sleevesOk, faultsOk]

theorem coldResetAssert : Statement .coldResetAssert := by
  simp_all [Statement, wellFormed, contexts, ports, endpoints, cores, sleeves, stks, offsets, ctxOk, offsetOk,
    endpointOk, laneOk, coresOk, sleevesOk, faultsOk]

theorem stackUnrecoverableCondition (m : Nat) : Statement (.stackUnrecoverableCondition m) := by
  simp_all [Statement, wellFormed, contexts, ports, endpoints, cores, sleeves, stks, offsets, ctxOk, offsetOk,
    endpointOk, laneOk, coresOk, sleevesOk, faultsOk]

theorem timeBaseSlew : Statement .timeBaseSlew := by
  simp_all [Statement, wellFormed, contexts, ports, endpoints, cores, sleeves, stks, offsets, ctxOk, offsetOk,
    endpointOk, laneOk, coresOk, sleevesOk, faultsOk]

theorem perBankRefresh (m : Nat) (pc : Nat) (bank : Nat) : Statement (.perBankRefresh m pc bank) := by
  simp_all [Statement, wellFormed, contexts, ports, endpoints, cores, sleeves, stks, offsets, ctxOk, offsetOk,
    endpointOk, laneOk, coresOk, sleevesOk, faultsOk]

theorem stackTemperatureReadOut (m : Nat) (temperature : BitVec 16) :
    Statement (.stackTemperatureReadOut m temperature) := by
  simp_all [Statement, wellFormed, contexts, ports, endpoints, cores, sleeves, stks, offsets, ctxOk, offsetOk,
    endpointOk, laneOk, coresOk, sleevesOk, faultsOk]

end Laws.Operands

end Sys2Proof
end

