-- ==== Sys2Proof/Laws/Same.lean ====
section
/-!
SUPPORT. Sys2Proof/Laws/Same.lean: which parts of the state each operation may change (`SameBut`). One lemma per
operation.
-/
namespace Sys2Proof.Machine

set_option Elab.async false

/-- Nothing has changed. -/
theorem SameBut.refl (l : List Part) (s : State) : SameBut l s s := by
  constructor <;> exact fun _ => rfl

/-- Every part of the first list is in the second. -/
abbrev Within (k l : List Part) : Prop := k.all (fun x => l.contains x) = true

theorem Within.mk {k l : List Part} (h : k.all (fun x => l.contains x) = true) : Within k l := h

theorem Within.trans {j k l : List Part} (h : Within j k) (g : Within k l) : Within j l := by
  unfold Within at *
  rw [List.all_eq_true] at *
  intro x hx
  have := h x hx
  exact g x (by simpa using this)

/-- One more operation, which changes no other part. -/
theorem SameBut.step {l k : List Part} {s t u : State} (h : SameBut k t u) (g : SameBut l s t)
    (hk : Within k l) : SameBut l s u := by
  have sub : ∀ x, x ∉ l → x ∉ k := by
    intro x hx hxk
    have := List.all_eq_true.mp hk x hxk
    exact hx (by simpa using this)
  constructor
  · exact fun n => (h.die (sub _ n)).trans (g.die n)
  · exact fun n => (h.pins (sub _ n)).trans (g.pins n)
  · exact fun n => (h.tb (sub _ n)).trans (g.tb n)
  · exact fun n => (h.caps (sub _ n)).trans (g.caps n)
  · exact fun n => (h.ready (sub _ n)).trans (g.ready n)
  · exact fun n => (h.boot (sub _ n)).trans (g.boot n)
  · exact fun n => (h.stks (sub _ n)).trans (g.stks n)
  · exact fun n => (h.seams (sub _ n)).trans (g.seams n)
  · exact fun n => (h.hostReads (sub _ n)).trans (g.hostReads n)
  · exact fun n => (h.mem (sub _ n)).trans (g.mem n)
  · exact fun n => (h.ctxs (sub _ n)).trans (g.ctxs n)
  · exact fun n => (h.journal (sub _ n)).trans (g.journal n)
  · exact fun n => (h.collar (sub _ n)).trans (g.collar n)
  · exact fun n => (h.fences (sub _ n)).trans (g.fences n)
  · exact fun n => (h.retained (sub _ n)).trans (g.retained n)
  · exact fun n => (h.cores (sub _ n)).trans (g.cores n)
  · exact fun n => (h.sleeves (sub _ n)).trans (g.sleeves n)
  · exact fun n => (h.fabric (sub _ n)).trans (g.fabric n)
  · exact fun n => (h.chains (sub _ n)).trans (g.chains n)
  · exact fun n => (h.starved (sub _ n)).trans (g.starved n)
  · exact fun n => (h.groups (sub _ n)).trans (g.groups n)
  · exact fun n => (h.counters (sub _ n)).trans (g.counters n)
  · exact fun n => (h.trace (sub _ n)).trans (g.trace n)
  · exact fun n => (h.belt (sub _ n)).trans (g.belt n)
  · exact fun n => (h.lining (sub _ n)).trans (g.lining n)
  · exact fun n => (h.i3c (sub _ n)).trans (g.i3c n)
  · exact fun n => (h.tap (sub _ n)).trans (g.tap n)
  · exact fun n => (h.latches (sub _ n)).trans (g.latches n)
  · exact fun n => (h.stamps (sub _ n)).trans (g.stamps n)
  · exact fun n => (h.free (sub _ n)).trans (g.free n)
  · exact fun n => (h.pending (sub _ n)).trans (g.pending n)

/-- A state built on another. -/
theorem same_mk {l : List Part} {s0 s : State} (h : SameBut l s0 s) {die pins tb caps ready boot stks seams hostReads mem ctxs journal collar fences retained cores sleeves fabric chains starved groups counters trace belt lining i3c tap latches stamps free pending}
    (h_die : Part.die ∉ l → die = s.die := by first | exact fun n => absurd (by decide) n | exact fun _ => rfl)
    (h_pins : Part.pins ∉ l → pins = s.pins := by first | exact fun n => absurd (by decide) n | exact fun _ => rfl)
    (h_tb : Part.tb ∉ l → tb = s.tb := by first | exact fun n => absurd (by decide) n | exact fun _ => rfl)
    (h_caps : Part.caps ∉ l → caps = s.caps := by first | exact fun n => absurd (by decide) n | exact fun _ => rfl)
    (h_ready : Part.ready ∉ l → ready = s.ready := by first | exact fun n => absurd (by decide) n | exact fun _ => rfl)
    (h_boot : Part.boot ∉ l → boot = s.boot := by first | exact fun n => absurd (by decide) n | exact fun _ => rfl)
    (h_stks : Part.stks ∉ l → stks = s.stks := by first | exact fun n => absurd (by decide) n | exact fun _ => rfl)
    (h_seams : Part.seams ∉ l → seams = s.seams := by first | exact fun n => absurd (by decide) n | exact fun _ => rfl)
    (h_hostReads : Part.hostReads ∉ l → hostReads = s.hostReads := by first | exact fun n => absurd (by decide) n | exact fun _ => rfl)
    (h_mem : Part.mem ∉ l → mem = s.mem := by first | exact fun n => absurd (by decide) n | exact fun _ => rfl)
    (h_ctxs : Part.ctxs ∉ l → ctxs = s.ctxs := by first | exact fun n => absurd (by decide) n | exact fun _ => rfl)
    (h_journal : Part.journal ∉ l → journal = s.journal := by first | exact fun n => absurd (by decide) n | exact fun _ => rfl)
    (h_collar : Part.collar ∉ l → collar = s.collar := by first | exact fun n => absurd (by decide) n | exact fun _ => rfl)
    (h_fences : Part.fences ∉ l → fences = s.fences := by first | exact fun n => absurd (by decide) n | exact fun _ => rfl)
    (h_retained : Part.retained ∉ l → retained = s.retained := by first | exact fun n => absurd (by decide) n | exact fun _ => rfl)
    (h_cores : Part.cores ∉ l → cores = s.cores := by first | exact fun n => absurd (by decide) n | exact fun _ => rfl)
    (h_sleeves : Part.sleeves ∉ l → sleeves = s.sleeves := by first | exact fun n => absurd (by decide) n | exact fun _ => rfl)
    (h_fabric : Part.fabric ∉ l → fabric = s.fabric := by first | exact fun n => absurd (by decide) n | exact fun _ => rfl)
    (h_chains : Part.chains ∉ l → chains = s.chains := by first | exact fun n => absurd (by decide) n | exact fun _ => rfl)
    (h_starved : Part.starved ∉ l → starved = s.starved := by first | exact fun n => absurd (by decide) n | exact fun _ => rfl)
    (h_groups : Part.groups ∉ l → groups = s.groups := by first | exact fun n => absurd (by decide) n | exact fun _ => rfl)
    (h_counters : Part.counters ∉ l → counters = s.counters := by first | exact fun n => absurd (by decide) n | exact fun _ => rfl)
    (h_trace : Part.trace ∉ l → trace = s.trace := by first | exact fun n => absurd (by decide) n | exact fun _ => rfl)
    (h_belt : Part.belt ∉ l → belt = s.belt := by first | exact fun n => absurd (by decide) n | exact fun _ => rfl)
    (h_lining : Part.lining ∉ l → lining = s.lining := by first | exact fun n => absurd (by decide) n | exact fun _ => rfl)
    (h_i3c : Part.i3c ∉ l → i3c = s.i3c := by first | exact fun n => absurd (by decide) n | exact fun _ => rfl)
    (h_tap : Part.tap ∉ l → tap = s.tap := by first | exact fun n => absurd (by decide) n | exact fun _ => rfl)
    (h_latches : Part.latches ∉ l → latches = s.latches := by first | exact fun n => absurd (by decide) n | exact fun _ => rfl)
    (h_stamps : Part.stamps ∉ l → stamps = s.stamps := by first | exact fun n => absurd (by decide) n | exact fun _ => rfl)
    (h_free : Part.free ∉ l → free = s.free := by first | exact fun n => absurd (by decide) n | exact fun _ => rfl)
    (h_pending : Part.pending ∉ l → pending = s.pending := by first | exact fun n => absurd (by decide) n | exact fun _ => rfl)
    : SameBut l s0 (State.mk die pins tb caps ready boot stks seams hostReads mem ctxs journal collar fences retained cores sleeves fabric chains starved groups counters trace belt lining i3c tap latches stamps free pending) := by
  constructor
  · exact fun n => (h_die n).trans (h.die n)
  · exact fun n => (h_pins n).trans (h.pins n)
  · exact fun n => (h_tb n).trans (h.tb n)
  · exact fun n => (h_caps n).trans (h.caps n)
  · exact fun n => (h_ready n).trans (h.ready n)
  · exact fun n => (h_boot n).trans (h.boot n)
  · exact fun n => (h_stks n).trans (h.stks n)
  · exact fun n => (h_seams n).trans (h.seams n)
  · exact fun n => (h_hostReads n).trans (h.hostReads n)
  · exact fun n => (h_mem n).trans (h.mem n)
  · exact fun n => (h_ctxs n).trans (h.ctxs n)
  · exact fun n => (h_journal n).trans (h.journal n)
  · exact fun n => (h_collar n).trans (h.collar n)
  · exact fun n => (h_fences n).trans (h.fences n)
  · exact fun n => (h_retained n).trans (h.retained n)
  · exact fun n => (h_cores n).trans (h.cores n)
  · exact fun n => (h_sleeves n).trans (h.sleeves n)
  · exact fun n => (h_fabric n).trans (h.fabric n)
  · exact fun n => (h_chains n).trans (h.chains n)
  · exact fun n => (h_starved n).trans (h.starved n)
  · exact fun n => (h_groups n).trans (h.groups n)
  · exact fun n => (h_counters n).trans (h.counters n)
  · exact fun n => (h_trace n).trans (h.trace n)
  · exact fun n => (h_belt n).trans (h.belt n)
  · exact fun n => (h_lining n).trans (h.lining n)
  · exact fun n => (h_i3c n).trans (h.i3c n)
  · exact fun n => (h_tap n).trans (h.tap n)
  · exact fun n => (h_latches n).trans (h.latches n)
  · exact fun n => (h_stamps n).trans (h.stamps n)
  · exact fun n => (h_free n).trans (h.free n)
  · exact fun n => (h_pending n).trans (h.pending n)

/-- A fold over operations that change no other part. -/
theorem same_foldl {l : List Part} {s0 : State} {α : Type} {f : State → α → State} {xs : List α} {s : State}
    (hf : ∀ s x, SameBut l s0 s → SameBut l s0 (f s x)) (h : SameBut l s0 s) : SameBut l s0 (xs.foldl f s) := by
  induction xs generalizing s with
  | nil => exact h
  | cons x r ih => exact ih (hf s x h)

/-- The same of a state that may not be there. -/
def SameO (l : List Part) (s : State) : Option State → Prop
  | some t => SameBut l s t
  | none => True

/-- The same of a verdict's state. -/
def SameV (l : List Part) (s : State) : Verdict → Prop
  | .done _ _ _ t => SameBut l s t
  | _ => True

/-- The same of an outcome that is a next state. -/
def SameX (l : List Part) (s : State) : Host.Outcome State Fault Refusal → Prop
  | .next t => SameBut l s t
  | _ => True

theorem sameV_wait {l s} : SameV l s .wait := True.intro
theorem sameV_fail {l s i r} : SameV l s (.fail i r) := True.intro
theorem sameV_done {l s st r sat t} (h : SameBut l s t) : SameV l s (.done st r sat t) := h
theorem sameO_none {l s} : SameO l s none := True.intro
theorem sameO_some {l s t} (h : SameBut l s t) : SameO l s (some t) := h
theorem sameX_next {l s t} (h : SameBut l s t) : SameX l s (.next t) := h

theorem sameO_of {l s} {o : Option State} {t : State} (e : o = some t) (h : SameO l s o) : SameBut l s t := by
  subst e; exact h
theorem sameV_of {l s} {v : Verdict} {st r sat t} (e : v = .done st r sat t) (h : SameV l s v) : SameBut l s t := by
  subst e; exact h
theorem sameX_of {l s} {o : Host.Outcome State Fault Refusal} {t : State} (e : o = .next t) (h : SameX l s o) :
    SameBut l s t := by
  subst e; exact h

theorem SameO.step {l k : List Part} {s t : State} {o : Option State} (h : SameO k t o) (g : SameBut l s t)
    (hk : Within k l) : SameO l s o := by
  cases o with
  | none => exact True.intro
  | some u => exact SameBut.step h g hk
theorem SameV.step {l k : List Part} {s t : State} {o : Verdict} (h : SameV k t o) (g : SameBut l s t)
    (hk : Within k l) : SameV l s o := by
  cases o with
  | done _ _ _ u => exact SameBut.step (u := u) h g hk
  | _ => exact True.intro
theorem SameX.step {l k : List Part} {s t : State} {o : Host.Outcome State Fault Refusal} (h : SameX k t o)
    (g : SameBut l s t) (hk : Within k l) : SameX l s o := by
  cases o with
  | next u => exact SameBut.step h g hk
  | _ => exact True.intro

theorem same_ite {l s} {p : Prop} {_ : Decidable p} {x y : Option State} (hx : SameO l s x) (hy : SameO l s y) :
    SameO l s (if p then x else y) := by
  split
  · exact hx
  · exact hy

theorem same_ite' {l s} {p : Prop} {_ : Decidable p} {x y : State} (hx : SameBut l s x) (hy : SameBut l s y) :
    SameBut l s (if p then x else y) := by
  split
  · exact hx
  · exact hy

theorem same_getD {l s} {o : Option State} {t : State} (h : SameO l s o) (g : SameBut l s t) :
    SameBut l s (o.getD t) := by
  cases o with
  | none => exact g
  | some t => exact h

theorem State.atPort_same {l : List Part} {s0 s : State} (h0 : SameBut l s0 s) (ctx : Nat) (a : Nat) (n : Nat) (f : Traffic → Request → Traffic)
 (hk : Within [.fabric] l) : SameBut l s0 (State.atPort s ctx a n f) := by
  with_reducible refine SameBut.step (k := [.fabric]) ?_ h0 hk
  have h : SameBut [.fabric] s s := SameBut.refl _ _
  clear h0 hk
  unfold State.atPort
  try dsimp only
  repeat' first | (with_reducible first | assumption | apply same_foldl) | (with_reducible apply Within.mk; decide) | split | intro _ _ _ | intro _ _ | intro _
  any_goals (refine same_mk ?_)
  repeat' first | with_reducible assumption

theorem State.engineLines_same {l : List Part} {s0 s : State} (h0 : SameBut l s0 s) (a : Nat) (n : Nat)
 (hk : Within [.fabric] l) : SameBut l s0 (State.engineLines s a n) := by
  with_reducible refine SameBut.step (k := [.fabric]) ?_ h0 hk
  have h : SameBut [.fabric] s s := SameBut.refl _ _
  clear h0 hk
  unfold State.engineLines
  try dsimp only
  repeat' first | (with_reducible first | assumption | apply State.atPort_same) | (with_reducible apply Within.mk; decide)

theorem State.lay_same {l : List Part} {s0 s : State} (h0 : SameBut l s0 s) (a : Nat) (bs : Bytes)
 (hk : Within [.mem, .fabric] l) : SameBut l s0 (State.lay s a bs) := by
  with_reducible refine SameBut.step (k := [.mem, .fabric]) ?_ h0 hk
  have h : SameBut [.mem, .fabric] s s := SameBut.refl _ _
  clear h0 hk
  unfold State.lay
  try dsimp only
  any_goals (refine same_mk ?_)
  repeat' first | with_reducible assumption

theorem State.put_same {l : List Part} {s0 s : State} (h0 : SameBut l s0 s) (a : Nat) (bs : Bytes)
 (hk : Within [.mem, .fabric] l) : SameBut l s0 (State.put s a bs) := by
  with_reducible refine SameBut.step (k := [.mem, .fabric]) ?_ h0 hk
  have h : SameBut [.mem, .fabric] s s := SameBut.refl _ _
  clear h0 hk
  unfold State.put
  try dsimp only
  repeat' first | (with_reducible first | assumption | apply State.engineLines_same | apply State.lay_same)
                | (with_reducible apply Within.mk; decide)

theorem State.journalPut_same {l : List Part} {s0 s : State} (h0 : SameBut l s0 s) (off : Nat) (bs : Bytes)
 (hk : Within [.mem, .fabric] l) : SameBut l s0 (State.journalPut s off bs) := by
  with_reducible refine SameBut.step (k := [.mem, .fabric]) ?_ h0 hk
  have h : SameBut [.mem, .fabric] s s := SameBut.refl _ _
  clear h0 hk
  unfold State.journalPut
  try dsimp only
  repeat' first | (with_reducible first | assumption | apply State.put_same | apply same_foldl)
                | (with_reducible apply Within.mk; decide) | split

theorem State.linePut_same {l : List Part} {s0 s : State} (h0 : SameBut l s0 s) (pos : Nat) (bs : Bytes)
 (hk : Within [.mem, .fabric] l) : SameBut l s0 (State.linePut s pos bs) := by
  with_reducible refine SameBut.step (k := [.mem, .fabric]) ?_ h0 hk
  have h : SameBut [.mem, .fabric] s s := SameBut.refl _ _
  clear h0 hk
  unfold State.linePut
  try dsimp only
  repeat' first | (with_reducible first | assumption | apply State.journalPut_same)
                | (with_reducible apply Within.mk; decide)

theorem State.setEntry_same {l : List Part} {s0 s : State} (h0 : SameBut l s0 s) (e : Entry)
 (hk : Within [.mem, .journal, .fabric] l) : SameBut l s0 (State.setEntry s e) := by
  with_reducible refine SameBut.step (k := [.mem, .journal, .fabric]) ?_ h0 hk
  have h : SameBut [.mem, .journal, .fabric] s s := SameBut.refl _ _
  clear h0 hk
  unfold State.setEntry
  try dsimp only
  repeat' first | (with_reducible first | assumption | apply State.linePut_same | apply same_foldl)
                | (with_reducible apply Within.mk; decide) | split | intro _ _ _ | intro _ _ | intro _
  any_goals (refine same_mk ?_)
  repeat' first | with_reducible assumption

theorem State.chargeEnergy_same {l : List Part} {s0 s : State} (h0 : SameBut l s0 s) (ps : List Piece) (stop :
    Nat) (k : Nat × W32)
 (hk : Within [.mem, .journal, .fabric] l) : SameBut l s0 (State.chargeEnergy s ps stop k) := by
  with_reducible refine SameBut.step (k := [.mem, .journal, .fabric]) ?_ h0 hk
  have h : SameBut [.mem, .journal, .fabric] s s := SameBut.refl _ _
  clear h0 hk
  unfold State.chargeEnergy
  try dsimp only
  repeat' first | (with_reducible first | assumption | apply State.setEntry_same | apply same_foldl)
                | (with_reducible apply Within.mk; decide) | split

theorem State.setCtx_same {l : List Part} {s0 s : State} (h0 : SameBut l s0 s) (n : Nat) (c : Ctx)
 (hk : Within [.ctxs] l) : SameBut l s0 (State.setCtx s n c) := by
  with_reducible refine SameBut.step (k := [.ctxs]) ?_ h0 hk
  have h : SameBut [.ctxs] s s := SameBut.refl _ _
  clear h0 hk
  unfold State.setCtx
  try dsimp only
  any_goals (refine same_mk ?_)
  repeat' first | with_reducible assumption

theorem State.chargeJobs_same {l : List Part} {s0 s : State} (h0 : SameBut l s0 s) (ps : List Piece) (keys : List
    (Nat × W32)) (stop : Nat) (ctx : Nat)
 (hk : Within [.ctxs] l) : SameBut l s0 (State.chargeJobs s ps keys stop ctx) := by
  with_reducible refine SameBut.step (k := [.ctxs]) ?_ h0 hk
  have h : SameBut [.ctxs] s s := SameBut.refl _ _
  clear h0 hk
  unfold State.chargeJobs
  try dsimp only
  repeat' first | (with_reducible first | assumption | apply State.setCtx_same | apply same_foldl)
                | (with_reducible apply Within.mk; decide) | split

theorem State.attribute_same {l : List Part} {s0 s : State} (h0 : SameBut l s0 s) (es : List Nat) (stop : Nat)
 (hk : Within [.mem, .ctxs, .journal, .fabric, .belt] l) : SameBut l s0 (State.attribute s es stop) := by
  with_reducible refine SameBut.step (k := [.mem, .ctxs, .journal, .fabric, .belt]) ?_ h0 hk
  have h : SameBut [.mem, .ctxs, .journal, .fabric, .belt] s s := SameBut.refl _ _
  clear h0 hk
  unfold State.attribute
  try dsimp only
  any_goals (refine same_mk ?_)
  repeat' first | (with_reducible first | assumption | apply State.chargeEnergy_same
                                        | apply State.chargeJobs_same | apply same_foldl)
                | (with_reducible apply Within.mk; decide) | split | intro _ _ _

theorem State.dropShares_same {l : List Part} {s0 s : State} (h0 : SameBut l s0 s) (stop : Nat)
 (hk : Within [.seams, .fabric, .belt] l) : SameBut l s0 (State.dropShares s stop) := by
  with_reducible refine SameBut.step (k := [.seams, .fabric, .belt]) ?_ h0 hk
  have h : SameBut [.seams, .fabric, .belt] s s := SameBut.refl _ _
  clear h0 hk
  unfold State.dropShares
  try dsimp only
  any_goals (refine same_mk ?_)
  repeat' first | with_reducible assumption

theorem State.addAt_same {l : List Part} {s0 s : State} (h0 : SameBut l s0 s) (a : Nat) (n : Nat)
 (hk : Within [.counters] l) : SameBut l s0 (State.addAt s a n) := by
  with_reducible refine SameBut.step (k := [.counters]) ?_ h0 hk
  have h : SameBut [.counters] s s := SameBut.refl _ _
  clear h0 hk
  unfold State.addAt
  try dsimp only
  any_goals (refine same_mk ?_)
  repeat' first | with_reducible assumption

theorem State.count_same {l : List Part} {s0 s : State} (h0 : SameBut l s0 s) (c : Counter) (n : Nat)
 (hk : Within [.counters] l) : SameBut l s0 (State.count s c n) := by
  with_reducible refine SameBut.step (k := [.counters]) ?_ h0 hk
  have h : SameBut [.counters] s s := SameBut.refl _ _
  clear h0 hk
  unfold State.count
  try dsimp only
  repeat' first | (with_reducible first | assumption | apply State.addAt_same)
                | (with_reducible apply Within.mk; decide)

theorem State.stretchCycles_same {l : List Part} {s0 s : State} (h0 : SameBut l s0 s) 
 (hk : Within [.counters] l) : SameBut l s0 (State.stretchCycles s) := by
  with_reducible refine SameBut.step (k := [.counters]) ?_ h0 hk
  have h : SameBut [.counters] s s := SameBut.refl _ _
  clear h0 hk
  unfold State.stretchCycles
  try dsimp only
  repeat' first | (with_reducible first | assumption | apply State.count_same | apply same_foldl)
                | (with_reducible apply Within.mk; decide) | split | intro _ _ _

theorem State.traceSlot_same {l : List Part} {s0 s : State} (h0 : SameBut l s0 s) (slot : Nat) (r : TraceRec)
 (hk : Within [.mem, .fabric] l) : SameBut l s0 (State.traceSlot s slot r) := by
  with_reducible refine SameBut.step (k := [.mem, .fabric]) ?_ h0 hk
  have h : SameBut [.mem, .fabric] s s := SameBut.refl _ _
  clear h0 hk
  unfold State.traceSlot
  try dsimp only
  repeat' first | (with_reducible first | assumption | apply State.put_same | apply same_foldl)
                | (with_reducible apply Within.mk; decide) | split

theorem State.traceWrite_same {l : List Part} {s0 s : State} (h0 : SameBut l s0 s) (slot : Nat) (r : TraceRec)
 (hk : Within [.mem, .fabric, .counters] l) : SameBut l s0 (State.traceWrite s slot r) := by
  with_reducible refine SameBut.step (k := [.mem, .fabric, .counters]) ?_ h0 hk
  have h : SameBut [.mem, .fabric, .counters] s s := SameBut.refl _ _
  clear h0 hk
  unfold State.traceWrite
  try dsimp only
  repeat' first | (with_reducible first | assumption | apply State.count_same | apply State.traceSlot_same)
                | (with_reducible apply Within.mk; decide)

theorem State.traceDrop_same {l : List Part} {s0 s : State} (h0 : SameBut l s0 s) (t : W64)
 (hk : Within [.mem, .fabric, .counters, .trace] l) : SameBut l s0 (State.traceDrop s t) := by
  with_reducible refine SameBut.step (k := [.mem, .fabric, .counters, .trace]) ?_ h0 hk
  have h : SameBut [.mem, .fabric, .counters, .trace] s s := SameBut.refl _ _
  clear h0 hk
  unfold State.traceDrop
  try dsimp only
  repeat' first | (with_reducible first | assumption | apply State.count_same | apply State.traceSlot_same
                                        | apply same_foldl) | (with_reducible apply Within.mk; decide) | split
                | intro _ _ _ | intro _ _ | intro _
  any_goals (refine same_mk ?_)
  repeat' first | with_reducible assumption

theorem State.traceTrip_same {l : List Part} {s0 s : State} (h0 : SameBut l s0 s) (data : W64) (ctx : Nat) (seq : W32)
 (hk : Within [.mem, .fabric, .counters, .trace] l) : SameBut l s0 (State.traceTrip s data ctx seq) := by
  with_reducible refine SameBut.step (k := [.mem, .fabric, .counters, .trace]) ?_ h0 hk
  have h : SameBut [.mem, .fabric, .counters, .trace] s s := SameBut.refl _ _
  clear h0 hk
  unfold State.traceTrip
  try dsimp only
  repeat' first | (with_reducible first | assumption | apply State.count_same | apply State.traceWrite_same
                                        | apply same_foldl) | (with_reducible apply Within.mk; decide) | split
                | intro _ _ _ | intro _ _ | intro _
  any_goals (refine same_mk ?_)
  repeat' first | with_reducible assumption

theorem State.traceArrive_same {l : List Part} {s0 s : State} (h0 : SameBut l s0 s) (r : TraceRec)
 (hk : Within [.mem, .fabric, .counters, .trace] l) : SameBut l s0 (State.traceArrive s r) := by
  with_reducible refine SameBut.step (k := [.mem, .fabric, .counters, .trace]) ?_ h0 hk
  have h : SameBut [.mem, .fabric, .counters, .trace] s s := SameBut.refl _ _
  clear h0 hk
  unfold State.traceArrive
  try dsimp only
  repeat' first | (with_reducible first | assumption | apply State.traceWrite_same | apply State.traceDrop_same
                                        | apply State.traceTrip_same | apply same_foldl)
                | (with_reducible apply Within.mk; decide) | split | intro _ _ _ | intro _ _ | intro _
  any_goals (refine same_mk ?_)
  repeat' first | (with_reducible first | assumption | apply State.traceWrite_same | apply State.traceDrop_same
                                        | apply State.traceTrip_same) | (with_reducible apply Within.mk; decide)

theorem State.traceRec_same {l : List Part} {s0 s : State} (h0 : SameBut l s0 s) (type : Nat) (unit : TraceUnit)
    (ctx : Nat) (seq : W32) (data : Nat)
 (hk : Within [.mem, .fabric, .counters, .trace] l) : SameBut l s0 (State.traceRec s type unit ctx seq data) := by
  with_reducible refine SameBut.step (k := [.mem, .fabric, .counters, .trace]) ?_ h0 hk
  have h : SameBut [.mem, .fabric, .counters, .trace] s s := SameBut.refl _ _
  clear h0 hk
  unfold State.traceRec
  try dsimp only
  repeat' first | (with_reducible first | assumption | apply State.traceArrive_same | apply same_foldl)
                | (with_reducible apply Within.mk; decide) | split | intro _ _ _ | intro _ _ | intro _
  any_goals (refine same_mk ?_)
  repeat' first | with_reducible assumption

theorem State.traceFault_same {l : List Part} {s0 s : State} (h0 : SameBut l s0 s) (k : FaultKind) (action : Nat)
    (unit : TraceUnit) (ctx : Nat) (seq : W32)
 (hk : Within [.mem, .fabric, .counters, .trace] l) : SameBut l s0 (State.traceFault s k action unit ctx seq) := by
  with_reducible refine SameBut.step (k := [.mem, .fabric, .counters, .trace]) ?_ h0 hk
  have h : SameBut [.mem, .fabric, .counters, .trace] s s := SameBut.refl _ _
  clear h0 hk
  unfold State.traceFault
  try dsimp only
  repeat' first | (with_reducible first | assumption | apply State.traceRec_same)
                | (with_reducible apply Within.mk; decide)

theorem State.traceStep_same {l : List Part} {s0 s : State} (h0 : SameBut l s0 s) (old : Nat)
 (hk : Within [.mem, .fabric, .counters, .trace] l) : SameBut l s0 (State.traceStep s old) := by
  with_reducible refine SameBut.step (k := [.mem, .fabric, .counters, .trace]) ?_ h0 hk
  have h : SameBut [.mem, .fabric, .counters, .trace] s s := SameBut.refl _ _
  clear h0 hk
  unfold State.traceStep
  try dsimp only
  repeat' first | (with_reducible first | assumption | apply State.traceRec_same | apply same_foldl)
                | (with_reducible apply Within.mk; decide) | split

theorem State.ibi_same {l : List Part} {s0 s : State} (h0 : SameBut l s0 s) 
 (hk : Within [.i3c] l) : SameBut l s0 (State.ibi s) := by
  with_reducible refine SameBut.step (k := [.i3c]) ?_ h0 hk
  have h : SameBut [.i3c] s s := SameBut.refl _ _
  clear h0 hk
  unfold State.ibi
  try dsimp only
  any_goals (refine same_mk ?_)
  repeat' first | with_reducible assumption

theorem State.onPort_same {l : List Part} {s0 s : State} (h0 : SameBut l s0 s) (m : Nat) (f : Traffic → Traffic)
 (hk : Within [.fabric] l) : SameBut l s0 (State.onPort s m f) := by
  with_reducible refine SameBut.step (k := [.fabric]) ?_ h0 hk
  have h : SameBut [.fabric] s s := SameBut.refl _ _
  clear h0 hk
  unfold State.onPort
  try dsimp only
  any_goals (refine same_mk ?_)
  repeat' first | with_reducible assumption

theorem State.admitAt_same {l : List Part} {s0 s : State} (h0 : SameBut l s0 s) (m : Nat)
 (hk : Within [.fabric] l) : SameBut l s0 (State.admitAt s m) := by
  with_reducible refine SameBut.step (k := [.fabric]) ?_ h0 hk
  have h : SameBut [.fabric] s s := SameBut.refl _ _
  clear h0 hk
  unfold State.admitAt
  try dsimp only
  repeat' first | (with_reducible first | assumption | apply State.onPort_same | apply same_foldl)
                | (with_reducible apply Within.mk; decide) | split

theorem State.dropRequests_same {l : List Part} {s0 s : State} (h0 : SameBut l s0 s) (e : Entry)
 (hk : Within [.fabric] l) : SameBut l s0 (State.dropRequests s e) := by
  with_reducible refine SameBut.step (k := [.fabric]) ?_ h0 hk
  have h : SameBut [.fabric] s s := SameBut.refl _ _
  clear h0 hk
  unfold State.dropRequests
  try dsimp only
  repeat' first | (with_reducible first | assumption | apply State.admitAt_same | apply same_foldl)
                | (with_reducible apply Within.mk; decide) | split | intro _ _ _ | intro _ _ | intro _
  any_goals (refine same_mk ?_)
  repeat' first | with_reducible assumption

theorem State.trips_same {l : List Part} {s0 s : State} (h0 : SameBut l s0 s) 
 (hk : Within [.mem, .journal, .fabric, .counters, .trace, .belt, .i3c] l) : SameBut l s0 (State.trips s) := by
  with_reducible refine SameBut.step (k := [.mem, .journal, .fabric, .counters, .trace, .belt, .i3c]) ?_ h0 hk
  have h : SameBut [.mem, .journal, .fabric, .counters, .trace, .belt, .i3c] s s := SameBut.refl _ _
  clear h0 hk
  unfold State.trips
  try dsimp only
  repeat' first | (with_reducible first | assumption | apply State.traceFault_same | apply State.traceStep_same
                                        | apply State.ibi_same | apply State.setEntry_same
                                        | apply State.dropRequests_same | apply same_foldl)
                | (with_reducible apply Within.mk; decide) | split | intro _ _ _ | intro _ _ | intro _
  any_goals (refine same_mk ?_)
  repeat' first | with_reducible assumption

theorem State.readSensors_same {l : List Part} {s0 s : State} (h0 : SameBut l s0 s) (xs : List Int)
 (hk : Within [.mem, .journal, .sleeves, .fabric, .counters, .trace, .belt, .i3c] l) : SameBut l s0
     (State.readSensors s xs) := by
  with_reducible refine SameBut.step (k := [.mem, .journal, .sleeves, .fabric, .counters, .trace,
                     .belt, .i3c]) ?_ h0 hk
  have h : SameBut [.mem, .journal, .sleeves, .fabric, .counters, .trace, .belt, .i3c] s s := SameBut.refl _ _
  clear h0 hk
  unfold State.readSensors
  try dsimp only
  repeat' first | (with_reducible first | assumption | apply State.trips_same | apply same_foldl)
                | (with_reducible apply Within.mk; decide) | split | intro _ _ _ | intro _ _ | intro _
  any_goals (refine same_mk ?_)
  repeat' first | with_reducible assumption

theorem State.endInterval_same {l : List Part} {s0 s : State} (h0 : SameBut l s0 s) (m : Metering) (stop : Nat)
 (hk : Within [.seams, .mem, .ctxs, .journal, .sleeves, .fabric, .counters, .trace, .belt, .i3c] l) : SameBut l s0
     (State.endInterval s m stop) := by
  with_reducible refine SameBut.step (k := [.seams, .mem, .ctxs, .journal, .sleeves, .fabric,
                     .counters, .trace, .belt, .i3c]) ?_ h0 hk
  have h : SameBut [.seams, .mem, .ctxs, .journal, .sleeves, .fabric, .counters, .trace, .belt, .i3c] s s :=
      SameBut.refl _ _
  clear h0 hk
  unfold State.endInterval
  try dsimp only
  repeat' first | (with_reducible first | assumption | apply State.stretchCycles_same
                                        | apply State.dropShares_same | apply State.attribute_same
                                        | apply State.readSensors_same | apply State.traceStep_same
                                        | apply same_foldl) | (with_reducible apply Within.mk; decide) | split
                | intro _ _ _ | intro _ _ | intro _
  any_goals (refine same_mk ?_)
  repeat' first | (with_reducible first | assumption | apply State.stretchCycles_same
                                        | apply State.dropShares_same | apply State.attribute_same
                                        | apply State.readSensors_same | apply State.traceStep_same
                                        | apply same_foldl) | (with_reducible apply Within.mk; decide) | split
                | intro _ _ _ | intro _ _ | intro _
  any_goals (refine same_mk ?_)
  repeat' first | (with_reducible first | assumption | apply State.stretchCycles_same
                                        | apply State.dropShares_same | apply State.attribute_same
                                        | apply State.readSensors_same | apply State.traceStep_same)
                | (with_reducible apply Within.mk; decide)

theorem State.grantFall_same {l : List Part} {s0 s : State} (h0 : SameBut l s0 s) (r : StepReq)
 (hk : Within [.belt] l) : SameBut l s0 (State.grantFall s r) := by
  with_reducible refine SameBut.step (k := [.belt]) ?_ h0 hk
  have h : SameBut [.belt] s s := SameBut.refl _ _
  clear h0 hk
  unfold State.grantFall
  try dsimp only
  any_goals (refine same_mk ?_)
  repeat' first | with_reducible assumption

theorem State.setCore_same {l : List Part} {s0 s : State} (h0 : SameBut l s0 s) (c : Nat) (x : CoreUnit)
 (hk : Within [.cores] l) : SameBut l s0 (State.setCore s c x) := by
  with_reducible refine SameBut.step (k := [.cores]) ?_ h0 hk
  have h : SameBut [.cores] s s := SameBut.refl _ _
  clear h0 hk
  unfold State.setCore
  try dsimp only
  any_goals (refine same_mk ?_)
  repeat' first | with_reducible assumption

theorem State.slewCycles_same {l : List Part} {s0 s : State} (h0 : SameBut l s0 s) (core : Nat) (units : Nat)
 (hk : Within [.cores, .counters] l) : SameBut l s0 (State.slewCycles s core units) := by
  with_reducible refine SameBut.step (k := [.cores, .counters]) ?_ h0 hk
  have h : SameBut [.cores, .counters] s s := SameBut.refl _ _
  clear h0 hk
  unfold State.slewCycles
  try dsimp only
  repeat' first | (with_reducible first | assumption | apply State.count_same | apply State.setCore_same
                                        | apply same_foldl) | (with_reducible apply Within.mk; decide) | split

theorem State.grantRise_same {l : List Part} {s0 s : State} (h0 : SameBut l s0 s) (r : StepReq)
 (hk : Within [.cores, .counters, .belt] l) : SameBut l s0 (State.grantRise s r) := by
  with_reducible refine SameBut.step (k := [.cores, .counters, .belt]) ?_ h0 hk
  have h : SameBut [.cores, .counters, .belt] s s := SameBut.refl _ _
  clear h0 hk
  unfold State.grantRise
  try dsimp only
  any_goals (refine same_mk ?_)
  repeat' first | (with_reducible first | assumption | apply State.slewCycles_same | apply State.setCore_same)
                | (with_reducible apply Within.mk; decide)

theorem State.setSeam_same {l : List Part} {s0 s : State} (h0 : SameBut l s0 s) (p : Nat) (x : SeamPort)
 (hk : Within [.seams] l) : SameBut l s0 (State.setSeam s p x) := by
  with_reducible refine SameBut.step (k := [.seams]) ?_ h0 hk
  have h : SameBut [.seams] s s := SameBut.refl _ _
  clear h0 hk
  unfold State.setSeam
  try dsimp only
  any_goals (refine same_mk ?_)
  repeat' first | with_reducible assumption

theorem State.movedBytes_same {l : List Part} {s0 s : State} (h0 : SameBut l s0 s) (p : Nat) (n : Nat) (who :
    Option (Nat × W32))
 (hk : Within [.seams] l) : SameBut l s0 (State.movedBytes s p n who) := by
  with_reducible refine SameBut.step (k := [.seams]) ?_ h0 hk
  have h : SameBut [.seams] s s := SameBut.refl _ _
  clear h0 hk
  unfold State.movedBytes
  try dsimp only
  repeat' first | (with_reducible first | assumption | apply State.setSeam_same | apply same_foldl)
                | (with_reducible apply Within.mk; decide) | split

theorem State.moved_same {l : List Part} {s0 s : State} (h0 : SameBut l s0 s) (p : Nat) (k : Packet) (who : Option
    (Nat × W32))
 (hk : Within [.seams] l) : SameBut l s0 (State.moved s p k who) := by
  with_reducible refine SameBut.step (k := [.seams]) ?_ h0 hk
  have h : SameBut [.seams] s s := SameBut.refl _ _
  clear h0 hk
  unfold State.moved
  try dsimp only
  repeat' first | (with_reducible first | assumption | apply State.movedBytes_same | apply same_foldl)
                | (with_reducible apply Within.mk; decide) | split

theorem State.setChannel_same {l : List Part} {s0 s : State} (h0 : SameBut l s0 s) (c : Channel)
 (hk : Within [.lining] l) : SameBut l s0 (State.setChannel s c) := by
  with_reducible refine SameBut.step (k := [.lining]) ?_ h0 hk
  have h : SameBut [.lining] s s := SameBut.refl _ _
  clear h0 hk
  unfold State.setChannel
  try dsimp only
  any_goals (refine same_mk ?_)
  repeat' first | with_reducible assumption

theorem State.sendOne_same {l : List Part} {s0 s : State} (h0 : SameBut l s0 s) (p : Nat) (k : Packet) (rest :
    List Packet)
 (hk : Within [.seams, .counters, .lining] l) : SameO l s0 (State.sendOne s p k rest) := by
  with_reducible refine SameO.step (k := [.seams, .counters, .lining]) ?_ h0 hk
  have h : SameBut [.seams, .counters, .lining] s s := SameBut.refl _ _
  clear h0 hk
  unfold State.sendOne
  try dsimp only
  repeat' first | (with_reducible first | assumption | apply State.count_same | apply State.setSeam_same
                                        | apply State.setChannel_same | apply sameO_none | apply sameO_some
                                        | apply same_foldl) | (with_reducible apply Within.mk; decide) | split

theorem State.pumpAux_same {l : List Part} {s0 x5 : State} (h0 : SameBut l s0 x5) (p : Nat) (x2 : Nat) (x3 : List
    Packet) (x4 : List Packet)
 (hk : Within [.seams, .counters, .lining] l) : SameBut l s0 (State.pumpAux p x2 x3 x4 x5) := by
  with_reducible refine SameBut.step (k := [.seams, .counters, .lining]) ?_ h0 hk
  have h : SameBut [.seams, .counters, .lining] x5 x5 := SameBut.refl _ _
  clear h0 hk
  have aux : ∀ (n : Nat) (done todo : List Packet) (t : State), SameBut [.seams, .counters, .lining] x5 t →
      SameBut [.seams, .counters, .lining] x5 (State.pumpAux p n done todo t) := by
    intro n
    induction n with
    | zero => exact fun _ _ _ g => State.setSeam_same g _ _ (by decide)
    | succ n ih =>
      intro done todo t g
      cases todo with
      | nil => exact State.setSeam_same g _ _ (by decide)
      | cons k ks =>
        unfold State.pumpAux
        split
        · exact ih _ _ _ g
        · split
          · exact ih _ _ _ (sameO_of (by assumption) (State.sendOne_same g _ _ _ (by decide)))
          · exact ih _ _ _ g
  exact aux _ _ _ _ h


theorem State.pump_same {l : List Part} {s0 s : State} (h0 : SameBut l s0 s) (p : Nat)
 (hk : Within [.seams, .counters, .lining] l) : SameBut l s0 (State.pump s p) := by
  with_reducible refine SameBut.step (k := [.seams, .counters, .lining]) ?_ h0 hk
  have h : SameBut [.seams, .counters, .lining] s s := SameBut.refl _ _
  clear h0 hk
  unfold State.pump
  try dsimp only
  repeat' first | (with_reducible first | assumption | apply State.pumpAux_same)
                | (with_reducible apply Within.mk; decide)

theorem State.send_same {l : List Part} {s0 s : State} (h0 : SameBut l s0 s) (p : Nat) (k : Packet) (who :
    optParam (Option (Nat × W32)) none)
 (hk : Within [.seams, .counters, .lining] l) : SameBut l s0 (State.send s p k who) := by
  with_reducible refine SameBut.step (k := [.seams, .counters, .lining]) ?_ h0 hk
  have h : SameBut [.seams, .counters, .lining] s s := SameBut.refl _ _
  clear h0 hk
  unfold State.send
  try dsimp only
  repeat' first | (with_reducible first | assumption | apply State.moved_same | apply State.pump_same
                                        | apply State.setSeam_same) | (with_reducible apply Within.mk; decide)

theorem State.mwrs_same {l : List Part} {s0 s : State} (h0 : SameBut l s0 s) (who : Option (Nat × W32)) (ep : Nat)
    (a : Nat) (bs : Bytes)
 (hk : Within [.seams, .counters, .lining] l) : SameBut l s0 (State.mwrs s who ep a bs) := by
  with_reducible refine SameBut.step (k := [.seams, .counters, .lining]) ?_ h0 hk
  have h : SameBut [.seams, .counters, .lining] s s := SameBut.refl _ _
  clear h0 hk
  unfold State.mwrs
  try dsimp only
  repeat' first | (with_reducible first | assumption | apply State.send_same | apply same_foldl)
                | (with_reducible apply Within.mk; decide) | split | intro _ _ _

theorem State.store_same {l : List Part} {s0 s : State} (h0 : SameBut l s0 s) (ep : Nat) (a : Nat) (bs : Bytes)
 (hk : Within [.seams, .mem, .fabric, .counters, .lining] l) : SameBut l s0 (State.store s ep a bs) := by
  with_reducible refine SameBut.step (k := [.seams, .mem, .fabric, .counters, .lining]) ?_ h0 hk
  have h : SameBut [.seams, .mem, .fabric, .counters, .lining] s s := SameBut.refl _ _
  clear h0 hk
  unfold State.store
  try dsimp only
  repeat' first | (with_reducible first | assumption | apply State.mwrs_same | apply State.put_same)
                | (with_reducible apply Within.mk; decide)

theorem State.contextLines_same {l : List Part} {s0 s : State} (h0 : SameBut l s0 s) (ctx : Nat) (a : Nat) (n : Nat)
 (hk : Within [.fabric] l) : SameBut l s0 (State.contextLines s ctx a n) := by
  with_reducible refine SameBut.step (k := [.fabric]) ?_ h0 hk
  have h : SameBut [.fabric] s s := SameBut.refl _ _
  clear h0 hk
  unfold State.contextLines
  try dsimp only
  repeat' first | (with_reducible first | assumption | apply State.atPort_same)
                | (with_reducible apply Within.mk; decide)

theorem State.putFor_same {l : List Part} {s0 s : State} (h0 : SameBut l s0 s) (ctx : Nat) (a : Nat) (bs : Bytes)
 (hk : Within [.mem, .fabric] l) : SameBut l s0 (State.putFor s ctx a bs) := by
  with_reducible refine SameBut.step (k := [.mem, .fabric]) ?_ h0 hk
  have h : SameBut [.mem, .fabric] s s := SameBut.refl _ _
  clear h0 hk
  unfold State.putFor
  try dsimp only
  repeat' first | (with_reducible first | assumption | apply State.contextLines_same | apply State.lay_same)
                | (with_reducible apply Within.mk; decide)

theorem State.storeFor_same {l : List Part} {s0 s : State} (h0 : SameBut l s0 s) (ctx : Nat) (a : Nat) (bs : Bytes)
 (hk : Within [.seams, .mem, .fabric, .counters, .lining] l) : SameBut l s0 (State.storeFor s ctx a bs) := by
  with_reducible refine SameBut.step (k := [.seams, .mem, .fabric, .counters, .lining]) ?_ h0 hk
  have h : SameBut [.seams, .mem, .fabric, .counters, .lining] s s := SameBut.refl _ _
  clear h0 hk
  unfold State.storeFor
  try dsimp only
  repeat' first | (with_reducible first | assumption | apply State.mwrs_same | apply State.putFor_same)
                | (with_reducible apply Within.mk; decide)

theorem State.storeAs_same {l : List Part} {s0 s : State} (h0 : SameBut l s0 s) (pocket : Bool) (ctx : Nat) (a :
    Nat) (bs : Bytes)
 (hk : Within [.seams, .mem, .fabric, .counters, .lining] l) : SameBut l s0 (State.storeAs s pocket ctx a bs) := by
  with_reducible refine SameBut.step (k := [.seams, .mem, .fabric, .counters, .lining]) ?_ h0 hk
  have h : SameBut [.seams, .mem, .fabric, .counters, .lining] s s := SameBut.refl _ _
  clear h0 hk
  unfold State.storeAs
  try dsimp only
  repeat' first | (with_reducible first | assumption | apply State.store_same | apply State.storeFor_same
                                        | apply same_foldl) | (with_reducible apply Within.mk; decide) | split

theorem State.bounceStore_same {l : List Part} {s0 s : State} (h0 : SameBut l s0 s) (ctx : Nat) (a : Nat) (bs :
    Bytes) (pocket : optParam Bool false)
 (hk : Within [.seams, .mem, .ctxs, .fabric, .counters, .lining] l) : SameBut l s0 (State.bounceStore s ctx a bs
     pocket) := by
  with_reducible refine SameBut.step (k := [.seams, .mem, .ctxs, .fabric, .counters, .lining]) ?_ h0 hk
  have h : SameBut [.seams, .mem, .ctxs, .fabric, .counters, .lining] s s := SameBut.refl _ _
  clear h0 hk
  unfold State.bounceStore
  try dsimp only
  repeat' first | (with_reducible first | assumption | apply State.storeAs_same | apply State.setCtx_same
                                        | apply same_foldl) | (with_reducible apply Within.mk; decide) | split

theorem State.l2Invalidate_same {l : List Part} {s0 s : State} (h0 : SameBut l s0 s) (xs : List (Nat × Nat))
 (hk : Within [.fabric] l) : SameBut l s0 (State.l2Invalidate s xs) := by
  with_reducible refine SameBut.step (k := [.fabric]) ?_ h0 hk
  have h : SameBut [.fabric] s s := SameBut.refl _ _
  clear h0 hk
  unfold State.l2Invalidate
  try dsimp only
  any_goals (refine same_mk ?_)
  repeat' first | with_reducible assumption

theorem State.dropCopies_same {l : List Part} {s0 s : State} (h0 : SameBut l s0 s) (xs : List (Nat × Nat))
 (hk : Within [.cores, .counters] l) : SameBut l s0 (State.dropCopies s xs) := by
  with_reducible refine SameBut.step (k := [.cores, .counters]) ?_ h0 hk
  have h : SameBut [.cores, .counters] s s := SameBut.refl _ _
  clear h0 hk
  unfold State.dropCopies
  try dsimp only
  repeat' first | (with_reducible first | assumption | apply State.count_same | apply State.setCore_same
                                        | apply same_foldl) | (with_reducible apply Within.mk; decide) | split
                | intro _ _ _

theorem State.writeReceipt_same {l : List Part} {s0 s : State} (h0 : SameBut l s0 s) (e : Entry) (rs : List Run)
    (kind : Nat) (id : Nat) (commands : Nat) (a : Energy)
 (hk : Within [.seams, .mem, .ctxs, .journal, .cores, .fabric, .counters, .belt, .lining] l) : SameBut l s0
     (State.writeReceipt s e rs kind id commands a) := by
  with_reducible refine SameBut.step (k := [.seams, .mem, .ctxs, .journal, .cores, .fabric,
                     .counters, .belt, .lining]) ?_ h0 hk
  have h : SameBut [.seams, .mem, .ctxs, .journal, .cores, .fabric, .counters, .belt, .lining] s s := SameBut.refl _ _
  clear h0 hk
  unfold State.writeReceipt
  try dsimp only
  repeat' first | (with_reducible first | assumption | apply State.bounceStore_same | apply State.count_same
                                        | apply State.setEntry_same | apply State.l2Invalidate_same
                                        | apply State.dropCopies_same | apply same_foldl)
                | (with_reducible apply Within.mk; decide) | split | intro _ _ _ | intro _ _ | intro _
  any_goals (refine same_mk ?_)
  repeat' first | (with_reducible first | assumption | apply State.bounceStore_same | apply State.count_same
                                        | apply State.setEntry_same | apply State.l2Invalidate_same
                                        | apply State.dropCopies_same | apply same_foldl)
                | (with_reducible apply Within.mk; decide) | split | intro _ _ _

theorem energyMarkWork_same {l : List Part} {s0 s : State} (h0 : SameBut l s0 s) (e : Entry)
 (hk : Within [.ctxs] l) : SameV l s0 (energyMarkWork s e) := by
  with_reducible refine SameV.step (k := [.ctxs]) ?_ h0 hk
  have h : SameBut [.ctxs] s s := SameBut.refl _ _
  clear h0 hk
  unfold energyMarkWork
  try dsimp only
  repeat' first | (with_reducible first | assumption | apply State.setCtx_same | apply sameV_wait
                                        | apply sameV_fail | apply sameV_done | apply same_foldl)
                | (with_reducible apply Within.mk; decide) | split

theorem State.setChain_same {l : List Part} {s0 s : State} (h0 : SameBut l s0 s) (c : ChainState)
 (hk : Within [.chains] l) : SameBut l s0 (State.setChain s c) := by
  with_reducible refine SameBut.step (k := [.chains]) ?_ h0 hk
  have h : SameBut [.chains] s s := SameBut.refl _ _
  clear h0 hk
  unfold State.setChain
  try dsimp only
  any_goals (refine same_mk ?_)
  repeat' first | with_reducible assumption

theorem State.memberEnd_same {l : List Part} {s0 s : State} (h0 : SameBut l s0 s) (e : Entry) (st : Status)
 (hk : Within [.chains] l) : SameBut l s0 (State.memberEnd s e st) := by
  with_reducible refine SameBut.step (k := [.chains]) ?_ h0 hk
  have h : SameBut [.chains] s s := SameBut.refl _ _
  clear h0 hk
  unfold State.memberEnd
  try dsimp only
  repeat' first | (with_reducible first | assumption | apply State.setChain_same | apply same_foldl)
                | (with_reducible apply Within.mk; decide) | split

theorem State.conclude_same {l : List Part} {s0 s : State} (h0 : SameBut l s0 s) (e : Entry) (st : Status) (result
    : W32) (sat : Bool)
 (hk : Within [.mem, .journal, .fabric] l) : SameBut l s0 (State.conclude s e st result sat) := by
  with_reducible refine SameBut.step (k := [.mem, .journal, .fabric]) ?_ h0 hk
  have h : SameBut [.mem, .journal, .fabric] s s := SameBut.refl _ _
  clear h0 hk
  unfold State.conclude
  try dsimp only
  repeat' first | (with_reducible first | assumption | apply State.setEntry_same)
                | (with_reducible apply Within.mk; decide)

theorem State.scramble_same {l : List Part} {s0 s : State} (h0 : SameBut l s0 s) (rs : List Run)
 (hk : Within [.mem, .fabric, .free] l) : SameBut l s0 (State.scramble s rs) := by
  with_reducible refine SameBut.step (k := [.mem, .fabric, .free]) ?_ h0 hk
  have h : SameBut [.mem, .fabric, .free] s s := SameBut.refl _ _
  clear h0 hk
  unfold State.scramble
  try dsimp only
  repeat' first | (with_reducible first | assumption | apply State.lay_same | apply same_foldl)
                | (with_reducible apply Within.mk; decide) | split | intro _ _ _ | intro _ _ | intro _
  any_goals (refine same_mk ?_)
  repeat' first | (with_reducible first | assumption | apply State.lay_same)
                | (with_reducible apply Within.mk; decide)

theorem State.settle_same {l : List Part} {s0 s : State} (h0 : SameBut l s0 s) (e : Entry) (v : Verdict)
    (hv : SameV l s0 v) (hk : Within [.mem, .journal, .fabric, .free] l) : SameBut l s0 (s.settle e v) := by
  cases v with
  | wait => exact h0
  | fail issues lost =>
    exact State.conclude_same (State.scramble_same h0 _ (Within.trans (by decide) hk)) _ _ _ _ (Within.trans (by
        decide) hk)
  | done st r sat t => exact State.conclude_same hv _ _ _ _ (Within.trans (by decide) hk)

theorem State.failPlain_same {l : List Part} {s0 s : State} (h0 : SameBut l s0 s) (e : Entry) (issues : List Status)
    (lost : List Run) (hk : Within [.mem, .journal, .fabric, .chains, .free] l) : SameBut l s0 (s.failPlain e
        issues lost) :=
  State.memberEnd_same (State.settle_same h0 _ _ sameV_fail (Within.trans (by decide) hk)) _ _
    (Within.trans (by decide) hk)

theorem State.endSteps_same {l : List Part} {s0 s : State} (h0 : SameBut l s0 s) (who : optParam (Option (Nat ×
    W32)) none)
 (hk : Within [.cores, .counters, .belt] l) : SameBut l s0 (State.endSteps s who) := by
  with_reducible refine SameBut.step (k := [.cores, .counters, .belt]) ?_ h0 hk
  have h : SameBut [.cores, .counters, .belt] s s := SameBut.refl _ _
  clear h0 hk
  unfold State.endSteps
  try dsimp only
  repeat' first | (with_reducible first | assumption | apply State.slewCycles_same | apply same_foldl)
                | (with_reducible apply Within.mk; decide) | split | intro _ _ _ | intro _ _ | intro _
  any_goals (refine same_mk ?_)
  repeat' first | with_reducible assumption

theorem State.releaseQueues_same {l : List Part} {s0 s : State} (h0 : SameBut l s0 s) (ctx : Nat) (seq : W32)
 (hk : Within [.cores, .counters, .belt] l) : SameBut l s0 (State.releaseQueues s ctx seq) := by
  with_reducible refine SameBut.step (k := [.cores, .counters, .belt]) ?_ h0 hk
  have h : SameBut [.cores, .counters, .belt] s s := SameBut.refl _ _
  clear h0 hk
  unfold State.releaseQueues
  try dsimp only
  repeat' first | (with_reducible first | assumption | apply State.endSteps_same | apply same_foldl)
                | (with_reducible apply Within.mk; decide) | split | intro _ _ _ | intro _ _ | intro _
  any_goals (refine same_mk ?_)
  repeat' first | with_reducible assumption

theorem State.endWork_same {l : List Part} {s0 s : State} (h0 : SameBut l s0 s) (e : Entry)
 (hk : Within [.cores, .fabric, .counters, .belt] l) : SameBut l s0 (State.endWork s e) := by
  with_reducible refine SameBut.step (k := [.cores, .fabric, .counters, .belt]) ?_ h0 hk
  have h : SameBut [.cores, .fabric, .counters, .belt] s s := SameBut.refl _ _
  clear h0 hk
  unfold State.endWork
  try dsimp only
  repeat' first | (with_reducible first | assumption | apply State.releaseQueues_same
                                        | apply State.dropRequests_same)
                | (with_reducible apply Within.mk; decide)

theorem State.slotsBack_same {l : List Part} {s0 s : State} (h0 : SameBut l s0 s) (xs : List (Nat × BitVec 8))
 (hk : Within [.mem, .cores, .fabric, .counters] l) : SameBut l s0 (State.slotsBack s xs) := by
  with_reducible refine SameBut.step (k := [.mem, .cores, .fabric, .counters]) ?_ h0 hk
  have h : SameBut [.mem, .cores, .fabric, .counters] s s := SameBut.refl _ _
  clear h0 hk
  unfold State.slotsBack
  try dsimp only
  repeat' first | (with_reducible first | assumption | apply State.dropCopies_same | apply State.put_same
                                        | apply same_foldl) | (with_reducible apply Within.mk; decide) | split
                | intro _ _ _

theorem State.emptyTaken_same {l : List Part} {s0 s : State} (h0 : SameBut l s0 s) (e : Entry)
 (hk : Within [.mem, .cores, .fabric, .counters] l) : SameBut l s0 (State.emptyTaken s e) := by
  with_reducible refine SameBut.step (k := [.mem, .cores, .fabric, .counters]) ?_ h0 hk
  have h : SameBut [.mem, .cores, .fabric, .counters] s s := SameBut.refl _ _
  clear h0 hk
  unfold State.emptyTaken
  try dsimp only
  repeat' first | (with_reducible first | assumption | apply State.slotsBack_same)
                | (with_reducible apply Within.mk; decide)

theorem State.failNow_same {l : List Part} {s0 s : State} (h0 : SameBut l s0 s) (e : Entry) (issues : List Status)
    (lost : List Run) (hk : Within [.mem, .journal, .cores, .fabric, .chains, .counters, .free] l) : SameBut l s0
        (s.failNow e issues lost) := by
  have hs := fun x => State.failPlain_same (State.emptyTaken_same h0 e (Within.trans (by decide) hk)) x issues lost
    (Within.trans (by decide) hk)
  unfold State.failNow
  exact hs _

theorem State.askEngine_same {l : List Part} {s0 s : State} (h0 : SameBut l s0 s) (lines : List Nat)
 (hk : Within [.fabric] l) : SameBut l s0 (State.askEngine s lines) := by
  with_reducible refine SameBut.step (k := [.fabric]) ?_ h0 hk
  have h : SameBut [.fabric] s s := SameBut.refl _ _
  clear h0 hk
  unfold State.askEngine
  try dsimp only
  repeat' first | (with_reducible first | assumption | apply State.engineLines_same | apply same_foldl)
                | (with_reducible apply Within.mk; decide) | split | intro _ _ _

theorem State.countIf_same {l : List Part} {s0 s : State} (h0 : SameBut l s0 s) (c : Counter) (n : Nat)
 (hk : Within [.counters] l) : SameBut l s0 (State.countIf s c n) := by
  with_reducible refine SameBut.step (k := [.counters]) ?_ h0 hk
  have h : SameBut [.counters] s s := SameBut.refl _ _
  clear h0 hk
  unfold State.countIf
  try dsimp only
  repeat' first | (with_reducible first | assumption | apply State.count_same | apply same_foldl)
                | (with_reducible apply Within.mk; decide) | split

theorem State.fillLines_same {l : List Part} {s0 s : State} (h0 : SameBut l s0 s) (k : Nat) (cls : LineClass) (n :
    Nat) (owner : Nat × Bool × Nat) (read : Bool) (lines : List Nat)
 (hk : Within [.fabric, .counters] l) : SameBut l s0 (State.fillLines s k cls n owner read lines) := by
  with_reducible refine SameBut.step (k := [.fabric, .counters]) ?_ h0 hk
  have h : SameBut [.fabric, .counters] s s := SameBut.refl _ _
  clear h0 hk
  unfold State.fillLines
  try dsimp only
  repeat' first | (with_reducible first | assumption | apply State.countIf_same | apply same_foldl)
                | (with_reducible apply Within.mk; decide) | split | intro _ _ _ | intro _ _ | intro _
  any_goals (refine same_mk ?_)
  repeat' first | with_reducible assumption

theorem State.lookLines_same {l : List Part} {s0 s : State} (h0 : SameBut l s0 s) (k : Nat) (lines : List Nat)
    (read : optParam Bool true)
 (hk : Within [.fabric, .counters] l) : SameBut l s0 (State.lookLines s k lines read) := by
  with_reducible refine SameBut.step (k := [.fabric, .counters]) ?_ h0 hk
  have h : SameBut [.fabric, .counters] s s := SameBut.refl _ _
  clear h0 hk
  unfold State.lookLines
  try dsimp only
  repeat' first | (with_reducible first | assumption | apply State.countIf_same | apply same_foldl)
                | (with_reducible apply Within.mk; decide) | split | intro _ _ _ | intro _ _ | intro _
  any_goals (refine same_mk ?_)
  repeat' first | with_reducible assumption

theorem State.walkFor_same {l : List Part} {s0 s : State} (h0 : SameBut l s0 s) (k : Nat) (ctx : Nat) (page : Nat)
 (hk : Within [.fabric, .counters] l) : SameBut l s0 (State.walkFor s k ctx page) := by
  with_reducible refine SameBut.step (k := [.fabric, .counters]) ?_ h0 hk
  have h : SameBut [.fabric, .counters] s s := SameBut.refl _ _
  clear h0 hk
  unfold State.walkFor
  try dsimp only
  repeat' first | (with_reducible first | assumption | apply State.askEngine_same | apply State.fillLines_same
                                        | apply State.lookLines_same | apply same_foldl)
                | (with_reducible apply Within.mk; decide) | split

theorem State.xlate_same {l : List Part} {s0 s : State} (h0 : SameBut l s0 s) (k : Nat) (ctx : Nat) (pages : List Nat)
 (hk : Within [.fabric, .counters] l) : SameBut l s0 (State.xlate s k ctx pages) := by
  with_reducible refine SameBut.step (k := [.fabric, .counters]) ?_ h0 hk
  have h : SameBut [.fabric, .counters] s s := SameBut.refl _ _
  clear h0 hk
  unfold State.xlate
  try dsimp only
  repeat' first | (with_reducible first | assumption | apply State.walkFor_same | apply State.countIf_same
                                        | apply State.count_same | apply same_foldl)
                | (with_reducible apply Within.mk; decide) | split | intro _ _ _ | intro _ _ | intro _
  any_goals (refine same_mk ?_)
  repeat' first | (with_reducible first | assumption | apply State.walkFor_same | apply State.countIf_same
                                        | apply State.count_same | apply same_foldl)
                | (with_reducible apply Within.mk; decide) | split | intro _ _ _

theorem State.walkNamed_same {l : List Part} {s0 s : State} (h0 : SameBut l s0 s) (e : Entry)
 (hk : Within [.fabric, .counters] l) : SameBut l s0 (State.walkNamed s e) := by
  with_reducible refine SameBut.step (k := [.fabric, .counters]) ?_ h0 hk
  have h : SameBut [.fabric, .counters] s s := SameBut.refl _ _
  clear h0 hk
  unfold State.walkNamed
  try dsimp only
  repeat' first | (with_reducible first | assumption | apply State.xlate_same | apply same_foldl)
                | (with_reducible apply Within.mk; decide) | split

theorem State.failWork_same {l : List Part} {s0 s : State} (h0 : SameBut l s0 s) (e : Entry) (issues : List Status)
    (lost : List Run) (hk : Within [.mem, .journal, .cores, .fabric, .chains, .counters, .belt, .free] l) :
        SameBut l s0 (s.failWork e issues lost) := by
  have hs := State.failNow_same (State.walkNamed_same h0 e (Within.trans (by decide) hk)) e issues lost
    (Within.trans (by decide) hk)
  unfold State.failWork
  exact State.endWork_same hs _ (Within.trans (by decide) hk)

theorem State.metered_same {l : List Part} {s0 t : State} (h0 : SameBut l s0 t) (s : State) (ctx : Nat) (seq : W32)
 (hk : Within [.seams, .fabric] l) : SameBut l s0 (State.metered s t ctx seq) := by
  with_reducible refine SameBut.step (k := [.seams, .fabric]) ?_ h0 hk
  have h : SameBut [.seams, .fabric] t t := SameBut.refl _ _
  clear h0 hk
  unfold State.metered
  try dsimp only
  any_goals (refine same_mk ?_)
  repeat' first | (with_reducible first | assumption | apply State.onPort_same | apply same_foldl)
                | (with_reducible apply Within.mk; decide) | split | intro _ _ _

theorem State.workEnd_same {l : List Part} {s0 s : State} (h0 : SameBut l s0 s) (e : Entry) (st : Status)
 (hk : Within [.cores, .fabric, .chains, .starved, .counters, .belt] l) : SameBut l s0 (State.workEnd s e st) := by
  with_reducible refine SameBut.step (k := [.cores, .fabric, .chains, .starved, .counters, .belt]) ?_ h0 hk
  have h : SameBut [.cores, .fabric, .chains, .starved, .counters, .belt] s s := SameBut.refl _ _
  clear h0 hk
  unfold State.workEnd
  try dsimp only
  repeat' first | (with_reducible first | assumption | apply State.memberEnd_same | apply State.endWork_same
                                        | apply same_foldl) | (with_reducible apply Within.mk; decide) | split
                | intro _ _ _ | intro _ _ | intro _
  any_goals (refine same_mk ?_)
  repeat' first | (with_reducible first | assumption | apply State.memberEnd_same | apply State.endWork_same)
                | (with_reducible apply Within.mk; decide)

theorem State.runOp_narrow {l : List Part} {s : State} (op : Op) (ctx : Nat) (seq : W32)
    (eff : State → Entry → Verdict) (hn : op.namesNone = true) (he : ∀ e, SameV l s (eff s e)) (hk : Within [.mem,
        .journal, .fabric, .chains, .free] l) :
    SameX l s (s.runOp op ctx seq eff) := by
  have h : SameBut l s s := SameBut.refl _ _
  unfold State.runOp
  rw [hn]
  split
  · exact h
  · rename_i f _
    split
    · exact State.memberEnd_same (State.conclude_same h _ _ _ _ (Within.trans (by decide) hk)) _ _
        (Within.trans (by decide) hk)
    · split
      · exact h
      · split
        · exact h
        · exact State.failPlain_same h _ _ _ (Within.trans (by decide) hk)
        · rename_i st r sat t ht
          have hs : SameBut l s (s.settle f (.done st r sat t)) :=
            State.settle_same h _ _ (sameV_done (sameV_of ht (he _))) (Within.trans (by decide) hk)
          split
          · exact h
          · apply sameX_next
            generalize s.settle f (.done st r sat t) = u at hs
            exact State.memberEnd_same hs _ _ (Within.trans (by decide) hk)

theorem State.runOp_plain {l : List Part} {s : State} (op : Op) (ctx : Nat) (seq : W32)
    (eff : State → Entry → Verdict) (hq : op.usesQueues = false) (he : ∀ e, SameV l s (eff s e)) (hk : Within
        [.seams, .mem, .journal, .cores, .fabric, .chains, .counters, .free] l) :
    SameX l s (s.runOp op ctx seq eff) := by
  have h : SameBut l s s := SameBut.refl _ _
  unfold State.runOp
  rw [hq]
  split
  · exact h
  · rename_i f _
    split
    · exact State.memberEnd_same (State.conclude_same h _ _ _ _ (Within.trans (by decide) hk)) _ _
        (Within.trans (by decide) hk)
    · split
      · exact h
      · split
        · exact h
        · apply sameX_next
          split
          · exact State.failPlain_same h _ _ _ (Within.trans (by decide) hk)
          · exact State.failPlain_same (State.walkNamed_same h _ (Within.trans (by decide) hk)) _ _ _ (Within.trans
              (by decide) hk)
        · rename_i st r sat t ht
          have hs : SameBut l s (s.settle f (.done st r sat t)) :=
            State.settle_same h _ _ (sameV_done (sameV_of ht (he _))) (Within.trans (by decide) hk)
          split
          · exact h
          · apply sameX_next
            generalize s.settle f (.done st r sat t) = u at hs
            split
            · exact State.memberEnd_same hs _ _ (Within.trans (by decide) hk)
            · exact State.metered_same (State.memberEnd_same hs _ _ (Within.trans (by decide) hk)) _ _ _
                (Within.trans (by decide) hk)

theorem State.runOp_same {l : List Part} {s : State} (op : Op) (ctx : Nat) (seq : W32)
    (eff : State → Entry → Verdict) (he : ∀ e, SameV l s (eff s e)) (hk : Within [.seams, .mem, .journal, .cores,
        .fabric, .chains, .starved, .counters, .belt, .free] l) :
    SameX l s (s.runOp op ctx seq eff) := by
  have h : SameBut l s s := SameBut.refl _ _
  unfold State.runOp
  split
  · exact h
  · rename_i f _
    split
    · exact State.memberEnd_same (State.conclude_same h _ _ _ _ (Within.trans (by decide) hk)) _ _
        (Within.trans (by decide) hk)
    · split
      · exact h
      · split
        · exact h
        · apply sameX_next
          split
          · exact State.failPlain_same h _ _ _ (Within.trans (by decide) hk)
          · split
            · exact State.endWork_same (State.failPlain_same (State.walkNamed_same h _ (Within.trans (by decide) hk)) _ _ _
                (Within.trans (by decide) hk)) _ (Within.trans (by decide) hk)
            · exact State.failPlain_same (State.walkNamed_same h _ (Within.trans (by decide) hk)) _ _ _
                (Within.trans (by decide) hk)
        · rename_i st r sat t ht
          have hs : SameBut l s (s.settle f (.done st r sat t)) :=
            State.settle_same h _ _ (sameV_done (sameV_of ht (he _))) (Within.trans (by decide) hk)
          split
          · exact h
          · apply sameX_next
            generalize s.settle f (.done st r sat t) = u at hs
            split
            · exact State.memberEnd_same hs _ _ (Within.trans (by decide) hk)
            · refine State.metered_same ?_ _ _ _ (Within.trans (by decide) hk)
              split
              · exact State.workEnd_same hs _ _ (Within.trans (by decide) hk)
              · exact State.memberEnd_same hs _ _ (Within.trans (by decide) hk)

theorem State.auditAdd?_same {l : List Part} {s0 s : State} (h0 : SameBut l s0 s) (kind : Nat) (role : Nat)
    (endpoint : Nat) (target : W32) (seq : W32) (value : W64)
 (hk : Within [.lining] l) : SameO l s0 (State.auditAdd? s kind role endpoint target seq value) := by
  with_reducible refine SameO.step (k := [.lining]) ?_ h0 hk
  have h : SameBut [.lining] s s := SameBut.refl _ _
  clear h0 hk
  unfold State.auditAdd?
  try dsimp only
  repeat' first | (with_reducible first | assumption | apply sameO_none | apply sameO_some | apply same_foldl)
                | (with_reducible apply Within.mk; decide) | split | intro _ _ _ | intro _ _ | intro _
  any_goals (refine same_mk ?_)
  repeat' first | with_reducible assumption

theorem State.audited_same {l : List Part} {s0 s : State} (h0 : SameBut l s0 s) (kind : Nat) (role : Nat)
    (endpoint : Nat) (target : W32) (seq : W32) (value : W64)
 (hk : Within [.lining] l) : SameBut l s0 (State.audited s kind role endpoint target seq value) := by
  with_reducible refine SameBut.step (k := [.lining]) ?_ h0 hk
  have h : SameBut [.lining] s s := SameBut.refl _ _
  clear h0 hk
  unfold State.audited
  exact same_getD (State.auditAdd?_same h _ _ _ _ _ _ (by decide)) h


theorem State.auditCommand_same {l : List Part} {s0 s : State} (h0 : SameBut l s0 s) (e : Entry) (what : Option Bytes)
 (hk : Within [.lining] l) : SameBut l s0 (State.auditCommand s e what) := by
  with_reducible refine SameBut.step (k := [.lining]) ?_ h0 hk
  have h : SameBut [.lining] s s := SameBut.refl _ _
  clear h0 hk
  unfold State.auditCommand
  try dsimp only
  repeat' first | (with_reducible first | assumption | apply State.audited_same | apply same_foldl)
                | (with_reducible apply Within.mk; decide) | split

theorem powerReserveWork_same {l : List Part} {s0 s : State} (h0 : SameBut l s0 s) (e : Entry)
 (hk : Within [.belt, .lining] l) : SameV l s0 (powerReserveWork s e) := by
  with_reducible refine SameV.step (k := [.belt, .lining]) ?_ h0 hk
  have h : SameBut [.belt, .lining] s s := SameBut.refl _ _
  clear h0 hk
  unfold powerReserveWork
  try dsimp only
  repeat' first | (with_reducible first | assumption | apply State.auditCommand_same | apply sameV_wait
                                        | apply sameV_fail | apply sameV_done | apply same_foldl)
                | (with_reducible apply Within.mk; decide) | split | intro _ _ _ | intro _ _ | intro _
  any_goals (refine same_mk ?_)
  repeat' first | with_reducible assumption

theorem receiptIssueWork_same {l : List Part} {s0 s : State} (h0 : SameBut l s0 s) (e : Entry)
 (hk : Within [.seams, .mem, .ctxs, .journal, .cores, .fabric, .counters, .belt, .lining] l) : SameV l s0
     (receiptIssueWork s e) := by
  with_reducible refine SameV.step (k := [.seams, .mem, .ctxs, .journal, .cores, .fabric,
                     .counters, .belt, .lining]) ?_ h0 hk
  have h : SameBut [.seams, .mem, .ctxs, .journal, .cores, .fabric, .counters, .belt, .lining] s s := SameBut.refl _ _
  clear h0 hk
  unfold receiptIssueWork
  try dsimp only
  repeat' first | (with_reducible first | assumption | apply State.writeReceipt_same | apply State.setCtx_same
                                        | apply sameV_wait | apply sameV_fail | apply sameV_done
                                        | apply same_foldl) | (with_reducible apply Within.mk; decide) | split

theorem State.beginStep_same {l : List Part} {s0 s : State} (h0 : SameBut l s0 s) (e : Entry) (core : Nat) (a : Bool)
 (hk : Within [.belt] l) : SameBut l s0 (State.beginStep e core s a) := by
  with_reducible refine SameBut.step (k := [.belt]) ?_ h0 hk
  have h : SameBut [.belt] s s := SameBut.refl _ _
  clear h0 hk
  unfold State.beginStep
  try dsimp only
  repeat' first | (with_reducible first | assumption | apply same_foldl)
                | (with_reducible apply Within.mk; decide) | split | intro _ _ _ | intro _ _ | intro _
  any_goals (refine same_mk ?_)
  repeat' first | with_reducible assumption

theorem State.beginSteps_same {l : List Part} {s0 s : State} (h0 : SameBut l s0 s) (e : Entry) (core : Nat)
 (hk : Within [.belt] l) : SameBut l s0 (State.beginSteps s e core) := by
  with_reducible refine SameBut.step (k := [.belt]) ?_ h0 hk
  have h : SameBut [.belt] s s := SameBut.refl _ _
  clear h0 hk
  unfold State.beginSteps
  try dsimp only
  repeat' first | (with_reducible first | assumption | apply State.beginStep_same | apply same_foldl)
                | (with_reducible apply Within.mk; decide) | split | intro _ _ _

theorem State.bootFail_same {l : List Part} {s0 s : State} (h0 : SameBut l s0 s) (err : BitVec 4)
 (hk : Within [.boot, .i3c] l) : SameBut l s0 (State.bootFail s err) := by
  with_reducible refine SameBut.step (k := [.boot, .i3c]) ?_ h0 hk
  have h : SameBut [.boot, .i3c] s s := SameBut.refl _ _
  clear h0 hk
  unfold State.bootFail
  try dsimp only
  repeat' first | (with_reducible first | assumption | apply State.ibi_same | apply same_foldl)
                | (with_reducible apply Within.mk; decide) | split | intro _ _ _ | intro _ _ | intro _
  any_goals (refine same_mk ?_)
  repeat' first | with_reducible assumption

theorem State.bootBytes_same {l : List Part} {s0 s : State} (h0 : SameBut l s0 s) (offset : Nat) (data : Bytes)
 (hk : Within [.boot, .i3c] l) : SameBut l s0 (State.bootBytes s offset data) := by
  with_reducible refine SameBut.step (k := [.boot, .i3c]) ?_ h0 hk
  have h : SameBut [.boot, .i3c] s s := SameBut.refl _ _
  clear h0 hk
  unfold State.bootBytes
  try dsimp only
  repeat' first | (with_reducible first | assumption | apply State.bootFail_same | apply same_foldl)
                | (with_reducible apply Within.mk; decide) | split | intro _ _ _ | intro _ _ | intro _
  any_goals (refine same_mk ?_)
  repeat' first | with_reducible assumption

theorem State.helperFail_same {l : List Part} {s0 s : State} (h0 : SameBut l s0 s) (err : BitVec 4)
 (hk : Within [.boot, .lining, .i3c] l) : SameBut l s0 (State.helperFail s err) := by
  with_reducible refine SameBut.step (k := [.boot, .lining, .i3c]) ?_ h0 hk
  have h : SameBut [.boot, .lining, .i3c] s s := SameBut.refl _ _
  clear h0 hk
  unfold State.helperFail
  try dsimp only
  repeat' first | (with_reducible first | assumption | apply State.bootFail_same | apply same_foldl)
                | (with_reducible apply Within.mk; decide) | split | intro _ _ _ | intro _ _ | intro _
  any_goals (refine same_mk ?_)
  repeat' first | with_reducible assumption

theorem State.startChecks_same {l : List Part} {s0 s : State} (h0 : SameBut l s0 s) (mask : BitVec 16)
 (hk : Within [.ready, .boot, .sleeves] l) : SameBut l s0 (State.startChecks s mask) := by
  with_reducible refine SameBut.step (k := [.ready, .boot, .sleeves]) ?_ h0 hk
  have h : SameBut [.ready, .boot, .sleeves] s s := SameBut.refl _ _
  clear h0 hk
  unfold State.startChecks
  try dsimp only
  any_goals (refine same_mk ?_)
  repeat' first | with_reducible assumption

theorem State.releaseCollar_same {l : List Part} {s0 s : State} (h0 : SameBut l s0 s) 
 (hk : Within [.ready, .boot, .sleeves, .lining, .i3c] l) : SameBut l s0 (State.releaseCollar s) := by
  with_reducible refine SameBut.step (k := [.ready, .boot, .sleeves, .lining, .i3c]) ?_ h0 hk
  have h : SameBut [.ready, .boot, .sleeves, .lining, .i3c] s s := SameBut.refl _ _
  clear h0 hk
  unfold State.releaseCollar
  try dsimp only
  repeat' first | (with_reducible first | assumption | apply State.ibi_same | apply State.startChecks_same
                                        | apply same_foldl) | (with_reducible apply Within.mk; decide) | split
                | intro _ _ _ | intro _ _ | intro _
  any_goals (refine same_mk ?_)
  repeat' first | with_reducible assumption

theorem State.freeCredits_same {l : List Part} {s0 s : State} (h0 : SameBut l s0 s) (p : Nat) (vc : Nat) (size : Nat)
 (hk : Within [.seams] l) : SameBut l s0 (State.freeCredits s p vc size) := by
  with_reducible refine SameBut.step (k := [.seams]) ?_ h0 hk
  have h : SameBut [.seams] s s := SameBut.refl _ _
  clear h0 hk
  unfold State.freeCredits
  try dsimp only
  repeat' first | (with_reducible first | assumption | apply State.setSeam_same)
                | (with_reducible apply Within.mk; decide)

theorem State.takeRx_same {l : List Part} {s0 s : State} (h0 : SameBut l s0 s) (p : Nat) (kind : PacketKind) (vc :
    Nat) (ep : Nat) (type : Nat) (who : optParam (Option (Nat × W32)) none)
 (hk : Within [.seams] l) : SameBut l s0 (State.takeRx s p kind vc ep type who) := by
  with_reducible refine SameBut.step (k := [.seams]) ?_ h0 hk
  have h : SameBut [.seams] s s := SameBut.refl _ _
  clear h0 hk
  unfold State.takeRx
  try dsimp only
  repeat' first | (with_reducible first | assumption | apply State.freeCredits_same | apply State.moved_same
                                        | apply State.setSeam_same | apply same_foldl)
                | (with_reducible apply Within.mk; decide) | split

theorem State.setSleeve_same {l : List Part} {s0 s : State} (h0 : SameBut l s0 s) (k : Nat) (x : Sleeve)
 (hk : Within [.sleeves] l) : SameBut l s0 (State.setSleeve s k x) := by
  with_reducible refine SameBut.step (k := [.sleeves]) ?_ h0 hk
  have h : SameBut [.sleeves] s s := SameBut.refl _ _
  clear h0 hk
  unfold State.setSleeve
  try dsimp only
  any_goals (refine same_mk ?_)
  repeat' first | with_reducible assumption

theorem State.notice_same {l : List Part} {s0 s : State} (h0 : SameBut l s0 s) (ep : Nat) (ctx : Nat) (kind : Nat)
    (cqTail : W32)
 (hk : Within [.seams, .counters, .lining] l) : SameBut l s0 (State.notice s ep ctx kind cqTail) := by
  with_reducible refine SameBut.step (k := [.seams, .counters, .lining]) ?_ h0 hk
  have h : SameBut [.seams, .counters, .lining] s s := SameBut.refl _ _
  clear h0 hk
  unfold State.notice
  try dsimp only
  repeat' first | (with_reducible first | assumption | apply State.send_same | apply same_foldl)
                | (with_reducible apply Within.mk; decide) | split

theorem State.capChange_same {l : List Part} {s0 s : State} (h0 : SameBut l s0 s) 
 (hk : Within [.seams, .counters, .lining, .i3c] l) : SameBut l s0 (State.capChange s) := by
  with_reducible refine SameBut.step (k := [.seams, .counters, .lining, .i3c]) ?_ h0 hk
  have h : SameBut [.seams, .counters, .lining, .i3c] s s := SameBut.refl _ _
  clear h0 hk
  unfold State.capChange
  try dsimp only
  repeat' first | (with_reducible first | assumption | apply State.ibi_same | apply State.notice_same)
                | (with_reducible apply Within.mk; decide)

theorem State.setFault_same {l : List Part} {s0 s : State} (h0 : SameBut l s0 s) (b : FaultBit)
 (hk : Within [.collar, .i3c] l) : SameBut l s0 (State.setFault s b) := by
  with_reducible refine SameBut.step (k := [.collar, .i3c]) ?_ h0 hk
  have h : SameBut [.collar, .i3c] s s := SameBut.refl _ _
  clear h0 hk
  unfold State.setFault
  try dsimp only
  any_goals (refine same_mk ?_)
  repeat' first | with_reducible assumption

theorem State.resetCore_same {l : List Part} {s0 s : State} (h0 : SameBut l s0 s) (x : Nat)
 (hk : Within [.journal, .cores] l) : SameBut l s0 (State.resetCore s x) := by
  with_reducible refine SameBut.step (k := [.journal, .cores]) ?_ h0 hk
  have h : SameBut [.journal, .cores] s s := SameBut.refl _ _
  clear h0 hk
  unfold State.resetCore
  try dsimp only
  any_goals (refine same_mk ?_)
  repeat' first | (with_reducible first | assumption | apply State.setCore_same)
                | (with_reducible apply Within.mk; decide)

theorem State.retireCore_same {l : List Part} {s0 s : State} (h0 : SameBut l s0 s) (c : Nat)
 (hk : Within [.caps, .seams, .mem, .collar, .cores, .fabric, .counters, .trace, .lining, .i3c] l) : SameBut l s0
     (State.retireCore s c) := by
  with_reducible refine SameBut.step (k := [.caps, .seams, .mem, .collar, .cores, .fabric,
                     .counters, .trace, .lining, .i3c]) ?_ h0 hk
  have h : SameBut [.caps, .seams, .mem, .collar, .cores, .fabric, .counters, .trace, .lining, .i3c] s s :=
      SameBut.refl _ _
  clear h0 hk
  unfold State.retireCore
  try dsimp only
  repeat' first | (with_reducible first | assumption | apply State.capChange_same | apply State.traceRec_same
                                        | apply State.setFault_same | apply State.resetCore_same
                                        | apply State.setCore_same | apply State.count_same
                                        | apply State.traceFault_same | apply State.setFault_same
                                        | apply same_foldl) | (with_reducible apply Within.mk; decide) | split
                | intro _ _ _ | intro _ _ | intro _
  any_goals (refine same_mk ?_)
  repeat' first | with_reducible assumption

theorem chargeOne_same {l : List Part} {s0 : State} {x : Charged} (h0 : SameBut l s0 x.s) (f : FaultKind × Nat)
    (hk : Within [.caps, .seams, .mem, .journal, .collar, .cores, .fabric, .counters, .trace, .lining, .i3c] l) :
        SameBut l s0 (chargeOne x f).s := by
  refine SameBut.step (k := [.caps, .seams, .mem, .journal, .collar, .cores, .fabric, .counters, .trace, .lining,
      .i3c]) ?_ h0 hk
  have h : SameBut [.caps, .seams, .mem, .journal, .collar, .cores, .fabric, .counters, .trace, .lining, .i3c] x.s
      x.s := SameBut.refl _ _
  clear h0 hk
  unfold chargeOne
  extract_lets k n s1 s2
  split
  · exact h
  · have h2 : SameBut [.caps, .seams, .mem, .journal, .collar, .cores, .fabric, .counters, .trace, .lining, .i3c]
      x.s s2 := State.resetCore_same (State.count_same h _ _ (by decide)) _ (by decide)
    clear_value s2
    split
    · exact State.traceFault_same (State.count_same h2 _ _ (by decide)) _ _ _ _ _ (by decide)
    · split
      · exact State.setFault_same h2 _ (by decide)
      · exact State.retireCore_same (State.traceFault_same h2 _ _ _ _ _ (by decide)) _ (by decide)

theorem State.charge_same {l : List Part} {s0 s : State} (h0 : SameBut l s0 s) (e : Entry) (xs : List (FaultKind ×
    Nat))
    (hk : Within [.caps, .seams, .mem, .journal, .collar, .cores, .fabric, .counters, .trace, .lining, .i3c] l) :
        SameBut l s0 (s.charge e xs).s := by
  have aux : ∀ (xs : List (FaultKind × Nat)) (x : Charged), SameBut l s0 x.s → SameBut l s0 (xs.foldl chargeOne
      x).s := by
    intro xs
    induction xs with
    | nil => exact fun _ g => g
    | cons n xs ih => exact fun x g => ih _ (chargeOne_same g n hk)
  exact aux xs _ h0

theorem State.retireGusset_same {l : List Part} {s0 s : State} (h0 : SameBut l s0 s) (k : Nat)
 (hk : Within [.caps, .seams, .mem, .collar, .sleeves, .fabric, .counters, .trace, .lining, .i3c] l) : SameBut l
     s0 (State.retireGusset s k) := by
  with_reducible refine SameBut.step (k := [.caps, .seams, .mem, .collar, .sleeves, .fabric,
                     .counters, .trace, .lining, .i3c]) ?_ h0 hk
  have h : SameBut [.caps, .seams, .mem, .collar, .sleeves, .fabric, .counters, .trace, .lining, .i3c] s s :=
      SameBut.refl _ _
  clear h0 hk
  unfold State.retireGusset
  try dsimp only
  repeat' first | (with_reducible first | assumption | apply State.setSleeve_same | apply State.capChange_same
                                        | apply State.traceRec_same | apply State.setFault_same
                                        | apply same_foldl) | (with_reducible apply Within.mk; decide) | split
                | intro _ _ _ | intro _ _ | intro _
  any_goals (refine same_mk ?_)
  repeat' first | with_reducible assumption

theorem State.strand_same {l : List Part} {s0 s : State} (h0 : SameBut l s0 s) (gone : List Nat) (ids : List Nat)
 (hk : Within [.mem, .journal, .cores, .fabric, .chains, .counters, .belt, .free] l) : SameBut l s0 (State.strand
     s gone ids) := by
  with_reducible refine SameBut.step (k := [.mem, .journal, .cores, .fabric, .chains, .counters,
                     .belt, .free]) ?_ h0 hk
  have h : SameBut [.mem, .journal, .cores, .fabric, .chains, .counters, .belt, .free] s s := SameBut.refl _ _
  clear h0 hk
  unfold State.strand
  try dsimp only
  repeat' first | (with_reducible first | assumption | apply State.failWork_same | apply State.setEntry_same
                                        | apply same_foldl) | (with_reducible apply Within.mk; decide) | split
                | intro _ _ _

theorem State.retireSleeve_same {l : List Part} {s0 s : State} (h0 : SameBut l s0 s) (k : Nat)
 (hk : Within [.caps, .ready, .seams, .mem, .collar, .cores, .sleeves, .fabric, .counters, .trace, .lining, .i3c]
     l) : SameBut l s0 (State.retireSleeve s k) := by
  with_reducible refine SameBut.step (k := [.caps, .ready, .seams, .mem, .collar, .cores, .sleeves,
                     .fabric, .counters, .trace, .lining, .i3c]) ?_ h0 hk
  have h : SameBut [.caps, .ready, .seams, .mem, .collar, .cores, .sleeves, .fabric, .counters, .trace, .lining,
      .i3c] s s := SameBut.refl _ _
  clear h0 hk
  unfold State.retireSleeve
  try dsimp only
  repeat' first | (with_reducible first | assumption | apply State.retireCore_same
                                        | apply State.retireGusset_same | apply State.setSleeve_same
                                        | apply State.capChange_same | apply State.traceRec_same
                                        | apply State.setFault_same | apply same_foldl)
                | (with_reducible apply Within.mk; decide) | split | intro _ _ _ | intro _ _ | intro _
  any_goals (refine same_mk ?_)
  repeat' first | (with_reducible first | assumption | apply State.retireCore_same
                                        | apply State.retireGusset_same | apply State.setSleeve_same
                                        | apply State.capChange_same | apply State.traceRec_same
                                        | apply State.setFault_same | apply same_foldl)
                | (with_reducible apply Within.mk; decide) | split | intro _ _ _

theorem State.addEntry_same {l : List Part} {s0 s : State} (h0 : SameBut l s0 s) (e : Entry)
 (hk : Within [.mem, .journal, .fabric] l) : SameBut l s0 (State.addEntry s e) := by
  with_reducible refine SameBut.step (k := [.mem, .journal, .fabric]) ?_ h0 hk
  have h : SameBut [.mem, .journal, .fabric] s s := SameBut.refl _ _
  clear h0 hk
  unfold State.addEntry
  try dsimp only
  repeat' first | (with_reducible first | assumption | apply State.linePut_same | apply same_foldl)
                | (with_reducible apply Within.mk; decide) | split | intro _ _ _ | intro _ _ | intro _
  any_goals (refine same_mk ?_)
  repeat' first | (with_reducible first | assumption | apply State.linePut_same | apply same_foldl)
                | (with_reducible apply Within.mk; decide) | split | intro _ _ _ | intro _ _ | intro _
  any_goals (refine same_mk ?_)
  repeat' first | with_reducible assumption

theorem State.putRecord_same {l : List Part} {s0 s : State} (h0 : SameBut l s0 s) (ctx : Nat) (rec : Bool → Bytes)
 (hk : Within [.seams, .mem, .ctxs, .fabric, .counters, .lining] l) : SameBut l s0 (State.putRecord s ctx rec) := by
  with_reducible refine SameBut.step (k := [.seams, .mem, .ctxs, .fabric, .counters, .lining]) ?_ h0 hk
  have h : SameBut [.seams, .mem, .ctxs, .fabric, .counters, .lining] s s := SameBut.refl _ _
  clear h0 hk
  unfold State.putRecord
  try dsimp only
  repeat' first | (with_reducible first | assumption | apply State.store_same | apply State.setCtx_same)
                | (with_reducible apply Within.mk; decide)

theorem State.acceptOne_same {l : List Part} {s0 s : State} (h0 : SameBut l s0 s) (ctx : Nat) (p : Bytes) (chain :
    W32) (member : Option Nat) (early : Option Status)
 (hk : Within [.seams, .mem, .ctxs, .journal, .fabric, .counters, .trace, .lining] l) : SameBut l s0
     (State.acceptOne s ctx p chain member early) := by
  with_reducible refine SameBut.step (k := [.seams, .mem, .ctxs, .journal, .fabric, .counters,
                     .trace, .lining]) ?_ h0 hk
  have h : SameBut [.seams, .mem, .ctxs, .journal, .fabric, .counters, .trace, .lining] s s := SameBut.refl _ _
  clear h0 hk
  unfold State.acceptOne
  try dsimp only
  repeat' first | (with_reducible first | assumption | apply State.addEntry_same | apply State.engineLines_same
                                        | apply State.setCtx_same | apply State.putRecord_same
                                        | apply State.traceRec_same | apply same_foldl)
                | (with_reducible apply Within.mk; decide) | split

theorem State.acceptFailed_same {l : List Part} {s0 s : State} (h0 : SameBut l s0 s) (ctx : Nat) (p : Bytes)
    (chain : W32)
 (hk : Within [.seams, .mem, .ctxs, .journal, .fabric, .counters, .trace, .lining] l) : SameBut l s0
     (State.acceptFailed s ctx p chain) := by
  with_reducible refine SameBut.step (k := [.seams, .mem, .ctxs, .journal, .fabric, .counters,
                     .trace, .lining]) ?_ h0 hk
  have h : SameBut [.seams, .mem, .ctxs, .journal, .fabric, .counters, .trace, .lining] s s := SameBut.refl _ _
  clear h0 hk
  unfold State.acceptFailed
  try dsimp only
  repeat' first | (with_reducible first | assumption | apply State.acceptOne_same | apply State.conclude_same
                                        | apply same_foldl) | (with_reducible apply Within.mk; decide) | split

theorem State.acceptChain_same {l : List Part} {s0 s : State} (h0 : SameBut l s0 s) (ctx : Nat) (p : Bytes)
 (hk : Within [.seams, .mem, .ctxs, .journal, .fabric, .chains, .counters, .trace, .lining] l) : SameBut l s0
     (State.acceptChain s ctx p) := by
  with_reducible refine SameBut.step (k := [.seams, .mem, .ctxs, .journal, .fabric, .chains,
                     .counters, .trace, .lining]) ?_ h0 hk
  have h : SameBut [.seams, .mem, .ctxs, .journal, .fabric, .chains, .counters, .trace, .lining] s s :=
      SameBut.refl _ _
  clear h0 hk
  unfold State.acceptChain
  try dsimp only
  repeat' first | (with_reducible first | assumption | apply State.acceptFailed_same | apply State.setCtx_same
                                        | apply State.acceptOne_same | apply same_foldl)
                | (with_reducible apply Within.mk; decide) | split | intro _ _ _ | intro _ _ | intro _
  any_goals (refine same_mk ?_)
  repeat' first | (with_reducible first | assumption | apply State.acceptFailed_same | apply State.setCtx_same
                                        | apply State.acceptOne_same | apply same_foldl)
                | (with_reducible apply Within.mk; decide) | split | intro _ _ _

theorem State.setFence_same {l : List Part} {s0 s : State} (h0 : SameBut l s0 s) (n : Nat) (v : W64)
 (hk : Within [.fences] l) : SameBut l s0 (State.setFence s n v) := by
  with_reducible refine SameBut.step (k := [.fences]) ?_ h0 hk
  have h : SameBut [.fences] s s := SameBut.refl _ _
  clear h0 hk
  unfold State.setFence
  try dsimp only
  any_goals (refine same_mk ?_)
  repeat' first | with_reducible assumption

theorem State.signalMark_same {l : List Part} {s0 s : State} (h0 : SameBut l s0 s) (e : Entry)
 (hk : Within [.journal, .fences] l) : SameBut l s0 (State.signalMark s e) := by
  with_reducible refine SameBut.step (k := [.journal, .fences]) ?_ h0 hk
  have h : SameBut [.journal, .fences] s s := SameBut.refl _ _
  clear h0 hk
  unfold State.signalMark
  try dsimp only
  repeat' first | (with_reducible first | assumption | apply State.setFence_same | apply same_foldl)
                | (with_reducible apply Within.mk; decide) | split | intro _ _ _ | intro _ _ | intro _
  any_goals (refine same_mk ?_)
  repeat' first | (with_reducible first | assumption | apply State.setFence_same)
                | (with_reducible apply Within.mk; decide)

theorem State.setRetained_same {l : List Part} {s0 s : State} (h0 : SameBut l s0 s) (v : VRef) (n : Nat)
 (hk : Within [.retained] l) : SameBut l s0 (State.setRetained s v n) := by
  with_reducible refine SameBut.step (k := [.retained]) ?_ h0 hk
  have h : SameBut [.retained] s s := SameBut.refl _ _
  clear h0 hk
  unfold State.setRetained
  try dsimp only
  repeat' first | (with_reducible first | assumption | apply same_foldl)
                | (with_reducible apply Within.mk; decide) | split | intro _ _ _ | intro _ _ | intro _
  any_goals (refine same_mk ?_)
  repeat' first | with_reducible assumption

theorem State.applyRefs_same {l : List Part} {s0 s : State} (h0 : SameBut l s0 s) (e : Entry)
 (hk : Within [.retained] l) : SameBut l s0 (State.applyRefs s e) := by
  with_reducible refine SameBut.step (k := [.retained]) ?_ h0 hk
  have h : SameBut [.retained] s s := SameBut.refl _ _
  clear h0 hk
  unfold State.applyRefs
  try dsimp only
  repeat' first | (with_reducible first | assumption | apply State.setRetained_same | apply same_foldl)
                | (with_reducible apply Within.mk; decide) | split | intro _ _ _

theorem State.jobMember_same {l : List Part} {s0 s : State} (h0 : SameBut l s0 s) (e : Entry)
 (hk : Within [.ctxs] l) : SameBut l s0 (State.jobMember s e) := by
  with_reducible refine SameBut.step (k := [.ctxs]) ?_ h0 hk
  have h : SameBut [.ctxs] s s := SameBut.refl _ _
  clear h0 hk
  unfold State.jobMember
  try dsimp only
  repeat' first | (with_reducible first | assumption | apply State.setCtx_same | apply same_foldl)
                | (with_reducible apply Within.mk; decide) | split

theorem State.freeSave_same {l : List Part} {s0 s : State} (h0 : SameBut l s0 s) (e : Entry)
 (hk : Within [.ctxs] l) : SameBut l s0 (State.freeSave s e) := by
  with_reducible refine SameBut.step (k := [.ctxs]) ?_ h0 hk
  have h : SameBut [.ctxs] s s := SameBut.refl _ _
  clear h0 hk
  unfold State.freeSave
  try dsimp only
  repeat' first | (with_reducible first | assumption | apply State.setCtx_same | apply same_foldl)
                | (with_reducible apply Within.mk; decide) | split

theorem State.unpin_same {l : List Part} {s0 s : State} (h0 : SameBut l s0 s) (mine : Nat × Bool × Nat → Bool)
 (hk : Within [.fabric] l) : SameBut l s0 (State.unpin s mine) := by
  with_reducible refine SameBut.step (k := [.fabric]) ?_ h0 hk
  have h : SameBut [.fabric] s s := SameBut.refl _ _
  clear h0 hk
  unfold State.unpin
  try dsimp only
  any_goals (refine same_mk ?_)
  repeat' first | with_reducible assumption

theorem State.unpromise_same {l : List Part} {s0 s : State} (h0 : SameBut l s0 s) (ctx : Nat) (seq : W32)
 (hk : Within [.cores] l) : SameBut l s0 (State.unpromise s ctx seq) := by
  with_reducible refine SameBut.step (k := [.cores]) ?_ h0 hk
  have h : SameBut [.cores] s s := SameBut.refl _ _
  clear h0 hk
  unfold State.unpromise
  try dsimp only
  any_goals (refine same_mk ?_)
  repeat' first | with_reducible assumption

theorem State.applyItem_same {l : List Part} {s0 s : State} (h0 : SameBut l s0 s) (x2 : CommitItem)
 (hk : Within [.mem, .fabric] l) : SameBut l s0 (State.applyItem s x2) := by
  with_reducible refine SameBut.step (k := [.mem, .fabric]) ?_ h0 hk
  have h : SameBut [.mem, .fabric] s s := SameBut.refl _ _
  clear h0 hk
  unfold State.applyItem
  try dsimp only
  repeat' first | (with_reducible first | assumption | apply State.put_same | apply same_foldl)
                | (with_reducible apply Within.mk; decide) | split

theorem State.applyItems_same {l : List Part} {s0 s : State} (h0 : SameBut l s0 s) (items : List CommitItem)
 (hk : Within [.mem, .fabric] l) : SameBut l s0 (State.applyItems s items) := by
  with_reducible refine SameBut.step (k := [.mem, .fabric]) ?_ h0 hk
  have h : SameBut [.mem, .fabric] s s := SameBut.refl _ _
  clear h0 hk
  unfold State.applyItems
  try dsimp only
  repeat' first | (with_reducible first | assumption | apply State.applyItem_same | apply same_foldl)
                | (with_reducible apply Within.mk; decide) | split | intro _ _ _

theorem State.itemLines_same {l : List Part} {s0 s : State} (h0 : SameBut l s0 s) (x2 : Nat) (x3 : List Bytes)
 (hk : Within [.mem, .fabric] l) : SameBut l s0 (State.itemLines s x2 x3) := by
  with_reducible refine SameBut.step (k := [.mem, .fabric]) ?_ h0 hk
  have h : SameBut [.mem, .fabric] s s := SameBut.refl _ _
  clear h0 hk
  have aux : ∀ (xs : List Bytes) (n : Nat) (t : State), SameBut [.mem, .fabric] s t → SameBut [.mem, .fabric] s
      (State.itemLines t n xs) := by
    intro xs
    induction xs with
    | nil => exact fun _ _ g => g
    | cons b xs ih => exact fun n t g => ih _ _ (State.linePut_same g _ _ (by decide))
  exact aux _ _ _ h


theorem State.writeCommit_same {l : List Part} {s0 s : State} (h0 : SameBut l s0 s) (ctx : Nat) (seq : W32)
    (journalled : Bool) (items : List CommitItem)
 (hk : Within [.mem, .journal, .fabric] l) : SameBut l s0 (State.writeCommit s ctx seq journalled items) := by
  with_reducible refine SameBut.step (k := [.mem, .journal, .fabric]) ?_ h0 hk
  have h : SameBut [.mem, .journal, .fabric] s s := SameBut.refl _ _
  clear h0 hk
  unfold State.writeCommit
  try dsimp only
  repeat' first | (with_reducible first | assumption | apply State.itemLines_same | apply State.linePut_same
                                        | apply same_foldl) | (with_reducible apply Within.mk; decide) | split
                | intro _ _ _ | intro _ _ | intro _
  any_goals (refine same_mk ?_)
  repeat' first | (with_reducible first | assumption | apply State.itemLines_same | apply State.linePut_same)
                | (with_reducible apply Within.mk; decide)

theorem State.govCommit_same {l : List Part} {s0 s : State} (h0 : SameBut l s0 s) (ctx : Nat) (seq : W32)
    (journalled : Bool) (items : List CommitItem)
 (hk : Within [.mem, .journal, .cores, .fabric, .counters] l) : SameBut l s0 (State.govCommit s ctx seq journalled
     items) := by
  with_reducible refine SameBut.step (k := [.mem, .journal, .cores, .fabric, .counters]) ?_ h0 hk
  have h : SameBut [.mem, .journal, .cores, .fabric, .counters] s s := SameBut.refl _ _
  clear h0 hk
  unfold State.govCommit
  try dsimp only
  repeat' first | (with_reducible first | assumption | apply State.l2Invalidate_same
                                        | apply State.dropCopies_same | apply State.applyItems_same
                                        | apply State.writeCommit_same)
                | (with_reducible apply Within.mk; decide)

theorem State.zeroRegion_same {l : List Part} {s0 s : State} (h0 : SameBut l s0 s) (r : Region) (i : Nat) (pages :
    Nat)
 (hk : Within [.mem, .cores, .fabric, .counters] l) : SameBut l s0 (State.zeroRegion s r i pages) := by
  with_reducible refine SameBut.step (k := [.mem, .cores, .fabric, .counters]) ?_ h0 hk
  have h : SameBut [.mem, .cores, .fabric, .counters] s s := SameBut.refl _ _
  clear h0 hk
  unfold State.zeroRegion
  try dsimp only
  repeat' first | (with_reducible first | assumption | apply State.l2Invalidate_same
                                        | apply State.dropCopies_same | apply same_foldl)
                | (with_reducible apply Within.mk; decide) | split | intro _ _ _ | intro _ _ | intro _
  any_goals (refine same_mk ?_)
  repeat' first | with_reducible assumption

theorem State.mergeOne_same {l : List Part} {s0 s : State} (h0 : SameBut l s0 s) (ctx : Nat) (w : PendRec)
 (hk : Within [.mem, .ctxs, .journal, .cores, .fabric, .counters] l) : SameBut l s0 (State.mergeOne s ctx w) := by
  with_reducible refine SameBut.step (k := [.mem, .ctxs, .journal, .cores, .fabric, .counters]) ?_ h0 hk
  have h : SameBut [.mem, .ctxs, .journal, .cores, .fabric, .counters] s s := SameBut.refl _ _
  clear h0 hk
  unfold State.mergeOne
  try dsimp only
  repeat' first | (with_reducible first | assumption | apply State.govCommit_same | apply State.zeroRegion_same
                                        | apply State.setCtx_same | apply same_foldl)
                | (with_reducible apply Within.mk; decide) | split

theorem State.mergeAux_same {l : List Part} {s0 x3 : State} (h0 : SameBut l s0 x3) (ctx : Nat) (x2 : List PendRec) 
 (hk : Within [.mem, .ctxs, .journal, .cores, .fabric, .counters] l) : SameBut l s0 (State.mergeAux ctx x2 x3) := by
  with_reducible refine SameBut.step (k := [.mem, .ctxs, .journal, .cores, .fabric, .counters]) ?_ h0 hk
  have h : SameBut [.mem, .ctxs, .journal, .cores, .fabric, .counters] x3 x3 := SameBut.refl _ _
  clear h0 hk

  have aux : ∀ (xs : List PendRec) (t : State), SameBut [.mem, .ctxs, .journal, .cores, .fabric, .counters] x3 t →
      SameBut [.mem, .ctxs, .journal, .cores, .fabric, .counters] x3 (State.mergeAux ctx xs t) := by
    intro xs
    induction xs with
    | nil => exact fun _ g => g
    | cons w ws ih =>
      intro t g
      unfold State.mergeAux
      split
      · exact ih _ (State.mergeOne_same g _ _ (by decide))
      · exact g
  exact aux _ _ h


theorem State.mergeStats_same {l : List Part} {s0 s : State} (h0 : SameBut l s0 s) (ctx : Nat)
 (hk : Within [.mem, .ctxs, .journal, .cores, .fabric, .counters] l) : SameBut l s0 (State.mergeStats s ctx) := by
  with_reducible refine SameBut.step (k := [.mem, .ctxs, .journal, .cores, .fabric, .counters]) ?_ h0 hk
  have h : SameBut [.mem, .ctxs, .journal, .cores, .fabric, .counters] s s := SameBut.refl _ _
  clear h0 hk
  unfold State.mergeStats
  try dsimp only
  repeat' first | (with_reducible first | assumption | apply State.mergeAux_same)
                | (with_reducible apply Within.mk; decide)

theorem State.afterRecord_same {l : List Part} {s0 s : State} (h0 : SameBut l s0 s) (e : Entry)
 (hk : Within [.seams, .mem, .ctxs, .journal, .fences, .retained, .cores, .fabric, .chains, .counters, .trace,
     .belt, .lining] l) : SameBut l s0 (State.afterRecord s e) := by
  with_reducible refine SameBut.step (k := [.seams, .mem, .ctxs, .journal, .fences, .retained,
                     .cores, .fabric, .chains, .counters, .trace, .belt, .lining]) ?_ h0 hk
  have h : SameBut [.seams, .mem, .ctxs, .journal, .fences, .retained, .cores, .fabric, .chains, .counters,
      .trace, .belt, .lining] s s := SameBut.refl _ _
  clear h0 hk
  unfold State.afterRecord
  try dsimp only
  repeat' first | (with_reducible first | assumption | apply State.traceRec_same | apply State.count_same
                                        | apply State.signalMark_same | apply State.applyRefs_same
                                        | apply State.jobMember_same | apply State.setEntry_same
                                        | apply State.freeSave_same | apply State.unpin_same
                                        | apply State.endWork_same | apply State.unpromise_same
                                        | apply State.mergeStats_same | apply State.notice_same
                                        | apply same_foldl) | (with_reducible apply Within.mk; decide) | split
                | intro _ _ _ | intro _ _ | intro _
  any_goals (refine same_mk ?_)
  repeat' first | (with_reducible first | assumption | apply State.traceRec_same | apply State.count_same
                                        | apply State.signalMark_same | apply State.applyRefs_same
                                        | apply State.jobMember_same | apply State.setEntry_same
                                        | apply State.freeSave_same | apply State.unpin_same
                                        | apply State.endWork_same | apply State.unpromise_same
                                        | apply State.mergeStats_same | apply State.notice_same)
                | (with_reducible apply Within.mk; decide)

theorem State.putRegion_same {l : List Part} {s0 s : State} (h0 : SameBut l s0 s) (r : Region) (i : Nat) (bs : Bytes)
 (hk : Within [.mem, .cores, .fabric, .counters] l) : SameBut l s0 (State.putRegion s r i bs) := by
  with_reducible refine SameBut.step (k := [.mem, .cores, .fabric, .counters]) ?_ h0 hk
  have h : SameBut [.mem, .cores, .fabric, .counters] s s := SameBut.refl _ _
  clear h0 hk
  unfold State.putRegion
  try dsimp only
  repeat' first | (with_reducible first | assumption | apply State.l2Invalidate_same
                                        | apply State.dropCopies_same | apply State.put_same | apply same_foldl)
                | (with_reducible apply Within.mk; decide) | split | intro _ _ _

theorem State.putPending_same {l : List Part} {s0 s : State} (h0 : SameBut l s0 s) (g : Region) (seq : W32) (x4 :
    List Nat) (x5 : List StatRec)
 (hk : Within [.mem, .cores, .fabric, .counters] l) : SameBut l s0 (State.putPending s g seq x4 x5) := by
  with_reducible refine SameBut.step (k := [.mem, .cores, .fabric, .counters]) ?_ h0 hk
  have h : SameBut [.mem, .cores, .fabric, .counters] s s := SameBut.refl _ _
  clear h0 hk

  have aux : ∀ (xs : List Nat) (rs : List StatRec) (t : State), SameBut [.mem, .cores, .fabric, .counters] s t →
      SameBut [.mem, .cores, .fabric, .counters] s (State.putPending t g seq xs rs) := by
    intro xs
    induction xs with
    | nil => exact fun _ _ g => g
    | cons k ks ih =>
      intro rs t ht
      cases rs with
      | nil => exact ht
      | cons r rs => exact ih _ _ (State.putRegion_same ht _ _ _ (by decide))
  exact aux _ _ _ h


theorem State.giveStats_same {l : List Part} {s0 s : State} (h0 : SameBut l s0 s) (e : Entry)
 (hk : Within [.mem, .ctxs, .journal, .cores, .fabric, .counters] l) : SameBut l s0 (State.giveStats s e) := by
  with_reducible refine SameBut.step (k := [.mem, .ctxs, .journal, .cores, .fabric, .counters]) ?_ h0 hk
  have h : SameBut [.mem, .ctxs, .journal, .cores, .fabric, .counters] s s := SameBut.refl _ _
  clear h0 hk
  unfold State.giveStats
  try dsimp only
  repeat' first | (with_reducible first | assumption | apply State.mergeStats_same | apply State.mergeOne_same
                                        | apply State.putPending_same | apply State.setCtx_same
                                        | apply same_foldl) | (with_reducible apply Within.mk; decide) | split

theorem State.complete_same {l : List Part} {s0 s : State} (h0 : SameBut l s0 s) (e : Entry)
 (hk : Within [.seams, .mem, .ctxs, .journal, .fences, .retained, .cores, .fabric, .chains, .counters, .trace,
     .belt, .lining] l) : SameBut l s0 (State.complete s e) := by
  with_reducible refine SameBut.step (k := [.seams, .mem, .ctxs, .journal, .fences, .retained,
                     .cores, .fabric, .chains, .counters, .trace, .belt, .lining]) ?_ h0 hk
  have h : SameBut [.seams, .mem, .ctxs, .journal, .fences, .retained, .cores, .fabric, .chains, .counters,
      .trace, .belt, .lining] s s := SameBut.refl _ _
  clear h0 hk
  unfold State.complete
  try dsimp only
  repeat' first | (with_reducible first | assumption | apply State.dropCopies_same | apply State.setEntry_same
                                        | apply State.giveStats_same | apply State.afterRecord_same
                                        | apply State.putRecord_same | apply same_foldl)
                | (with_reducible apply Within.mk; decide) | split

theorem State.ledgerLine_same {l : List Part} {s0 s : State} (h0 : SameBut l s0 s) (ctx : Nat) (x3 : Nat) (r :
    LedgerRec)
 (hk : Within [.mem, .cores, .fabric, .counters] l) : SameBut l s0 (State.ledgerLine s ctx x3 r) := by
  with_reducible refine SameBut.step (k := [.mem, .cores, .fabric, .counters]) ?_ h0 hk
  have h : SameBut [.mem, .cores, .fabric, .counters] s s := SameBut.refl _ _
  clear h0 hk
  unfold State.ledgerLine
  try dsimp only
  repeat' first | (with_reducible first | assumption | apply State.putRegion_same | apply same_foldl)
                | (with_reducible apply Within.mk; decide) | split

theorem State.ledgerTrace_same {l : List Part} {s0 s : State} (h0 : SameBut l s0 s) (ctx : Nat) (r : LedgerRec)
 (hk : Within [.mem, .fabric, .counters, .trace] l) : SameBut l s0 (State.ledgerTrace s ctx r) := by
  with_reducible refine SameBut.step (k := [.mem, .fabric, .counters, .trace]) ?_ h0 hk
  have h : SameBut [.mem, .fabric, .counters, .trace] s s := SameBut.refl _ _
  clear h0 hk
  unfold State.ledgerTrace
  try dsimp only
  repeat' first | (with_reducible first | assumption | apply State.traceRec_same | apply same_foldl)
                | (with_reducible apply Within.mk; decide) | split

theorem State.ledgerPut_same {l : List Part} {s0 s : State} (h0 : SameBut l s0 s) (ctx : Nat) (r : LedgerRec)
    (traced : Bool)
 (hk : Within [.mem, .ctxs, .cores, .fabric, .counters, .trace] l) : SameBut l s0 (State.ledgerPut s ctx r traced)
     := by
  with_reducible refine SameBut.step (k := [.mem, .ctxs, .cores, .fabric, .counters, .trace]) ?_ h0 hk
  have h : SameBut [.mem, .ctxs, .cores, .fabric, .counters, .trace] s s := SameBut.refl _ _
  clear h0 hk
  unfold State.ledgerPut
  try dsimp only
  repeat' first | (with_reducible first | assumption | apply State.putRegion_same | apply State.ledgerLine_same
                                        | apply State.setCtx_same | apply State.ledgerTrace_same
                                        | apply same_foldl) | (with_reducible apply Within.mk; decide) | split

theorem State.applyPending_same {l : List Part} {s0 s : State} (h0 : SameBut l s0 s) (ctx : Nat) (from_ : Nat)
 (hk : Within [.mem, .ctxs, .cores, .fabric, .counters, .trace] l) : SameBut l s0 (State.applyPending s ctx from_)
     := by
  with_reducible refine SameBut.step (k := [.mem, .ctxs, .cores, .fabric, .counters, .trace]) ?_ h0 hk
  have h : SameBut [.mem, .ctxs, .cores, .fabric, .counters, .trace] s s := SameBut.refl _ _
  clear h0 hk
  unfold State.applyPending
  try dsimp only
  repeat' first | (with_reducible first | assumption | apply State.ledgerPut_same | apply State.setCtx_same
                                        | apply same_foldl) | (with_reducible apply Within.mk; decide) | split
                | intro _ _ _

theorem State.disarm_same {l : List Part} {s0 s : State} (h0 : SameBut l s0 s) (ctx : Nat) (from_ : Nat) (seq : W32)
 (hk : Within [.mem, .ctxs, .cores, .fabric, .counters, .trace] l) : SameBut l s0 (State.disarm s ctx from_ seq) := by
  with_reducible refine SameBut.step (k := [.mem, .ctxs, .cores, .fabric, .counters, .trace]) ?_ h0 hk
  have h : SameBut [.mem, .ctxs, .cores, .fabric, .counters, .trace] s s := SameBut.refl _ _
  clear h0 hk
  unfold State.disarm
  try dsimp only
  repeat' first | (with_reducible first | assumption | apply State.applyPending_same | apply State.setCtx_same
                                        | apply State.traceRec_same | apply same_foldl)
                | (with_reducible apply Within.mk; decide) | split

theorem State.enterLost_same {l : List Part} {s0 s : State} (h0 : SameBut l s0 s) (e : Entry)
 (hk : Within [.mem, .ctxs, .journal, .collar, .cores, .fabric, .counters, .belt, .i3c] l) : SameBut l s0
     (State.enterLost s e) := by
  with_reducible refine SameBut.step (k := [.mem, .ctxs, .journal, .collar, .cores, .fabric,
                     .counters, .belt, .i3c]) ?_ h0 hk
  have h : SameBut [.mem, .ctxs, .journal, .collar, .cores, .fabric, .counters, .belt, .i3c] s s := SameBut.refl _ _
  clear h0 hk
  unfold State.enterLost
  try dsimp only
  repeat' first | (with_reducible first | assumption | apply State.setFault_same | apply State.setEntry_same
                                        | apply State.freeSave_same | apply State.endWork_same
                                        | apply same_foldl) | (with_reducible apply Within.mk; decide) | split

theorem State.putLoss_same {l : List Part} {s0 s : State} (h0 : SameBut l s0 s) (i : Nat) (x3 : Loss)
 (hk : Within [.mem, .journal, .fabric] l) : SameBut l s0 (State.putLoss s i x3) := by
  with_reducible refine SameBut.step (k := [.mem, .journal, .fabric]) ?_ h0 hk
  have h : SameBut [.mem, .journal, .fabric] s s := SameBut.refl _ _
  clear h0 hk
  unfold State.putLoss
  try dsimp only
  repeat' first | (with_reducible first | assumption | apply State.journalPut_same | apply same_foldl)
                | (with_reducible apply Within.mk; decide) | split | intro _ _ _ | intro _ _ | intro _
  any_goals (refine same_mk ?_)
  repeat' first | with_reducible assumption

theorem State.addLoss_same {l : List Part} {s0 s : State} (h0 : SameBut l s0 s) (part : BitVec 8) (ctx : Nat)
    (kind : Nat) (addr : Nat) (seq : Option W32)
 (hk : Within [.mem, .journal, .fabric] l) : SameBut l s0 (State.addLoss s part ctx kind addr seq) := by
  with_reducible refine SameBut.step (k := [.mem, .journal, .fabric]) ?_ h0 hk
  have h : SameBut [.mem, .journal, .fabric] s s := SameBut.refl _ _
  clear h0 hk
  unfold State.addLoss
  try dsimp only
  repeat' first | (with_reducible first | assumption | apply State.putLoss_same | apply same_foldl)
                | (with_reducible apply Within.mk; decide) | split

theorem State.addRegionLoss_same {l : List Part} {s0 s : State} (h0 : SameBut l s0 s) (ctx : Nat) (r : Region)
    (seq : Option W32)
 (hk : Within [.mem, .journal, .fabric, .free] l) : SameBut l s0 (State.addRegionLoss s ctx r seq) := by
  with_reducible refine SameBut.step (k := [.mem, .journal, .fabric, .free]) ?_ h0 hk
  have h : SameBut [.mem, .journal, .fabric, .free] s s := SameBut.refl _ _
  clear h0 hk
  unfold State.addRegionLoss
  try dsimp only
  repeat' first | (with_reducible first | assumption | apply State.addLoss_same | apply same_foldl)
                | (with_reducible apply Within.mk; decide) | split | intro _ _ _ | intro _ _ | intro _
  any_goals (refine same_mk ?_)
  repeat' first | (with_reducible first | assumption | apply State.addLoss_same)
                | (with_reducible apply Within.mk; decide)

theorem State.loseFor_same {l : List Part} {s0 s : State} (h0 : SameBut l s0 s) (e : Entry) (rs : List Region)
 (hk : Within [.mem, .ctxs, .journal, .collar, .cores, .fabric, .counters, .belt, .i3c, .free] l) : SameBut l s0
     (State.loseFor s e rs) := by
  with_reducible refine SameBut.step (k := [.mem, .ctxs, .journal, .collar, .cores, .fabric,
                     .counters, .belt, .i3c, .free]) ?_ h0 hk
  have h : SameBut [.mem, .ctxs, .journal, .collar, .cores, .fabric, .counters, .belt, .i3c, .free] s s :=
      SameBut.refl _ _
  clear h0 hk
  unfold State.loseFor
  try dsimp only
  repeat' first | (with_reducible first | assumption | apply State.enterLost_same
                                        | apply State.addRegionLoss_same | apply same_foldl)
                | (with_reducible apply Within.mk; decide) | split | intro _ _ _

theorem State.loseRegionsOf_same {l : List Part} {s0 s : State} (h0 : SameBut l s0 s) (e : Entry)
 (hk : Within [.mem, .ctxs, .journal, .collar, .cores, .fabric, .counters, .belt, .i3c, .free] l) : SameBut l s0
     (State.loseRegionsOf s e) := by
  with_reducible refine SameBut.step (k := [.mem, .ctxs, .journal, .collar, .cores, .fabric,
                     .counters, .belt, .i3c, .free]) ?_ h0 hk
  have h : SameBut [.mem, .ctxs, .journal, .collar, .cores, .fabric, .counters, .belt, .i3c, .free] s s :=
      SameBut.refl _ _
  clear h0 hk
  unfold State.loseRegionsOf
  try dsimp only
  repeat' first | (with_reducible first | assumption | apply State.loseFor_same)
                | (with_reducible apply Within.mk; decide)

theorem State.readNamed_same {l : List Part} {s0 s : State} (h0 : SameBut l s0 s) (ctx : Nat) (caches : List Nat)
    (xs : List (Nat × Nat))
 (hk : Within [.fabric, .counters] l) : SameBut l s0 (State.readNamed s ctx caches xs) := by
  with_reducible refine SameBut.step (k := [.fabric, .counters]) ?_ h0 hk
  have h : SameBut [.fabric, .counters] s s := SameBut.refl _ _
  clear h0 hk
  unfold State.readNamed
  try dsimp only
  repeat' first | (with_reducible first | assumption | apply State.engineLines_same | apply State.xlate_same
                                        | apply same_foldl) | (with_reducible apply Within.mk; decide) | split
                | intro _ _ _

theorem State.place_same {l : List Part} {s0 s : State} (h0 : SameBut l s0 s) (e : Entry) (issues : List Status)
    (missed : Bool) (quiet : Bool)
 (hk : Within [.mem, .journal, .cores, .fabric, .chains, .counters, .trace, .free] l) : SameBut l s0 (State.place
     s e issues missed quiet) := by
  with_reducible refine SameBut.step (k := [.mem, .journal, .cores, .fabric, .chains, .counters,
                     .trace, .free]) ?_ h0 hk
  have h : SameBut [.mem, .journal, .cores, .fabric, .chains, .counters, .trace, .free] s s := SameBut.refl _ _
  clear h0 hk
  unfold State.place
  try dsimp only
  repeat' first | (with_reducible first | assumption | apply State.traceRec_same | apply State.readNamed_same
                                        | apply State.setEntry_same | apply State.failNow_same
                                        | apply State.walkNamed_same | apply same_foldl)
                | (with_reducible apply Within.mk; decide) | split

theorem State.passSlot_same {l : List Part} {s0 s : State} (h0 : SameBut l s0 s) (e : Entry) (i : SlotInfo)
    (missed : Bool) (lastSeq : W32) (lastId : Nat)
 (hk : Within [.mem, .ctxs, .cores, .fabric, .counters, .trace] l) : SameBut l s0 (State.passSlot s e i missed
     lastSeq lastId) := by
  with_reducible refine SameBut.step (k := [.mem, .ctxs, .cores, .fabric, .counters, .trace]) ?_ h0 hk
  have h : SameBut [.mem, .ctxs, .cores, .fabric, .counters, .trace] s s := SameBut.refl _ _
  clear h0 hk
  unfold State.passSlot
  try dsimp only
  repeat' first | (with_reducible first | assumption | apply State.count_same | apply State.traceRec_same
                                        | apply State.setCtx_same | apply State.disarm_same | apply same_foldl)
                | (with_reducible apply Within.mk; decide) | split

theorem State.dispatch_same {l : List Part} {s0 s : State} (h0 : SameBut l s0 s) (e : Entry)
 (hk : Within [.mem, .ctxs, .journal, .collar, .cores, .fabric, .chains, .counters, .trace, .belt, .i3c, .free] l)
     : SameBut l s0 (State.dispatch s e) := by
  with_reducible refine SameBut.step (k := [.mem, .ctxs, .journal, .collar, .cores, .fabric,
                     .chains, .counters, .trace, .belt, .i3c, .free]) ?_ h0 hk
  have h : SameBut [.mem, .ctxs, .journal, .collar, .cores, .fabric, .chains, .counters, .trace, .belt, .i3c,
      .free] s s := SameBut.refl _ _
  clear h0 hk
  unfold State.dispatch
  try dsimp only
  repeat' first | (with_reducible first | assumption | apply State.loseRegionsOf_same | apply State.place_same
                                        | apply State.loseFor_same | apply State.setEntry_same
                                        | apply State.applyPending_same | apply State.passSlot_same
                                        | apply same_foldl) | (with_reducible apply Within.mk; decide) | split
                | intro _ _ _

theorem State.endMembers_same {l : List Part} {s0 s : State} (h0 : SameBut l s0 s) (c : ChainState) (st : Status)
 (hk : Within [.mem, .journal, .cores, .fabric, .chains, .starved, .counters, .belt] l) : SameBut l s0
     (State.endMembers s c st) := by
  with_reducible refine SameBut.step (k := [.mem, .journal, .cores, .fabric, .chains, .starved,
                     .counters, .belt]) ?_ h0 hk
  have h : SameBut [.mem, .journal, .cores, .fabric, .chains, .starved, .counters, .belt] s s := SameBut.refl _ _
  clear h0 hk
  unfold State.endMembers
  try dsimp only
  repeat' first | (with_reducible first | assumption | apply State.workEnd_same | apply State.conclude_same
                                        | apply same_foldl) | (with_reducible apply Within.mk; decide) | split
                | intro _ _ _

theorem State.noteMembers_same {l : List Part} {s0 s : State} (h0 : SameBut l s0 s) (c : ChainState) (st : Status)
 (hk : Within [.mem, .journal, .fabric] l) : SameBut l s0 (State.noteMembers s c st) := by
  with_reducible refine SameBut.step (k := [.mem, .journal, .fabric]) ?_ h0 hk
  have h : SameBut [.mem, .journal, .fabric] s s := SameBut.refl _ _
  clear h0 hk
  unfold State.noteMembers
  try dsimp only
  repeat' first | (with_reducible first | assumption | apply State.setEntry_same | apply same_foldl)
                | (with_reducible apply Within.mk; decide) | split | intro _ _ _

theorem State.fitStage_same {l : List Part} {s0 s : State} (h0 : SameBut l s0 s) (c : Nat)
 (hk : Within [.cores, .counters] l) : SameBut l s0 (State.fitStage s c) := by
  with_reducible refine SameBut.step (k := [.cores, .counters]) ?_ h0 hk
  have h : SameBut [.cores, .counters] s s := SameBut.refl _ _
  clear h0 hk
  unfold State.fitStage
  try dsimp only
  repeat' first | (with_reducible first | assumption | apply State.countIf_same | apply State.setCore_same)
                | (with_reducible apply Within.mk; decide)

theorem State.shrink_same {l : List Part} {s0 s : State} (h0 : SameBut l s0 s) (c : Nat)
 (hk : Within [.cores, .counters] l) : SameBut l s0 (State.shrink s c) := by
  with_reducible refine SameBut.step (k := [.cores, .counters]) ?_ h0 hk
  have h : SameBut [.cores, .counters] s s := SameBut.refl _ _
  clear h0 hk
  unfold State.shrink
  try dsimp only
  repeat' first | (with_reducible first | assumption | apply State.fitStage_same | apply State.setCore_same)
                | (with_reducible apply Within.mk; decide)

theorem State.promise_same {l : List Part} {s0 x7 : State} (h0 : SameBut l s0 x7) (ctx : Nat) (seq : W32) (links :
    Nat) (x4 : List Nat) (x5 : Nat) (x6 : Nat)
 (hk : Within [.cores, .counters] l) : SameBut l s0 (State.promise ctx seq links x4 x5 x6 x7) := by
  with_reducible refine SameBut.step (k := [.cores, .counters]) ?_ h0 hk
  have h : SameBut [.cores, .counters] x7 x7 := SameBut.refl _ _
  clear h0 hk

  have aux : ∀ (xs : List Nat) (x n : Nat) (t : State), SameBut [.cores, .counters] x7 t →
      SameBut [.cores, .counters] x7 (State.promise ctx seq links xs x n t) := by
    intro xs
    induction xs with
    | nil => exact fun _ _ _ g => g
    | cons k ks ih =>
      intro x n t g
      unfold State.promise
      dsimp only
      refine ih _ _ _ ?_
      split
      · exact g
      · exact State.shrink_same (State.setCore_same g _ _ (by decide)) _ (by decide)
  exact aux _ _ _ _ h


theorem State.refuseOne_same {l : List Part} {s0 s : State} (h0 : SameBut l s0 s) (ctx : Nat) (p : Bytes)
 (hk : Within [.seams, .mem, .ctxs, .fabric, .counters, .lining] l) : SameBut l s0 (State.refuseOne s ctx p) := by
  with_reducible refine SameBut.step (k := [.seams, .mem, .ctxs, .fabric, .counters, .lining]) ?_ h0 hk
  have h : SameBut [.seams, .mem, .ctxs, .fabric, .counters, .lining] s s := SameBut.refl _ _
  clear h0 hk
  unfold State.refuseOne
  try dsimp only
  repeat' first | (with_reducible first | assumption | apply State.putRecord_same | apply State.count_same
                                        | apply State.setCtx_same) | (with_reducible apply Within.mk; decide)

theorem State.sendFlush_same {l : List Part} {s0 s : State} (h0 : SameBut l s0 s) (e : Entry) (ps : List Nat)
 (hk : Within [.seams, .hostReads, .counters, .lining] l) : SameBut l s0 (State.sendFlush s e ps) := by
  with_reducible refine SameBut.step (k := [.seams, .hostReads, .counters, .lining]) ?_ h0 hk
  have h : SameBut [.seams, .hostReads, .counters, .lining] s s := SameBut.refl _ _
  clear h0 hk
  unfold State.sendFlush
  try dsimp only
  repeat' first | (with_reducible first | assumption | apply State.send_same | apply same_foldl)
                | (with_reducible apply Within.mk; decide) | split | intro _ _ _ | intro _ _ | intro _
  any_goals (refine same_mk ?_)
  repeat' first | with_reducible assumption

theorem State.ringStore_same {l : List Part} {s0 s : State} (h0 : SameBut l s0 s) (c : ChainState) (k : Nat) (off
    : Nat) (bs : Bytes)
 (hk : Within [.seams, .mem, .cores, .fabric, .chains, .counters, .lining] l) : SameBut l s0 (State.ringStore s c
     k off bs) := by
  with_reducible refine SameBut.step (k := [.seams, .mem, .cores, .fabric, .chains, .counters, .lining]) ?_ h0 hk
  have h : SameBut [.seams, .mem, .cores, .fabric, .chains, .counters, .lining] s s := SameBut.refl _ _
  clear h0 hk
  unfold State.ringStore
  try dsimp only
  repeat' first | (with_reducible first | assumption | apply State.dropCopies_same | apply State.storeFor_same
                                        | apply State.setChain_same | apply same_foldl)
                | (with_reducible apply Within.mk; decide) | split | intro _ _ _

theorem State.spillLinks_same {l : List Part} {s0 s : State} (h0 : SameBut l s0 s) (c : ChainState)
 (hk : Within [.seams, .mem, .cores, .fabric, .chains, .counters, .lining] l) : SameBut l s0 (State.spillLinks s
     c) := by
  with_reducible refine SameBut.step (k := [.seams, .mem, .cores, .fabric, .chains, .counters, .lining]) ?_ h0 hk
  have h : SameBut [.seams, .mem, .cores, .fabric, .chains, .counters, .lining] s s := SameBut.refl _ _
  clear h0 hk
  unfold State.spillLinks
  try dsimp only
  repeat' first | (with_reducible first | assumption | apply State.ringStore_same | apply same_foldl)
                | (with_reducible apply Within.mk; decide) | split | intro _ _ _

theorem State.offerAll_same {l : List Part} {s0 s : State} (h0 : SameBut l s0 s) (w : Nat) (rs : List Request)
 (hk : Within [.fabric] l) : SameBut l s0 (State.offerAll s w rs) := by
  with_reducible refine SameBut.step (k := [.fabric]) ?_ h0 hk
  have h : SameBut [.fabric] s s := SameBut.refl _ _
  clear h0 hk
  unfold State.offerAll
  try dsimp only
  repeat' first | (with_reducible first | assumption | apply State.admitAt_same | apply State.onPort_same
                                        | apply same_foldl) | (with_reducible apply Within.mk; decide) | split
                | intro _ _ _

theorem State.noteAsked_same {l : List Part} {s0 s : State} (h0 : SameBut l s0 s) (id : Nat) (k : Nat) (lines :
    List Nat)
 (hk : Within [.journal] l) : SameBut l s0 (State.noteAsked s id k lines) := by
  with_reducible refine SameBut.step (k := [.journal]) ?_ h0 hk
  have h : SameBut [.journal] s s := SameBut.refl _ _
  clear h0 hk
  unfold State.noteAsked
  try dsimp only
  any_goals (refine same_mk ?_)
  repeat' first | with_reducible assumption

theorem State.runQueue_same {l : List Part} {s0 s : State} (h0 : SameBut l s0 s) (e : Entry) (c : Nat) (q : Feed ×
    Nat)
 (hk : Within [.mem, .journal, .fabric, .counters, .trace] l) : SameBut l s0 (State.runQueue e c s q) := by
  with_reducible refine SameBut.step (k := [.mem, .journal, .fabric, .counters, .trace]) ?_ h0 hk
  have h : SameBut [.mem, .journal, .fabric, .counters, .trace] s s := SameBut.refl _ _
  clear h0 hk
  unfold State.runQueue
  try dsimp only
  repeat' first | (with_reducible first | assumption | apply State.xlate_same | apply State.offerAll_same
                                        | apply State.noteAsked_same | apply State.lookLines_same
                                        | apply State.traceRec_same | apply State.count_same | apply same_foldl)
                | (with_reducible apply Within.mk; decide) | split

theorem State.takeStaged_same {l : List Part} {s0 s : State} (h0 : SameBut l s0 s) (e : Entry) (c : Nat) (fs :
    List Feed)
 (hk : Within [.cores, .counters, .stamps] l) : SameBut l s0 (State.takeStaged s e c fs) := by
  with_reducible refine SameBut.step (k := [.cores, .counters, .stamps]) ?_ h0 hk
  have h : SameBut [.cores, .counters, .stamps] s s := SameBut.refl _ _
  clear h0 hk
  unfold State.takeStaged
  try dsimp only
  repeat' first | (with_reducible first | assumption | apply State.count_same | apply State.setCore_same
                                        | apply same_foldl) | (with_reducible apply Within.mk; decide) | split
                | intro _ _ _ | intro _ _ | intro _
  any_goals (refine same_mk ?_)
  repeat' first | (with_reducible first | assumption | apply State.count_same | apply State.setCore_same)
                | (with_reducible apply Within.mk; decide)

theorem State.startQueues_same {l : List Part} {s0 s : State} (h0 : SameBut l s0 s) (e : Entry) (c : Nat)
 (hk : Within [.mem, .journal, .cores, .fabric, .counters, .trace, .stamps] l) : SameBut l s0 (State.startQueues s
     e c) := by
  with_reducible refine SameBut.step (k := [.mem, .journal, .cores, .fabric, .counters, .trace, .stamps]) ?_ h0 hk
  have h : SameBut [.mem, .journal, .cores, .fabric, .counters, .trace, .stamps] s s := SameBut.refl _ _
  clear h0 hk
  unfold State.startQueues
  try dsimp only
  repeat' first | (with_reducible first | assumption | apply State.setCore_same | apply State.runQueue_same
                                        | apply State.takeStaged_same | apply State.fitStage_same
                                        | apply same_foldl) | (with_reducible apply Within.mk; decide) | split
                | intro _ _ _

theorem State.takeQueues_same {l : List Part} {s0 s : State} (h0 : SameBut l s0 s) (e : Entry) (core : Nat)
 (hk : Within [.mem, .journal, .cores, .fabric, .counters, .trace, .stamps] l) : SameBut l s0 (State.takeQueues s
     e core) := by
  with_reducible refine SameBut.step (k := [.mem, .journal, .cores, .fabric, .counters, .trace, .stamps]) ?_ h0 hk
  have h : SameBut [.mem, .journal, .cores, .fabric, .counters, .trace, .stamps] s s := SameBut.refl _ _
  clear h0 hk
  unfold State.takeQueues
  try dsimp only
  repeat' first | (with_reducible first | assumption | apply State.setCore_same | apply State.setEntry_same
                                        | apply State.startQueues_same)
                | (with_reducible apply Within.mk; decide)

theorem State.cancelEntry_same {l : List Part} {s0 s : State} (h0 : SameBut l s0 s) (e : Entry)
 (hk : Within [.mem, .ctxs, .journal, .cores, .fabric, .counters, .free] l) : SameBut l s0 (State.cancelEntry s e)
     := by
  with_reducible refine SameBut.step (k := [.mem, .ctxs, .journal, .cores, .fabric, .counters, .free]) ?_ h0 hk
  have h : SameBut [.mem, .ctxs, .journal, .cores, .fabric, .counters, .free] s s := SameBut.refl _ _
  clear h0 hk
  unfold State.cancelEntry
  try dsimp only
  repeat' first | (with_reducible first | assumption | apply State.setEntry_same | apply State.slotsBack_same
                                        | apply State.scramble_same | apply State.setCtx_same)
                | (with_reducible apply Within.mk; decide)

theorem State.beginClose_same {l : List Part} {s0 s : State} (h0 : SameBut l s0 s) (n : Nat) (seq : W32)
 (hk : Within [.mem, .ctxs, .journal, .cores, .fabric, .counters, .trace, .belt, .free] l) : SameBut l s0
     (State.beginClose s n seq) := by
  with_reducible refine SameBut.step (k := [.mem, .ctxs, .journal, .cores, .fabric, .counters,
                     .trace, .belt, .free]) ?_ h0 hk
  have h : SameBut [.mem, .ctxs, .journal, .cores, .fabric, .counters, .trace, .belt, .free] s s := SameBut.refl _ _
  clear h0 hk
  unfold State.beginClose
  try dsimp only
  repeat' first | (with_reducible first | assumption | apply State.disarm_same | apply State.traceRec_same
                                        | apply State.setCtx_same | apply State.cancelEntry_same
                                        | apply State.endWork_same | apply same_foldl)
                | (with_reducible apply Within.mk; decide) | split | intro _ _ _

theorem State.dropSeals_same {l : List Part} {s0 s : State} (h0 : SameBut l s0 s) (ctx : Nat)
 (hk : Within [.mem, .cores, .fabric, .counters, .lining] l) : SameBut l s0 (State.dropSeals s ctx) := by
  with_reducible refine SameBut.step (k := [.mem, .cores, .fabric, .counters, .lining]) ?_ h0 hk
  have h : SameBut [.mem, .cores, .fabric, .counters, .lining] s s := SameBut.refl _ _
  clear h0 hk
  unfold State.dropSeals
  try dsimp only
  repeat' first | (with_reducible first | assumption | apply State.l2Invalidate_same
                                        | apply State.dropCopies_same | apply same_foldl)
                | (with_reducible apply Within.mk; decide) | split | intro _ _ _ | intro _ _ | intro _
  any_goals (refine same_mk ?_)
  repeat' first | with_reducible assumption

theorem State.dropLosses_same {l : List Part} {s0 s : State} (h0 : SameBut l s0 s) (n : Nat)
 (hk : Within [.mem, .journal, .fabric] l) : SameBut l s0 (State.dropLosses s n) := by
  with_reducible refine SameBut.step (k := [.mem, .journal, .fabric]) ?_ h0 hk
  have h : SameBut [.mem, .journal, .fabric] s s := SameBut.refl _ _
  clear h0 hk
  unfold State.dropLosses
  try dsimp only
  repeat' first | (with_reducible first | assumption | apply State.journalPut_same | apply same_foldl)
                | (with_reducible apply Within.mk; decide) | split | intro _ _ _ | intro _ _ | intro _
  any_goals (refine same_mk ?_)
  repeat' first | with_reducible assumption

theorem State.reclaimAux_same {l : List Part} {s0 x2 : State} (h0 : SameBut l s0 x2) (x1 : List Entry) 
 (hk : Within [.mem, .journal, .fabric] l) : SameBut l s0 (State.reclaimAux x1 x2) := by
  with_reducible refine SameBut.step (k := [.mem, .journal, .fabric]) ?_ h0 hk
  have h : SameBut [.mem, .journal, .fabric] x2 x2 := SameBut.refl _ _
  clear h0 hk
  have aux : ∀ (es : List Entry) (t : State), SameBut [.mem, .journal, .fabric] x2 t → SameBut [.mem, .journal,
      .fabric] x2 (State.reclaimAux es t) := by
    intro es
    induction es with
    | nil => exact fun _ g => g
    | cons e es ih =>
      intro t g
      unfold State.reclaimAux
      split
      · dsimp only
        refine ih _ ?_
        split
        · exact State.journalPut_same (same_mk g) _ _ (by decide)
        · exact same_mk g
      · split
        · exact g
        · exact ih _ g
  exact aux _ _ h


theorem State.reclaim_same {l : List Part} {s0 s : State} (h0 : SameBut l s0 s) 
 (hk : Within [.mem, .journal, .fabric] l) : SameBut l s0 (State.reclaim s) := by
  with_reducible refine SameBut.step (k := [.mem, .journal, .fabric]) ?_ h0 hk
  have h : SameBut [.mem, .journal, .fabric] s s := SameBut.refl _ _
  clear h0 hk
  unfold State.reclaim
  try dsimp only
  any_goals (refine same_mk ?_)
  repeat' first | (with_reducible first | assumption | apply State.reclaimAux_same)
                | (with_reducible apply Within.mk; decide)

theorem State.closeContext_same {l : List Part} {s0 s : State} (h0 : SameBut l s0 s) (n : Nat)
 (hk : Within [.mem, .ctxs, .journal, .retained, .cores, .fabric, .chains, .groups, .counters, .belt, .lining,
     .free] l) : SameBut l s0 (State.closeContext s n) := by
  with_reducible refine SameBut.step (k := [.mem, .ctxs, .journal, .retained, .cores, .fabric,
                     .chains, .groups, .counters, .belt, .lining, .free]) ?_ h0 hk
  have h : SameBut [.mem, .ctxs, .journal, .retained, .cores, .fabric, .chains, .groups, .counters, .belt,
      .lining, .free] s s := SameBut.refl _ _
  clear h0 hk
  unfold State.closeContext
  try dsimp only
  repeat' first | (with_reducible first | assumption | apply State.cancelEntry_same | apply State.dropSeals_same
                                        | apply State.dropLosses_same | apply State.unpin_same
                                        | apply State.reclaim_same | apply State.setCtx_same
                                        | apply State.endSteps_same | apply same_foldl)
                | (with_reducible apply Within.mk; decide) | split | intro _ _ _ | intro _ _ | intro _
  any_goals (refine same_mk ?_)
  repeat' first | (with_reducible first | assumption | apply State.cancelEntry_same | apply State.dropSeals_same
                                        | apply State.dropLosses_same | apply State.unpin_same
                                        | apply State.reclaim_same | apply State.setCtx_same
                                        | apply State.endSteps_same | apply same_foldl)
                | (with_reducible apply Within.mk; decide) | split | intro _ _ _

theorem State.releaseAll_same {l : List Part} {s0 s : State} (h0 : SameBut l s0 s) (ctx : Nat)
 (hk : Within [.mem, .journal, .fabric] l) : SameBut l s0 (State.releaseAll s ctx) := by
  with_reducible refine SameBut.step (k := [.mem, .journal, .fabric]) ?_ h0 hk
  have h : SameBut [.mem, .journal, .fabric] s s := SameBut.refl _ _
  clear h0 hk
  unfold State.releaseAll
  try dsimp only
  repeat' first | (with_reducible first | assumption | apply State.reclaim_same | apply State.setEntry_same
                                        | apply same_foldl) | (with_reducible apply Within.mk; decide) | split
                | intro _ _ _

theorem State.openContext_same {l : List Part} {s0 s : State} (h0 : SameBut l s0 s) (n : Nat) (c : Ctx)
 (hk : Within [.mem, .ctxs, .journal, .cores, .fabric, .counters] l) : SameBut l s0 (State.openContext s n c) := by
  with_reducible refine SameBut.step (k := [.mem, .ctxs, .journal, .cores, .fabric, .counters]) ?_ h0 hk
  have h : SameBut [.mem, .ctxs, .journal, .cores, .fabric, .counters] s s := SameBut.refl _ _
  clear h0 hk
  unfold State.openContext
  try dsimp only
  repeat' first | (with_reducible first | assumption | apply State.setCtx_same | apply State.releaseAll_same
                                        | apply State.putRegion_same | apply State.zeroRegion_same
                                        | apply same_foldl) | (with_reducible apply Within.mk; decide) | split

theorem chainWork_same {l : List Part} {s0 s : State} (h0 : SameBut l s0 s) (e : Entry)
 (hk : Within [] l) : SameV l s0 (chainWork s e) := by
  with_reducible refine SameV.step (k := []) ?_ h0 hk
  have h : SameBut [] s s := SameBut.refl _ _
  clear h0 hk
  unfold chainWork
  try dsimp only
  repeat' first | (with_reducible first | assumption | apply sameV_wait | apply sameV_fail | apply sameV_done
                                        | apply same_foldl) | (with_reducible apply Within.mk; decide) | split

theorem contextCloseWork_same {l : List Part} {s0 s : State} (h0 : SameBut l s0 s) (e : Entry)
 (hk : Within [.mem, .ctxs, .journal, .retained, .cores, .fabric, .chains, .groups, .counters, .belt, .lining,
     .free] l) : SameV l s0 (contextCloseWork s e) := by
  with_reducible refine SameV.step (k := [.mem, .ctxs, .journal, .retained, .cores, .fabric,
                     .chains, .groups, .counters, .belt, .lining, .free]) ?_ h0 hk
  have h : SameBut [.mem, .ctxs, .journal, .retained, .cores, .fabric, .chains, .groups, .counters, .belt,
      .lining, .free] s s := SameBut.refl _ _
  clear h0 hk
  unfold contextCloseWork
  try dsimp only
  repeat' first | (with_reducible first | assumption | apply State.auditCommand_same
                                        | apply State.closeContext_same | apply sameV_wait | apply sameV_fail
                                        | apply sameV_done | apply same_foldl)
                | (with_reducible apply Within.mk; decide) | split

theorem contextOpenWork_same {l : List Part} {s0 s : State} (h0 : SameBut l s0 s) (e : Entry)
 (hk : Within [.mem, .ctxs, .journal, .cores, .fabric, .counters, .lining] l) : SameV l s0 (contextOpenWork s e) := by
  with_reducible refine SameV.step (k := [.mem, .ctxs, .journal, .cores, .fabric, .counters, .lining]) ?_ h0 hk
  have h : SameBut [.mem, .ctxs, .journal, .cores, .fabric, .counters, .lining] s s := SameBut.refl _ _
  clear h0 hk
  unfold contextOpenWork
  try dsimp only
  repeat' first | (with_reducible first | assumption | apply State.auditCommand_same
                                        | apply State.openContext_same | apply sameV_wait | apply sameV_fail
                                        | apply sameV_done | apply same_foldl)
                | (with_reducible apply Within.mk; decide) | split

theorem fenceWork_same {l : List Part} {s0 s : State} (h0 : SameBut l s0 s) (e : Entry)
 (hk : Within [] l) : SameV l s0 (fenceWork s e) := by
  with_reducible refine SameV.step (k := []) ?_ h0 hk
  have h : SameBut [] s s := SameBut.refl _ _
  clear h0 hk
  unfold fenceWork
  try dsimp only
  repeat' first | (with_reducible first | assumption | apply sameV_wait | apply sameV_fail | apply sameV_done
                                        | apply same_foldl) | (with_reducible apply Within.mk; decide) | split

theorem nopWork_same {l : List Part} {s0 s : State} (h0 : SameBut l s0 s) (e : Entry)
 (hk : Within [] l) : SameV l s0 (nopWork s e) := by
  with_reducible refine SameV.step (k := []) ?_ h0 hk
  have h : SameBut [] s s := SameBut.refl _ _
  clear h0 hk
  unfold nopWork
  try dsimp only
  repeat' first | (with_reducible first | assumption | apply sameV_wait | apply sameV_fail | apply sameV_done
                                        | apply same_foldl) | (with_reducible apply Within.mk; decide) | split

theorem State.rungsFor_same {l : List Part} {s0 s : State} (h0 : SameBut l s0 s) (e : Entry)
 (hk : Within [.ctxs] l) : SameBut l s0 (State.rungsFor s e) := by
  with_reducible refine SameBut.step (k := [.ctxs]) ?_ h0 hk
  have h : SameBut [.ctxs] s s := SameBut.refl _ _
  clear h0 hk
  unfold State.rungsFor
  try dsimp only
  repeat' first | (with_reducible first | assumption | apply State.setCtx_same | apply same_foldl)
                | (with_reducible apply Within.mk; decide) | split

theorem State.standBack_same {l : List Part} {s0 s : State} (h0 : SameBut l s0 s) (e : Entry)
 (hk : Within [.mem, .journal, .cores, .fabric, .counters, .belt] l) : SameBut l s0 (State.standBack s e) := by
  with_reducible refine SameBut.step (k := [.mem, .journal, .cores, .fabric, .counters, .belt]) ?_ h0 hk
  have h : SameBut [.mem, .journal, .cores, .fabric, .counters, .belt] s s := SameBut.refl _ _
  clear h0 hk
  unfold State.standBack
  try dsimp only
  repeat' first | (with_reducible first | assumption | apply State.setEntry_same | apply State.endWork_same
                                        | apply same_foldl) | (with_reducible apply Within.mk; decide) | split

theorem State.bitError_same {l : List Part} {s0 s : State} (h0 : SameBut l s0 s) (x2 : CoreFault)
 (hk : Within [.fabric, .counters] l) : SameBut l s0 (State.bitError s x2) := by
  with_reducible refine SameBut.step (k := [.fabric, .counters]) ?_ h0 hk
  have h : SameBut [.fabric, .counters] s s := SameBut.refl _ _
  clear h0 hk
  unfold State.bitError
  try dsimp only
  repeat' first | (with_reducible first | assumption | apply State.count_same | apply same_foldl)
                | (with_reducible apply Within.mk; decide) | split | intro _ _ _ | intro _ _ | intro _
  any_goals (refine same_mk ?_)
  repeat' first | with_reducible assumption

theorem State.bitErrors_same {l : List Part} {s0 s : State} (h0 : SameBut l s0 s) (faults : List CoreFault)
 (hk : Within [.fabric, .counters] l) : SameBut l s0 (State.bitErrors s faults) := by
  with_reducible refine SameBut.step (k := [.fabric, .counters]) ?_ h0 hk
  have h : SameBut [.fabric, .counters] s s := SameBut.refl _ _
  clear h0 hk
  unfold State.bitErrors
  try dsimp only
  repeat' first | (with_reducible first | assumption | apply State.bitError_same | apply same_foldl)
                | (with_reducible apply Within.mk; decide) | split | intro _ _ _

theorem State.markSlot_same {l : List Part} {s0 s : State} (h0 : SameBut l s0 s) (slot : Option (Nat × Nat))
    (state : Nat)
 (hk : Within [.mem, .cores, .fabric, .counters] l) : SameBut l s0 (State.markSlot s slot state) := by
  with_reducible refine SameBut.step (k := [.mem, .cores, .fabric, .counters]) ?_ h0 hk
  have h : SameBut [.mem, .cores, .fabric, .counters] s s := SameBut.refl _ _
  clear h0 hk
  unfold State.markSlot
  try dsimp only
  repeat' first | (with_reducible first | assumption | apply State.dropCopies_same | apply State.put_same
                                        | apply same_foldl) | (with_reducible apply Within.mk; decide) | split

theorem State.restorePairs_same {l : List Part} {s0 s : State} (h0 : SameBut l s0 s) (e : Entry)
 (hk : Within [.counters] l) : SameBut l s0 (State.restorePairs s e) := by
  with_reducible refine SameBut.step (k := [.counters]) ?_ h0 hk
  have h : SameBut [.counters] s s := SameBut.refl _ _
  clear h0 hk
  unfold State.restorePairs
  try dsimp only
  repeat' first | (with_reducible first | assumption | apply State.countIf_same | apply same_foldl)
                | (with_reducible apply Within.mk; decide) | split

theorem State.countCapped_same {l : List Part} {s0 s : State} (h0 : SameBut l s0 s) (rs : List Request)
 (hk : Within [.counters, .free] l) : SameBut l s0 (State.countCapped s rs) := by
  with_reducible refine SameBut.step (k := [.counters, .free]) ?_ h0 hk
  have h : SameBut [.counters, .free] s s := SameBut.refl _ _
  clear h0 hk
  unfold State.countCapped
  try dsimp only
  repeat' first | (with_reducible first | assumption | apply State.count_same | apply same_foldl)
                | (with_reducible apply Within.mk; decide) | split | intro _ _ _ | intro _ _ | intro _
  any_goals (refine same_mk ?_)
  repeat' first | (with_reducible first | assumption | apply State.count_same)
                | (with_reducible apply Within.mk; decide)

theorem State.finishRequests_same {l : List Part} {s0 s : State} (h0 : SameBut l s0 s) (e : Entry)
 (hk : Within [.fabric, .counters, .free] l) : SameBut l s0 (State.finishRequests s e) := by
  with_reducible refine SameBut.step (k := [.fabric, .counters, .free]) ?_ h0 hk
  have h : SameBut [.fabric, .counters, .free] s s := SameBut.refl _ _
  clear h0 hk
  unfold State.finishRequests
  try dsimp only
  repeat' first | (with_reducible first | assumption | apply State.admitAt_same | apply State.countCapped_same
                                        | apply State.fillLines_same | apply same_foldl)
                | (with_reducible apply Within.mk; decide) | split | intro _ _ _ | intro _ _ | intro _
  any_goals (refine same_mk ?_)
  repeat' first | with_reducible assumption

theorem State.askHost_same {l : List Part} {s0 s : State} (h0 : SameBut l s0 s) (ctx : Nat) (rs : List Run)
 (hk : Within [.seams, .fabric] l) : SameBut l s0 (State.askHost s ctx rs) := by
  with_reducible refine SameBut.step (k := [.seams, .fabric]) ?_ h0 hk
  have h : SameBut [.seams, .fabric] s s := SameBut.refl _ _
  clear h0 hk
  unfold State.askHost
  try dsimp only
  repeat' first | (with_reducible first | assumption | apply State.movedBytes_same
                                        | apply State.contextLines_same | apply same_foldl)
                | (with_reducible apply Within.mk; decide) | split | intro _ _ _

theorem State.askLines_same {l : List Part} {s0 s : State} (h0 : SameBut l s0 s) (ctx : Nat) (lines : List Nat)
 (hk : Within [.fabric] l) : SameBut l s0 (State.askLines s ctx lines) := by
  with_reducible refine SameBut.step (k := [.fabric]) ?_ h0 hk
  have h : SameBut [.fabric] s s := SameBut.refl _ _
  clear h0 hk
  unfold State.askLines
  try dsimp only
  repeat' first | (with_reducible first | assumption | apply State.contextLines_same | apply same_foldl)
                | (with_reducible apply Within.mk; decide) | split | intro _ _ _

theorem State.readRest_same {l : List Part} {s0 s : State} (h0 : SameBut l s0 s) (e : Entry) (k : Nat) (f : Feed)
 (hk : Within [.seams, .fabric, .counters] l) : SameBut l s0 (State.readRest e k s f) := by
  with_reducible refine SameBut.step (k := [.seams, .fabric, .counters]) ?_ h0 hk
  have h : SameBut [.seams, .fabric, .counters] s s := SameBut.refl _ _
  clear h0 hk
  unfold State.readRest
  try dsimp only
  repeat' first | (with_reducible first | assumption | apply State.xlate_same | apply State.askHost_same
                                        | apply State.askLines_same | apply State.fillLines_same
                                        | apply State.lookLines_same) | (with_reducible apply Within.mk; decide)

theorem State.readTraffic_same {l : List Part} {s0 s : State} (h0 : SameBut l s0 s) (e : Entry)
 (hk : Within [.seams, .cores, .fabric, .counters, .stamps, .free] l) : SameBut l s0 (State.readTraffic s e) := by
  with_reducible refine SameBut.step (k := [.seams, .cores, .fabric, .counters, .stamps, .free]) ?_ h0 hk
  have h : SameBut [.seams, .cores, .fabric, .counters, .stamps, .free] s s := SameBut.refl _ _
  clear h0 hk
  unfold State.readTraffic
  try dsimp only
  repeat' first | (with_reducible first | assumption | apply State.xlate_same | apply State.finishRequests_same
                                        | apply State.askEngine_same | apply State.askHost_same
                                        | apply State.askLines_same | apply State.takeStaged_same
                                        | apply State.readRest_same | apply same_foldl)
                | (with_reducible apply Within.mk; decide) | split | intro _ _ _

theorem State.viewStore_same {l : List Part} {s0 s : State} (h0 : SameBut l s0 s) (e : Entry) (w : Nat × Bytes)
 (hk : Within [.seams, .mem, .ctxs, .cores, .fabric, .chains, .starved, .counters, .lining] l) : SameBut l s0
     (State.viewStore s e w) := by
  with_reducible refine SameBut.step (k := [.seams, .mem, .ctxs, .cores, .fabric, .chains,
                     .starved, .counters, .lining]) ?_ h0 hk
  have h : SameBut [.seams, .mem, .ctxs, .cores, .fabric, .chains, .starved, .counters, .lining] s s :=
      SameBut.refl _ _
  clear h0 hk
  unfold State.viewStore
  try dsimp only
  repeat' first | (with_reducible first | assumption | apply State.setChain_same | apply State.ringStore_same
                                        | apply State.bounceStore_same | apply same_foldl)
                | (with_reducible apply Within.mk; decide) | split | intro _ _ _ | intro _ _ | intro _
  any_goals (refine same_mk ?_)
  repeat' first | (with_reducible first | assumption | apply State.setChain_same | apply State.ringStore_same
                                        | apply State.bounceStore_same)
                | (with_reducible apply Within.mk; decide)

theorem State.rowSteps_same {l : List Part} {s0 s : State} (h0 : SameBut l s0 s) (e : Entry) (rows : List (Nat ×
    List (Nat × Bytes)))
 (hk : Within [.seams, .mem, .ctxs, .cores, .fabric, .chains, .starved, .counters, .lining] l) : SameBut l s0
     (State.rowSteps s e rows) := by
  with_reducible refine SameBut.step (k := [.seams, .mem, .ctxs, .cores, .fabric, .chains,
                     .starved, .counters, .lining]) ?_ h0 hk
  have h : SameBut [.seams, .mem, .ctxs, .cores, .fabric, .chains, .starved, .counters, .lining] s s :=
      SameBut.refl _ _
  clear h0 hk
  unfold State.rowSteps
  try dsimp only
  repeat' first | (with_reducible first | assumption | apply State.viewStore_same | apply same_foldl)
                | (with_reducible apply Within.mk; decide) | split | intro _ _ _

theorem State.writeLines_same {l : List Part} {s0 s : State} (h0 : SameBut l s0 s) (e : Entry) (old : List L2Line)
    (scratch : List Run) (rs : List Run)
 (hk : Within [.fabric, .counters] l) : SameBut l s0 (State.writeLines s e old scratch rs) := by
  with_reducible refine SameBut.step (k := [.fabric, .counters]) ?_ h0 hk
  have h : SameBut [.fabric, .counters] s s := SameBut.refl _ _
  clear h0 hk
  unfold State.writeLines
  try dsimp only
  repeat' first | (with_reducible first | assumption | apply State.fillLines_same | apply same_foldl)
                | (with_reducible apply Within.mk; decide) | split | intro _ _ _ | intro _ _ | intro _
  any_goals (refine same_mk ?_)
  repeat' first | with_reducible assumption

theorem State.timedCore_same {l : List Part} {s0 s : State} (h0 : SameBut l s0 s) (e : Entry) (c : Nat)
 (hk : Within [.counters, .free] l) : SameBut l s0 (State.timedCore e s c) := by
  with_reducible refine SameBut.step (k := [.counters, .free]) ?_ h0 hk
  have h : SameBut [.counters, .free] s s := SameBut.refl _ _
  clear h0 hk
  unfold State.timedCore
  try dsimp only
  repeat' first | (with_reducible first | assumption | apply State.count_same | apply same_foldl)
                | (with_reducible apply Within.mk; decide) | split | intro _ _ _ | intro _ _ | intro _
  any_goals (refine same_mk ?_)
  repeat' first | (with_reducible first | assumption | apply State.count_same | apply same_foldl)
                | (with_reducible apply Within.mk; decide) | split | intro _ _ _

theorem State.timedCores_same {l : List Part} {s0 s : State} (h0 : SameBut l s0 s) (e : Entry)
 (hk : Within [.counters, .free] l) : SameBut l s0 (State.timedCores s e) := by
  with_reducible refine SameBut.step (k := [.counters, .free]) ?_ h0 hk
  have h : SameBut [.counters, .free] s s := SameBut.refl _ _
  clear h0 hk
  unfold State.timedCores
  try dsimp only
  repeat' first | (with_reducible first | assumption | apply State.timedCore_same | apply same_foldl)
                | (with_reducible apply Within.mk; decide) | split | intro _ _ _

theorem State.applyEffects_same {l : List Part} {s0 s : State} (h0 : SameBut l s0 s) (e : Entry) (d : Delta)
 (hk : Within [.seams, .mem, .ctxs, .journal, .cores, .fabric, .chains, .starved, .counters, .trace, .lining,
     .stamps, .free] l) : SameBut l s0 (State.applyEffects s e d) := by
  with_reducible refine SameBut.step (k := [.seams, .mem, .ctxs, .journal, .cores, .fabric,
                     .chains, .starved, .counters, .trace, .lining, .stamps, .free]) ?_ h0 hk
  have h : SameBut [.seams, .mem, .ctxs, .journal, .cores, .fabric, .chains, .starved, .counters, .trace, .lining,
      .stamps, .free] s s := SameBut.refl _ _
  clear h0 hk
  unfold State.applyEffects
  try dsimp only
  repeat' first | (with_reducible first | assumption | apply State.restorePairs_same
                                        | apply State.readTraffic_same | apply State.markSlot_same
                                        | apply State.scramble_same | apply State.rowSteps_same
                                        | apply State.viewStore_same | apply State.applyItems_same
                                        | apply State.writeCommit_same | apply State.writeLines_same
                                        | apply State.dropCopies_same | apply State.timedCores_same
                                        | apply State.count_same | apply State.setCore_same
                                        | apply State.traceRec_same | apply same_foldl)
                | (with_reducible apply Within.mk; decide) | split | intro _ _ _ | intro _ _ | intro _
  any_goals (refine same_mk ?_)
  repeat' first | (with_reducible first | assumption | apply State.restorePairs_same
                                        | apply State.readTraffic_same | apply State.markSlot_same
                                        | apply State.scramble_same | apply State.rowSteps_same
                                        | apply State.viewStore_same | apply State.applyItems_same
                                        | apply State.writeCommit_same | apply State.writeLines_same
                                        | apply State.dropCopies_same | apply State.timedCores_same
                                        | apply State.count_same | apply State.setCore_same
                                        | apply State.traceRec_same) | (with_reducible apply Within.mk; decide)

theorem State.applyDelta_same {l : List Part} {s0 s : State} (h0 : SameBut l s0 s) (e : Entry) (d : Delta)
 (hk : Within [.seams, .mem, .ctxs, .journal, .cores, .fabric, .chains, .starved, .counters, .trace, .lining,
     .stamps, .free] l) : SameBut l s0 (State.applyDelta s e d) := by
  with_reducible refine SameBut.step (k := [.seams, .mem, .ctxs, .journal, .cores, .fabric,
                     .chains, .starved, .counters, .trace, .lining, .stamps, .free]) ?_ h0 hk
  have h : SameBut [.seams, .mem, .ctxs, .journal, .cores, .fabric, .chains, .starved, .counters, .trace, .lining,
      .stamps, .free] s s := SameBut.refl _ _
  clear h0 hk
  unfold State.applyDelta
  try dsimp only
  repeat' first | (with_reducible first | assumption | apply State.applyEffects_same
                                        | apply State.conclude_same) | (with_reducible apply Within.mk; decide)

theorem State.runWork_same {l : List Part} {s0 s : State} (h0 : SameBut l s0 s) (op : Op) (ctx : Nat) (seq : W32)
    (faults : List CoreFault) (plan : State → Entry → Plan)
 (hk : Within [.caps, .seams, .mem, .ctxs, .journal, .collar, .cores, .fabric, .chains, .starved, .counters,
     .trace, .belt, .lining, .i3c, .stamps, .free] l) : SameX l s0 (State.runWork s op ctx seq faults plan) := by
  with_reducible refine SameX.step (k := [.caps, .seams, .mem, .ctxs, .journal, .collar, .cores,
                     .fabric, .chains, .starved, .counters, .trace, .belt, .lining, .i3c, .stamps, .free]) ?_ h0 hk
  have h : SameBut [.caps, .seams, .mem, .ctxs, .journal, .collar, .cores, .fabric, .chains, .starved, .counters,
      .trace, .belt, .lining, .i3c, .stamps, .free] s s := SameBut.refl _ _
  clear h0 hk

  unfold State.runWork
  split
  · exact h
  · split
    · exact State.memberEnd_same (State.conclude_same h _ _ _ _ (by decide)) _ _ (by decide)
    · split
      · exact h
      · rename_i e _ _ _ _
        extract_lets failed
        have hf : ∀ i r, SameBut [.caps, .seams, .mem, .ctxs, .journal, .collar, .cores, .fabric, .chains,
            .starved, .counters, .trace, .belt, .lining, .i3c, .stamps, .free] s (failed i r) := by
          intro i r
          refine State.failWork_same ?_ _ _ _ (by decide)
          split
          · split
            · exact State.count_same h _ _ (by decide)
            · exact h
          · exact h
        clear_value failed
        split
        · exact State.standBack_same h _ (by decide)
        · split
          · exact State.standBack_same h _ (by decide)
          · exact State.standBack_same (State.count_same h _ _ (by decide)) _ (by decide)
        · exact hf _ _
        · exact hf _ _
        · split
          · exact h
          · extract_lets x
            have hx : SameBut [.caps, .seams, .mem, .ctxs, .journal, .collar, .cores, .fabric, .chains, .starved,
                .counters, .trace, .belt, .lining, .i3c, .stamps, .free] s x.s := State.charge_same
                (State.bitErrors_same h _ (by decide)) _ _ (by decide)
            clear_value x
            split
            · exact State.failWork_same (State.markSlot_same hx _ _ (by decide)) _ _ _ (by decide)
            · split
              · exact State.setEntry_same hx _ (by decide)
              · exact State.metered_same (State.workEnd_same (State.applyDelta_same hx _ _ (by decide)) _ _ (by
                  decide))
                  _ _ _ (by decide)


theorem signalWork_same {l : List Part} {s0 s : State} (h0 : SameBut l s0 s) (e : Entry)
 (hk : Within [.fences] l) : SameV l s0 (signalWork s e) := by
  with_reducible refine SameV.step (k := [.fences]) ?_ h0 hk
  have h : SameBut [.fences] s s := SameBut.refl _ _
  clear h0 hk
  unfold signalWork
  try dsimp only
  repeat' first | (with_reducible first | assumption | apply State.setFence_same | apply sameV_wait
                                        | apply sameV_fail | apply sameV_done | apply same_foldl)
                | (with_reducible apply Within.mk; decide) | split

theorem waitWork_same {l : List Part} {s0 s : State} (h0 : SameBut l s0 s) (e : Entry)
 (hk : Within [] l) : SameV l s0 (waitWork s e) := by
  with_reducible refine SameV.step (k := []) ?_ h0 hk
  have h : SameBut [] s s := SameBut.refl _ _
  clear h0 hk
  unfold waitWork
  try dsimp only
  repeat' first | (with_reducible first | assumption | apply sameV_wait | apply sameV_fail | apply sameV_done
                                        | apply same_foldl) | (with_reducible apply Within.mk; decide) | split

theorem State.warmLoss_same {l : List Part} {s0 s : State} (h0 : SameBut l s0 s) 
 (hk : Within [.pins, .ready, .boot, .stks, .seams, .hostReads, .ctxs, .journal, .cores, .fabric, .chains,
     .starved] l) : SameBut l s0 (State.warmLoss s) := by
  with_reducible refine SameBut.step (k := [.pins, .ready, .boot, .stks, .seams, .hostReads, .ctxs,
                     .journal, .cores, .fabric, .chains, .starved]) ?_ h0 hk
  have h : SameBut [.pins, .ready, .boot, .stks, .seams, .hostReads, .ctxs, .journal, .cores, .fabric, .chains,
      .starved] s s := SameBut.refl _ _
  clear h0 hk
  unfold State.warmLoss
  try dsimp only
  any_goals (refine same_mk ?_)
  repeat' first | with_reducible assumption

theorem State.freeQueues_same {l : List Part} {s0 s : State} (h0 : SameBut l s0 s) 
 (hk : Within [.cores, .fabric, .counters, .belt] l) : SameBut l s0 (State.freeQueues s) := by
  with_reducible refine SameBut.step (k := [.cores, .fabric, .counters, .belt]) ?_ h0 hk
  have h : SameBut [.cores, .fabric, .counters, .belt] s s := SameBut.refl _ _
  clear h0 hk
  unfold State.freeQueues
  try dsimp only
  repeat' first | (with_reducible first | assumption | apply State.endSteps_same | apply same_foldl)
                | (with_reducible apply Within.mk; decide) | split | intro _ _ _ | intro _ _ | intro _
  any_goals (refine same_mk ?_)
  repeat' first | with_reducible assumption

theorem State.softReset_same {l : List Part} {s0 s : State} (h0 : SameBut l s0 s) 
 (hk : Within [.ready, .boot, .journal, .cores, .fabric, .counters, .belt, .lining, .i3c] l) : SameBut l s0
     (State.softReset s) := by
  with_reducible refine SameBut.step (k := [.ready, .boot, .journal, .cores, .fabric, .counters,
                     .belt, .lining, .i3c]) ?_ h0 hk
  have h : SameBut [.ready, .boot, .journal, .cores, .fabric, .counters, .belt, .lining, .i3c] s s := SameBut.refl _ _
  clear h0 hk
  unfold State.softReset
  try dsimp only
  repeat' first | (with_reducible first | assumption | apply State.ibi_same | apply State.freeQueues_same
                                        | apply same_foldl) | (with_reducible apply Within.mk; decide) | split
                | intro _ _ _ | intro _ _ | intro _
  any_goals (refine same_mk ?_)
  repeat' first | with_reducible assumption

theorem State.passCore_same {l : List Part} {s0 s : State} (h0 : SameBut l s0 s) (n : Nat) (w : Nat × Wait)
 (hk : Within [.cores, .counters, .trace, .free] l) : SameBut l s0 (State.passCore n s w) := by
  with_reducible refine SameBut.step (k := [.cores, .counters, .trace, .free]) ?_ h0 hk
  have h : SameBut [.cores, .counters, .trace, .free] s s := SameBut.refl _ _
  clear h0 hk
  unfold State.passCore
  try dsimp only
  repeat' first | (with_reducible first | assumption | apply State.count_same | apply State.countIf_same
                                        | apply State.setCore_same | apply same_foldl)
                | (with_reducible apply Within.mk; decide) | split | intro _ _ _ | intro _ _ | intro _
  any_goals (refine same_mk ?_)
  repeat' first | (with_reducible first | assumption | apply State.count_same | apply State.countIf_same
                                        | apply State.setCore_same) | (with_reducible apply Within.mk; decide)

theorem State.pass_same {l : List Part} {s0 s : State} (h0 : SameBut l s0 s) (n : Nat)
 (hk : Within [.tb, .cores, .starved, .counters, .trace, .belt, .free] l) : SameBut l s0 (State.pass s n) := by
  with_reducible refine SameBut.step (k := [.tb, .cores, .starved, .counters, .trace, .belt, .free]) ?_ h0 hk
  have h : SameBut [.tb, .cores, .starved, .counters, .trace, .belt, .free] s s := SameBut.refl _ _
  clear h0 hk
  unfold State.pass
  try dsimp only
  repeat' first | (with_reducible first | assumption | apply State.passCore_same | apply same_foldl)
                | (with_reducible apply Within.mk; decide) | split | intro _ _ _ | intro _ _ | intro _
  any_goals (refine same_mk ?_)
  repeat' first | (with_reducible first | assumption | apply State.passCore_same | apply same_foldl)
                | (with_reducible apply Within.mk; decide) | split | intro _ _ _

theorem State.setStack_same {l : List Part} {s0 s : State} (h0 : SameBut l s0 s) (m : Nat) (p : StackPort)
 (hk : Within [.stks] l) : SameBut l s0 (State.setStack s m p) := by
  with_reducible refine SameBut.step (k := [.stks]) ?_ h0 hk
  have h : SameBut [.stks] s s := SameBut.refl _ _
  clear h0 hk
  unfold State.setStack
  try dsimp only
  any_goals (refine same_mk ?_)
  repeat' first | with_reducible assumption

theorem State.readyStack_same {l : List Part} {s0 s : State} (h0 : SameBut l s0 s) (m : Nat) (x : StackPort)
 (hk : Within [.ready, .stks, .i3c] l) : SameBut l s0 (State.readyStack s m x) := by
  with_reducible refine SameBut.step (k := [.ready, .stks, .i3c]) ?_ h0 hk
  have h : SameBut [.ready, .stks, .i3c] s s := SameBut.refl _ _
  clear h0 hk
  unfold State.readyStack
  try dsimp only
  repeat' first | (with_reducible first | assumption | apply State.setStack_same | apply State.ibi_same
                                        | apply same_foldl) | (with_reducible apply Within.mk; decide) | split
                | intro _ _ _ | intro _ _ | intro _
  any_goals (refine same_mk ?_)
  repeat' first | (with_reducible first | assumption | apply State.setStack_same | apply State.ibi_same)
                | (with_reducible apply Within.mk; decide)

theorem State.regionLosses_same {l : List Part} {s0 s : State} (h0 : SameBut l s0 s) (m : Nat)
 (hk : Within [.mem, .journal, .collar, .fabric, .i3c, .free] l) : SameBut l s0 (State.regionLosses s m) := by
  with_reducible refine SameBut.step (k := [.mem, .journal, .collar, .fabric, .i3c, .free]) ?_ h0 hk
  have h : SameBut [.mem, .journal, .collar, .fabric, .i3c, .free] s s := SameBut.refl _ _
  clear h0 hk
  unfold State.regionLosses
  try dsimp only
  repeat' first | (with_reducible first | assumption | apply State.setFault_same
                                        | apply State.addRegionLoss_same | apply same_foldl)
                | (with_reducible apply Within.mk; decide) | split | intro _ _ _

theorem State.loseRegions_same {l : List Part} {s0 s : State} (h0 : SameBut l s0 s) (gone : Nat × Nat → Bool)
 (hk : Within [.ctxs] l) : SameBut l s0 (State.loseRegions s gone) := by
  with_reducible refine SameBut.step (k := [.ctxs]) ?_ h0 hk
  have h : SameBut [.ctxs] s s := SameBut.refl _ _
  clear h0 hk
  unfold State.loseRegions
  try dsimp only
  any_goals (refine same_mk ?_)
  repeat' first | with_reducible assumption

theorem State.loseEntry_same {l : List Part} {s0 s : State} (h0 : SameBut l s0 s) (part : BitVec 8) (e : Entry)
 (hk : Within [.mem, .ctxs, .journal, .collar, .cores, .fabric, .counters, .belt, .i3c, .free] l) : SameBut l s0
     (State.loseEntry s part e) := by
  with_reducible refine SameBut.step (k := [.mem, .ctxs, .journal, .collar, .cores, .fabric,
                     .counters, .belt, .i3c, .free]) ?_ h0 hk
  have h : SameBut [.mem, .ctxs, .journal, .collar, .cores, .fabric, .counters, .belt, .i3c, .free] s s :=
      SameBut.refl _ _
  clear h0 hk
  unfold State.loseEntry
  try dsimp only
  repeat' first | (with_reducible first | assumption | apply State.addLoss_same | apply State.enterLost_same
                                        | apply State.addRegionLoss_same | apply same_foldl)
                | (with_reducible apply Within.mk; decide) | split | intro _ _ _

theorem State.loseIn_same {l : List Part} {s0 s : State} (h0 : SameBut l s0 s) (m : Nat) (whole : Bool)
 (hk : Within [.mem, .ctxs, .journal, .collar, .cores, .fabric, .counters, .belt, .i3c, .free] l) : SameBut l s0
     (State.loseIn s m whole) := by
  with_reducible refine SameBut.step (k := [.mem, .ctxs, .journal, .collar, .cores, .fabric,
                     .counters, .belt, .i3c, .free]) ?_ h0 hk
  have h : SameBut [.mem, .ctxs, .journal, .collar, .cores, .fabric, .counters, .belt, .i3c, .free] s s :=
      SameBut.refl _ _
  clear h0 hk
  unfold State.loseIn
  try dsimp only
  repeat' first | (with_reducible first | assumption | apply State.regionLosses_same
                                        | apply State.loseRegions_same | apply State.loseEntry_same
                                        | apply same_foldl) | (with_reducible apply Within.mk; decide) | split
                | intro _ _ _

theorem State.failStack_same {l : List Part} {s0 s : State} (h0 : SameBut l s0 s) (m : Nat)
 (hk : Within [.caps, .ready, .stks, .seams, .mem, .ctxs, .journal, .collar, .cores, .fabric, .counters, .trace,
     .belt, .lining, .i3c, .free] l) : SameBut l s0 (State.failStack s m) := by
  with_reducible refine SameBut.step (k := [.caps, .ready, .stks, .seams, .mem, .ctxs, .journal,
                     .collar, .cores, .fabric, .counters, .trace, .belt, .lining, .i3c, .free]) ?_ h0 hk
  have h : SameBut [.caps, .ready, .stks, .seams, .mem, .ctxs, .journal, .collar, .cores, .fabric, .counters,
      .trace, .belt, .lining, .i3c, .free] s s := SameBut.refl _ _
  clear h0 hk
  unfold State.failStack
  try dsimp only
  repeat' first | (with_reducible first | assumption | apply State.onPort_same | apply State.setStack_same
                                        | apply State.setFault_same | apply State.capChange_same
                                        | apply State.loseIn_same | apply State.traceFault_same
                                        | apply same_foldl) | (with_reducible apply Within.mk; decide) | split
                | intro _ _ _ | intro _ _ | intro _
  any_goals (refine same_mk ?_)
  repeat' first | (with_reducible first | assumption | apply State.onPort_same | apply State.setStack_same
                                        | apply State.setFault_same | apply State.capChange_same
                                        | apply State.loseIn_same | apply State.traceFault_same)
                | (with_reducible apply Within.mk; decide)

theorem State.returned_same {l : List Part} {s0 s : State} (h0 : SameBut l s0 s) (m : Nat) (out : List Request)
    (aged : Bool)
 (hk : Within [.fabric, .counters, .free] l) : SameBut l s0 (State.returned s m out aged) := by
  with_reducible refine SameBut.step (k := [.fabric, .counters, .free]) ?_ h0 hk
  have h : SameBut [.fabric, .counters, .free] s s := SameBut.refl _ _
  clear h0 hk
  unfold State.returned
  try dsimp only
  repeat' first | (with_reducible first | assumption | apply State.fillLines_same | apply State.admitAt_same
                                        | apply State.countIf_same | apply State.countCapped_same
                                        | apply same_foldl) | (with_reducible apply Within.mk; decide) | split
                | intro _ _ _

theorem State.lineBack_same {l : List Part} {s0 s : State} (h0 : SameBut l s0 s) (m line : Nat) (keep : State → State)
    (hp : ∀ t, SameBut l s0 t → SameBut l s0 (keep t)) (hk : Within [.fabric, .counters, .free] l) :
    SameBut l s0 (s.lineBack m line keep) := by
  unfold State.lineBack
  dsimp only
  split
  · exact State.count_same (hp _ h0) _ _ (Within.trans (by decide) hk)
  · split
    · exact h0
    · exact State.returned_same (hp _ (State.onPort_same h0 _ _ (Within.trans (by decide) hk))) _ _ _
        (Within.trans (by decide) hk)

theorem State.failPc_same {l : List Part} {s0 s : State} (h0 : SameBut l s0 s) (m : Nat) (pc : Nat)
 (hk : Within [.caps, .ready, .stks, .seams, .mem, .ctxs, .journal, .collar, .cores, .fabric, .counters, .trace,
     .belt, .lining, .i3c, .free] l) : SameBut l s0 (State.failPc s m pc) := by
  with_reducible refine SameBut.step (k := [.caps, .ready, .stks, .seams, .mem, .ctxs, .journal,
                     .collar, .cores, .fabric, .counters, .trace, .belt, .lining, .i3c, .free]) ?_ h0 hk
  have h : SameBut [.caps, .ready, .stks, .seams, .mem, .ctxs, .journal, .collar, .cores, .fabric, .counters,
      .trace, .belt, .lining, .i3c, .free] s s := SameBut.refl _ _
  clear h0 hk
  unfold State.failPc
  try dsimp only
  repeat' first | (with_reducible first | assumption | apply State.onPort_same | apply State.setStack_same
                                        | apply State.traceFault_same | apply State.setFault_same
                                        | apply State.count_same | apply State.failStack_same
                                        | apply State.capChange_same | apply State.loseIn_same
                                        | apply same_foldl) | (with_reducible apply Within.mk; decide) | split

theorem State.failSeam_same {l : List Part} {s0 s : State} (h0 : SameBut l s0 s) (p : Nat)
 (hk : Within [.caps, .ready, .seams, .ctxs, .counters, .lining, .i3c] l) : SameBut l s0 (State.failSeam s p) := by
  with_reducible refine SameBut.step (k := [.caps, .ready, .seams, .ctxs, .counters, .lining, .i3c]) ?_ h0 hk
  have h : SameBut [.caps, .ready, .seams, .ctxs, .counters, .lining, .i3c] s s := SameBut.refl _ _
  clear h0 hk
  unfold State.failSeam
  try dsimp only
  repeat' first | (with_reducible first | assumption | apply State.setSeam_same | apply State.loseRegions_same
                                        | apply State.capChange_same | apply same_foldl)
                | (with_reducible apply Within.mk; decide) | split | intro _ _ _ | intro _ _ | intro _
  any_goals (refine same_mk ?_)
  repeat' first | (with_reducible first | assumption | apply State.setSeam_same | apply State.loseRegions_same
                                        | apply State.capChange_same) | (with_reducible apply Within.mk; decide)

theorem State.keepGroups_same {l : List Part} {s0 s : State} (h0 : SameBut l s0 s) (p : Nat) (tx : BitVec 4) (rx :
    BitVec 4)
 (hk : Within [.caps, .ready, .seams, .mem, .ctxs, .collar, .fabric, .counters, .trace, .lining, .i3c] l) :
     SameBut l s0 (State.keepGroups s p tx rx) := by
  with_reducible refine SameBut.step (k := [.caps, .ready, .seams, .mem, .ctxs, .collar, .fabric,
                     .counters, .trace, .lining, .i3c]) ?_ h0 hk
  have h : SameBut [.caps, .ready, .seams, .mem, .ctxs, .collar, .fabric, .counters, .trace, .lining, .i3c] s s :=
      SameBut.refl _ _
  clear h0 hk
  unfold State.keepGroups
  try dsimp only
  repeat' first | (with_reducible first | assumption | apply State.setSeam_same | apply State.traceFault_same
                                        | apply State.setFault_same | apply State.failSeam_same
                                        | apply State.capChange_same | apply same_foldl)
                | (with_reducible apply Within.mk; decide) | split

theorem State.examineRegions_same {l : List Part} {s0 s : State} (h0 : SameBut l s0 s) 
 (hk : Within [.mem, .ctxs, .journal, .collar, .cores, .fabric, .counters, .belt, .i3c, .free] l) : SameBut l s0
     (State.examineRegions s) := by
  with_reducible refine SameBut.step (k := [.mem, .ctxs, .journal, .collar, .cores, .fabric,
                     .counters, .belt, .i3c, .free]) ?_ h0 hk
  have h : SameBut [.mem, .ctxs, .journal, .collar, .cores, .fabric, .counters, .belt, .i3c, .free] s s :=
      SameBut.refl _ _
  clear h0 hk
  unfold State.examineRegions
  try dsimp only
  repeat' first | (with_reducible first | assumption | apply State.loseRegionsOf_same | apply same_foldl)
                | (with_reducible apply Within.mk; decide) | split | intro _ _ _

theorem State.reactivate_same {l : List Part} {s0 s : State} (h0 : SameBut l s0 s) (p : Nat)
 (hk : Within [.ready, .seams, .counters, .lining, .i3c] l) : SameBut l s0 (State.reactivate s p) := by
  with_reducible refine SameBut.step (k := [.ready, .seams, .counters, .lining, .i3c]) ?_ h0 hk
  have h : SameBut [.ready, .seams, .counters, .lining, .i3c] s s := SameBut.refl _ _
  clear h0 hk
  unfold State.reactivate
  try dsimp only
  repeat' first | (with_reducible first | assumption | apply State.setSeam_same | apply State.pump_same
                                        | apply State.ibi_same | apply State.count_same | apply same_foldl)
                | (with_reducible apply Within.mk; decide) | split | intro _ _ _ | intro _ _ | intro _
  any_goals (refine same_mk ?_)
  repeat' first | (with_reducible first | assumption | apply State.setSeam_same | apply State.pump_same
                                        | apply State.ibi_same | apply State.count_same)
                | (with_reducible apply Within.mk; decide)

theorem State.dropRx_same {l : List Part} {s0 s : State} (h0 : SameBut l s0 s) (p : Nat) (vc : Nat) (size : Nat)
 (hk : Within [.seams, .counters] l) : SameBut l s0 (State.dropRx s p vc size) := by
  with_reducible refine SameBut.step (k := [.seams, .counters]) ?_ h0 hk
  have h : SameBut [.seams, .counters] s s := SameBut.refl _ _
  clear h0 hk
  unfold State.dropRx
  try dsimp only
  repeat' first | (with_reducible first | assumption | apply State.count_same | apply State.freeCredits_same)
                | (with_reducible apply Within.mk; decide)

theorem State.setGroup_same {l : List Part} {s0 s : State} (h0 : SameBut l s0 s) (k : Nat) (g : RyGroup)
 (hk : Within [.groups] l) : SameBut l s0 (State.setGroup s k g) := by
  with_reducible refine SameBut.step (k := [.groups]) ?_ h0 hk
  have h : SameBut [.groups] s s := SameBut.refl _ _
  clear h0 hk
  unfold State.setGroup
  try dsimp only
  any_goals (refine same_mk ?_)
  repeat' first | with_reducible assumption

theorem State.ryCursor_same {l : List Part} {s0 s : State} (h0 : SameBut l s0 s) (ctx : Nat) (q : Option W32)
    (stream : Nat) (before : Nat) (rows : Nat)
 (hk : Within [.mem, .journal, .fabric] l) : SameBut l s0 (State.ryCursor s ctx q stream before rows) := by
  with_reducible refine SameBut.step (k := [.mem, .journal, .fabric]) ?_ h0 hk
  have h : SameBut [.mem, .journal, .fabric] s s := SameBut.refl _ _
  clear h0 hk
  unfold State.ryCursor
  try dsimp only
  repeat' first | (with_reducible first | assumption | apply State.setEntry_same | apply same_foldl)
                | (with_reducible apply Within.mk; decide) | split

theorem State.sendRy_same {l : List Part} {s0 s : State} (h0 : SameBut l s0 s) (g : RyGroup) (q : Option W32) (c :
    RyChan) (type : Nat) (bs : Bytes)
 (hk : Within [.seams, .counters, .lining] l) : SameBut l s0 (State.sendRy s g q c type bs) := by
  with_reducible refine SameBut.step (k := [.seams, .counters, .lining]) ?_ h0 hk
  have h : SameBut [.seams, .counters, .lining] s s := SameBut.refl _ _
  clear h0 hk
  unfold State.sendRy
  try dsimp only
  repeat' first | (with_reducible first | assumption | apply State.send_same)
                | (with_reducible apply Within.mk; decide)

theorem State.sendAck_same {l : List Part} {s0 s : State} (h0 : SameBut l s0 s) (g : RyGroup) (j : Nat) (n : Nat)
 (hk : Within [.seams, .counters, .lining] l) : SameBut l s0 (State.sendAck s g j n) := by
  with_reducible refine SameBut.step (k := [.seams, .counters, .lining]) ?_ h0 hk
  have h : SameBut [.seams, .counters, .lining] s s := SameBut.refl _ _
  clear h0 hk
  unfold State.sendAck
  try dsimp only
  repeat' first | (with_reducible first | assumption | apply State.sendRy_same)
                | (with_reducible apply Within.mk; decide)

theorem State.sendBlock_same {l : List Part} {s0 s : State} (h0 : SameBut l s0 s) (k : Nat) (g : RyGroup) (j :
    Nat) (n : Nat) (y : YBlock) (escHere : Bool) (sat : Nat)
 (hk : Within [.seams, .groups, .counters, .lining] l) : SameBut l s0 (State.sendBlock s k g j n y escHere sat) := by
  with_reducible refine SameBut.step (k := [.seams, .groups, .counters, .lining]) ?_ h0 hk
  have h : SameBut [.seams, .groups, .counters, .lining] s s := SameBut.refl _ _
  clear h0 hk
  unfold State.sendBlock
  try dsimp only
  repeat' first | (with_reducible first | assumption | apply State.count_same | apply State.sendRy_same
                                        | apply State.setGroup_same | apply same_foldl)
                | (with_reducible apply Within.mk; decide) | split

theorem State.ryStart_same {l : List Part} {s0 s : State} (h0 : SameBut l s0 s) (k : Nat) (g : RyGroup)
 (hk : Within [.seams, .groups, .counters, .lining] l) : SameO l s0 (State.ryStart s k g) := by
  with_reducible refine SameO.step (k := [.seams, .groups, .counters, .lining]) ?_ h0 hk
  have h : SameBut [.seams, .groups, .counters, .lining] s s := SameBut.refl _ _
  clear h0 hk
  unfold State.ryStart
  try dsimp only
  repeat' first | (with_reducible first | assumption | apply State.sendBlock_same | apply sameO_none
                                        | apply sameO_some | apply same_foldl)
                | (with_reducible apply Within.mk; decide) | split

theorem State.transitFault_same {l : List Part} {s0 s : State} (h0 : SameBut l s0 s) (g : RyGroup) (c : RyChan) (x
    : RyIn) (j : Nat) (n : Nat)
 (hk : Within [.caps, .ready, .seams, .mem, .ctxs, .journal, .collar, .cores, .fabric, .counters, .trace, .belt,
     .lining, .i3c, .free] l) : SameBut l s0 (State.transitFault s g c x j n).1 := by
  with_reducible refine SameBut.step (k := [.caps, .ready, .seams, .mem, .ctxs, .journal, .collar,
                     .cores, .fabric, .counters, .trace, .belt, .lining, .i3c, .free]) ?_ h0 hk
  have h : SameBut [.caps, .ready, .seams, .mem, .ctxs, .journal, .collar, .cores, .fabric, .counters, .trace,
      .belt, .lining, .i3c, .free] s s := SameBut.refl _ _
  clear h0 hk
  unfold State.transitFault
  try dsimp only
  repeat' first | (with_reducible first | assumption | apply State.sendRy_same | apply State.keepGroups_same
                                        | apply State.examineRegions_same | apply same_foldl)
                | (with_reducible apply Within.mk; decide) | split

theorem State.leaveRound_same {l : List Part} {s0 s : State} (h0 : SameBut l s0 s) (e : Entry)
 (hk : Within [.groups] l) : SameBut l s0 (State.leaveRound s e) := by
  with_reducible refine SameBut.step (k := [.groups]) ?_ h0 hk
  have h : SameBut [.groups] s s := SameBut.refl _ _
  clear h0 hk
  unfold State.leaveRound
  try dsimp only
  repeat' first | (with_reducible first | assumption | apply State.setGroup_same | apply same_foldl)
                | (with_reducible apply Within.mk; decide) | split

theorem State.adderFaults_same {l : List Part} {s0 s : State} (h0 : SameBut l s0 s) (ctx : Nat) (q : Option W32)
    (faults : List Nat)
 (hk : Within [.caps, .seams, .mem, .journal, .collar, .cores, .fabric, .chains, .groups, .counters, .trace,
     .lining, .i3c] l) : SameBut l s0 (State.adderFaults s ctx q faults) := by
  with_reducible refine SameBut.step (k := [.caps, .seams, .mem, .journal, .collar, .cores,
                     .fabric, .chains, .groups, .counters, .trace, .lining, .i3c]) ?_ h0 hk
  have h : SameBut [.caps, .seams, .mem, .journal, .collar, .cores, .fabric, .chains, .groups, .counters, .trace,
      .lining, .i3c] s s := SameBut.refl _ _
  clear h0 hk

  unfold State.adderFaults
  split
  · exact h
  · split
    · exact h
    · extract_lets x
      have hx : SameBut [.caps, .seams, .mem, .journal, .collar, .cores, .fabric, .chains, .groups, .counters,
          .trace, .lining, .i3c] s x.s := State.charge_same h _ _ (by decide)
      clear_value x
      split
      · exact State.memberEnd_same (State.conclude_same (State.leaveRound_same hx _ (by decide)) _ _ _ _ (by
          decide)) _ _
          (by decide)
      · exact State.setEntry_same hx _ (by decide)


theorem State.ryAdd_same {l : List Part} {s0 s : State} (h0 : SameBut l s0 s) (k : Nat) (g : RyGroup) (j : Nat) (n
    : Nat) (y : YBlock) (c : Contrib) (sat : Bool)
 (hk : Within [.seams, .mem, .journal, .fabric, .groups, .counters, .lining] l) : SameBut l s0 (State.ryAdd s k g
     j n y c sat) := by
  with_reducible refine SameBut.step (k := [.seams, .mem, .journal, .fabric, .groups, .counters, .lining]) ?_ h0 hk
  have h : SameBut [.seams, .mem, .journal, .fabric, .groups, .counters, .lining] s s := SameBut.refl _ _
  clear h0 hk
  unfold State.ryAdd
  try dsimp only
  repeat' first | (with_reducible first | assumption | apply State.count_same | apply State.ryCursor_same
                                        | apply State.sendAck_same | apply State.setGroup_same
                                        | apply State.sendBlock_same | apply same_foldl)
                | (with_reducible apply Within.mk; decide) | split

theorem State.ryTake_same {l : List Part} {s0 s : State} (h0 : SameBut l s0 s) (k : Nat) (g : RyGroup)
 (hk : Within [.caps, .ready, .seams, .mem, .ctxs, .journal, .collar, .cores, .fabric, .chains, .groups,
     .counters, .trace, .belt, .lining, .i3c, .free] l) : SameO l s0 (State.ryTake s k g) := by
  with_reducible refine SameO.step (k := [.caps, .ready, .seams, .mem, .ctxs, .journal, .collar,
                     .cores, .fabric, .chains, .groups, .counters, .trace, .belt, .lining, .i3c, .free]) ?_ h0 hk
  have h : SameBut [.caps, .ready, .seams, .mem, .ctxs, .journal, .collar, .cores, .fabric, .chains, .groups,
      .counters, .trace, .belt, .lining, .i3c, .free] s s := SameBut.refl _ _
  clear h0 hk
  unfold State.ryTake
  try dsimp only
  repeat' first | (with_reducible first | assumption | apply State.setGroup_same | apply State.transitFault_same
                                        | apply State.adderFaults_same | apply State.ryAdd_same
                                        | apply sameO_none | apply sameO_some | apply same_foldl)
                | (with_reducible apply Within.mk; decide) | split

theorem State.sendNorm_same {l : List Part} {s0 s : State} (h0 : SameBut l s0 s) (g : RyGroup) (lap : Nat) (tensor
    : Nat) (v : W64)
 (hk : Within [.seams, .counters, .lining] l) : SameBut l s0 (State.sendNorm s g lap tensor v) := by
  with_reducible refine SameBut.step (k := [.seams, .counters, .lining]) ?_ h0 hk
  have h : SameBut [.seams, .counters, .lining] s s := SameBut.refl _ _
  clear h0 hk
  unfold State.sendNorm
  try dsimp only
  repeat' first | (with_reducible first | assumption | apply State.sendRy_same)
                | (with_reducible apply Within.mk; decide)

theorem State.beginNorms_same {l : List Part} {s0 s : State} (h0 : SameBut l s0 s) (k : Nat) (g : RyGroup)
 (hk : Within [.seams, .groups, .counters, .lining] l) : SameBut l s0 (State.beginNorms s k g) := by
  with_reducible refine SameBut.step (k := [.seams, .groups, .counters, .lining]) ?_ h0 hk
  have h : SameBut [.seams, .groups, .counters, .lining] s s := SameBut.refl _ _
  clear h0 hk
  unfold State.beginNorms
  try dsimp only
  repeat' first | (with_reducible first | assumption | apply State.setGroup_same | apply State.sendNorm_same
                                        | apply same_foldl) | (with_reducible apply Within.mk; decide) | split
                | intro _ _ _

theorem State.ryPump_same {l : List Part} {s0 x3 : State} (h0 : SameBut l s0 x3) (k : Nat) (x2 : Nat) 
 (hk : Within [.caps, .ready, .seams, .mem, .ctxs, .journal, .collar, .cores, .fabric, .chains, .groups,
     .counters, .trace, .belt, .lining, .i3c, .free] l) : SameBut l s0 (State.ryPump k x2 x3) := by
  with_reducible refine SameBut.step (k := [.caps, .ready, .seams, .mem, .ctxs, .journal, .collar,
                     .cores, .fabric, .chains, .groups, .counters, .trace, .belt, .lining, .i3c, .free]) ?_ h0 hk
  have h : SameBut [.caps, .ready, .seams, .mem, .ctxs, .journal, .collar, .cores, .fabric, .chains, .groups,
      .counters, .trace, .belt, .lining, .i3c, .free] x3 x3 := SameBut.refl _ _
  clear h0 hk
  have aux : ∀ (n : Nat) (t : State), SameBut [.caps, .ready, .seams, .mem, .ctxs, .journal, .collar, .cores,
      .fabric, .chains, .groups, .counters, .trace, .belt, .lining, .i3c, .free] x3 t → SameBut [.caps, .ready,
      .seams, .mem, .ctxs, .journal, .collar, .cores, .fabric, .chains, .groups, .counters, .trace, .belt, .lining,
      .i3c, .free] x3 (State.ryPump k n t) := by
    intro n
    induction n with
    | zero => exact fun _ g => g
    | succ n ih =>
      intro t g
      unfold State.ryPump
      split
      · exact g
      · split
        · exact g
        · split
          · exact ih _ (sameO_of (by assumption) (State.ryStart_same g _ _ (by decide)))
          · split
            · exact ih _ (sameO_of (by assumption) (State.ryTake_same g _ _ (by decide)))
            · exact State.beginNorms_same g _ _ (by decide)
  exact aux _ _ h


theorem State.ryRun_same {l : List Part} {s0 s : State} (h0 : SameBut l s0 s) (k : Nat)
 (hk : Within [.caps, .ready, .seams, .mem, .ctxs, .journal, .collar, .cores, .fabric, .chains, .groups,
     .counters, .trace, .belt, .lining, .i3c, .free] l) : SameBut l s0 (State.ryRun s k) := by
  with_reducible refine SameBut.step (k := [.caps, .ready, .seams, .mem, .ctxs, .journal, .collar,
                     .cores, .fabric, .chains, .groups, .counters, .trace, .belt, .lining, .i3c, .free]) ?_ h0 hk
  have h : SameBut [.caps, .ready, .seams, .mem, .ctxs, .journal, .collar, .cores, .fabric, .chains, .groups,
      .counters, .trace, .belt, .lining, .i3c, .free] s s := SameBut.refl _ _
  clear h0 hk
  unfold State.ryRun
  try dsimp only
  repeat' first | (with_reducible first | assumption | apply State.ryPump_same | apply same_foldl)
                | (with_reducible apply Within.mk; decide) | split

theorem State.ryAcked_same {l : List Part} {s0 s : State} (h0 : SameBut l s0 s) (p : Nat) (ep : Nat) (vc : Nat)
    (payload : Bytes)
 (hk : Within [.caps, .ready, .seams, .mem, .ctxs, .journal, .collar, .cores, .fabric, .chains, .groups,
     .counters, .trace, .belt, .lining, .i3c, .free] l) : SameBut l s0 (State.ryAcked s p ep vc payload) := by
  with_reducible refine SameBut.step (k := [.caps, .ready, .seams, .mem, .ctxs, .journal, .collar,
                     .cores, .fabric, .chains, .groups, .counters, .trace, .belt, .lining, .i3c, .free]) ?_ h0 hk
  have h : SameBut [.caps, .ready, .seams, .mem, .ctxs, .journal, .collar, .cores, .fabric, .chains, .groups,
      .counters, .trace, .belt, .lining, .i3c, .free] s s := SameBut.refl _ _
  clear h0 hk
  unfold State.ryAcked
  try dsimp only
  repeat' first | (with_reducible first | assumption | apply State.setGroup_same | apply State.ryCursor_same
                                        | apply State.sendAck_same | apply State.ryRun_same | apply same_foldl)
                | (with_reducible apply Within.mk; decide) | split | intro _ _ _

theorem State.putRx_same {l : List Part} {s0 s : State} (h0 : SameBut l s0 s) (p : Nat) (k : Packet)
 (hk : Within [.caps, .ready, .seams, .mem, .ctxs, .journal, .collar, .cores, .fabric, .chains, .groups,
     .counters, .trace, .belt, .lining, .i3c, .free] l) : SameBut l s0 (State.putRx s p k) := by
  with_reducible refine SameBut.step (k := [.caps, .ready, .seams, .mem, .ctxs, .journal, .collar,
                     .cores, .fabric, .chains, .groups, .counters, .trace, .belt, .lining, .i3c, .free]) ?_ h0 hk
  have h : SameBut [.caps, .ready, .seams, .mem, .ctxs, .journal, .collar, .cores, .fabric, .chains, .groups,
      .counters, .trace, .belt, .lining, .i3c, .free] s s := SameBut.refl _ _
  clear h0 hk
  unfold State.putRx
  try dsimp only
  repeat' first | (with_reducible first | assumption | apply State.ryAcked_same | apply State.freeCredits_same
                                        | apply State.setSeam_same | apply same_foldl)
                | (with_reducible apply Within.mk; decide) | split

theorem State.ryBlockIn_same {l : List Part} {s0 s : State} (h0 : SameBut l s0 s) (p : Nat) (ep : Nat) (vc : Nat)
    (block : Bytes) (adderFaults : List Nat)
 (hk : Within [.caps, .ready, .seams, .mem, .ctxs, .journal, .collar, .cores, .fabric, .chains, .groups,
     .counters, .trace, .belt, .lining, .i3c, .free] l) : SameBut l s0 (State.ryBlockIn s p ep vc block adderFaults)
     := by
  with_reducible refine SameBut.step (k := [.caps, .ready, .seams, .mem, .ctxs, .journal, .collar,
                     .cores, .fabric, .chains, .groups, .counters, .trace, .belt, .lining, .i3c, .free]) ?_ h0 hk
  have h : SameBut [.caps, .ready, .seams, .mem, .ctxs, .journal, .collar, .cores, .fabric, .chains, .groups,
      .counters, .trace, .belt, .lining, .i3c, .free] s s := SameBut.refl _ _
  clear h0 hk
  unfold State.ryBlockIn
  try dsimp only
  repeat' first | (with_reducible first | assumption | apply State.ryRun_same | apply State.setGroup_same
                                        | apply State.transitFault_same | apply State.bounceStore_same
                                        | apply State.l2Invalidate_same | apply State.dropCopies_same
                                        | apply same_foldl) | (with_reducible apply Within.mk; decide) | split
                | intro _ _ _

theorem State.authFail_same {l : List Part} {s0 s : State} (h0 : SameBut l s0 s) (p : Nat) (k : Packet) (c : Channel)
 (hk : Within [.caps, .ready, .seams, .mem, .ctxs, .journal, .collar, .cores, .fabric, .chains, .groups,
     .counters, .trace, .belt, .lining, .i3c, .free] l) : SameBut l s0 (State.authFail s p k c) := by
  with_reducible refine SameBut.step (k := [.caps, .ready, .seams, .mem, .ctxs, .journal, .collar,
                     .cores, .fabric, .chains, .groups, .counters, .trace, .belt, .lining, .i3c, .free]) ?_ h0 hk
  have h : SameBut [.caps, .ready, .seams, .mem, .ctxs, .journal, .collar, .cores, .fabric, .chains, .groups,
      .counters, .trace, .belt, .lining, .i3c, .free] s s := SameBut.refl _ _
  clear h0 hk
  unfold State.authFail
  try dsimp only
  repeat' first | (with_reducible first | assumption | apply State.count_same | apply State.freeCredits_same
                                        | apply State.setChannel_same | apply State.ryBlockIn_same
                                        | apply same_foldl) | (with_reducible apply Within.mk; decide) | split
                | intro _ _ _ | intro _ _ | intro _
  any_goals (refine same_mk ?_)
  repeat' first | (with_reducible first | assumption | apply State.count_same | apply State.freeCredits_same
                                        | apply State.setChannel_same | apply State.ryBlockIn_same)
                | (with_reducible apply Within.mk; decide)

theorem State.rxEncrypted_same {l : List Part} {s0 s : State} (h0 : SameBut l s0 s) (p : Nat) (x3 : Bytes) (body :
    Bytes) (tag : Bytes) (k : Packet)
 (hk : Within [.caps, .ready, .seams, .mem, .ctxs, .journal, .collar, .cores, .fabric, .chains, .groups,
     .counters, .trace, .belt, .lining, .i3c, .free] l) : SameBut l s0 (State.rxEncrypted s p x3 body tag k) := by
  with_reducible refine SameBut.step (k := [.caps, .ready, .seams, .mem, .ctxs, .journal, .collar,
                     .cores, .fabric, .chains, .groups, .counters, .trace, .belt, .lining, .i3c, .free]) ?_ h0 hk
  have h : SameBut [.caps, .ready, .seams, .mem, .ctxs, .journal, .collar, .cores, .fabric, .chains, .groups,
      .counters, .trace, .belt, .lining, .i3c, .free] s s := SameBut.refl _ _
  clear h0 hk
  unfold State.rxEncrypted
  try dsimp only
  repeat' first | (with_reducible first | assumption | apply State.dropRx_same | apply State.putRx_same
                                        | apply State.setChannel_same | apply State.authFail_same
                                        | apply same_foldl) | (with_reducible apply Within.mk; decide) | split

theorem State.rxPacket_same {l : List Part} {s0 s : State} (h0 : SameBut l s0 s) (p : Nat) (w : Bytes)
 (hk : Within [.caps, .ready, .seams, .mem, .ctxs, .journal, .collar, .cores, .fabric, .chains, .groups,
     .counters, .trace, .belt, .lining, .i3c, .free] l) : SameBut l s0 (State.rxPacket s p w) := by
  with_reducible refine SameBut.step (k := [.caps, .ready, .seams, .mem, .ctxs, .journal, .collar,
                     .cores, .fabric, .chains, .groups, .counters, .trace, .belt, .lining, .i3c, .free]) ?_ h0 hk
  have h : SameBut [.caps, .ready, .seams, .mem, .ctxs, .journal, .collar, .cores, .fabric, .chains, .groups,
      .counters, .trace, .belt, .lining, .i3c, .free] s s := SameBut.refl _ _
  clear h0 hk
  unfold State.rxPacket
  try dsimp only
  repeat' first | (with_reducible first | assumption | apply State.count_same | apply State.rxEncrypted_same
                                        | apply State.putRx_same | apply State.dropRx_same | apply same_foldl)
                | (with_reducible apply Within.mk; decide) | split

theorem State.rxPackets_same {l : List Part} {s0 s : State} (h0 : SameBut l s0 s) (p : Nat) (x3 : Nat) (x4 : Bytes)
 (hk : Within [.caps, .ready, .seams, .mem, .ctxs, .journal, .collar, .cores, .fabric, .chains, .groups,
     .counters, .trace, .belt, .lining, .i3c, .free] l) : SameBut l s0 (State.rxPackets s p x3 x4) := by
  with_reducible refine SameBut.step (k := [.caps, .ready, .seams, .mem, .ctxs, .journal, .collar,
                     .cores, .fabric, .chains, .groups, .counters, .trace, .belt, .lining, .i3c, .free]) ?_ h0 hk
  have h : SameBut [.caps, .ready, .seams, .mem, .ctxs, .journal, .collar, .cores, .fabric, .chains, .groups,
      .counters, .trace, .belt, .lining, .i3c, .free] s s := SameBut.refl _ _
  clear h0 hk
  have aux : ∀ (n : Nat) (bs : Bytes) (t : State), SameBut [.caps, .ready, .seams, .mem, .ctxs, .journal, .collar,
      .cores, .fabric, .chains, .groups, .counters, .trace, .belt, .lining, .i3c, .free] s t → SameBut [.caps, .ready,
      .seams, .mem, .ctxs, .journal, .collar, .cores, .fabric, .chains, .groups, .counters, .trace, .belt, .lining,
      .i3c, .free] s (State.rxPackets t p n bs) := by
    intro n
    induction n with
    | zero => exact fun _ _ g => g
    | succ n ih =>
      intro bs t g
      unfold State.rxPackets
      split
      · exact State.setSeam_same g _ _ (by decide)
      · split
        · exact State.setSeam_same g _ _ (by decide)
        · split
          · exact State.setSeam_same g _ _ (by decide)
          · exact ih _ _ (State.rxPacket_same g _ _ (by decide))
  exact aux _ _ _ h


theorem State.retrainSeam_same {l : List Part} {s0 s : State} (h0 : SameBut l s0 s) (p : Nat)
 (hk : Within [.ready, .seams, .counters, .i3c] l) : SameBut l s0 (State.retrainSeam s p) := by
  with_reducible refine SameBut.step (k := [.ready, .seams, .counters, .i3c]) ?_ h0 hk
  have h : SameBut [.ready, .seams, .counters, .i3c] s s := SameBut.refl _ _
  clear h0 hk
  unfold State.retrainSeam
  try dsimp only
  repeat' first | (with_reducible first | assumption | apply State.setSeam_same | apply State.ibi_same
                                        | apply State.count_same | apply same_foldl)
                | (with_reducible apply Within.mk; decide) | split | intro _ _ _ | intro _ _ | intro _
  any_goals (refine same_mk ?_)
  repeat' first | (with_reducible first | assumption | apply State.setSeam_same | apply State.ibi_same
                                        | apply State.count_same) | (with_reducible apply Within.mk; decide)

theorem State.replaySeam_same {l : List Part} {s0 s : State} (h0 : SameBut l s0 s) (p : Nat)
 (hk : Within [.ready, .seams, .counters, .i3c] l) : SameBut l s0 (State.replaySeam s p) := by
  with_reducible refine SameBut.step (k := [.ready, .seams, .counters, .i3c]) ?_ h0 hk
  have h : SameBut [.ready, .seams, .counters, .i3c] s s := SameBut.refl _ _
  clear h0 hk
  unfold State.replaySeam
  try dsimp only
  repeat' first | (with_reducible first | assumption | apply State.count_same | apply State.setSeam_same
                                        | apply State.retrainSeam_same | apply same_foldl)
                | (with_reducible apply Within.mk; decide) | split

theorem State.goodFrame_same {l : List Part} {s0 s : State} (h0 : SameBut l s0 s) (p : Nat) (f : Frame)
 (hk : Within [.caps, .ready, .seams, .mem, .ctxs, .journal, .collar, .cores, .fabric, .chains, .groups,
     .counters, .trace, .belt, .lining, .i3c, .free] l) : SameBut l s0 (State.goodFrame s p f) := by
  with_reducible refine SameBut.step (k := [.caps, .ready, .seams, .mem, .ctxs, .journal, .collar,
                     .cores, .fabric, .chains, .groups, .counters, .trace, .belt, .lining, .i3c, .free]) ?_ h0 hk
  have h : SameBut [.caps, .ready, .seams, .mem, .ctxs, .journal, .collar, .cores, .fabric, .chains, .groups,
      .counters, .trace, .belt, .lining, .i3c, .free] s s := SameBut.refl _ _
  clear h0 hk
  unfold State.goodFrame
  try dsimp only
  repeat' first | (with_reducible first | assumption | apply State.setSeam_same | apply State.rxPackets_same
                                        | apply State.replaySeam_same | apply State.pump_same
                                        | apply same_foldl) | (with_reducible apply Within.mk; decide) | split

theorem State.readWord_same {l : List Part} {s0 s : State} (h0 : SameBut l s0 s) (src : Source) (off : Nat)
 (hk : Within [.latches] l) : SameBut l s0 (State.readWord s src off).2 := by
  with_reducible refine SameBut.step (k := [.latches]) ?_ h0 hk
  have h : SameBut [.latches] s s := SameBut.refl _ _
  clear h0 hk
  unfold State.readWord
  try dsimp only
  repeat' first | (with_reducible first | assumption | apply same_foldl)
                | (with_reducible apply Within.mk; decide) | split | intro _ _ _ | intro _ _ | intro _
  any_goals (refine same_mk ?_)
  repeat' first | with_reducible assumption

theorem State.readWords_same {l : List Part} {s0 s : State} (h0 : SameBut l s0 s) (src : Source) (x3 : Nat) (x4 : Nat)
 (hk : Within [.latches] l) : SameBut l s0 (State.readWords s src x3 x4).2 := by
  with_reducible refine SameBut.step (k := [.latches]) ?_ h0 hk
  have h : SameBut [.latches] s s := SameBut.refl _ _
  clear h0 hk
  have aux : ∀ (n off : Nat) (t : State), SameBut [.latches] s t → SameBut [.latches] s (State.readWords t src off
      n).2 := by
    intro n
    induction n with
    | zero => exact fun _ _ g => g
    | succ n ih => exact fun off t g => ih _ _ (State.readWord_same g _ _ (by decide))
  exact aux _ _ _ h


theorem State.rcpl_same {l : List Part} {s0 s : State} (h0 : SameBut l s0 s) (p : Nat) (ep : Nat) (status : Nat)
    (tag : Nat) (bs : Bytes)
 (hk : Within [.seams, .counters, .lining] l) : SameBut l s0 (State.rcpl s p ep status tag bs) := by
  with_reducible refine SameBut.step (k := [.seams, .counters, .lining]) ?_ h0 hk
  have h : SameBut [.seams, .counters, .lining] s s := SameBut.refl _ _
  clear h0 hk
  unfold State.rcpl
  try dsimp only
  repeat' first | (with_reducible first | assumption | apply State.send_same)
                | (with_reducible apply Within.mk; decide)

theorem State.auditWrite_same {l : List Part} {s0 s : State} (h0 : SameBut l s0 s) (src : Source) (role : Nat)
    (off : Nat) (v : W32)
 (hk : Within [.lining] l) : SameBut l s0 (State.auditWrite s src role off v) := by
  with_reducible refine SameBut.step (k := [.lining]) ?_ h0 hk
  have h : SameBut [.lining] s s := SameBut.refl _ _
  clear h0 hk
  unfold State.auditWrite
  try dsimp only
  repeat' first | (with_reducible first | assumption | apply State.audited_same)
                | (with_reducible apply Within.mk; decide)

theorem State.roleWrite_same {l : List Part} {s0 t : State} (h0 : SameBut l s0 t) (s : State) (src : Source) (role
    : Nat) (off : Nat) (v : W32)
 (hk : Within [.lining] l) : SameO l s0 (State.roleWrite s src role off v t) := by
  with_reducible refine SameO.step (k := [.lining]) ?_ h0 hk
  have h : SameBut [.lining] t t := SameBut.refl _ _
  clear h0 hk
  unfold State.roleWrite
  try dsimp only
  repeat' first | (with_reducible first | assumption | apply State.auditWrite_same | apply sameO_none
                                        | apply sameO_some | apply same_foldl)
                | (with_reducible apply Within.mk; decide) | split

theorem State.tbWrite_same {l : List Part} {s0 s : State} (h0 : SameBut l s0 s) (src : Source) (off : Nat) (v : W32)
 (hk : Within [.tb, .lining] l) : SameO l s0 (State.tbWrite s src off v) := by
  with_reducible refine SameO.step (k := [.tb, .lining]) ?_ h0 hk
  have h : SameBut [.tb, .lining] s s := SameBut.refl _ _
  clear h0 hk
  unfold State.tbWrite
  try dsimp only
  repeat' first | (with_reducible first | assumption | apply State.roleWrite_same | apply sameO_none
                                        | apply sameO_some | apply same_foldl)
                | exact sameO_of (by assumption) (State.roleWrite_same (by assumption) _ _ _ _ _ (by decide))
                | (with_reducible apply Within.mk; decide) | split | intro _ _ _ | intro _ _ | intro _
  any_goals (refine same_mk ?_)
  repeat' first | with_reducible assumption

theorem State.doorbell_same {l : List Part} {s0 s : State} (h0 : SameBut l s0 s) (ctx : Nat) (v : W32)
 (hk : Within [.ctxs] l) : SameBut l s0 (State.doorbell s ctx v) := by
  with_reducible refine SameBut.step (k := [.ctxs]) ?_ h0 hk
  have h : SameBut [.ctxs] s s := SameBut.refl _ _
  clear h0 hk
  unfold State.doorbell
  try dsimp only
  repeat' first | (with_reducible first | assumption | apply State.setCtx_same | apply same_foldl)
                | (with_reducible apply Within.mk; decide) | split

theorem State.cqHeadWrite_same {l : List Part} {s0 s : State} (h0 : SameBut l s0 s) (ctx : Nat) (v : W32)
 (hk : Within [.mem, .ctxs, .journal, .fabric] l) : SameBut l s0 (State.cqHeadWrite s ctx v) := by
  with_reducible refine SameBut.step (k := [.mem, .ctxs, .journal, .fabric]) ?_ h0 hk
  have h : SameBut [.mem, .ctxs, .journal, .fabric] s s := SameBut.refl _ _
  clear h0 hk
  unfold State.cqHeadWrite
  try dsimp only
  repeat' first | (with_reducible first | assumption | apply State.setCtx_same | apply State.reclaim_same
                                        | apply State.setEntry_same | apply same_foldl)
                | (with_reducible apply Within.mk; decide) | split | intro _ _ _

theorem State.pageWrite_same {l : List Part} {s0 s : State} (h0 : SameBut l s0 s) (src : Source) (ctx : Nat) (reg
    : Nat) (v : W32)
 (hk : Within [.mem, .ctxs, .journal, .fabric] l) : SameO l s0 (State.pageWrite s src ctx reg v) := by
  with_reducible refine SameO.step (k := [.mem, .ctxs, .journal, .fabric]) ?_ h0 hk
  have h : SameBut [.mem, .ctxs, .journal, .fabric] s s := SameBut.refl _ _
  clear h0 hk
  unfold State.pageWrite
  try dsimp only
  repeat' first | (with_reducible first | assumption | apply State.doorbell_same | apply State.cqHeadWrite_same
                                        | apply State.setCtx_same | apply sameO_none | apply sameO_some
                                        | apply same_foldl) | (with_reducible apply Within.mk; decide) | split

theorem State.xlateWrite_same {l : List Part} {s0 s : State} (h0 : SameBut l s0 s) (ctx : Nat)
 (hk : Within [.collar] l) : SameBut l s0 (State.xlateWrite s ctx) := by
  with_reducible refine SameBut.step (k := [.collar]) ?_ h0 hk
  have h : SameBut [.collar] s s := SameBut.refl _ _
  clear h0 hk
  unfold State.xlateWrite
  try dsimp only
  repeat' first | (with_reducible first | assumption | apply same_foldl)
                | (with_reducible apply Within.mk; decide) | split | intro _ _ _ | intro _ _ | intro _
  any_goals (refine same_mk ?_)
  repeat' first | with_reducible assumption

theorem State.enableJournal_same {l : List Part} {s0 s : State} (h0 : SameBut l s0 s) 
 (hk : Within [.stks, .journal, .collar, .i3c] l) : SameBut l s0 (State.enableJournal s) := by
  with_reducible refine SameBut.step (k := [.stks, .journal, .collar, .i3c]) ?_ h0 hk
  have h : SameBut [.stks, .journal, .collar, .i3c] s s := SameBut.refl _ _
  clear h0 hk
  unfold State.enableJournal
  try dsimp only
  repeat' first | (with_reducible first | assumption | apply State.setStack_same | apply State.setFault_same
                                        | apply same_foldl) | (with_reducible apply Within.mk; decide) | split
                | intro _ _ _ | intro _ _ | intro _
  any_goals (refine same_mk ?_)
  repeat' first | with_reducible assumption

theorem State.retireByRequest_same {l : List Part} {s0 s : State} (h0 : SameBut l s0 s) (c : Nat)
 (hk : Within [.caps, .seams, .mem, .journal, .collar, .cores, .fabric, .counters, .trace, .lining, .i3c] l) :
     SameBut l s0 (State.retireByRequest s c) := by
  with_reducible refine SameBut.step (k := [.caps, .seams, .mem, .journal, .collar, .cores,
                     .fabric, .counters, .trace, .lining, .i3c]) ?_ h0 hk
  have h : SameBut [.caps, .seams, .mem, .journal, .collar, .cores, .fabric, .counters, .trace, .lining, .i3c] s s
      := SameBut.refl _ _
  clear h0 hk
  unfold State.retireByRequest
  try dsimp only
  repeat' first | (with_reducible first | assumption | apply State.setEntry_same | apply State.retireCore_same
                                        | apply same_foldl) | (with_reducible apply Within.mk; decide) | split
                | intro _ _ _

theorem State.clearLoss_same {l : List Part} {s0 s : State} (h0 : SameBut l s0 s) (i : Nat)
 (hk : Within [.mem, .journal, .fabric] l) : SameBut l s0 (State.clearLoss s i) := by
  with_reducible refine SameBut.step (k := [.mem, .journal, .fabric]) ?_ h0 hk
  have h : SameBut [.mem, .journal, .fabric] s s := SameBut.refl _ _
  clear h0 hk
  unfold State.clearLoss
  try dsimp only
  repeat' first | (with_reducible first | assumption | apply State.journalPut_same | apply State.setEntry_same
                                        | apply same_foldl) | (with_reducible apply Within.mk; decide) | split
                | intro _ _ _ | intro _ _ | intro _
  any_goals (refine same_mk ?_)
  repeat' first | with_reducible assumption

theorem State.journalWrite_same {l : List Part} {s0 s : State} (h0 : SameBut l s0 s) (src : Source) (off : Nat) (v
    : W32)
 (hk : Within [.caps, .stks, .seams, .mem, .journal, .collar, .cores, .fabric, .counters, .trace, .lining, .i3c]
     l) : SameO l s0 (State.journalWrite s src off v) := by
  with_reducible refine SameO.step (k := [.caps, .stks, .seams, .mem, .journal, .collar, .cores,
                     .fabric, .counters, .trace, .lining, .i3c]) ?_ h0 hk
  have h : SameBut [.caps, .stks, .seams, .mem, .journal, .collar, .cores, .fabric, .counters, .trace, .lining,
      .i3c] s s := SameBut.refl _ _
  clear h0 hk
  have place : ∀ k : Journal, SameO [.caps, .stks, .seams, .mem, .journal, .collar, .cores, .fabric, .counters,
      .trace, .lining, .i3c] s (if s.journal.enable then (if s.srcRole src 1 then some s else none)
      else s.roleWrite src 1 off v { s with journal := k }) := by
    intro k
    split
    · split
      · exact h
      · exact sameO_none
    · exact State.roleWrite_same (same_mk h) _ _ _ _ _ (by decide)
  unfold State.journalWrite
  extract_lets j pl t
  refine same_ite (place _) ?_
  refine same_ite (place _) ?_
  refine same_ite (place _) ?_
  refine same_ite (place _) ?_
  refine same_ite ?_ ?_
  · refine same_ite (same_ite h sameO_none) ?_
    exact State.roleWrite_same (State.enableJournal_same h (by decide)) _ _ _ _ _ (by decide)
  refine same_ite (same_ite (State.ibi_same (same_mk h) (by decide)) sameO_none) ?_
  refine same_ite ?_ ?_
  · refine State.roleWrite_same ?_ _ _ _ _ _ (by decide)
    exact same_ite' (State.retireByRequest_same (same_mk h) _ (by decide)) (same_mk h)
  refine same_ite (same_ite (same_mk h) sameO_none) ?_
  exact same_ite (same_ite (State.clearLoss_same (same_mk h) _ (by decide)) sameO_none) sameO_none


theorem State.applyCtx0_same {l : List Part} {s0 s : State} (h0 : SameBut l s0 s) 
 (hk : Within [.mem, .ctxs, .journal, .collar, .fabric] l) : SameBut l s0 (State.applyCtx0 s) := by
  with_reducible refine SameBut.step (k := [.mem, .ctxs, .journal, .collar, .fabric]) ?_ h0 hk
  have h : SameBut [.mem, .ctxs, .journal, .collar, .fabric] s s := SameBut.refl _ _
  clear h0 hk
  unfold State.applyCtx0
  try dsimp only
  repeat' first | (with_reducible first | assumption | apply State.setEntry_same | apply State.reclaim_same
                                        | apply State.setCtx_same | apply State.doorbell_same
                                        | apply same_foldl) | (with_reducible apply Within.mk; decide) | split
                | intro _ _ _ | intro _ _ | intro _
  any_goals (refine same_mk ?_)
  repeat' first | (with_reducible first | assumption | apply State.setEntry_same | apply State.reclaim_same
                                        | apply State.setCtx_same | apply State.doorbell_same
                                        | apply same_foldl) | (with_reducible apply Within.mk; decide) | split
                | intro _ _ _

theorem State.ctx0Write_same {l : List Part} {s0 s : State} (h0 : SameBut l s0 s) (src : Source) (off : Nat) (v : W32)
 (hk : Within [.mem, .ctxs, .journal, .collar, .fabric, .lining] l) : SameO l s0 (State.ctx0Write s src off v) := by
  with_reducible refine SameO.step (k := [.mem, .ctxs, .journal, .collar, .fabric, .lining]) ?_ h0 hk
  have h : SameBut [.mem, .ctxs, .journal, .collar, .fabric, .lining] s s := SameBut.refl _ _
  clear h0 hk
  unfold State.ctx0Write
  try dsimp only
  repeat' first | (with_reducible first | assumption | apply State.applyCtx0_same | apply sameO_none
                                        | apply sameO_some | apply same_foldl)
                | (with_reducible apply Within.mk; decide) | split | intro _ _ _ | intro _ _ | intro _
  any_goals (refine same_mk ?_)
  repeat' first | with_reducible assumption

theorem State.beltWrite_same {l : List Part} {s0 s : State} (h0 : SameBut l s0 s) (src : Source) (off : Nat) (v : W32)
 (hk : Within [.belt, .lining] l) : SameO l s0 (State.beltWrite s src off v) := by
  with_reducible refine SameO.step (k := [.belt, .lining]) ?_ h0 hk
  have h : SameBut [.belt, .lining] s s := SameBut.refl _ _
  clear h0 hk
  delta State.beltWrite
  extract_lets b v r lo err
  have herr : SameO [.belt, .lining] s err := same_ite (same_mk h) sameO_none
  clear_value r err
  with_reducible
    repeat' apply same_ite
    all_goals first | assumption | apply sameO_none | skip
  · exact sameO_some (same_mk h)
  · exact State.roleWrite_same (same_mk h) _ _ _ _ _ (by decide)
  · exact State.roleWrite_same (same_mk h) _ _ _ _ _ (by decide)
  · exact State.roleWrite_same (same_mk h) _ _ _ _ _ (by decide)


theorem State.closeSessions_same {l : List Part} {s0 s : State} (h0 : SameBut l s0 s) (dead : Session → Bool)
 (hk : Within [.lining] l) : SameBut l s0 (State.closeSessions s dead) := by
  with_reducible refine SameBut.step (k := [.lining]) ?_ h0 hk
  have h : SameBut [.lining] s s := SameBut.refl _ _
  clear h0 hk
  unfold State.closeSessions
  try dsimp only
  repeat' first | (with_reducible first | assumption | apply State.audited_same | apply same_foldl)
                | (with_reducible apply Within.mk; decide) | split | intro _ _ _ | intro _ _ | intro _
  any_goals (refine same_mk ?_)
  repeat' first | with_reducible assumption

theorem State.enrolGo_same {l : List Part} {s0 s : State} (h0 : SameBut l s0 s) (src : Source) (table : Nat) (i :
    Nat) (remove : Bool)
 (hk : Within [.lining] l) : SameBut l s0 (State.enrolGo s src table i remove) := by
  with_reducible refine SameBut.step (k := [.lining]) ?_ h0 hk
  have h : SameBut [.lining] s s := SameBut.refl _ _
  clear h0 hk
  unfold State.enrolGo
  extract_lets key li s1
  have h1 : SameBut [.lining] s s1 := by
    show SameBut _ s (match enrolKeys table with | some r => _ | none => _)
    split
    · exact State.closeSessions_same h _ (by decide)
    · exact h
  split
  · exact same_mk h
  · have h2 : SameBut [.lining] s { s1 with lining := { (s1.lining.setKey table i (if remove then none else some
      key)) with
        enrolDone := true } } := same_mk h1
    split
    · exact h2
    · exact State.audited_same h2 _ _ _ _ _ _ (by decide)


theorem State.linWrite_same {l : List Part} {s0 s : State} (h0 : SameBut l s0 s) (src : Source) (off : Nat) (v : W32)
 (hk : Within [.lining] l) : SameO l s0 (State.linWrite s src off v) := by
  with_reducible refine SameO.step (k := [.lining]) ?_ h0 hk
  have h : SameBut [.lining] s s := SameBut.refl _ _
  clear h0 hk
  delta State.linWrite
  extract_lets li r
  clear_value r
  with_reducible apply same_ite
  · exact State.roleWrite_same (same_mk h) _ _ _ _ _ (by decide)
  with_reducible apply same_ite
  · exact sameO_some (same_mk h)
  with_reducible apply same_ite
  · extract_lets table i remove role
    with_reducible refine same_ite ?_ sameO_none
    extract_lets
    rename_i table i remove role t
    have ht : SameBut [.lining] s t := State.auditWrite_same (same_mk h) _ _ _ _ (by decide)
    exact sameO_some (same_ite' (State.enrolGo_same ht _ _ _ _ (by decide)) ht)
  with_reducible apply same_ite
  · exact sameO_some (same_mk h)
  · exact sameO_none


theorem State.tryWrite_same {l : List Part} {s0 s : State} (h0 : SameBut l s0 s) (src : Source) (off : Nat) (v : W32)
 (hk : Within [.tb, .caps, .stks, .seams, .mem, .ctxs, .journal, .collar, .cores, .fabric, .counters, .trace,
     .belt, .lining, .i3c] l) : SameO l s0 (State.tryWrite s src off v) := by
  with_reducible refine SameO.step (k := [.tb, .caps, .stks, .seams, .mem, .ctxs, .journal,
                     .collar, .cores, .fabric, .counters, .trace, .belt, .lining, .i3c]) ?_ h0 hk
  have h : SameBut [.tb, .caps, .stks, .seams, .mem, .ctxs, .journal, .collar, .cores, .fabric, .counters, .trace,
      .belt, .lining, .i3c] s s := SameBut.refl _ _
  clear h0 hk
  unfold State.tryWrite
  generalize off - 0x010000 = r
  refine @same_ite _ _ _ _ _ _ sameO_none ?_
  refine @same_ite _ _ _ _ _ _ (State.tbWrite_same h _ _ _ (by decide)) ?_
  refine @same_ite _ _ _ _ _ _ (State.pageWrite_same h _ _ _ _ (by decide)) ?_
  refine @same_ite _ _ _ _ _ _ ?_ ?_
  · exact same_ite (sameO_some (State.xlateWrite_same h _ (by decide))) sameO_none
  refine @same_ite _ _ _ _ _ _ (State.journalWrite_same h _ _ _ (by decide)) ?_
  refine @same_ite _ _ _ _ _ _ (State.ctx0Write_same h _ _ _ (by decide)) ?_
  refine @same_ite _ _ _ _ _ _ ?_ ?_
  · with_reducible exact State.beltWrite_same h src off v (by decide)
  refine @same_ite _ _ _ _ _ _ ?_ sameO_none
  with_reducible exact State.linWrite_same h src off v (by decide)


theorem State.regWrite_same {l : List Part} {s0 s : State} (h0 : SameBut l s0 s) (src : Source) (off : Nat) (v : W32)
 (hk : Within [.tb, .caps, .stks, .seams, .mem, .ctxs, .journal, .collar, .cores, .fabric, .counters, .trace,
     .belt, .lining, .i3c] l) : SameBut l s0 (State.regWrite s src off v).2 := by
  with_reducible refine SameBut.step (k := [.tb, .caps, .stks, .seams, .mem, .ctxs, .journal,
                     .collar, .cores, .fabric, .counters, .trace, .belt, .lining, .i3c]) ?_ h0 hk
  have h : SameBut [.tb, .caps, .stks, .seams, .mem, .ctxs, .journal, .collar, .cores, .fabric, .counters, .trace,
      .belt, .lining, .i3c] s s := SameBut.refl _ _
  clear h0 hk
  unfold State.regWrite
  try dsimp only
  repeat' first | (with_reducible first | assumption | apply State.count_same | apply same_foldl)
                | exact sameO_of (by assumption) (State.tryWrite_same (by assumption) _ _ _ (by decide))
                | (with_reducible apply Within.mk; decide) | split

theorem State.writeWords_same {l : List Part} {s0 s : State} (h0 : SameBut l s0 s) (src : Source) (x3 : Nat) (x4 :
    List W32)
 (hk : Within [.tb, .caps, .stks, .seams, .mem, .ctxs, .journal, .collar, .cores, .fabric, .counters, .trace,
     .belt, .lining, .i3c] l) : SameBut l s0 (State.writeWords s src x3 x4).2 := by
  with_reducible refine SameBut.step (k := [.tb, .caps, .stks, .seams, .mem, .ctxs, .journal,
                     .collar, .cores, .fabric, .counters, .trace, .belt, .lining, .i3c]) ?_ h0 hk
  have h : SameBut [.tb, .caps, .stks, .seams, .mem, .ctxs, .journal, .collar, .cores, .fabric, .counters, .trace,
      .belt, .lining, .i3c] s s := SameBut.refl _ _
  clear h0 hk
  have aux : ∀ (xs : List W32) (off : Nat) (t : State), SameBut [.tb, .caps, .stks, .seams, .mem, .ctxs, .journal,
      .collar, .cores, .fabric, .counters, .trace, .belt, .lining, .i3c] s t → SameBut [.tb, .caps, .stks, .seams,
      .mem, .ctxs, .journal, .collar, .cores, .fabric, .counters, .trace, .belt, .lining, .i3c] s (State.writeWords t
      src off xs).2 := by
    intro xs
    induction xs with
    | nil => exact fun _ _ g => g
    | cons n xs ih => exact fun off t g => ih _ _ (State.regWrite_same g _ _ _ (by decide))
  exact aux _ _ _ h


theorem State.channelDenied_same {l : List Part} {s0 s : State} (h0 : SameBut l s0 s) (p : Nat) (ep : Nat)
 (hk : Within [.seams, .mem, .journal, .fabric] l) : SameBut l s0 (State.channelDenied s p ep) := by
  with_reducible refine SameBut.step (k := [.seams, .mem, .journal, .fabric]) ?_ h0 hk
  have h : SameBut [.seams, .mem, .journal, .fabric] s s := SameBut.refl _ _
  clear h0 hk
  unfold State.channelDenied
  try dsimp only
  repeat' first | (with_reducible first | assumption | apply State.setSeam_same | apply State.conclude_same
                                        | apply State.setEntry_same | apply same_foldl)
                | (with_reducible apply Within.mk; decide) | split | intro _ _ _

theorem State.spdmAnswer_same {l : List Part} {s0 s : State} (h0 : SameBut l s0 s) (p : Nat) (ep : Nat) (code : Nat)
 (hk : Within [.seams, .counters, .lining] l) : SameBut l s0 (State.spdmAnswer s p ep code) := by
  with_reducible refine SameBut.step (k := [.seams, .counters, .lining]) ?_ h0 hk
  have h : SameBut [.seams, .counters, .lining] s s := SameBut.refl _ _
  clear h0 hk
  unfold State.spdmAnswer
  try dsimp only
  repeat' first | (with_reducible first | assumption | apply State.send_same | apply same_foldl)
                | (with_reducible apply Within.mk; decide) | split | intro _ _ _ | intro _ _ | intro _
  any_goals (refine same_mk ?_)
  repeat' first | with_reducible assumption

theorem State.endSpdm_same {l : List Part} {s0 s : State} (h0 : SameBut l s0 s) (id : Nat)
 (hk : Within [.ctxs, .lining] l) : SameBut l s0 (State.endSpdm s id) := by
  with_reducible refine SameBut.step (k := [.ctxs, .lining]) ?_ h0 hk
  have h : SameBut [.ctxs, .lining] s s := SameBut.refl _ _
  clear h0 hk
  unfold State.endSpdm
  try dsimp only
  any_goals (refine same_mk ?_)
  repeat' first | with_reducible assumption

theorem State.meteredFor_same {l : List Part} {s0 t : State} (h0 : SameBut l s0 t) (s : State) (who : Option (Nat
    × W32))
 (hk : Within [.seams, .fabric] l) : SameBut l s0 (State.meteredFor s t who) := by
  with_reducible refine SameBut.step (k := [.seams, .fabric]) ?_ h0 hk
  have h : SameBut [.seams, .fabric] t t := SameBut.refl _ _
  clear h0 hk
  unfold State.meteredFor
  try dsimp only
  repeat' first | (with_reducible first | assumption | apply State.metered_same | apply same_foldl)
                | (with_reducible apply Within.mk; decide) | split

theorem State.traceRound_same {l : List Part} {s0 s : State} (h0 : SameBut l s0 s) (k : Nat) (event : Nat) (g :
    RyGroup) (seq : W32) (esc : Nat)
 (hk : Within [.mem, .fabric, .counters, .trace] l) : SameBut l s0 (State.traceRound s k event g seq esc) := by
  with_reducible refine SameBut.step (k := [.mem, .fabric, .counters, .trace]) ?_ h0 hk
  have h : SameBut [.mem, .fabric, .counters, .trace] s s := SameBut.refl _ _
  clear h0 hk
  unfold State.traceRound
  try dsimp only
  repeat' first | (with_reducible first | assumption | apply State.traceRec_same)
                | (with_reducible apply Within.mk; decide)

theorem State.abortRound_same {l : List Part} {s0 s : State} (h0 : SameBut l s0 s) (k : Nat) (g : RyGroup) (why : Nat)
 (hk : Within [.mem, .fabric, .groups, .counters, .trace] l) : SameBut l s0 (State.abortRound s k g why) := by
  with_reducible refine SameBut.step (k := [.mem, .fabric, .groups, .counters, .trace]) ?_ h0 hk
  have h : SameBut [.mem, .fabric, .groups, .counters, .trace] s s := SameBut.refl _ _
  clear h0 hk
  unfold State.abortRound
  try dsimp only
  repeat' first | (with_reducible first | assumption | apply State.traceRound_same | apply State.count_same
                                        | apply State.setGroup_same) | (with_reducible apply Within.mk; decide)

theorem State.leaveReady_same {l : List Part} {s0 s : State} (h0 : SameBut l s0 s) (k : Nat) (g : RyGroup) (t :
    ReadyToken)
 (hk : Within [.caps, .ready, .seams, .mem, .ctxs, .journal, .collar, .cores, .fabric, .chains, .groups,
     .counters, .trace, .belt, .lining, .i3c, .free] l) : SameBut l s0 (State.leaveReady s k g t) := by
  with_reducible refine SameBut.step (k := [.caps, .ready, .seams, .mem, .ctxs, .journal, .collar,
                     .cores, .fabric, .chains, .groups, .counters, .trace, .belt, .lining, .i3c, .free]) ?_ h0 hk
  have h : SameBut [.caps, .ready, .seams, .mem, .ctxs, .journal, .collar, .cores, .fabric, .chains, .groups,
      .counters, .trace, .belt, .lining, .i3c, .free] s s := SameBut.refl _ _
  clear h0 hk
  unfold State.leaveReady
  try dsimp only
  repeat' first | (with_reducible first | assumption | apply State.abortRound_same | apply State.traceRound_same
                                        | apply State.setGroup_same | apply State.sendRy_same
                                        | apply State.ryRun_same | apply same_foldl)
                | (with_reducible apply Within.mk; decide) | split

theorem State.passToken_same {l : List Part} {s0 s : State} (h0 : SameBut l s0 s) (g : RyGroup) (t : ReadyToken)
 (hk : Within [.seams, .counters, .lining] l) : SameBut l s0 (State.passToken s g t) := by
  with_reducible refine SameBut.step (k := [.seams, .counters, .lining]) ?_ h0 hk
  have h : SameBut [.seams, .counters, .lining] s s := SameBut.refl _ _
  clear h0 hk
  unfold State.passToken
  try dsimp only
  repeat' first | (with_reducible first | assumption | apply State.sendRy_same)
                | (with_reducible apply Within.mk; decide)

theorem State.backupCursor_same {l : List Part} {s0 s : State} (h0 : SameBut l s0 s) (k : Nat) (ctx : Nat) (bs :
    List (Nat × Nat × YBlock × Contrib))
 (hk : Within [.mem, .journal, .fabric] l) : SameBut l s0 (State.backupCursor s k ctx bs) := by
  with_reducible refine SameBut.step (k := [.mem, .journal, .fabric]) ?_ h0 hk
  have h : SameBut [.mem, .journal, .fabric] s s := SameBut.refl _ _
  clear h0 hk
  unfold State.backupCursor
  try dsimp only
  repeat' first | (with_reducible first | assumption | apply State.ryCursor_same | apply same_foldl)
                | (with_reducible apply Within.mk; decide) | split | intro _ _ _

theorem State.settleAs_same {l : List Part} {s0 s : State} (h0 : SameBut l s0 s) (k : Nat) (g : RyGroup) (how : Nat)
 (hk : Within [.seams, .groups, .counters, .lining] l) : SameBut l s0 (State.settleAs s k g how) := by
  with_reducible refine SameBut.step (k := [.seams, .groups, .counters, .lining]) ?_ h0 hk
  have h : SameBut [.seams, .groups, .counters, .lining] s s := SameBut.refl _ _
  clear h0 hk
  unfold State.settleAs
  try dsimp only
  repeat' first | (with_reducible first | assumption | apply State.setGroup_same | apply State.count_same
                                        | apply State.passToken_same | apply same_foldl)
                | (with_reducible apply Within.mk; decide) | split

theorem State.settleLate_same {l : List Part} {s0 s : State} (h0 : SameBut l s0 s) (k : Nat) (g : RyGroup)
 (hk : Within [.seams, .groups, .counters, .lining] l) : SameBut l s0 (State.settleLate s k g) := by
  with_reducible refine SameBut.step (k := [.seams, .groups, .counters, .lining]) ?_ h0 hk
  have h : SameBut [.seams, .groups, .counters, .lining] s s := SameBut.refl _ _
  clear h0 hk
  unfold State.settleLate
  try dsimp only
  repeat' first | (with_reducible first | assumption | apply State.settleAs_same)
                | (with_reducible apply Within.mk; decide)

theorem State.writeNorm_same {l : List Part} {s0 s : State} (h0 : SameBut l s0 s) (k : Nat) (g : RyGroup) (tensor
    : Nat) (v : W64)
 (hk : Within [.seams, .mem, .ctxs, .cores, .fabric, .groups, .counters, .lining] l) : SameBut l s0
     (State.writeNorm s k g tensor v) := by
  with_reducible refine SameBut.step (k := [.seams, .mem, .ctxs, .cores, .fabric, .groups,
                     .counters, .lining]) ?_ h0 hk
  have h : SameBut [.seams, .mem, .ctxs, .cores, .fabric, .groups, .counters, .lining] s s := SameBut.refl _ _
  clear h0 hk
  unfold State.writeNorm
  try dsimp only
  repeat' first | (with_reducible first | assumption | apply State.bounceStore_same | apply State.setGroup_same
                                        | apply State.l2Invalidate_same | apply State.dropCopies_same
                                        | apply same_foldl) | (with_reducible apply Within.mk; decide) | split
                | intro _ _ _

theorem State.passLap_same {l : List Part} {s0 s : State} (h0 : SameBut l s0 s) (k : Nat) (shard : Nat) (type :
    Nat) (b : Bytes)
 (hk : Within [.seams, .groups, .counters, .lining] l) : SameBut l s0 (State.passLap s k shard type b) := by
  with_reducible refine SameBut.step (k := [.seams, .groups, .counters, .lining]) ?_ h0 hk
  have h : SameBut [.seams, .groups, .counters, .lining] s s := SameBut.refl _ _
  clear h0 hk
  unfold State.passLap
  try dsimp only
  repeat' first | (with_reducible first | assumption | apply State.sendRy_same | apply State.setGroup_same
                                        | apply same_foldl) | (with_reducible apply Within.mk; decide) | split

theorem State.lapStore_same {l : List Part} {s0 s : State} (h0 : SameBut l s0 s) (k : Nat) (g : RyGroup) (va :
    Nat) (bs : Bytes)
 (hk : Within [.seams, .mem, .ctxs, .cores, .fabric, .groups, .counters, .lining] l) : SameBut l s0
     (State.lapStore s k g va bs) := by
  with_reducible refine SameBut.step (k := [.seams, .mem, .ctxs, .cores, .fabric, .groups,
                     .counters, .lining]) ?_ h0 hk
  have h : SameBut [.seams, .mem, .ctxs, .cores, .fabric, .groups, .counters, .lining] s s := SameBut.refl _ _
  clear h0 hk
  unfold State.lapStore
  try dsimp only
  repeat' first | (with_reducible first | assumption | apply State.setGroup_same | apply State.l2Invalidate_same
                                        | apply State.dropCopies_same | apply State.bounceStore_same
                                        | apply same_foldl) | (with_reducible apply Within.mk; decide) | split
                | intro _ _ _

theorem State.lapData_same {l : List Part} {s0 s : State} (h0 : SameBut l s0 s) (k : Nat) (g : RyGroup) (x4 :
    RyHead) (b : Bytes)
 (hk : Within [.seams, .mem, .ctxs, .cores, .fabric, .groups, .counters, .lining] l) : SameBut l s0 (State.lapData
     s k g x4 b) := by
  with_reducible refine SameBut.step (k := [.seams, .mem, .ctxs, .cores, .fabric, .groups,
                     .counters, .lining]) ?_ h0 hk
  have h : SameBut [.seams, .mem, .ctxs, .cores, .fabric, .groups, .counters, .lining] s s := SameBut.refl _ _
  clear h0 hk
  unfold State.lapData
  try dsimp only
  repeat' first | (with_reducible first | assumption | apply State.setGroup_same | apply State.lapStore_same
                                        | apply State.l2Invalidate_same | apply State.dropCopies_same
                                        | apply State.bounceStore_same | apply same_foldl)
                | (with_reducible apply Within.mk; decide) | split | intro _ _ _

theorem State.lapStep_same {l : List Part} {s0 s : State} (h0 : SameBut l s0 s) (k : Nat) (x : Nat × Bytes)
 (hk : Within [.seams, .mem, .ctxs, .cores, .fabric, .groups, .counters, .lining] l) : SameBut l s0 (State.lapStep
     s k x) := by
  with_reducible refine SameBut.step (k := [.seams, .mem, .ctxs, .cores, .fabric, .groups,
                     .counters, .lining]) ?_ h0 hk
  have h : SameBut [.seams, .mem, .ctxs, .cores, .fabric, .groups, .counters, .lining] s s := SameBut.refl _ _
  clear h0 hk
  unfold State.lapStep
  try dsimp only
  repeat' first | (with_reducible first | assumption | apply State.passLap_same | apply State.setGroup_same
                                        | apply State.lapData_same | apply same_foldl)
                | (with_reducible apply Within.mk; decide) | split

theorem State.lapPacket_same {l : List Part} {s0 s : State} (h0 : SameBut l s0 s) (p : Nat) (ep : Nat) (vc : Nat)
    (type : Nat) (b : Bytes)
 (hk : Within [.seams, .mem, .ctxs, .cores, .fabric, .groups, .counters, .lining] l) : SameBut l s0
     (State.lapPacket s p ep vc type b) := by
  with_reducible refine SameBut.step (k := [.seams, .mem, .ctxs, .cores, .fabric, .groups,
                     .counters, .lining]) ?_ h0 hk
  have h : SameBut [.seams, .mem, .ctxs, .cores, .fabric, .groups, .counters, .lining] s s := SameBut.refl _ _
  clear h0 hk
  unfold State.lapPacket
  try dsimp only
  repeat' first | (with_reducible first | assumption | apply State.lapStep_same | apply State.setGroup_same
                                        | apply same_foldl) | (with_reducible apply Within.mk; decide) | split

theorem State.lapIn_same {l : List Part} {s0 s : State} (h0 : SameBut l s0 s) (p : Nat) (ep : Nat) (vc : Nat)
    (type : Nat) (data : Bytes)
 (hk : Within [.seams, .mem, .ctxs, .cores, .fabric, .groups, .counters, .lining] l) : SameBut l s0 (State.lapIn s
     p ep vc type data) := by
  with_reducible refine SameBut.step (k := [.seams, .mem, .ctxs, .cores, .fabric, .groups,
                     .counters, .lining]) ?_ h0 hk
  have h : SameBut [.seams, .mem, .ctxs, .cores, .fabric, .groups, .counters, .lining] s s := SameBut.refl _ _
  clear h0 hk
  unfold State.lapIn
  try dsimp only
  repeat' first | (with_reducible first | assumption | apply State.meteredFor_same | apply State.lapPacket_same
                                        | apply State.takeRx_same) | (with_reducible apply Within.mk; decide)

theorem State.i3cWords_same {l : List Part} {s0 s : State} (h0 : SameBut l s0 s) (off : Nat) (x3 : List W32)
 (hk : Within [.tb, .caps, .stks, .seams, .mem, .ctxs, .journal, .collar, .cores, .fabric, .counters, .trace,
     .belt, .lining, .i3c] l) : SameBut l s0 (State.i3cWords s off x3) := by
  with_reducible refine SameBut.step (k := [.tb, .caps, .stks, .seams, .mem, .ctxs, .journal,
                     .collar, .cores, .fabric, .counters, .trace, .belt, .lining, .i3c]) ?_ h0 hk
  have h : SameBut [.tb, .caps, .stks, .seams, .mem, .ctxs, .journal, .collar, .cores, .fabric, .counters, .trace,
      .belt, .lining, .i3c] s s := SameBut.refl _ _
  clear h0 hk
  have aux : ∀ (xs : List W32) (off : Nat) (t : State), SameBut [.tb, .caps, .stks, .seams, .mem, .ctxs, .journal,
      .collar, .cores, .fabric, .counters, .trace, .belt, .lining, .i3c] s t → SameBut [.tb, .caps, .stks, .seams,
      .mem, .ctxs, .journal, .collar, .cores, .fabric, .counters, .trace, .belt, .lining, .i3c] s (State.i3cWords t
      off xs) := by
    intro xs
    induction xs with
    | nil => exact fun _ _ g => g
    | cons n xs ih => exact fun off t g => ih _ _ (State.regWrite_same g _ _ _ (by decide))
  exact aux _ _ _ h


theorem State.i3cRead_same {l : List Part} {s0 s : State} (h0 : SameBut l s0 s) (x2 : Nat) (x3 : Nat)
 (hk : Within [.latches] l) : SameBut l s0 (State.i3cRead s x2 x3).2 := by
  with_reducible refine SameBut.step (k := [.latches]) ?_ h0 hk
  have h : SameBut [.latches] s s := SameBut.refl _ _
  clear h0 hk
  have aux : ∀ (n off : Nat) (t : State), SameBut [.latches] s t → SameBut [.latches] s (State.i3cRead t off n).2
      := by
    intro n
    induction n with
    | zero => exact fun _ _ g => g
    | succ n ih => exact fun off t g => ih _ _ (State.readWord_same g _ _ (by decide))
  exact aux _ _ _ h


theorem State.i3cAnswer_same {l : List Part} {s0 s : State} (h0 : SameBut l s0 s) (bs : Bytes)
 (hk : Within [.i3c] l) : SameBut l s0 (State.i3cAnswer s bs) := by
  with_reducible refine SameBut.step (k := [.i3c]) ?_ h0 hk
  have h : SameBut [.i3c] s s := SameBut.refl _ _
  clear h0 hk
  unfold State.i3cAnswer
  try dsimp only
  any_goals (refine same_mk ?_)
  repeat' first | with_reducible assumption

theorem State.i3cAddress_same {l : List Part} {s0 s : State} (h0 : SameBut l s0 s) (a : Option (BitVec 7))
 (hk : Within [.i3c] l) : SameBut l s0 (State.i3cAddress s a) := by
  with_reducible refine SameBut.step (k := [.i3c]) ?_ h0 hk
  have h : SameBut [.i3c] s s := SameBut.refl _ _
  clear h0 hk
  unfold State.i3cAddress
  try dsimp only
  any_goals (refine same_mk ?_)
  repeat' first | with_reducible assumption

theorem State.tapSelect_same {l : List Part} {s0 s : State} (h0 : SameBut l s0 s) (i : TapInstr) (out : W32)
 (hk : Within [.tap] l) : SameBut l s0 (State.tapSelect s i out) := by
  with_reducible refine SameBut.step (k := [.tap]) ?_ h0 hk
  have h : SameBut [.tap] s s := SameBut.refl _ _
  clear h0 hk
  unfold State.tapSelect
  try dsimp only
  repeat' first | (with_reducible first | assumption | apply same_foldl)
                | (with_reducible apply Within.mk; decide) | split | intro _ _ _ | intro _ _ | intro _
  any_goals (refine same_mk ?_)
  repeat' first | with_reducible assumption

theorem State.tapDrive_same {l : List Part} {s0 s : State} (h0 : SameBut l s0 s) (i : TapInstr) (out : W32)
 (hk : Within [.tap] l) : SameBut l s0 (State.tapDrive s i out) := by
  with_reducible refine SameBut.step (k := [.tap]) ?_ h0 hk
  have h : SameBut [.tap] s s := SameBut.refl _ _
  clear h0 hk
  unfold State.tapDrive
  try dsimp only
  repeat' first | (with_reducible first | assumption | apply State.tapSelect_same | apply same_foldl)
                | (with_reducible apply Within.mk; decide) | split

theorem State.stopWaiting_same {l : List Part} {s0 s : State} (h0 : SameBut l s0 s) (e : Entry)
 (hk : Within [.mem, .journal, .cores, .fabric, .counters, .belt] l) : SameBut l s0 (State.stopWaiting s e) := by
  with_reducible refine SameBut.step (k := [.mem, .journal, .cores, .fabric, .counters, .belt]) ?_ h0 hk
  have h : SameBut [.mem, .journal, .cores, .fabric, .counters, .belt] s s := SameBut.refl _ _
  clear h0 hk
  unfold State.stopWaiting
  try dsimp only
  repeat' first | (with_reducible first | assumption | apply State.setEntry_same | apply State.endWork_same
                                        | apply same_foldl) | (with_reducible apply Within.mk; decide) | split

theorem State.stopStarted_same {l : List Part} {s0 s : State} (h0 : SameBut l s0 s) (e : Entry) (d : Delta) (v :
    Saved)
 (hk : Within [.seams, .mem, .ctxs, .journal, .cores, .fabric, .chains, .starved, .counters, .trace, .belt,
     .lining, .free] l) : SameBut l s0 (State.stopStarted s e d v) := by
  with_reducible refine SameBut.step (k := [.seams, .mem, .ctxs, .journal, .cores, .fabric,
                     .chains, .starved, .counters, .trace, .belt, .lining, .free]) ?_ h0 hk
  have h : SameBut [.seams, .mem, .ctxs, .journal, .cores, .fabric, .chains, .starved, .counters, .trace, .belt,
      .lining, .free] s s := SameBut.refl _ _
  clear h0 hk
  unfold State.stopStarted
  try dsimp only
  repeat' first | (with_reducible first | assumption | apply State.countIf_same | apply State.freeSave_same
                                        | apply State.rowSteps_same | apply State.markSlot_same
                                        | apply State.dropCopies_same | apply State.scramble_same
                                        | apply State.setCtx_same | apply State.traceRec_same
                                        | apply State.setEntry_same | apply State.endWork_same
                                        | apply same_foldl) | (with_reducible apply Within.mk; decide) | split
                | intro _ _ _

theorem State.halt_same {l : List Part} {s0 s : State} (h0 : SameBut l s0 s) (named : List (Nat × Nat × Nat)) (e :
    Entry)
 (hk : Within [.seams, .mem, .ctxs, .journal, .cores, .fabric, .chains, .starved, .counters, .trace, .belt,
     .lining, .free] l) : SameBut l s0 (State.halt s named e).1 := by
  with_reducible refine SameBut.step (k := [.seams, .mem, .ctxs, .journal, .cores, .fabric,
                     .chains, .starved, .counters, .trace, .belt, .lining, .free]) ?_ h0 hk
  have h : SameBut [.seams, .mem, .ctxs, .journal, .cores, .fabric, .chains, .starved, .counters, .trace, .belt,
      .lining, .free] s s := SameBut.refl _ _
  clear h0 hk
  unfold State.halt
  try dsimp only
  repeat' first | (with_reducible first | assumption | apply State.stopWaiting_same
                                        | apply State.stopStarted_same | apply same_foldl)
                | (with_reducible apply Within.mk; decide) | split

theorem State.stopMore_same {l : List Part} {s0 s : State} (h0 : SameBut l s0 s) (e : Entry) (n : Nat) (k : Nat)
    (cursors : List (Nat × Nat × Nat))
 (hk : Within [.seams, .mem, .ctxs, .journal, .cores, .fabric, .chains, .starved, .counters, .trace, .belt,
     .lining, .free] l) : SameBut l s0 (State.stopMore s e n k cursors) := by
  with_reducible refine SameBut.step (k := [.seams, .mem, .ctxs, .journal, .cores, .fabric,
                     .chains, .starved, .counters, .trace, .belt, .lining, .free]) ?_ h0 hk
  have h : SameBut [.seams, .mem, .ctxs, .journal, .cores, .fabric, .chains, .starved, .counters, .trace, .belt,
      .lining, .free] s s := SameBut.refl _ _
  clear h0 hk

  have aux : ∀ (xs : List Entry) (r : State × Nat), SameBut [.seams, .mem, .ctxs, .journal, .cores, .fabric,
      .chains, .starved, .counters, .trace, .belt, .lining, .free] s r.1 → SameBut [.seams, .mem, .ctxs, .journal,
      .cores, .fabric, .chains, .starved, .counters, .trace, .belt, .lining, .free] s (xs.foldl (fun (r : State × Nat)
      x =>
      let h := r.1.halt cursors x
      (h.1, r.2 + h.2)) r).1 := by
    intro xs
    induction xs with
    | nil => exact fun _ g => g
    | cons x xs ih => exact fun r g => ih _ (State.halt_same g _ _ (by decide))
  unfold State.stopMore
  extract_lets r s1 v k1 s2
  have h1 : SameBut [.seams, .mem, .ctxs, .journal, .cores, .fabric, .chains, .starved, .counters, .trace, .belt,
      .lining, .free] s s1 := State.countIf_same (aux _ _ h) _ _ (by decide)
  clear_value s1
  split
  · exact State.setCtx_same h1 _ _ (by decide)
  · exact State.conclude_same (State.auditCommand_same (State.setCtx_same h1 _ _ (by decide)) _ _ (by decide)) _ _ _ _
      (by decide)


theorem State.preemptWork_same {l : List Part} {s0 s : State} (h0 : SameBut l s0 s) (e : Entry) (cursors : List
    (Nat × Nat × Nat))
 (hk : Within [.seams, .mem, .ctxs, .journal, .cores, .fabric, .chains, .starved, .counters, .trace, .belt,
     .lining, .free] l) : SameBut l s0 (State.preemptWork s e cursors) := by
  with_reducible refine SameBut.step (k := [.seams, .mem, .ctxs, .journal, .cores, .fabric,
                     .chains, .starved, .counters, .trace, .belt, .lining, .free]) ?_ h0 hk
  have h : SameBut [.seams, .mem, .ctxs, .journal, .cores, .fabric, .chains, .starved, .counters, .trace, .belt,
      .lining, .free] s s := SameBut.refl _ _
  clear h0 hk
  unfold State.preemptWork
  try dsimp only
  repeat' first | (with_reducible first | assumption | apply State.conclude_same | apply State.auditCommand_same
                                        | apply State.stopMore_same | apply State.setCtx_same
                                        | apply same_foldl) | (with_reducible apply Within.mk; decide) | split

theorem streamDefineEff_same {l : List Part} {s0 s : State} (h0 : SameBut l s0 s) (e : Entry)
 (hk : Within [.ctxs, .fabric] l) : SameV l s0 (streamDefineEff s e) := by
  with_reducible refine SameV.step (k := [.ctxs, .fabric]) ?_ h0 hk
  have h : SameBut [.ctxs, .fabric] s s := SameBut.refl _ _
  clear h0 hk
  unfold streamDefineEff
  try dsimp only
  repeat' first | (with_reducible first | assumption | apply State.unpin_same | apply State.setCtx_same
                                        | apply sameV_wait | apply sameV_fail | apply sameV_done
                                        | apply same_foldl) | (with_reducible apply Within.mk; decide) | split

theorem State.fetchEntries_same {l : List Part} {s0 s : State} (h0 : SameBut l s0 s) (ctx : Nat) (x : Stream)
    (sleeves : List Nat) (from_ : Nat) (n : Nat)
 (hk : Within [.fabric, .counters] l) : SameBut l s0 (State.fetchEntries s ctx x sleeves from_ n) := by
  with_reducible refine SameBut.step (k := [.fabric, .counters]) ?_ h0 hk
  have h : SameBut [.fabric, .counters] s s := SameBut.refl _ _
  clear h0 hk
  unfold State.fetchEntries
  try dsimp only
  repeat' first | (with_reducible first | assumption | apply State.readNamed_same)
                | (with_reducible apply Within.mk; decide)

theorem State.stageBlock_same {l : List Part} {s0 s : State} (h0 : SameBut l s0 s) (core : Nat) (ctx : Nat)
    (stream : Nat) (block : Nat) (rs : List Run)
 (hk : Within [.cores, .counters, .stamps] l) : SameBut l s0 (State.stageBlock s core ctx stream block rs) := by
  with_reducible refine SameBut.step (k := [.cores, .counters, .stamps]) ?_ h0 hk
  have h : SameBut [.cores, .counters, .stamps] s s := SameBut.refl _ _
  clear h0 hk
  unfold State.stageBlock
  try dsimp only
  any_goals (refine same_mk ?_)
  repeat' first | (with_reducible first | assumption | apply State.countIf_same | apply State.setCore_same)
                | (with_reducible apply Within.mk; decide)

theorem State.takeBlock_same {l : List Part} {s0 s : State} (h0 : SameBut l s0 s) (c : Nat) (ctx : Nat) (x :
    Stream) (b : Nat × List Run)
 (hk : Within [.cores, .fabric, .counters, .stamps] l) : SameBut l s0 (State.takeBlock s c ctx x b) := by
  with_reducible refine SameBut.step (k := [.cores, .fabric, .counters, .stamps]) ?_ h0 hk
  have h : SameBut [.cores, .fabric, .counters, .stamps] s s := SameBut.refl _ _
  clear h0 hk
  unfold State.takeBlock
  try dsimp only
  repeat' first | (with_reducible first | assumption | apply State.stageBlock_same | apply State.askLines_same
                                        | apply State.fillLines_same | apply State.lookLines_same)
                | (with_reducible apply Within.mk; decide)

theorem State.fetchL2_same {l : List Part} {s0 s : State} (h0 : SameBut l s0 s) (k : Nat) (ctx : Nat) (x : Stream)
    (rs : List Run)
 (hk : Within [.fabric, .counters] l) : SameBut l s0 (State.fetchL2 s k ctx x rs) := by
  with_reducible refine SameBut.step (k := [.fabric, .counters]) ?_ h0 hk
  have h : SameBut [.fabric, .counters] s s := SameBut.refl _ _
  clear h0 hk
  unfold State.fetchL2
  try dsimp only
  repeat' first | (with_reducible first | assumption | apply State.fillLines_same | apply State.askLines_same
                                        | apply State.lookLines_same) | (with_reducible apply Within.mk; decide)

theorem State.stopAt_same {l : List Part} {s0 s : State} (h0 : SameBut l s0 s) (ctx : Nat) (seq : W32) (x :
    Stream) (b : Nat) (cores : List Nat)
 (hk : Within [.mem, .fabric, .counters, .trace] l) : SameBut l s0 (State.stopAt s ctx seq x b cores) := by
  with_reducible refine SameBut.step (k := [.mem, .fabric, .counters, .trace]) ?_ h0 hk
  have h : SameBut [.mem, .fabric, .counters, .trace] s s := SameBut.refl _ _
  clear h0 hk
  unfold State.stopAt
  try dsimp only
  repeat' first | (with_reducible first | assumption | apply State.traceRec_same | apply State.count_same
                                        | apply same_foldl) | (with_reducible apply Within.mk; decide) | split
                | intro _ _ _

theorem State.setStream_same {l : List Part} {s0 s : State} (h0 : SameBut l s0 s) (ctx : Nat) (x : Stream)
 (hk : Within [.ctxs] l) : SameBut l s0 (State.setStream s ctx x) := by
  with_reducible refine SameBut.step (k := [.ctxs]) ?_ h0 hk
  have h : SameBut [.ctxs] s s := SameBut.refl _ _
  clear h0 hk
  unfold State.setStream
  try dsimp only
  repeat' first | (with_reducible first | assumption | apply State.setCtx_same)
                | (with_reducible apply Within.mk; decide)

theorem prefetchEff_same {l : List Part} {s0 s : State} (h0 : SameBut l s0 s) (e : Entry)
 (hk : Within [.mem, .ctxs, .cores, .fabric, .counters, .trace, .stamps] l) : SameV l s0 (prefetchEff s e) := by
  with_reducible refine SameV.step (k := [.mem, .ctxs, .cores, .fabric, .counters, .trace, .stamps]) ?_ h0 hk
  have h : SameBut [.mem, .ctxs, .cores, .fabric, .counters, .trace, .stamps] s s := SameBut.refl _ _
  clear h0 hk
  unfold prefetchEff
  try dsimp only
  repeat' first | (with_reducible first | assumption | apply State.xlate_same | apply State.fetchEntries_same
                                        | apply State.takeBlock_same | apply State.fetchL2_same
                                        | apply State.stopAt_same | apply State.setStream_same
                                        | apply sameV_wait | apply sameV_fail | apply sameV_done
                                        | apply same_foldl) | (with_reducible apply Within.mk; decide) | split
                | intro _ _ _

theorem multicastEff_same {l : List Part} {s0 s : State} (h0 : SameBut l s0 s) (slow : List (Nat × Nat)) (e : Entry)
 (hk : Within [.mem, .cores, .fabric, .counters, .trace, .stamps] l) : SameV l s0 (multicastEff slow s e) := by
  with_reducible refine SameV.step (k := [.mem, .cores, .fabric, .counters, .trace, .stamps]) ?_ h0 hk
  have h : SameBut [.mem, .cores, .fabric, .counters, .trace, .stamps] s s := SameBut.refl _ _
  clear h0 hk
  unfold multicastEff
  try dsimp only
  repeat' first | (with_reducible first | assumption | apply State.xlate_same | apply State.fetchEntries_same
                                        | apply State.fillLines_same | apply State.askLines_same
                                        | apply State.takeBlock_same | apply State.stageBlock_same
                                        | apply State.stopAt_same | apply State.traceRec_same
                                        | apply State.count_same | apply sameV_wait | apply sameV_fail
                                        | apply sameV_done | apply same_foldl)
                | (with_reducible apply Within.mk; decide) | split | intro _ _ _

theorem State.chargeGussets_same {l : List Part} {s0 s : State} (h0 : SameBut l s0 s) (e : Entry) (xs : List Nat)
    (hk : Within [.caps, .seams, .mem, .collar, .sleeves, .fabric, .counters, .trace, .lining, .i3c] l) : SameBut
        l s0 (s.chargeGussets e xs).s := by
  refine SameBut.step (k := [.caps, .seams, .mem, .collar, .sleeves, .fabric, .counters, .trace, .lining, .i3c])
      ?_ h0 hk
  have h : SameBut [.caps, .seams, .mem, .collar, .sleeves, .fabric, .counters, .trace, .lining, .i3c] s s :=
      SameBut.refl _ _
  clear h0 hk
  have one : ∀ (x : Charged) (k : Nat), SameBut [.caps, .seams, .mem, .collar, .sleeves, .fabric, .counters,
      .trace, .lining, .i3c] s x.s → SameBut [.caps, .seams, .mem, .collar, .sleeves, .fabric, .counters, .trace,
      .lining, .i3c] s (chargeGusset x k).s := by
    intro x k g
    unfold chargeGusset
    split
    · exact g
    · extract_lets v n s1 e s2 s3
      split
      · exact State.setSleeve_same (State.traceFault_same (State.count_same g _ _ (by decide)) _ _ _ _ _ (by
          decide)) _ _
          (by decide)
      · exact State.setSleeve_same (State.retireGusset_same
          (State.traceFault_same (State.count_same g _ _ (by decide)) _ _ _ _ _ (by decide)) _ (by decide)) _ _
              (by decide)
  have aux : ∀ (xs : List Nat) (x : Charged), SameBut [.caps, .seams, .mem, .collar, .sleeves, .fabric, .counters,
      .trace, .lining, .i3c] s x.s → SameBut [.caps, .seams, .mem, .collar, .sleeves, .fabric, .counters, .trace,
      .lining, .i3c] s (xs.foldl chargeGusset x).s := by
    intro xs
    induction xs with
    | nil => exact fun _ g => g
    | cons n xs ih => exact fun x g => ih _ (one x n g)
  exact aux xs _ h

theorem State.runGusset_same {l : List Part} {s0 s : State} (h0 : SameBut l s0 s) (op : Op) (ctx : Nat) (seq :
    W32) (faults : List CoreFault) (gussets : List GussetFault) (plan : State → Entry → Plan)
 (hk : Within [.caps, .seams, .mem, .ctxs, .journal, .collar, .cores, .sleeves, .fabric, .chains, .starved,
     .counters, .trace, .belt, .lining, .i3c, .stamps, .free] l) : SameX l s0 (State.runGusset s op ctx seq faults
     gussets plan) := by
  with_reducible refine SameX.step (k := [.caps, .seams, .mem, .ctxs, .journal, .collar, .cores,
                     .sleeves, .fabric, .chains, .starved, .counters, .trace, .belt, .lining, .i3c, .stamps, .free])
                     ?_ h0 hk
  have h : SameBut [.caps, .seams, .mem, .ctxs, .journal, .collar, .cores, .sleeves, .fabric, .chains, .starved,
      .counters, .trace, .belt, .lining, .i3c, .stamps, .free] s s := SameBut.refl _ _
  clear h0 hk
  unfold State.runGusset
  split
  · exact h
  · split
    · exact State.runWork_same h _ _ _ _ _ (by decide)
    · split
      · extract_lets faulty x
        split
        · exact State.runWork_same h _ _ _ _ _ (by decide)
        · have hx : SameBut [.caps, .seams, .mem, .ctxs, .journal, .collar, .cores, .sleeves, .fabric, .chains,
            .starved, .counters, .trace, .belt, .lining, .i3c, .stamps, .free] s x.s := State.chargeGussets_same
            (State.bitErrors_same h _ (by decide)) _ _ (by decide)
          clear_value x
          split
          · exact State.failWork_same (State.markSlot_same hx _ _ (by decide)) _ _ _ (by decide)
          · exact State.setEntry_same hx _ (by decide)
      · exact State.runWork_same h _ _ _ _ _ (by decide)

theorem versionReleaseEff_same {l : List Part} {s0 s : State} (h0 : SameBut l s0 s) (e : Entry)
 (hk : Within [.retained] l) : SameV l s0 (versionReleaseEff s e) := by
  with_reducible refine SameV.step (k := [.retained]) ?_ h0 hk
  have h : SameBut [.retained] s s := SameBut.refl _ _
  clear h0 hk
  unfold versionReleaseEff
  try dsimp only
  repeat' first | (with_reducible first | assumption | apply State.setRetained_same | apply sameV_wait
                                        | apply sameV_fail | apply sameV_done | apply same_foldl)
                | (with_reducible apply Within.mk; decide) | split

theorem State.openRound_same {l : List Part} {s0 s : State} (h0 : SameBut l s0 s) (e : Entry) (d : RyDesc)
 (hk : Within [.mem, .journal, .fabric, .groups, .counters, .trace] l) : SameBut l s0 (State.openRound s e d).2 := by
  with_reducible refine SameBut.step (k := [.mem, .journal, .fabric, .groups, .counters, .trace]) ?_ h0 hk
  have h : SameBut [.mem, .journal, .fabric, .groups, .counters, .trace] s s := SameBut.refl _ _
  clear h0 hk
  unfold State.openRound
  try dsimp only
  repeat' first | (with_reducible first | assumption | apply State.traceRound_same | apply State.setEntry_same
                                        | apply State.setGroup_same | apply same_foldl)
                | (with_reducible apply Within.mk; decide) | split

theorem State.ryWait_same {l : List Part} {s0 s : State} (h0 : SameBut l s0 s) (ps : List Nat)
 (hk : Within [] l) : SameV l s0 (State.ryWait s ps) := by
  with_reducible refine SameV.step (k := []) ?_ h0 hk
  have h : SameBut [] s s := SameBut.refl _ _
  clear h0 hk
  unfold State.ryWait
  try dsimp only
  repeat' first | (with_reducible first | assumption | apply sameV_wait | apply sameV_fail | apply sameV_done
                                        | apply same_foldl) | (with_reducible apply Within.mk; decide) | split

theorem ryRoundOpenWork_same {l : List Part} {s0 s : State} (h0 : SameBut l s0 s) (e : Entry)
 (hk : Within [.mem, .journal, .fabric, .groups, .counters, .trace] l) : SameV l s0 (ryRoundOpenWork s e) := by
  with_reducible refine SameV.step (k := [.mem, .journal, .fabric, .groups, .counters, .trace]) ?_ h0 hk
  have h : SameBut [.mem, .journal, .fabric, .groups, .counters, .trace] s s := SameBut.refl _ _
  clear h0 hk
  unfold ryRoundOpenWork
  try dsimp only
  repeat' first | (with_reducible first | assumption | apply State.ryWait_same | apply State.openRound_same
                                        | apply sameV_wait | apply sameV_fail | apply sameV_done
                                        | apply same_foldl) | (with_reducible apply Within.mk; decide) | split

theorem State.ryAgain_same {l : List Part} {s0 s : State} (h0 : SameBut l s0 s) (e : Entry)
 (hk : Within [.caps, .ready, .seams, .mem, .ctxs, .journal, .collar, .cores, .fabric, .chains, .groups,
     .counters, .trace, .belt, .lining, .i3c, .free] l) : SameBut l s0 (State.ryAgain s e) := by
  with_reducible refine SameBut.step (k := [.caps, .ready, .seams, .mem, .ctxs, .journal, .collar,
                     .cores, .fabric, .chains, .groups, .counters, .trace, .belt, .lining, .i3c, .free]) ?_ h0 hk
  have h : SameBut [.caps, .ready, .seams, .mem, .ctxs, .journal, .collar, .cores, .fabric, .chains, .groups,
      .counters, .trace, .belt, .lining, .i3c, .free] s s := SameBut.refl _ _
  clear h0 hk
  unfold State.ryAgain
  try dsimp only
  repeat' first | (with_reducible first | assumption | apply State.ryRun_same | apply same_foldl)
                | (with_reducible apply Within.mk; decide) | split

theorem State.startOrSettle_same {l : List Part} {s0 s : State} (h0 : SameBut l s0 s) (e : Entry) (v : Verdict)
    (hv : SameV l s0 v) (hk : Within [.caps, .ready, .seams, .mem, .ctxs, .journal, .collar, .cores, .fabric,
        .chains, .groups, .counters, .trace, .belt, .lining, .i3c, .free] l) : SameBut l s0 (s.startOrSettle e v) :=
        by
  cases v with
  | wait => exact h0
  | fail issues lost =>
    have hs := State.settle_same (State.leaveRound_same h0 e (Within.trans (by decide) hk)) e _ hv (Within.trans
        (by decide) hk)
    exact State.endSteps_same (State.memberEnd_same hs _ _ (Within.trans (by decide) hk)) _ (Within.trans (by
        decide) hk)
  | done st r sat t =>
    unfold State.startOrSettle
    dsimp only
    split
    · generalize Entry.mk .. = f
      refine State.ryAgain_same ?_ _ (Within.trans (by decide) hk)
      split
      · exact same_foldl (fun _ _ g => State.beginSteps_same g _ _ (Within.trans (by decide) hk))
          (State.setEntry_same hv _ (Within.trans (by decide) hk))
      · exact State.setEntry_same hv _ (Within.trans (by decide) hk)
    · exact State.metered_same (State.endSteps_same (State.memberEnd_same (State.settle_same h0 _ _ hv
        (Within.trans (by decide) hk)) _ _ (Within.trans (by decide) hk)) _ (Within.trans (by decide) hk))
        _ _ _ (Within.trans (by decide) hk)

theorem State.roundWork_same {l : List Part} {s0 s : State} (h : SameBut l s0 s) (e : Entry)
    (work : State → Entry → Verdict) (hw : SameV l s0 (work s e)) : SameV l s0 (s.roundWork e work) := by
  unfold State.roundWork
  split
  · exact h
  · exact hw

theorem doneCount_same {l : List Part} {s0 s : State} (h0 : SameBut l s0 s) (n : Nat) 
 (hk : Within [] l) : SameV l s0 (doneCount n s) := by
  with_reducible refine SameV.step (k := []) ?_ h0 hk
  have h : SameBut [] s s := SameBut.refl _ _
  clear h0 hk
  unfold doneCount
  try dsimp only
  repeat' with_reducible first | assumption | apply sameV_wait | apply sameV_fail | apply sameV_done

theorem backupWork_same {l : List Part} {s0 s : State} (h0 : SameBut l s0 s) (e : Entry) (k : Nat) (g : RyGroup)
 (hk : Within [.seams, .groups, .counters, .lining] l) : SameV l s0 (backupWork s e k g) := by
  with_reducible refine SameV.step (k := [.seams, .groups, .counters, .lining]) ?_ h0 hk
  have h : SameBut [.seams, .groups, .counters, .lining] s s := SameBut.refl _ _
  clear h0 hk
  unfold backupWork
  try dsimp only
  repeat' first | (with_reducible first | assumption | apply doneCount_same | apply State.ryWait_same
                                        | apply State.sendRy_same | apply State.setGroup_same | apply sameV_wait
                                        | apply sameV_fail | apply sameV_done | apply same_foldl)
                | (with_reducible apply Within.mk; decide) | split

theorem primaryWork_same {l : List Part} {s0 s : State} (h0 : SameBut l s0 s) (e : Entry) (k : Nat) (g : RyGroup)
 (hk : Within [.seams, .groups, .counters, .lining] l) : SameV l s0 (primaryWork s e k g) := by
  with_reducible refine SameV.step (k := [.seams, .groups, .counters, .lining]) ?_ h0 hk
  have h : SameBut [.seams, .groups, .counters, .lining] s s := SameBut.refl _ _
  clear h0 hk
  unfold primaryWork
  try dsimp only
  repeat' first | (with_reducible first | assumption | apply State.ryWait_same | apply State.setGroup_same
                                        | apply State.settleAs_same | apply State.settleLate_same
                                        | apply sameV_wait | apply sameV_fail | apply sameV_done
                                        | apply same_foldl) | (with_reducible apply Within.mk; decide) | split

theorem State.giveLate_same {l : List Part} {s0 s : State} (h0 : SameBut l s0 s) (k : Nat) (openId : Nat)
 (hk : Within [.groups] l) : SameBut l s0 (State.giveLate s k openId) := by
  with_reducible refine SameBut.step (k := [.groups]) ?_ h0 hk
  have h : SameBut [.groups] s s := SameBut.refl _ _
  clear h0 hk
  unfold State.giveLate
  try dsimp only
  repeat' first | (with_reducible first | assumption | apply State.setGroup_same | apply same_foldl)
                | (with_reducible apply Within.mk; decide) | split

theorem lateContribute_same {l : List Part} {s0 s : State} (h0 : SameBut l s0 s) (e : Entry) (r : RyPast)
 (hk : Within [.groups] l) : SameV l s0 (lateContribute s e r) := by
  with_reducible refine SameV.step (k := [.groups]) ?_ h0 hk
  have h : SameBut [.groups] s s := SameBut.refl _ _
  clear h0 hk
  unfold lateContribute
  try dsimp only
  repeat' first | (with_reducible first | assumption | apply doneCount_same | apply State.giveLate_same
                                        | apply sameV_wait | apply sameV_fail | apply sameV_done
                                        | apply same_foldl) | (with_reducible apply Within.mk; decide) | split

theorem ryContributeWork_same {l : List Part} {s0 s : State} (h0 : SameBut l s0 s) (e : Entry)
 (hk : Within [.seams, .groups, .counters, .lining] l) : SameV l s0 (ryContributeWork s e) := by
  with_reducible refine SameV.step (k := [.seams, .groups, .counters, .lining]) ?_ h0 hk
  have h : SameBut [.seams, .groups, .counters, .lining] s s := SameBut.refl _ _
  clear h0 hk
  unfold ryContributeWork
  try dsimp only
  repeat' first | (with_reducible first | assumption | apply backupWork_same | apply primaryWork_same
                                        | apply lateContribute_same | apply sameV_wait | apply sameV_fail
                                        | apply sameV_done | apply same_foldl)
                | (with_reducible apply Within.mk; decide) | split

theorem State.noteRound_same {l : List Part} {s0 s : State} (h0 : SameBut l s0 s) (e : Entry) (esc : Bool) (backup
    : Bool)
 (hk : Within [.mem, .journal, .fabric] l) : SameBut l s0 (State.noteRound s e esc backup) := by
  with_reducible refine SameBut.step (k := [.mem, .journal, .fabric]) ?_ h0 hk
  have h : SameBut [.mem, .journal, .fabric] s s := SameBut.refl _ _
  clear h0 hk
  unfold State.noteRound
  try dsimp only
  repeat' first | (with_reducible first | assumption | apply State.setEntry_same | apply same_foldl)
                | (with_reducible apply Within.mk; decide) | split

theorem ryHopWork_same {l : List Part} {s0 s : State} (h0 : SameBut l s0 s) (e : Entry) (adderFaults : List Nat)
 (hk : Within [.caps, .seams, .mem, .journal, .collar, .cores, .fabric, .chains, .groups, .counters, .trace,
     .lining, .i3c] l) : SameV l s0 (ryHopWork s e adderFaults) := by
  with_reducible refine SameV.step (k := [.caps, .seams, .mem, .journal, .collar, .cores, .fabric,
                     .chains, .groups, .counters, .trace, .lining, .i3c]) ?_ h0 hk
  have h : SameBut [.caps, .seams, .mem, .journal, .collar, .cores, .fabric, .chains, .groups, .counters, .trace,
      .lining, .i3c] s s := SameBut.refl _ _
  clear h0 hk
  unfold ryHopWork
  try dsimp only
  repeat' first | (with_reducible first | assumption | apply doneCount_same | apply State.noteRound_same
                                        | apply State.ryWait_same | apply State.setGroup_same
                                        | apply State.adderFaults_same | apply sameV_wait | apply sameV_fail
                                        | apply sameV_done | apply same_foldl)
                | (with_reducible apply Within.mk; decide) | split

theorem State.deliver_same {l : List Part} {s0 s : State} (h0 : SameBut l s0 s) (e : Entry) (g : RyGroup)
 (hk : Within [.chains, .counters] l) : SameBut l s0 (State.deliver s e g) := by
  with_reducible refine SameBut.step (k := [.chains, .counters]) ?_ h0 hk
  have h : SameBut [.chains, .counters] s s := SameBut.refl _ _
  clear h0 hk
  unfold State.deliver
  try dsimp only
  repeat' first | (with_reducible first | assumption | apply State.count_same | apply State.setChain_same
                                        | apply same_foldl) | (with_reducible apply Within.mk; decide) | split
                | intro _ _ _

theorem ryOwnWork_same {l : List Part} {s0 s : State} (h0 : SameBut l s0 s) (e : Entry)
 (hk : Within [.mem, .journal, .fabric, .chains, .groups, .counters] l) : SameV l s0 (ryOwnWork s e) := by
  with_reducible refine SameV.step (k := [.mem, .journal, .fabric, .chains, .groups, .counters]) ?_ h0 hk
  have h : SameBut [.mem, .journal, .fabric, .chains, .groups, .counters] s s := SameBut.refl _ _
  clear h0 hk
  unfold ryOwnWork
  try dsimp only
  repeat' first | (with_reducible first | assumption | apply doneCount_same | apply State.noteRound_same
                                        | apply State.deliver_same | apply State.ryWait_same
                                        | apply State.setGroup_same | apply sameV_wait | apply sameV_fail
                                        | apply sameV_done | apply same_foldl)
                | (with_reducible apply Within.mk; decide) | split

theorem State.afterClose_same {l : List Part} {s0 t : State} (h0 : SameBut l s0 t) (s : State) (e : Entry)
 (hk : Within [.mem, .fabric, .groups, .counters, .trace] l) : SameBut l s0 (State.afterClose s t e) := by
  with_reducible refine SameBut.step (k := [.mem, .fabric, .groups, .counters, .trace]) ?_ h0 hk
  have h : SameBut [.mem, .fabric, .groups, .counters, .trace] t t := SameBut.refl _ _
  clear h0 hk
  unfold State.afterClose
  try dsimp only
  repeat' first | (with_reducible first | assumption | apply State.traceRound_same | apply State.setGroup_same
                                        | apply State.traceFault_same | apply same_foldl)
                | (with_reducible apply Within.mk; decide) | split | intro _ _ _

theorem ryParamSendWork_same {l : List Part} {s0 s : State} (h0 : SameBut l s0 s) (e : Entry)
 (hk : Within [.seams, .groups, .counters, .lining] l) : SameV l s0 (ryParamSendWork s e) := by
  with_reducible refine SameV.step (k := [.seams, .groups, .counters, .lining]) ?_ h0 hk
  have h : SameBut [.seams, .groups, .counters, .lining] s s := SameBut.refl _ _
  clear h0 hk
  unfold ryParamSendWork
  try dsimp only
  repeat' first | (with_reducible first | assumption | apply State.sendRy_same | apply State.setGroup_same
                                        | apply sameV_wait | apply sameV_fail | apply sameV_done
                                        | apply same_foldl) | (with_reducible apply Within.mk; decide) | split
                | intro _ _ _ | intro _ _ | intro _
  any_goals (refine same_mk ?_)
  repeat' first | (with_reducible first | assumption | apply State.sendRy_same | apply State.setGroup_same
                                        | apply sameV_wait | apply sameV_fail | apply sameV_done
                                        | apply same_foldl) | (with_reducible apply Within.mk; decide) | split
                | intro _ _ _

theorem State.markReplicas_same {l : List Part} {s0 s : State} (h0 : SameBut l s0 s) (rs : List RyReplica) (state
    : Nat)
 (hk : Within [.mem, .cores, .fabric, .counters] l) : SameBut l s0 (State.markReplicas s rs state) := by
  with_reducible refine SameBut.step (k := [.mem, .cores, .fabric, .counters]) ?_ h0 hk
  have h : SameBut [.mem, .cores, .fabric, .counters] s s := SameBut.refl _ _
  clear h0 hk
  unfold State.markReplicas
  try dsimp only
  repeat' first | (with_reducible first | assumption | apply State.dropCopies_same | apply State.put_same
                                        | apply same_foldl) | (with_reducible apply Within.mk; decide) | split
                | intro _ _ _

theorem State.lapBegin_same {l : List Part} {s0 s : State} (h0 : SameBut l s0 s) (e : Entry)
 (hk : Within [.seams, .mem, .ctxs, .journal, .cores, .fabric, .groups, .counters, .lining] l) : SameO l s0
     (State.lapBegin s e) := by
  with_reducible refine SameO.step (k := [.seams, .mem, .ctxs, .journal, .cores, .fabric, .groups,
                     .counters, .lining]) ?_ h0 hk
  have h : SameBut [.seams, .mem, .ctxs, .journal, .cores, .fabric, .groups, .counters, .lining] s s :=
      SameBut.refl _ _
  clear h0 hk
  unfold State.lapBegin
  try dsimp only
  repeat' first | (with_reducible first | assumption | apply State.lapStep_same | apply State.setGroup_same
                                        | apply State.setEntry_same | apply State.markReplicas_same
                                        | apply sameO_none | apply sameO_some | apply same_foldl)
                | (with_reducible apply Within.mk; decide) | split | intro _ _ _

theorem State.lapFailed_same {l : List Part} {s0 s : State} (h0 : SameBut l s0 s) (e : Entry)
 (hk : Within [.groups] l) : SameBut l s0 (State.lapFailed s e) := by
  with_reducible refine SameBut.step (k := [.groups]) ?_ h0 hk
  have h : SameBut [.groups] s s := SameBut.refl _ _
  clear h0 hk
  unfold State.lapFailed
  try dsimp only
  repeat' first | (with_reducible first | assumption | apply State.setGroup_same | apply same_foldl)
                | (with_reducible apply Within.mk; decide) | split

theorem govBoundsWork_same {l : List Part} {s0 s : State} (h0 : SameBut l s0 s) (e : Entry)
 (hk : Within [.mem, .ctxs, .cores, .fabric, .counters, .trace] l) : SameV l s0 (govBoundsWork s e) := by
  with_reducible refine SameV.step (k := [.mem, .ctxs, .cores, .fabric, .counters, .trace]) ?_ h0 hk
  have h : SameBut [.mem, .ctxs, .cores, .fabric, .counters, .trace] s s := SameBut.refl _ _
  clear h0 hk
  unfold govBoundsWork
  try dsimp only
  repeat' first | (with_reducible first | assumption | apply State.setCtx_same | apply State.ledgerPut_same
                                        | apply sameV_wait | apply sameV_fail | apply sameV_done
                                        | apply same_foldl) | (with_reducible apply Within.mk; decide) | split

theorem govReadWork_same {l : List Part} {s0 s : State} (h0 : SameBut l s0 s) (e : Entry)
 (hk : Within [.seams, .mem, .ctxs, .journal, .cores, .fabric, .counters, .lining] l) : SameV l s0 (govReadWork s
     e) := by
  with_reducible refine SameV.step (k := [.seams, .mem, .ctxs, .journal, .cores, .fabric,
                     .counters, .lining]) ?_ h0 hk
  have h : SameBut [.seams, .mem, .ctxs, .journal, .cores, .fabric, .counters, .lining] s s := SameBut.refl _ _
  clear h0 hk
  unfold govReadWork
  try dsimp only
  repeat' first | (with_reducible first | assumption | apply State.bounceStore_same | apply State.setEntry_same
                                        | apply State.l2Invalidate_same | apply State.dropCopies_same
                                        | apply sameV_wait | apply sameV_fail | apply sameV_done
                                        | apply same_foldl) | (with_reducible apply Within.mk; decide) | split
                | intro _ _ _

theorem State.putEpoch_same {l : List Part} {s0 s : State} (h0 : SameBut l s0 s) (g : Region) (epoch : Bool) (es :
    List (Nat × Bytes))
 (hk : Within [.mem, .cores, .fabric, .counters] l) : SameBut l s0 (State.putEpoch s g epoch es) := by
  with_reducible refine SameBut.step (k := [.mem, .cores, .fabric, .counters]) ?_ h0 hk
  have h : SameBut [.mem, .cores, .fabric, .counters] s s := SameBut.refl _ _
  clear h0 hk
  unfold State.putEpoch
  try dsimp only
  repeat' first | (with_reducible first | assumption | apply State.putRegion_same | apply State.zeroRegion_same
                                        | apply same_foldl) | (with_reducible apply Within.mk; decide) | split
                | intro _ _ _

theorem State.closeStep_same {l : List Part} {s0 s : State} (h0 : SameBut l s0 s) (e : Entry) (recs : List
    StatRec) (merged : Bool)
 (hk : Within [.mem, .ctxs, .journal, .cores, .fabric, .counters, .trace] l) : SameV l s0 (State.closeStep s e
     recs merged) := by
  with_reducible refine SameV.step (k := [.mem, .ctxs, .journal, .cores, .fabric, .counters, .trace]) ?_ h0 hk
  have h : SameBut [.mem, .ctxs, .journal, .cores, .fabric, .counters, .trace] s s := SameBut.refl _ _
  clear h0 hk
  unfold State.closeStep
  try dsimp only
  repeat' first | (with_reducible first | assumption | apply State.putEpoch_same | apply State.ledgerLine_same
                                        | apply State.govCommit_same | apply State.setCtx_same
                                        | apply State.ledgerTrace_same | apply State.setEntry_same
                                        | apply sameV_wait | apply sameV_fail | apply sameV_done
                                        | apply same_foldl) | (with_reducible apply Within.mk; decide) | split
                | intro _ _ _

theorem govStepWork_same {l : List Part} {s0 s : State} (h0 : SameBut l s0 s) (e : Entry)
 (hk : Within [.mem, .ctxs, .journal, .cores, .fabric, .counters, .trace] l) : SameV l s0 (govStepWork s e) := by
  with_reducible refine SameV.step (k := [.mem, .ctxs, .journal, .cores, .fabric, .counters, .trace]) ?_ h0 hk
  have h : SameBut [.mem, .ctxs, .journal, .cores, .fabric, .counters, .trace] s s := SameBut.refl _ _
  clear h0 hk
  unfold govStepWork
  try dsimp only
  repeat' first | (with_reducible first | assumption | apply State.closeStep_same | apply sameV_wait
                                        | apply sameV_fail | apply sameV_done | apply same_foldl)
                | (with_reducible apply Within.mk; decide) | split

theorem schedLoadWork_same {l : List Part} {s0 s : State} (h0 : SameBut l s0 s) (e : Entry)
 (hk : Within [.ctxs] l) : SameV l s0 (schedLoadWork s e) := by
  with_reducible refine SameV.step (k := [.ctxs]) ?_ h0 hk
  have h : SameBut [.ctxs] s s := SameBut.refl _ _
  clear h0 hk
  unfold schedLoadWork
  try dsimp only
  repeat' first | (with_reducible first | assumption | apply State.setCtx_same | apply sameV_wait
                                        | apply sameV_fail | apply sameV_done | apply same_foldl)
                | (with_reducible apply Within.mk; decide) | split

theorem State.armSched_same {l : List Part} {s0 s : State} (h0 : SameBut l s0 s) (e : Entry) (x : Schedule) (start
    : Nat)
 (hk : Within [.mem, .ctxs, .fabric, .counters, .trace] l) : SameV l s0 (State.armSched s e x start) := by
  with_reducible refine SameV.step (k := [.mem, .ctxs, .fabric, .counters, .trace]) ?_ h0 hk
  have h : SameBut [.mem, .ctxs, .fabric, .counters, .trace] s s := SameBut.refl _ _
  clear h0 hk
  unfold State.armSched
  try dsimp only
  repeat' first | (with_reducible first | assumption | apply State.setCtx_same | apply State.traceRec_same
                                        | apply sameV_wait | apply sameV_fail | apply sameV_done
                                        | apply same_foldl) | (with_reducible apply Within.mk; decide) | split

theorem schedArmWork_same {l : List Part} {s0 s : State} (h0 : SameBut l s0 s) (e : Entry)
 (hk : Within [.mem, .ctxs, .cores, .fabric, .counters, .trace] l) : SameV l s0 (schedArmWork s e) := by
  with_reducible refine SameV.step (k := [.mem, .ctxs, .cores, .fabric, .counters, .trace]) ?_ h0 hk
  have h : SameBut [.mem, .ctxs, .cores, .fabric, .counters, .trace] s s := SameBut.refl _ _
  clear h0 hk
  unfold schedArmWork
  try dsimp only
  repeat' first | (with_reducible first | assumption | apply State.disarm_same | apply State.armSched_same
                                        | apply sameV_wait | apply sameV_fail | apply sameV_done
                                        | apply same_foldl) | (with_reducible apply Within.mk; decide) | split

theorem State.putRuns_same {l : List Part} {s0 s : State} (h0 : SameBut l s0 s) (rs : List Run) (bs : Bytes)
 (hk : Within [.mem, .cores, .fabric, .counters] l) : SameBut l s0 (State.putRuns s rs bs) := by
  with_reducible refine SameBut.step (k := [.mem, .cores, .fabric, .counters]) ?_ h0 hk
  have h : SameBut [.mem, .cores, .fabric, .counters] s s := SameBut.refl _ _
  clear h0 hk
  unfold State.putRuns
  try dsimp only
  repeat' first | (with_reducible first | assumption | apply State.l2Invalidate_same
                                        | apply State.dropCopies_same | apply State.put_same | apply same_foldl)
                | (with_reducible apply Within.mk; decide) | split | intro _ _ _

theorem State.importSeal_same {l : List Part} {s0 s : State} (h0 : SameBut l s0 s) (e : Entry) (b : Bytes) (key :
    Bytes) (rs : List Run) (x6 : Nat)
 (hk : Within [.mem, .journal, .cores, .fabric, .counters, .lining] l) : SameV l s0 (State.importSeal s e b key rs
     x6) := by
  with_reducible refine SameV.step (k := [.mem, .journal, .cores, .fabric, .counters, .lining]) ?_ h0 hk
  have h : SameBut [.mem, .journal, .cores, .fabric, .counters, .lining] s s := SameBut.refl _ _
  clear h0 hk
  unfold State.importSeal
  try dsimp only
  repeat' first | (with_reducible first | assumption | apply State.setEntry_same | apply State.putRuns_same
                                        | apply State.audited_same | apply sameV_wait | apply sameV_fail
                                        | apply sameV_done | apply same_foldl)
                | (with_reducible apply Within.mk; decide) | split | intro _ _ _ | intro _ _ | intro _
  any_goals (refine same_mk ?_)
  repeat' first | (with_reducible first | assumption | apply State.setEntry_same | apply State.putRuns_same
                                        | apply State.audited_same | apply sameV_wait | apply sameV_fail
                                        | apply sameV_done) | (with_reducible apply Within.mk; decide)

theorem sealImportWork_same {l : List Part} {s0 s : State} (h0 : SameBut l s0 s) (e : Entry)
 (hk : Within [.mem, .journal, .cores, .fabric, .counters, .lining] l) : SameV l s0 (sealImportWork s e) := by
  with_reducible refine SameV.step (k := [.mem, .journal, .cores, .fabric, .counters, .lining]) ?_ h0 hk
  have h : SameBut [.mem, .journal, .cores, .fabric, .counters, .lining] s s := SameBut.refl _ _
  clear h0 hk
  unfold sealImportWork
  try dsimp only
  repeat' first | (with_reducible first | assumption | apply State.importSeal_same | apply sameV_wait
                                        | apply sameV_fail | apply sameV_done | apply same_foldl)
                | (with_reducible apply Within.mk; decide) | split

theorem attestWork_same {l : List Part} {s0 s : State} (h0 : SameBut l s0 s) (e : Entry)
 (hk : Within [.seams, .mem, .ctxs, .journal, .cores, .fabric, .counters, .lining] l) : SameV l s0 (attestWork s
     e) := by
  with_reducible refine SameV.step (k := [.seams, .mem, .ctxs, .journal, .cores, .fabric,
                     .counters, .lining]) ?_ h0 hk
  have h : SameBut [.seams, .mem, .ctxs, .journal, .cores, .fabric, .counters, .lining] s s := SameBut.refl _ _
  clear h0 hk
  unfold attestWork
  try dsimp only
  repeat' first | (with_reducible first | assumption | apply State.bounceStore_same | apply State.setEntry_same
                                        | apply State.l2Invalidate_same | apply State.dropCopies_same
                                        | apply sameV_wait | apply sameV_fail | apply sameV_done
                                        | apply same_foldl) | (with_reducible apply Within.mk; decide) | split
                | intro _ _ _

theorem State.challenge_same {l : List Part} {s0 s : State} (h0 : SameBut l s0 s) (e : Entry) (role : Nat) (ep :
    Nat) (buf : Nat)
 (hk : Within [.seams, .mem, .ctxs, .journal, .cores, .fabric, .counters, .lining] l) : SameV l s0
     (State.challenge s e role ep buf) := by
  with_reducible refine SameV.step (k := [.seams, .mem, .ctxs, .journal, .cores, .fabric,
                     .counters, .lining]) ?_ h0 hk
  have h : SameBut [.seams, .mem, .ctxs, .journal, .cores, .fabric, .counters, .lining] s s := SameBut.refl _ _
  clear h0 hk
  unfold State.challenge
  try dsimp only
  repeat' first | (with_reducible first | assumption | apply State.bounceStore_same | apply State.setEntry_same
                                        | apply State.l2Invalidate_same | apply State.dropCopies_same
                                        | apply sameV_wait | apply sameV_fail | apply sameV_done
                                        | apply same_foldl) | (with_reducible apply Within.mk; decide) | split
                | intro _ _ _ | intro _ _ | intro _
  any_goals (refine same_mk ?_)
  repeat' first | with_reducible assumption

theorem State.openSession_same {l : List Part} {s0 s : State} (h0 : SameBut l s0 s) (role : Nat) (ep : Nat) (key :
    Nat) (slot : Nat)
 (hk : Within [.lining] l) : SameBut l s0 (State.openSession s role ep key slot) := by
  with_reducible refine SameBut.step (k := [.lining]) ?_ h0 hk
  have h : SameBut [.lining] s s := SameBut.refl _ _
  clear h0 hk
  unfold State.openSession
  try dsimp only
  repeat' first | (with_reducible first | assumption | apply State.closeSessions_same | apply State.audited_same
                                        | apply same_foldl) | (with_reducible apply Within.mk; decide) | split
                | intro _ _ _ | intro _ _ | intro _
  any_goals (refine same_mk ?_)
  repeat' first | (with_reducible first | assumption | apply State.closeSessions_same
                                        | apply State.audited_same) | (with_reducible apply Within.mk; decide)

theorem State.respond_same {l : List Part} {s0 s : State} (h0 : SameBut l s0 s) (e : Entry) (role : Nat) (ep :
    Nat) (buf : Nat)
 (hk : Within [.lining] l) : SameV l s0 (State.respond s e role ep buf) := by
  with_reducible refine SameV.step (k := [.lining]) ?_ h0 hk
  have h : SameBut [.lining] s s := SameBut.refl _ _
  clear h0 hk
  unfold State.respond
  try dsimp only
  repeat' first | (with_reducible first | assumption | apply State.openSession_same | apply sameV_wait
                                        | apply sameV_fail | apply sameV_done | apply same_foldl)
                | (with_reducible apply Within.mk; decide) | split | intro _ _ _ | intro _ _ | intro _
  any_goals (refine same_mk ?_)
  repeat' first | with_reducible assumption

theorem State.closeRole_same {l : List Part} {s0 s : State} (h0 : SameBut l s0 s) (role : Nat) (ep : Nat)
 (hk : Within [.lining] l) : SameV l s0 (State.closeRole s role ep) := by
  with_reducible refine SameV.step (k := [.lining]) ?_ h0 hk
  have h : SameBut [.lining] s s := SameBut.refl _ _
  clear h0 hk
  unfold State.closeRole
  try dsimp only
  repeat' first | (with_reducible first | assumption | apply State.closeSessions_same | apply sameV_wait
                                        | apply sameV_fail | apply sameV_done | apply same_foldl)
                | (with_reducible apply Within.mk; decide) | split

theorem roleSessionWork_same {l : List Part} {s0 s : State} (h0 : SameBut l s0 s) (e : Entry)
 (hk : Within [.seams, .mem, .ctxs, .journal, .cores, .fabric, .counters, .lining] l) : SameV l s0
     (roleSessionWork s e) := by
  with_reducible refine SameV.step (k := [.seams, .mem, .ctxs, .journal, .cores, .fabric,
                     .counters, .lining]) ?_ h0 hk
  have h : SameBut [.seams, .mem, .ctxs, .journal, .cores, .fabric, .counters, .lining] s s := SameBut.refl _ _
  clear h0 hk
  unfold roleSessionWork
  try dsimp only
  repeat' first | (with_reducible first | assumption | apply State.challenge_same | apply State.respond_same
                                        | apply State.closeRole_same | apply sameV_wait | apply sameV_fail
                                        | apply sameV_done | apply same_foldl)
                | (with_reducible apply Within.mk; decide) | split

theorem State.disable_same {l : List Part} {s0 s : State} (h0 : SameBut l s0 s) (x : Disabled)
 (hk : Within [.caps, .ready, .stks, .seams, .cores, .sleeves, .counters, .lining, .i3c] l) : SameBut l s0
     (State.disable s x) := by
  with_reducible refine SameBut.step (k := [.caps, .ready, .stks, .seams, .cores, .sleeves,
                     .counters, .lining, .i3c]) ?_ h0 hk
  have h : SameBut [.caps, .ready, .stks, .seams, .cores, .sleeves, .counters, .lining, .i3c] s s := SameBut.refl _ _
  clear h0 hk
  unfold State.disable
  try dsimp only
  repeat' first | (with_reducible first | assumption | apply State.capChange_same | apply same_foldl)
                | (with_reducible apply Within.mk; decide) | split | intro _ _ _ | intro _ _ | intro _
  any_goals (refine same_mk ?_)
  repeat' first | with_reducible assumption

theorem State.loadProfile_same {l : List Part} {s0 s : State} (h0 : SameBut l s0 s) (d : BitVec 384)
 (hk : Within [.caps, .ready, .boot, .stks, .seams, .cores, .sleeves, .counters, .belt, .lining, .i3c] l) :
     SameBut l s0 (State.loadProfile s d) := by
  with_reducible refine SameBut.step (k := [.caps, .ready, .boot, .stks, .seams, .cores, .sleeves,
                     .counters, .belt, .lining, .i3c]) ?_ h0 hk
  have h : SameBut [.caps, .ready, .boot, .stks, .seams, .cores, .sleeves, .counters, .belt, .lining, .i3c] s s :=
      SameBut.refl _ _
  clear h0 hk
  unfold State.loadProfile
  try dsimp only
  repeat' first | (with_reducible first | assumption | apply State.disable_same | apply same_foldl)
                | (with_reducible apply Within.mk; decide) | split | intro _ _ _ | intro _ _ | intro _
  any_goals (refine same_mk ?_)
  repeat' first | with_reducible assumption

theorem profileLoadWork_same {l : List Part} {s0 s : State} (h0 : SameBut l s0 s) (e : Entry)
 (hk : Within [.caps, .ready, .boot, .stks, .seams, .cores, .sleeves, .counters, .belt, .lining, .i3c] l) : SameV
     l s0 (profileLoadWork s e) := by
  with_reducible refine SameV.step (k := [.caps, .ready, .boot, .stks, .seams, .cores, .sleeves,
                     .counters, .belt, .lining, .i3c]) ?_ h0 hk
  have h : SameBut [.caps, .ready, .boot, .stks, .seams, .cores, .sleeves, .counters, .belt, .lining, .i3c] s s :=
      SameBut.refl _ _
  clear h0 hk
  unfold profileLoadWork
  try dsimp only
  repeat' first | (with_reducible first | assumption | apply State.auditCommand_same
                                        | apply State.loadProfile_same | apply sameV_wait | apply sameV_fail
                                        | apply sameV_done | apply same_foldl)
                | (with_reducible apply Within.mk; decide) | split

theorem fwStageWork_same {l : List Part} {s0 s : State} (h0 : SameBut l s0 s) (e : Entry)
 (hk : Within [.boot, .lining] l) : SameV l s0 (fwStageWork s e) := by
  with_reducible refine SameV.step (k := [.boot, .lining]) ?_ h0 hk
  have h : SameBut [.boot, .lining] s s := SameBut.refl _ _
  clear h0 hk
  unfold fwStageWork
  try dsimp only
  repeat' first | (with_reducible first | assumption | apply State.auditCommand_same | apply sameV_wait
                                        | apply sameV_fail | apply sameV_done | apply same_foldl)
                | (with_reducible apply Within.mk; decide) | split | intro _ _ _ | intro _ _ | intro _
  any_goals (refine same_mk ?_)
  repeat' first | with_reducible assumption

theorem State.commitFirmware_same {l : List Part} {s0 s : State} (h0 : SameBut l s0 s) (e : Entry) (body : Bytes)
 (hk : Within [.ready, .boot, .journal, .cores, .fabric, .counters, .belt, .lining, .i3c] l) : SameBut l s0
     (State.commitFirmware s e body) := by
  with_reducible refine SameBut.step (k := [.ready, .boot, .journal, .cores, .fabric, .counters,
                     .belt, .lining, .i3c]) ?_ h0 hk
  have h : SameBut [.ready, .boot, .journal, .cores, .fabric, .counters, .belt, .lining, .i3c] s s := SameBut.refl _ _
  clear h0 hk
  unfold State.commitFirmware
  try dsimp only
  repeat' first | (with_reducible first | assumption | apply State.auditCommand_same
                                        | apply State.softReset_same | apply same_foldl)
                | (with_reducible apply Within.mk; decide) | split | intro _ _ _ | intro _ _ | intro _
  any_goals (refine same_mk ?_)
  repeat' first | (with_reducible first | assumption | apply State.auditCommand_same
                                        | apply State.softReset_same) | (with_reducible apply Within.mk; decide)

theorem State.fwCommitStep_same {l : List Part} {s0 s : State} (h0 : SameBut l s0 s) (e : Entry)
 (hk : Within [.ready, .boot, .mem, .journal, .cores, .fabric, .counters, .belt, .lining, .i3c] l) : SameBut l s0
     (State.fwCommitStep s e) := by
  with_reducible refine SameBut.step (k := [.ready, .boot, .mem, .journal, .cores, .fabric,
                     .counters, .belt, .lining, .i3c]) ?_ h0 hk
  have h : SameBut [.ready, .boot, .mem, .journal, .cores, .fabric, .counters, .belt, .lining, .i3c] s s :=
      SameBut.refl _ _
  clear h0 hk
  unfold State.fwCommitStep
  try dsimp only
  repeat' first | (with_reducible first | assumption | apply State.conclude_same | apply State.auditCommand_same
                                        | apply State.commitFirmware_same | apply same_foldl)
                | (with_reducible apply Within.mk; decide) | split | intro _ _ _ | intro _ _ | intro _
  any_goals (refine same_mk ?_)
  repeat' first | with_reducible assumption

theorem traceCtlWork_same {l : List Part} {s0 s : State} (h0 : SameBut l s0 s) (e : Entry)
 (hk : Within [.trace, .lining] l) : SameV l s0 (traceCtlWork s e) := by
  with_reducible refine SameV.step (k := [.trace, .lining]) ?_ h0 hk
  have h : SameBut [.trace, .lining] s s := SameBut.refl _ _
  clear h0 hk
  unfold traceCtlWork
  try dsimp only
  repeat' first | (with_reducible first | assumption | apply State.auditCommand_same | apply sameV_wait
                                        | apply sameV_fail | apply sameV_done | apply same_foldl)
                | (with_reducible apply Within.mk; decide) | split | intro _ _ _ | intro _ _ | intro _
  any_goals (refine same_mk ?_)
  repeat' first | with_reducible assumption

theorem State.traceAgain_same {l : List Part} {s0 s : State} (h0 : SameBut l s0 s) (ctx : Nat) (seq : W32) (tag : Nat)
 (hk : Within [.mem, .fabric, .counters, .trace] l) : SameBut l s0 (State.traceAgain s ctx seq tag).2 := by
  with_reducible refine SameBut.step (k := [.mem, .fabric, .counters, .trace]) ?_ h0 hk
  have h : SameBut [.mem, .fabric, .counters, .trace] s s := SameBut.refl _ _
  clear h0 hk
  unfold State.traceAgain
  try dsimp only
  repeat' first | (with_reducible first | assumption | apply State.traceWrite_same | apply same_foldl)
                | (with_reducible apply Within.mk; decide) | split | intro _ _ _ | intro _ _ | intro _
  any_goals (refine same_mk ?_)
  repeat' first | (with_reducible first | assumption | apply State.traceWrite_same)
                | (with_reducible apply Within.mk; decide)

theorem traceTriggerWork_same {l : List Part} {s0 s : State} (h0 : SameBut l s0 s) (e : Entry)
 (hk : Within [.mem, .fabric, .counters, .trace] l) : SameV l s0 (traceTriggerWork s e) := by
  with_reducible refine SameV.step (k := [.mem, .fabric, .counters, .trace]) ?_ h0 hk
  have h : SameBut [.mem, .fabric, .counters, .trace] s s := SameBut.refl _ _
  clear h0 hk
  unfold traceTriggerWork
  try dsimp only
  repeat' first | (with_reducible first | assumption | apply State.traceAgain_same | apply State.traceTrip_same
                                        | apply sameV_wait | apply sameV_fail | apply sameV_done
                                        | apply same_foldl) | (with_reducible apply Within.mk; decide) | split

theorem State.hitEntry_same {l : List Part} {s0 s : State} (h0 : SameBut l s0 s) (c : Nat) (e : Entry)
 (hk : Within [.mem, .journal, .cores, .fabric, .counters, .belt] l) : SameBut l s0 (State.hitEntry s c e) := by
  with_reducible refine SameBut.step (k := [.mem, .journal, .cores, .fabric, .counters, .belt]) ?_ h0 hk
  have h : SameBut [.mem, .journal, .cores, .fabric, .counters, .belt] s s := SameBut.refl _ _
  clear h0 hk
  unfold State.hitEntry
  try dsimp only
  repeat' first | (with_reducible first | assumption | apply State.setEntry_same | apply State.endWork_same
                                        | apply State.count_same) | (with_reducible apply Within.mk; decide)

theorem State.resetSleeve_same {l : List Part} {s0 s : State} (h0 : SameBut l s0 s) (k : Nat)
 (hk : Within [.ctxs, .cores, .fabric, .counters, .belt] l) : SameBut l s0 (State.resetSleeve s k) := by
  with_reducible refine SameBut.step (k := [.ctxs, .cores, .fabric, .counters, .belt]) ?_ h0 hk
  have h : SameBut [.ctxs, .cores, .fabric, .counters, .belt] s s := SameBut.refl _ _
  clear h0 hk
  unfold State.resetSleeve
  try dsimp only
  repeat' first | (with_reducible first | assumption | apply State.endSteps_same | apply same_foldl)
                | (with_reducible apply Within.mk; decide) | split | intro _ _ _ | intro _ _ | intro _
  any_goals (refine same_mk ?_)
  repeat' first | with_reducible assumption

theorem State.readRing_same {l : List Part} {s0 s : State} (h0 : SameBut l s0 s) 
 (hk : Within [.journal] l) : SameBut l s0 (State.readRing s) := by
  with_reducible refine SameBut.step (k := [.journal]) ?_ h0 hk
  have h : SameBut [.journal] s s := SameBut.refl _ _
  clear h0 hk
  unfold State.readRing
  try dsimp only
  any_goals (refine same_mk ?_)
  repeat' first | with_reducible assumption

theorem State.emptySlots_same {l : List Part} {s0 s : State} (h0 : SameBut l s0 s) 
 (hk : Within [.mem, .journal, .cores, .fabric, .counters] l) : SameBut l s0 (State.emptySlots s) := by
  with_reducible refine SameBut.step (k := [.mem, .journal, .cores, .fabric, .counters]) ?_ h0 hk
  have h : SameBut [.mem, .journal, .cores, .fabric, .counters] s s := SameBut.refl _ _
  clear h0 hk
  unfold State.emptySlots
  try dsimp only
  any_goals (refine same_mk ?_)
  repeat' first | (with_reducible first | assumption | apply State.markSlot_same | apply same_foldl)
                | (with_reducible apply Within.mk; decide) | split | intro _ _ _

theorem State.restoreHeads_same {l : List Part} {s0 s : State} (h0 : SameBut l s0 s) 
 (hk : Within [.mem, .cores, .fabric, .counters] l) : SameBut l s0 (State.restoreHeads s) := by
  with_reducible refine SameBut.step (k := [.mem, .cores, .fabric, .counters]) ?_ h0 hk
  have h : SameBut [.mem, .cores, .fabric, .counters] s s := SameBut.refl _ _
  clear h0 hk
  unfold State.restoreHeads
  try dsimp only
  repeat' first | (with_reducible first | assumption | apply State.putRegion_same | apply same_foldl)
                | (with_reducible apply Within.mk; decide) | split | intro _ _ _

theorem State.applyCommits_same {l : List Part} {s0 s : State} (h0 : SameBut l s0 s) 
 (hk : Within [.mem, .cores, .fabric, .counters] l) : SameBut l s0 (State.applyCommits s) := by
  with_reducible refine SameBut.step (k := [.mem, .cores, .fabric, .counters]) ?_ h0 hk
  have h : SameBut [.mem, .cores, .fabric, .counters] s s := SameBut.refl _ _
  clear h0 hk
  unfold State.applyCommits
  try dsimp only
  repeat' first | (with_reducible first | assumption | apply State.l2Invalidate_same
                                        | apply State.dropCopies_same | apply State.applyItems_same
                                        | apply same_foldl) | (with_reducible apply Within.mk; decide) | split
                | intro _ _ _

theorem State.replayWindows_same {l : List Part} {s0 s : State} (h0 : SameBut l s0 s) 
 (hk : Within [.seams, .counters, .lining] l) : SameBut l s0 (State.replayWindows s) := by
  with_reducible refine SameBut.step (k := [.seams, .counters, .lining]) ?_ h0 hk
  have h : SameBut [.seams, .counters, .lining] s s := SameBut.refl _ _
  clear h0 hk
  unfold State.replayWindows
  try dsimp only
  repeat' first | (with_reducible first | assumption | apply State.sendRy_same | apply same_foldl)
                | (with_reducible apply Within.mk; decide) | split | intro _ _ _

theorem State.recoverEntry_same {l : List Part} {s0 s : State} (h0 : SameBut l s0 s) (e : Entry)
 (hk : Within [.seams, .mem, .ctxs, .journal, .fences, .retained, .cores, .fabric, .chains, .counters, .trace,
     .belt, .lining] l) : SameBut l s0 (State.recoverEntry s e) := by
  with_reducible refine SameBut.step (k := [.seams, .mem, .ctxs, .journal, .fences, .retained,
                     .cores, .fabric, .chains, .counters, .trace, .belt, .lining]) ?_ h0 hk
  have h : SameBut [.seams, .mem, .ctxs, .journal, .fences, .retained, .cores, .fabric, .chains, .counters,
      .trace, .belt, .lining] s s := SameBut.refl _ _
  clear h0 hk
  unfold State.recoverEntry
  try dsimp only
  repeat' first | (with_reducible first | assumption | apply State.conclude_same | apply State.traceRec_same
                                        | apply State.setEntry_same | apply State.complete_same
                                        | apply same_foldl) | (with_reducible apply Within.mk; decide) | split

theorem State.recover_same {l : List Part} {s0 s : State} (h0 : SameBut l s0 s) 
 (hk : Within [.boot, .seams, .mem, .ctxs, .journal, .collar, .fences, .retained, .cores, .fabric, .chains,
     .counters, .trace, .belt, .lining, .i3c] l) : SameBut l s0 (State.recover s) := by
  with_reducible refine SameBut.step (k := [.boot, .seams, .mem, .ctxs, .journal, .collar, .fences,
                     .retained, .cores, .fabric, .chains, .counters, .trace, .belt, .lining, .i3c]) ?_ h0 hk
  have h : SameBut [.boot, .seams, .mem, .ctxs, .journal, .collar, .fences, .retained, .cores, .fabric, .chains,
      .counters, .trace, .belt, .lining, .i3c] s s := SameBut.refl _ _
  clear h0 hk
  unfold State.recover
  try dsimp only
  repeat' first | (with_reducible first | assumption | apply State.readRing_same | apply State.emptySlots_same
                                        | apply State.restoreHeads_same | apply State.applyCommits_same
                                        | apply State.replayWindows_same | apply State.recoverEntry_same
                                        | apply State.setFault_same | apply same_foldl)
                | (with_reducible apply Within.mk; decide) | split | intro _ _ _ | intro _ _ | intro _
  any_goals (refine same_mk ?_)
  repeat' first | (with_reducible first | assumption | apply State.readRing_same | apply State.emptySlots_same
                                        | apply State.restoreHeads_same | apply State.applyCommits_same
                                        | apply State.replayWindows_same | apply State.recoverEntry_same
                                        | apply State.setFault_same | apply same_foldl)
                | (with_reducible apply Within.mk; decide) | split | intro _ _ _ | intro _ _ | intro _
  any_goals (refine same_mk ?_)
  repeat' first | (with_reducible first | assumption | apply State.readRing_same | apply State.emptySlots_same
                                        | apply State.restoreHeads_same | apply State.applyCommits_same
                                        | apply State.replayWindows_same | apply State.recoverEntry_same
                                        | apply State.setFault_same) | (with_reducible apply Within.mk; decide)

end Sys2Proof.Machine
end

