-- ==== Sys2Proof/Laws/SameRows.lean ====
section
/-!
SUPPORT. Sys2Proof/Laws/SameRows.lean: which parts of the state each row of the table may change, one lemma per row.
-/
namespace Sys2Proof.Machine

set_option Elab.async false

theorem execEnergyMark_same {l : List Part} {s0 s : State} (h0 : SameBut l s0 s) (ctx : Nat) (seq : W32) 
 (hk : Within [.mem, .ctxs, .journal, .fabric, .chains, .free] l) : SameX l s0 (execEnergyMark ctx seq s) := by
  with_reducible refine SameX.step (k := [.mem, .ctxs, .journal, .fabric, .chains, .free]) ?_ h0 hk
  have h : SameBut [.mem, .ctxs, .journal, .fabric, .chains, .free] s s := SameBut.refl _ _
  clear h0 hk
  unfold execEnergyMark
  try dsimp only
  repeat' first | (with_reducible first | assumption | apply energyMarkWork_same | apply sameX_next
                                        | apply same_foldl)
                | (with_reducible refine State.runOp_narrow _ _ _ _ rfl ?_ ?_)
                | (with_reducible apply Within.mk; decide) | split | intro _ _ _ | intro _ _ | intro _

theorem execMeteringInterval_same {l : List Part} {s0 s : State} (h0 : SameBut l s0 s) (m : Metering) 
 (hk : Within [.seams, .mem, .ctxs, .journal, .sleeves, .fabric, .counters, .trace, .belt, .i3c] l) : SameX l s0
     (execMeteringInterval m s) := by
  with_reducible refine SameX.step (k := [.seams, .mem, .ctxs, .journal, .sleeves, .fabric,
                     .counters, .trace, .belt, .i3c]) ?_ h0 hk
  have h : SameBut [.seams, .mem, .ctxs, .journal, .sleeves, .fabric, .counters, .trace, .belt, .i3c] s s :=
      SameBut.refl _ _
  clear h0 hk
  unfold execMeteringInterval
  try dsimp only
  repeat' first | (with_reducible first | assumption | apply State.endInterval_same | apply sameX_next
                                        | apply same_foldl) | (with_reducible apply Within.mk; decide) | split

theorem execPowerReserve_same {l : List Part} {s0 s : State} (h0 : SameBut l s0 s) (ctx : Nat) (seq : W32) 
 (hk : Within [.mem, .journal, .fabric, .chains, .belt, .lining, .free] l) : SameX l s0 (execPowerReserve ctx seq
     s) := by
  with_reducible refine SameX.step (k := [.mem, .journal, .fabric, .chains, .belt, .lining, .free]) ?_ h0 hk
  have h : SameBut [.mem, .journal, .fabric, .chains, .belt, .lining, .free] s s := SameBut.refl _ _
  clear h0 hk
  unfold execPowerReserve
  try dsimp only
  repeat' first | (with_reducible first | assumption | apply powerReserveWork_same | apply sameX_next
                                        | apply same_foldl)
                | (with_reducible refine State.runOp_narrow _ _ _ _ rfl ?_ ?_)
                | (with_reducible apply Within.mk; decide) | split | intro _ _ _ | intro _ _ | intro _

theorem execReceiptIssue_same {l : List Part} {s0 s : State} (h0 : SameBut l s0 s) (ctx : Nat) (seq : W32) 
 (hk : Within [.seams, .mem, .ctxs, .journal, .cores, .fabric, .chains, .counters, .belt, .lining, .free] l) :
     SameX l s0 (execReceiptIssue ctx seq s) := by
  with_reducible refine SameX.step (k := [.seams, .mem, .ctxs, .journal, .cores, .fabric, .chains,
                     .counters, .belt, .lining, .free]) ?_ h0 hk
  have h : SameBut [.seams, .mem, .ctxs, .journal, .cores, .fabric, .chains, .counters, .belt, .lining, .free] s s
      := SameBut.refl _ _
  clear h0 hk
  unfold execReceiptIssue
  try dsimp only
  repeat' first | (with_reducible first | assumption | apply receiptIssueWork_same | apply sameX_next
                                        | apply same_foldl)
                | (with_reducible refine State.runOp_plain _ _ _ _ rfl ?_ ?_)
                | (with_reducible apply Within.mk; decide) | split | intro _ _ _ | intro _ _ | intro _

theorem execSlewWindow_same {l : List Part} {s0 s : State} (h0 : SameBut l s0 s) 
 (hk : Within [.cores, .counters, .belt] l) : SameX l s0 (execSlewWindow s) := by
  with_reducible refine SameX.step (k := [.cores, .counters, .belt]) ?_ h0 hk
  have h : SameBut [.cores, .counters, .belt] s s := SameBut.refl _ _
  clear h0 hk
  unfold execSlewWindow
  try dsimp only
  repeat' first | (with_reducible first | assumption | apply State.endSteps_same | apply State.grantRise_same
                                        | apply State.grantFall_same | apply sameX_next | apply same_foldl)
                | (with_reducible apply Within.mk; decide) | split | intro _ _ _ | intro _ _ | intro _
  any_goals (refine same_mk ?_)
  repeat' first | (with_reducible first | assumption | apply State.endSteps_same | apply State.grantRise_same
                                        | apply State.grantFall_same | apply sameX_next)
                | (with_reducible apply Within.mk; decide)

theorem execTripEnd_same {l : List Part} {s0 s : State} (h0 : SameBut l s0 s) 
 (hk : Within [.mem, .fabric, .counters, .trace, .belt, .i3c] l) : SameX l s0 (execTripEnd s) := by
  with_reducible refine SameX.step (k := [.mem, .fabric, .counters, .trace, .belt, .i3c]) ?_ h0 hk
  have h : SameBut [.mem, .fabric, .counters, .trace, .belt, .i3c] s s := SameBut.refl _ _
  clear h0 hk
  unfold execTripEnd
  try dsimp only
  repeat' first | (with_reducible first | assumption | apply State.traceStep_same | apply State.ibi_same
                                        | apply State.beginSteps_same | apply sameX_next | apply same_foldl)
                | (with_reducible apply Within.mk; decide) | split | intro _ _ _ | intro _ _ | intro _
  any_goals (refine same_mk ?_)
  repeat' first | with_reducible assumption

theorem execBootChunk_same {l : List Part} {s0 s : State} (h0 : SameBut l s0 s) (src : Source) (offset : Nat)
    (data : List (BitVec 8))
 (hk : Within [.boot, .seams, .i3c] l) : SameX l s0 (execBootChunk src offset data s) := by
  with_reducible refine SameX.step (k := [.boot, .seams, .i3c]) ?_ h0 hk
  have h : SameBut [.boot, .seams, .i3c] s s := SameBut.refl _ _
  clear h0 hk
  unfold execBootChunk
  try dsimp only
  repeat' first | (with_reducible first | assumption | apply State.takeRx_same | apply State.bootBytes_same
                                        | apply sameX_next | apply same_foldl)
                | (with_reducible apply Within.mk; decide) | split

theorem execBundleVerify_same {l : List Part} {s0 s : State} (h0 : SameBut l s0 s) 
 (hk : Within [.ready, .boot, .sleeves, .lining, .i3c] l) : SameX l s0 (execBundleVerify s) := by
  with_reducible refine SameX.step (k := [.ready, .boot, .sleeves, .lining, .i3c]) ?_ h0 hk
  have h : SameBut [.ready, .boot, .sleeves, .lining, .i3c] s s := SameBut.refl _ _
  clear h0 hk
  unfold execBundleVerify
  try dsimp only
  repeat' first | (with_reducible first | assumption | apply State.helperFail_same | apply State.bootFail_same
                                        | apply State.releaseCollar_same | apply sameX_next | apply same_foldl)
                | (with_reducible apply Within.mk; decide) | split | intro _ _ _ | intro _ _ | intro _
  any_goals (refine same_mk ?_)
  repeat' first | with_reducible assumption

theorem execSelfCheck_same {l : List Part} {s0 s : State} (h0 : SameBut l s0 s) (sleeve : Nat) (coresFailed :
    BitVec 8) (gussetFailed : Bool) (fabricFailed : Bool)
 (hk : Within [.caps, .ready, .boot, .seams, .mem, .journal, .collar, .cores, .sleeves, .fabric, .chains,
     .counters, .trace, .belt, .lining, .i3c, .free] l) : SameX l s0 (execSelfCheck sleeve coresFailed gussetFailed
     fabricFailed s) := by
  with_reducible refine SameX.step (k := [.caps, .ready, .boot, .seams, .mem, .journal, .collar,
                     .cores, .sleeves, .fabric, .chains, .counters, .trace, .belt, .lining, .i3c, .free]) ?_ h0 hk
  have h : SameBut [.caps, .ready, .boot, .seams, .mem, .journal, .collar, .cores, .sleeves, .fabric, .chains,
      .counters, .trace, .belt, .lining, .i3c, .free] s s := SameBut.refl _ _
  clear h0 hk
  unfold execSelfCheck
  try dsimp only
  repeat' first | (with_reducible first | assumption | apply State.setSleeve_same | apply State.count_same
                                        | apply State.retireCore_same | apply State.retireGusset_same
                                        | apply State.strand_same | apply State.retireSleeve_same
                                        | apply sameX_next | apply same_foldl)
                | (with_reducible apply Within.mk; decide) | split | intro _ _ _ | intro _ _ | intro _
  any_goals (refine same_mk ?_)
  repeat' first | (with_reducible first | assumption | apply State.setSleeve_same | apply State.count_same
                                        | apply State.retireCore_same | apply State.retireGusset_same
                                        | apply State.strand_same | apply State.retireSleeve_same
                                        | apply sameX_next | apply same_foldl)
                | (with_reducible apply Within.mk; decide) | split | intro _ _ _ | intro _ _ | intro _
  any_goals (refine same_mk ?_)
  repeat' first | with_reducible assumption

theorem execChainAdmit_same {l : List Part} {s0 s : State} (h0 : SameBut l s0 s) 
 (hk : Within [.cores, .chains, .counters] l) : SameX l s0 (execChainAdmit s) := by
  with_reducible refine SameX.step (k := [.cores, .chains, .counters]) ?_ h0 hk
  have h : SameBut [.cores, .chains, .counters] s s := SameBut.refl _ _
  clear h0 hk
  unfold execChainAdmit
  try dsimp only
  repeat' first | (with_reducible first | assumption | apply State.setChain_same | apply State.promise_same
                                        | apply sameX_next | apply same_foldl)
                | (with_reducible apply Within.mk; decide) | split

theorem execCommandComplete_same {l : List Part} {s0 s : State} (h0 : SameBut l s0 s) (ctx : Nat) (seq : W32) 
 (hk : Within [.seams, .hostReads, .mem, .ctxs, .journal, .fences, .retained, .cores, .fabric, .chains, .counters,
     .trace, .belt, .lining] l) : SameX l s0 (execCommandComplete ctx seq s) := by
  with_reducible refine SameX.step (k := [.seams, .hostReads, .mem, .ctxs, .journal, .fences,
                     .retained, .cores, .fabric, .chains, .counters, .trace, .belt, .lining]) ?_ h0 hk
  have h : SameBut [.seams, .hostReads, .mem, .ctxs, .journal, .fences, .retained, .cores, .fabric, .chains,
      .counters, .trace, .belt, .lining] s s := SameBut.refl _ _
  clear h0 hk
  unfold execCommandComplete
  try dsimp only
  repeat' first | (with_reducible first | assumption | apply State.setEntry_same | apply State.sendFlush_same
                                        | apply State.complete_same | apply sameX_next | apply same_foldl)
                | (with_reducible apply Within.mk; decide) | split

theorem execCommandDispatch_same {l : List Part} {s0 s : State} (h0 : SameBut l s0 s) (ctx : Nat) 
 (hk : Within [.mem, .ctxs, .journal, .collar, .cores, .fabric, .chains, .counters, .trace, .belt, .i3c, .free] l)
     : SameX l s0 (execCommandDispatch ctx s) := by
  with_reducible refine SameX.step (k := [.mem, .ctxs, .journal, .collar, .cores, .fabric, .chains,
                     .counters, .trace, .belt, .i3c, .free]) ?_ h0 hk
  have h : SameBut [.mem, .ctxs, .journal, .collar, .cores, .fabric, .chains, .counters, .trace, .belt, .i3c,
      .free] s s := SameBut.refl _ _
  clear h0 hk
  unfold execCommandDispatch
  try dsimp only
  repeat' first | (with_reducible first | assumption | apply State.dispatch_same | apply sameX_next
                                        | apply same_foldl) | (with_reducible apply Within.mk; decide) | split

theorem execDeadlockBreak_same {l : List Part} {s0 s : State} (h0 : SameBut l s0 s) 
 (hk : Within [.seams, .mem, .journal, .cores, .fabric, .chains, .starved, .counters, .trace, .belt, .lining] l) :
     SameX l s0 (execDeadlockBreak s) := by
  with_reducible refine SameX.step (k := [.seams, .mem, .journal, .cores, .fabric, .chains,
                     .starved, .counters, .trace, .belt, .lining]) ?_ h0 hk
  have h : SameBut [.seams, .mem, .journal, .cores, .fabric, .chains, .starved, .counters, .trace, .belt, .lining]
      s s := SameBut.refl _ _
  clear h0 hk
  unfold execDeadlockBreak
  try dsimp only
  repeat' first | (with_reducible first | assumption | apply State.endMembers_same | apply State.unpromise_same
                                        | apply State.spillLinks_same | apply State.setChain_same
                                        | apply State.count_same | apply State.noteMembers_same
                                        | apply State.traceRec_same | apply sameX_next | apply same_foldl)
                | (with_reducible apply Within.mk; decide) | split | intro _ _ _ | intro _ _ | intro _
  any_goals (refine same_mk ?_)
  repeat' first | with_reducible assumption

theorem execPacketAccept_same {l : List Part} {s0 s : State} (h0 : SameBut l s0 s) (ctx : Nat) 
 (hk : Within [.seams, .mem, .ctxs, .journal, .fabric, .chains, .counters, .trace, .lining] l) : SameX l s0
     (execPacketAccept ctx s) := by
  with_reducible refine SameX.step (k := [.seams, .mem, .ctxs, .journal, .fabric, .chains,
                     .counters, .trace, .lining]) ?_ h0 hk
  have h : SameBut [.seams, .mem, .ctxs, .journal, .fabric, .chains, .counters, .trace, .lining] s s :=
      SameBut.refl _ _
  clear h0 hk
  unfold execPacketAccept
  try dsimp only
  repeat' first | (with_reducible first | assumption | apply State.setCtx_same | apply State.refuseOne_same
                                        | apply State.acceptFailed_same | apply State.acceptChain_same
                                        | apply State.acceptOne_same | apply sameX_next | apply same_foldl)
                | (with_reducible apply Within.mk; decide) | split

theorem execQueueGrant_same {l : List Part} {s0 s : State} (h0 : SameBut l s0 s) (core : Nat) 
 (hk : Within [.mem, .journal, .cores, .fabric, .counters, .trace, .belt, .stamps] l) : SameX l s0 (execQueueGrant
     core s) := by
  with_reducible refine SameX.step (k := [.mem, .journal, .cores, .fabric, .counters, .trace,
                     .belt, .stamps]) ?_ h0 hk
  have h : SameBut [.mem, .journal, .cores, .fabric, .counters, .trace, .belt, .stamps] s s := SameBut.refl _ _
  clear h0 hk
  unfold execQueueGrant
  try dsimp only
  repeat' first | (with_reducible first | assumption | apply State.beginSteps_same | apply State.takeQueues_same
                                        | apply sameX_next | apply same_foldl)
                | (with_reducible apply Within.mk; decide) | split

theorem execChain_same {l : List Part} {s0 s : State} (h0 : SameBut l s0 s) (ctx : Nat) (seq : W32) 
 (hk : Within [.mem, .journal, .fabric, .chains, .free] l) : SameX l s0 (execChain ctx seq s) := by
  with_reducible refine SameX.step (k := [.mem, .journal, .fabric, .chains, .free]) ?_ h0 hk
  have h : SameBut [.mem, .journal, .fabric, .chains, .free] s s := SameBut.refl _ _
  clear h0 hk
  unfold execChain
  try dsimp only
  repeat' first | (with_reducible first | assumption | apply chainWork_same | apply sameX_next
                                        | apply same_foldl)
                | (with_reducible refine State.runOp_narrow _ _ _ _ rfl ?_ ?_)
                | (with_reducible apply Within.mk; decide) | split | intro _ _ _ | intro _ _ | intro _

theorem execContextClose_same {l : List Part} {s0 s : State} (h0 : SameBut l s0 s) (ctx : Nat) (seq : W32) 
 (hk : Within [.mem, .ctxs, .journal, .retained, .cores, .fabric, .chains, .groups, .counters, .trace, .belt,
     .lining, .free] l) : SameX l s0 (execContextClose ctx seq s) := by
  with_reducible refine SameX.step (k := [.mem, .ctxs, .journal, .retained, .cores, .fabric,
                     .chains, .groups, .counters, .trace, .belt, .lining, .free]) ?_ h0 hk
  have h : SameBut [.mem, .ctxs, .journal, .retained, .cores, .fabric, .chains, .groups, .counters, .trace, .belt,
      .lining, .free] s s := SameBut.refl _ _
  clear h0 hk
  unfold execContextClose
  try dsimp only
  repeat' first | (with_reducible first | assumption | apply State.beginClose_same | apply contextCloseWork_same
                                        | apply sameX_next | apply same_foldl)
                | (with_reducible refine State.runOp_narrow _ _ _ _ rfl ?_ ?_)
                | (with_reducible apply Within.mk; decide) | split | intro _ _ _ | intro _ _ | intro _

theorem execContextOpen_same {l : List Part} {s0 s : State} (h0 : SameBut l s0 s) (ctx : Nat) (seq : W32) 
 (hk : Within [.seams, .mem, .ctxs, .journal, .cores, .fabric, .chains, .counters, .lining, .free] l) : SameX l s0
     (execContextOpen ctx seq s) := by
  with_reducible refine SameX.step (k := [.seams, .mem, .ctxs, .journal, .cores, .fabric, .chains,
                     .counters, .lining, .free]) ?_ h0 hk
  have h : SameBut [.seams, .mem, .ctxs, .journal, .cores, .fabric, .chains, .counters, .lining, .free] s s :=
      SameBut.refl _ _
  clear h0 hk
  unfold execContextOpen
  try dsimp only
  repeat' first | (with_reducible first | assumption | apply contextOpenWork_same | apply sameX_next
                                        | apply same_foldl)
                | (with_reducible refine State.runOp_plain _ _ _ _ rfl ?_ ?_)
                | (with_reducible apply Within.mk; decide) | split | intro _ _ _ | intro _ _ | intro _

theorem execFence_same {l : List Part} {s0 s : State} (h0 : SameBut l s0 s) (ctx : Nat) (seq : W32) 
 (hk : Within [.mem, .journal, .fabric, .chains, .free] l) : SameX l s0 (execFence ctx seq s) := by
  with_reducible refine SameX.step (k := [.mem, .journal, .fabric, .chains, .free]) ?_ h0 hk
  have h : SameBut [.mem, .journal, .fabric, .chains, .free] s s := SameBut.refl _ _
  clear h0 hk
  unfold execFence
  try dsimp only
  repeat' first | (with_reducible first | assumption | apply fenceWork_same | apply sameX_next
                                        | apply same_foldl)
                | (with_reducible refine State.runOp_narrow _ _ _ _ rfl ?_ ?_)
                | (with_reducible apply Within.mk; decide) | split | intro _ _ _ | intro _ _ | intro _

theorem execNop_same {l : List Part} {s0 s : State} (h0 : SameBut l s0 s) (ctx : Nat) (seq : W32) 
 (hk : Within [.mem, .journal, .fabric, .chains, .free] l) : SameX l s0 (execNop ctx seq s) := by
  with_reducible refine SameX.step (k := [.mem, .journal, .fabric, .chains, .free]) ?_ h0 hk
  have h : SameBut [.mem, .journal, .fabric, .chains, .free] s s := SameBut.refl _ _
  clear h0 hk
  unfold execNop
  try dsimp only
  repeat' first | (with_reducible first | assumption | apply nopWork_same | apply sameX_next | apply same_foldl)
                | (with_reducible refine State.runOp_narrow _ _ _ _ rfl ?_ ?_)
                | (with_reducible apply Within.mk; decide) | split | intro _ _ _ | intro _ _ | intro _

theorem execQueryCaps_same {l : List Part} {s0 s : State} (h0 : SameBut l s0 s) (ctx : Nat) (seq : W32) 
 (hk : Within [.caps, .seams, .mem, .ctxs, .journal, .collar, .cores, .fabric, .chains, .starved, .counters,
     .trace, .belt, .lining, .i3c, .stamps, .free] l) : SameX l s0 (execQueryCaps ctx seq s) := by
  with_reducible refine SameX.step (k := [.caps, .seams, .mem, .ctxs, .journal, .collar, .cores,
                     .fabric, .chains, .starved, .counters, .trace, .belt, .lining, .i3c, .stamps, .free]) ?_ h0 hk
  have h : SameBut [.caps, .seams, .mem, .ctxs, .journal, .collar, .cores, .fabric, .chains, .starved, .counters,
      .trace, .belt, .lining, .i3c, .stamps, .free] s s := SameBut.refl _ _
  clear h0 hk
  unfold execQueryCaps
  try dsimp only
  repeat' first | (with_reducible first | assumption | apply State.runWork_same | apply sameX_next)
                | (with_reducible apply Within.mk; decide)

theorem execSignal_same {l : List Part} {s0 s : State} (h0 : SameBut l s0 s) (ctx : Nat) (seq : W32) 
 (hk : Within [.mem, .journal, .fences, .fabric, .chains, .free] l) : SameX l s0 (execSignal ctx seq s) := by
  with_reducible refine SameX.step (k := [.mem, .journal, .fences, .fabric, .chains, .free]) ?_ h0 hk
  have h : SameBut [.mem, .journal, .fences, .fabric, .chains, .free] s s := SameBut.refl _ _
  clear h0 hk
  unfold execSignal
  try dsimp only
  repeat' first | (with_reducible first | assumption | apply signalWork_same | apply sameX_next
                                        | apply same_foldl)
                | (with_reducible refine State.runOp_narrow _ _ _ _ rfl ?_ ?_)
                | (with_reducible apply Within.mk; decide) | split | intro _ _ _ | intro _ _ | intro _

theorem execWait_same {l : List Part} {s0 s : State} (h0 : SameBut l s0 s) (ctx : Nat) (seq : W32) 
 (hk : Within [.mem, .journal, .fabric, .chains, .free] l) : SameX l s0 (execWait ctx seq s) := by
  with_reducible refine SameX.step (k := [.mem, .journal, .fabric, .chains, .free]) ?_ h0 hk
  have h : SameBut [.mem, .journal, .fabric, .chains, .free] s s := SameBut.refl _ _
  clear h0 hk
  unfold execWait
  try dsimp only
  repeat' first | (with_reducible first | assumption | apply waitWork_same | apply sameX_next
                                        | apply same_foldl)
                | (with_reducible refine State.runOp_narrow _ _ _ _ rfl ?_ ?_)
                | (with_reducible apply Within.mk; decide) | split | intro _ _ _ | intro _ _ | intro _

theorem execWarmReset_same {l : List Part} {s0 s : State} (h0 : SameBut l s0 s) 
 (hk : Within [.pins, .ready, .boot, .stks, .seams, .hostReads, .ctxs, .journal, .cores, .fabric, .chains,
     .starved, .counters, .belt, .lining, .i3c] l) : SameX l s0 (execWarmReset s) := by
  with_reducible refine SameX.step (k := [.pins, .ready, .boot, .stks, .seams, .hostReads, .ctxs,
                     .journal, .cores, .fabric, .chains, .starved, .counters, .belt, .lining, .i3c]) ?_ h0 hk
  have h : SameBut [.pins, .ready, .boot, .stks, .seams, .hostReads, .ctxs, .journal, .cores, .fabric, .chains,
      .starved, .counters, .belt, .lining, .i3c] s s := SameBut.refl _ _
  clear h0 hk
  unfold execWarmReset
  try dsimp only
  repeat' first | (with_reducible first | assumption | apply State.warmLoss_same | apply State.softReset_same
                                        | apply sameX_next | apply same_foldl)
                | (with_reducible apply Within.mk; decide) | split | intro _ _ _ | intro _ _ | intro _
  any_goals (refine same_mk ?_)
  repeat' first | with_reducible assumption

theorem execWarmResetRelease_same {l : List Part} {s0 s : State} (h0 : SameBut l s0 s) 
 (hk : Within [.pins, .stks] l) : SameX l s0 (execWarmResetRelease s) := by
  with_reducible refine SameX.step (k := [.pins, .stks]) ?_ h0 hk
  have h : SameBut [.pins, .stks] s s := SameBut.refl _ _
  clear h0 hk
  unfold execWarmResetRelease
  try dsimp only
  repeat' first | (with_reducible first | assumption | apply sameX_next | apply same_foldl)
                | (with_reducible apply Within.mk; decide) | split | intro _ _ _ | intro _ _ | intro _
  any_goals (refine same_mk ?_)
  repeat' first | with_reducible assumption

theorem execTimeSyncEdge_same {l : List Part} {s0 s : State} (h0 : SameBut l s0 s) (elapsed : Nat) 
 (hk : Within [.tb, .cores, .starved, .counters, .trace, .belt, .free] l) : SameX l s0 (execTimeSyncEdge elapsed
     s) := by
  with_reducible refine SameX.step (k := [.tb, .cores, .starved, .counters, .trace, .belt, .free]) ?_ h0 hk
  have h : SameBut [.tb, .cores, .starved, .counters, .trace, .belt, .free] s s := SameBut.refl _ _
  clear h0 hk
  unfold execTimeSyncEdge
  try dsimp only
  repeat' first | (with_reducible first | assumption | apply State.pass_same | apply sameX_next
                                        | apply same_foldl) | (with_reducible apply Within.mk; decide) | split
                | intro _ _ _ | intro _ _ | intro _
  any_goals (refine same_mk ?_)
  repeat' first | (with_reducible first | assumption | apply State.pass_same | apply sameX_next)
                | (with_reducible apply Within.mk; decide)

theorem execSyncLost_same {l : List Part} {s0 s : State} (h0 : SameBut l s0 s) (elapsed : Nat) 
 (hk : Within [.tb, .cores, .starved, .counters, .trace, .belt, .free] l) : SameX l s0 (execSyncLost elapsed s) := by
  with_reducible refine SameX.step (k := [.tb, .cores, .starved, .counters, .trace, .belt, .free]) ?_ h0 hk
  have h : SameBut [.tb, .cores, .starved, .counters, .trace, .belt, .free] s s := SameBut.refl _ _
  clear h0 hk
  unfold execSyncLost
  try dsimp only
  repeat' first | (with_reducible first | assumption | apply State.pass_same | apply sameX_next
                                        | apply same_foldl) | (with_reducible apply Within.mk; decide) | split
                | intro _ _ _ | intro _ _ | intro _
  any_goals (refine same_mk ?_)
  repeat' first | (with_reducible first | assumption | apply State.pass_same | apply sameX_next)
                | (with_reducible apply Within.mk; decide)

theorem execAliveToggle_same {l : List Part} {s0 s : State} (h0 : SameBut l s0 s) 
 (hk : Within [.pins] l) : SameX l s0 (execAliveToggle s) := by
  with_reducible refine SameX.step (k := [.pins]) ?_ h0 hk
  have h : SameBut [.pins] s s := SameBut.refl _ _
  clear h0 hk
  unfold execAliveToggle
  try dsimp only
  repeat' first | (with_reducible first | assumption | apply sameX_next | apply same_foldl)
                | (with_reducible apply Within.mk; decide) | split | intro _ _ _ | intro _ _ | intro _
  any_goals (refine same_mk ?_)
  repeat' first | with_reducible assumption

theorem execLiningSelfTest_same {l : List Part} {s0 s : State} (h0 : SameBut l s0 s) 
 (hk : Within [.ready, .i3c] l) : SameX l s0 (execLiningSelfTest s) := by
  with_reducible refine SameX.step (k := [.ready, .i3c]) ?_ h0 hk
  have h : SameBut [.ready, .i3c] s s := SameBut.refl _ _
  clear h0 hk
  unfold execLiningSelfTest
  try dsimp only
  repeat' first | (with_reducible first | assumption | apply State.ibi_same | apply sameX_next
                                        | apply same_foldl) | (with_reducible apply Within.mk; decide) | split
                | intro _ _ _ | intro _ _ | intro _
  any_goals (refine same_mk ?_)
  repeat' first | with_reducible assumption

theorem execStackTrainingDone_same {l : List Part} {s0 s : State} (h0 : SameBut l s0 s) (m : Nat) (ok : Bool)
    (capacity : Nat) (height : Nat) (rate : Nat) (lanes : Nat)
 (hk : Within [.caps, .ready, .stks, .seams, .mem, .ctxs, .journal, .collar, .cores, .fabric, .counters, .trace,
     .belt, .lining, .i3c, .free] l) : SameX l s0 (execStackTrainingDone m ok capacity height rate lanes s) := by
  with_reducible refine SameX.step (k := [.caps, .ready, .stks, .seams, .mem, .ctxs, .journal,
                     .collar, .cores, .fabric, .counters, .trace, .belt, .lining, .i3c, .free]) ?_ h0 hk
  have h : SameBut [.caps, .ready, .stks, .seams, .mem, .ctxs, .journal, .collar, .cores, .fabric, .counters,
      .trace, .belt, .lining, .i3c, .free] s s := SameBut.refl _ _
  clear h0 hk
  unfold execStackTrainingDone
  extract_lets x again y1 y2 n s1 s2
  have h1 : SameBut [.caps, .ready, .stks, .seams, .mem, .ctxs, .journal, .collar, .cores, .fabric, .counters,
      .trace, .belt, .lining, .i3c, .free] s s1 := State.setStack_same h _ _ (by decide)
  have h2 : SameBut [.caps, .ready, .stks, .seams, .mem, .ctxs, .journal, .collar, .cores, .fabric, .counters,
      .trace, .belt, .lining, .i3c, .free] s s2 := State.setStack_same h1 _ _ (by decide)
  clear_value s1 s2
  split
  · exact h
  · split
    · refine sameX_next ?_
      split
      · exact State.readyStack_same h _ _ (by decide)
      · exact State.setStack_same h _ _ (by decide)
    · split
      · exact sameX_next (State.failStack_same h1 _ (by decide))
      · split
        · refine sameX_next (State.capChange_same ?_ (by decide))
          exact same_mk h2
        · exact h1


theorem execStackZeroed_same {l : List Part} {s0 s : State} (h0 : SameBut l s0 s) (m : Nat) 
 (hk : Within [.ready, .stks, .mem, .i3c] l) : SameX l s0 (execStackZeroed m s) := by
  with_reducible refine SameX.step (k := [.ready, .stks, .mem, .i3c]) ?_ h0 hk
  have h : SameBut [.ready, .stks, .mem, .i3c] s s := SameBut.refl _ _
  clear h0 hk
  unfold execStackZeroed
  try dsimp only
  repeat' first | (with_reducible first | assumption | apply State.readyStack_same | apply sameX_next
                                        | apply same_foldl) | (with_reducible apply Within.mk; decide) | split
                | intro _ _ _ | intro _ _ | intro _
  any_goals (refine same_mk ?_)
  repeat' first | with_reducible assumption

theorem execRefreshManagementRequest_same {l : List Part} {s0 s : State} (h0 : SameBut l s0 s) (m : Nat) (pc :
    Nat) (bank : Nat)
 (hk : Within [.stks, .fabric] l) : SameX l s0 (execRefreshManagementRequest m pc bank s) := by
  with_reducible refine SameX.step (k := [.stks, .fabric]) ?_ h0 hk
  have h : SameBut [.stks, .fabric] s s := SameBut.refl _ _
  clear h0 hk
  unfold execRefreshManagementRequest
  try dsimp only
  repeat' first | (with_reducible first | assumption | apply State.onPort_same | apply State.setStack_same
                                        | apply sameX_next | apply same_foldl)
                | (with_reducible apply Within.mk; decide) | split

theorem execStackAccessReturn_same {l : List Part} {s0 s : State} (h0 : SameBut l s0 s) (m : Nat) (pc : Nat) (line
    : Nat) (r : AccessResult)
 (hk : Within [.caps, .ready, .stks, .seams, .mem, .ctxs, .journal, .collar, .cores, .fabric, .counters, .trace,
     .belt, .lining, .i3c, .free] l) : SameX l s0 (execStackAccessReturn m pc line r s) := by
  with_reducible refine SameX.step (k := [.caps, .ready, .stks, .seams, .mem, .ctxs, .journal,
                     .collar, .cores, .fabric, .counters, .trace, .belt, .lining, .i3c, .free]) ?_ h0 hk
  have h : SameBut [.caps, .ready, .stks, .seams, .mem, .ctxs, .journal, .collar, .cores, .fabric, .counters,
      .trace, .belt, .lining, .i3c, .free] s s := SameBut.refl _ _
  clear h0 hk
  unfold execStackAccessReturn
  try dsimp only
  repeat' first | (with_reducible first | assumption | apply State.count_same | apply State.lineBack_same
                                        | apply State.setStack_same | apply State.failPc_same | apply sameX_next
                                        | apply same_foldl) | (with_reducible apply Within.mk; decide) | split
                | intro _ _ _ | intro _ _

theorem execSeamDetect_same {l : List Part} {s0 s : State} (h0 : SameBut l s0 s) (p : Nat) (tx : BitVec 4) (rx :
    BitVec 4)
 (hk : Within [.seams] l) : SameX l s0 (execSeamDetect p tx rx s) := by
  with_reducible refine SameX.step (k := [.seams]) ?_ h0 hk
  have h : SameBut [.seams] s s := SameBut.refl _ _
  clear h0 hk
  unfold execSeamDetect
  try dsimp only
  repeat' first | (with_reducible first | assumption | apply State.setSeam_same | apply sameX_next
                                        | apply same_foldl) | (with_reducible apply Within.mk; decide) | split

theorem execSeamEqualiseDone_same {l : List Part} {s0 s : State} (h0 : SameBut l s0 s) (p : Nat) (tx : BitVec 4)
    (rx : BitVec 4)
 (hk : Within [.caps, .ready, .seams, .mem, .ctxs, .journal, .collar, .cores, .fabric, .counters, .trace, .belt,
     .lining, .i3c, .free] l) : SameX l s0 (execSeamEqualiseDone p tx rx s) := by
  with_reducible refine SameX.step (k := [.caps, .ready, .seams, .mem, .ctxs, .journal, .collar,
                     .cores, .fabric, .counters, .trace, .belt, .lining, .i3c, .free]) ?_ h0 hk
  have h : SameBut [.caps, .ready, .seams, .mem, .ctxs, .journal, .collar, .cores, .fabric, .counters, .trace,
      .belt, .lining, .i3c, .free] s s := SameBut.refl _ _
  clear h0 hk
  unfold execSeamEqualiseDone
  try dsimp only
  repeat' first | (with_reducible first | assumption | apply State.setSeam_same | apply State.keepGroups_same
                                        | apply State.examineRegions_same | apply State.reactivate_same
                                        | apply sameX_next | apply same_foldl)
                | (with_reducible apply Within.mk; decide) | split

theorem execConfigFrame_same {l : List Part} {s0 s : State} (h0 : SameBut l s0 s) (p : Nat) (f : ConfigFrame) 
 (hk : Within [.ready, .seams, .counters, .lining, .i3c] l) : SameX l s0 (execConfigFrame p f s) := by
  with_reducible refine SameX.step (k := [.ready, .seams, .counters, .lining, .i3c]) ?_ h0 hk
  have h : SameBut [.ready, .seams, .counters, .lining, .i3c] s s := SameBut.refl _ _
  clear h0 hk
  unfold execConfigFrame
  try dsimp only
  repeat' first | (with_reducible first | assumption | apply State.setSeam_same | apply State.pump_same
                                        | apply State.ibi_same | apply State.count_same | apply sameX_next
                                        | apply same_foldl) | (with_reducible apply Within.mk; decide) | split
                | intro _ _ _ | intro _ _ | intro _
  any_goals (refine same_mk ?_)
  repeat' first | (with_reducible first | assumption | apply State.setSeam_same | apply State.pump_same
                                        | apply State.ibi_same | apply State.count_same | apply sameX_next)
                | (with_reducible apply Within.mk; decide)

theorem execSeamTrainTimeout_same {l : List Part} {s0 s : State} (h0 : SameBut l s0 s) (p : Nat) 
 (hk : Within [.caps, .ready, .seams, .mem, .ctxs, .journal, .collar, .cores, .fabric, .counters, .belt, .lining,
     .i3c, .free] l) : SameX l s0 (execSeamTrainTimeout p s) := by
  with_reducible refine SameX.step (k := [.caps, .ready, .seams, .mem, .ctxs, .journal, .collar,
                     .cores, .fabric, .counters, .belt, .lining, .i3c, .free]) ?_ h0 hk
  have h : SameBut [.caps, .ready, .seams, .mem, .ctxs, .journal, .collar, .cores, .fabric, .counters, .belt,
      .lining, .i3c, .free] s s := SameBut.refl _ _
  clear h0 hk
  unfold execSeamTrainTimeout
  try dsimp only
  repeat' first | (with_reducible first | assumption | apply State.setSeam_same
                                        | apply State.examineRegions_same | apply State.failSeam_same
                                        | apply sameX_next | apply same_foldl)
                | (with_reducible apply Within.mk; decide) | split

theorem execFrameReceive_same {l : List Part} {s0 s : State} (h0 : SameBut l s0 s) (p : Nat) (f : Frame) 
 (hk : Within [.caps, .ready, .seams, .mem, .ctxs, .journal, .collar, .cores, .fabric, .chains, .groups,
     .counters, .trace, .belt, .lining, .i3c, .free] l) : SameX l s0 (execFrameReceive p f s) := by
  with_reducible refine SameX.step (k := [.caps, .ready, .seams, .mem, .ctxs, .journal, .collar,
                     .cores, .fabric, .chains, .groups, .counters, .trace, .belt, .lining, .i3c, .free]) ?_ h0 hk
  have h : SameBut [.caps, .ready, .seams, .mem, .ctxs, .journal, .collar, .cores, .fabric, .chains, .groups,
      .counters, .trace, .belt, .lining, .i3c, .free] s s := SameBut.refl _ _
  clear h0 hk
  unfold execFrameReceive
  try dsimp only
  repeat' first | (with_reducible first | assumption | apply State.count_same | apply State.setSeam_same
                                        | apply State.goodFrame_same | apply sameX_next | apply same_foldl)
                | (with_reducible apply Within.mk; decide) | split

theorem execInboundMwr_same {l : List Part} {s0 s : State} (h0 : SameBut l s0 s) (p : Nat) (ep : Nat) (addr : Nat)
    (data : List (BitVec 8))
 (hk : Within [.seams, .mem, .cores, .fabric, .counters] l) : SameX l s0 (execInboundMwr p ep addr data s) := by
  with_reducible refine SameX.step (k := [.seams, .mem, .cores, .fabric, .counters]) ?_ h0 hk
  have h : SameBut [.seams, .mem, .cores, .fabric, .counters] s s := SameBut.refl _ _
  clear h0 hk
  unfold execInboundMwr
  try dsimp only
  repeat' first | (with_reducible first | assumption | apply State.takeRx_same | apply State.count_same
                                        | apply State.l2Invalidate_same | apply State.dropCopies_same
                                        | apply State.put_same | apply sameX_next | apply same_foldl)
                | (with_reducible apply Within.mk; decide) | split

theorem execInboundMrd_same {l : List Part} {s0 s : State} (h0 : SameBut l s0 s) (p : Nat) (ep : Nat) (addr : Nat)
    (len : Nat) (tag : Nat)
 (hk : Within [.seams, .counters, .lining] l) : SameX l s0 (execInboundMrd p ep addr len tag s) := by
  with_reducible refine SameX.step (k := [.seams, .counters, .lining]) ?_ h0 hk
  have h : SameBut [.seams, .counters, .lining] s s := SameBut.refl _ _
  clear h0 hk
  unfold execInboundMrd
  try dsimp only
  repeat' first | (with_reducible first | assumption | apply State.takeRx_same | apply State.send_same
                                        | apply State.count_same | apply sameX_next | apply same_foldl)
                | (with_reducible apply Within.mk; decide) | split

theorem execCpl_same {l : List Part} {s0 s : State} (h0 : SameBut l s0 s) (p : Nat) (tag : Nat) (status : Nat)
    (data : List (BitVec 8))
 (hk : Within [.seams, .hostReads] l) : SameX l s0 (execCpl p tag status data s) := by
  with_reducible refine SameX.step (k := [.seams, .hostReads]) ?_ h0 hk
  have h : SameBut [.seams, .hostReads] s s := SameBut.refl _ _
  clear h0 hk
  unfold execCpl
  try dsimp only
  repeat' first | (with_reducible first | assumption | apply State.takeRx_same | apply sameX_next
                                        | apply same_foldl) | (with_reducible apply Within.mk; decide) | split
                | intro _ _ _ | intro _ _ | intro _
  any_goals (refine same_mk ?_)
  repeat' first | (with_reducible first | assumption | apply State.takeRx_same | apply sameX_next)
                | (with_reducible apply Within.mk; decide)

theorem execRrd_same {l : List Part} {s0 s : State} (h0 : SameBut l s0 s) (p : Nat) (ep : Nat) (offset : Nat)
    (words : Nat) (tag : Nat)
 (hk : Within [.seams, .counters, .lining, .latches] l) : SameX l s0 (execRrd p ep offset words tag s) := by
  with_reducible refine SameX.step (k := [.seams, .counters, .lining, .latches]) ?_ h0 hk
  have h : SameBut [.seams, .counters, .lining, .latches] s s := SameBut.refl _ _
  clear h0 hk
  unfold execRrd
  try dsimp only
  repeat' first | (with_reducible first | assumption | apply State.takeRx_same | apply State.count_same
                                        | apply State.readWords_same | apply State.rcpl_same | apply sameX_next
                                        | apply same_foldl) | (with_reducible apply Within.mk; decide) | split

theorem execRwr_same {l : List Part} {s0 s : State} (h0 : SameBut l s0 s) (p : Nat) (ep : Nat) (enc : Bool)
    (offset : Nat) (data : List (BitVec 32)) (tag : Nat)
 (hk : Within [.tb, .caps, .stks, .seams, .mem, .ctxs, .journal, .collar, .cores, .fabric, .counters, .trace,
     .belt, .lining, .i3c] l) : SameX l s0 (execRwr p ep enc offset data tag s) := by
  with_reducible refine SameX.step (k := [.tb, .caps, .stks, .seams, .mem, .ctxs, .journal,
                     .collar, .cores, .fabric, .counters, .trace, .belt, .lining, .i3c]) ?_ h0 hk
  have h : SameBut [.tb, .caps, .stks, .seams, .mem, .ctxs, .journal, .collar, .cores, .fabric, .counters, .trace,
      .belt, .lining, .i3c] s s := SameBut.refl _ _
  clear h0 hk
  unfold execRwr
  try dsimp only
  repeat' first | (with_reducible first | assumption | apply State.takeRx_same | apply State.count_same
                                        | apply State.writeWords_same | apply State.rcpl_same | apply sameX_next
                                        | apply same_foldl) | (with_reducible apply Within.mk; decide) | split

theorem execKeyx_same {l : List Part} {s0 s : State} (h0 : SameBut l s0 s) (p : Nat) (ep : Nat) (m : KeyxMsg) 
 (hk : Within [.seams, .mem, .journal, .fabric, .counters, .lining] l) : SameX l s0 (execKeyx p ep m s) := by
  with_reducible refine SameX.step (k := [.seams, .mem, .journal, .fabric, .counters, .lining]) ?_ h0 hk
  have h : SameBut [.seams, .mem, .journal, .fabric, .counters, .lining] s s := SameBut.refl _ _
  clear h0 hk
  unfold execKeyx
  try dsimp only
  repeat' first | (with_reducible first | assumption | apply State.takeRx_same | apply State.setChannel_same
                                        | apply State.send_same | apply State.channelDenied_same
                                        | apply sameX_next | apply same_foldl)
                | (with_reducible apply Within.mk; decide) | split | intro _ _ _ | intro _ _ | intro _
  any_goals (refine same_mk ?_)
  repeat' first | (with_reducible first | assumption | apply State.takeRx_same | apply State.setChannel_same
                                        | apply State.send_same | apply State.channelDenied_same
                                        | apply sameX_next) | (with_reducible apply Within.mk; decide)

theorem execSpdmRequest_same {l : List Part} {s0 s : State} (h0 : SameBut l s0 s) (p : Nat) (ep : Nat) (r : SpdmReq) 
 (hk : Within [.seams, .ctxs, .counters, .lining] l) : SameX l s0 (execSpdmRequest p ep r s) := by
  with_reducible refine SameX.step (k := [.seams, .ctxs, .counters, .lining]) ?_ h0 hk
  have h : SameBut [.seams, .ctxs, .counters, .lining] s s := SameBut.refl _ _
  clear h0 hk
  unfold execSpdmRequest
  try dsimp only
  repeat' first | (with_reducible first | assumption | apply State.takeRx_same | apply State.spdmAnswer_same
                                        | apply State.endSpdm_same | apply sameX_next | apply same_foldl)
                | (with_reducible apply Within.mk; decide) | split | intro _ _ _ | intro _ _ | intro _
  any_goals (refine same_mk ?_)
  repeat' first | (with_reducible first | assumption | apply State.takeRx_same | apply State.spdmAnswer_same
                                        | apply State.endSpdm_same | apply sameX_next)
                | (with_reducible apply Within.mk; decide)

theorem execBounceBind_same {l : List Part} {s0 s : State} (h0 : SameBut l s0 s) (p : Nat) (ep : Nat) (session :
    Nat) (ctx : Nat) (base : Nat) (pages : Nat) (tags : Nat)
 (hk : Within [.seams, .ctxs, .counters, .lining] l) : SameX l s0 (execBounceBind p ep session ctx base pages tags
     s) := by
  with_reducible refine SameX.step (k := [.seams, .ctxs, .counters, .lining]) ?_ h0 hk
  have h : SameBut [.seams, .ctxs, .counters, .lining] s s := SameBut.refl _ _
  clear h0 hk
  unfold execBounceBind
  try dsimp only
  repeat' first | (with_reducible first | assumption | apply State.takeRx_same | apply State.spdmAnswer_same
                                        | apply State.setCtx_same | apply sameX_next | apply same_foldl)
                | (with_reducible apply Within.mk; decide) | split

theorem execRyBlock_same {l : List Part} {s0 s : State} (h0 : SameBut l s0 s) (p : Nat) (ep : Nat) (vc : Nat)
    (block : Bytes) (adderFaults : List Nat)
 (hk : Within [.caps, .ready, .seams, .mem, .ctxs, .journal, .collar, .cores, .fabric, .chains, .groups,
     .counters, .trace, .belt, .lining, .i3c, .free] l) : SameX l s0 (execRyBlock p ep vc block adderFaults s) := by
  with_reducible refine SameX.step (k := [.caps, .ready, .seams, .mem, .ctxs, .journal, .collar,
                     .cores, .fabric, .chains, .groups, .counters, .trace, .belt, .lining, .i3c, .free]) ?_ h0 hk
  have h : SameBut [.caps, .ready, .seams, .mem, .ctxs, .journal, .collar, .cores, .fabric, .chains, .groups,
      .counters, .trace, .belt, .lining, .i3c, .free] s s := SameBut.refl _ _
  clear h0 hk
  unfold execRyBlock
  try dsimp only
  repeat' first | (with_reducible first | assumption | apply State.meteredFor_same | apply State.ryBlockIn_same
                                        | apply State.takeRx_same | apply sameX_next)
                | (with_reducible apply Within.mk; decide)

theorem execResend_same {l : List Part} {s0 s : State} (h0 : SameBut l s0 s) (p : Nat) (ep : Nat) (vc : Nat)
    (stream : Nat) (blockSeq : Nat)
 (hk : Within [.seams, .groups, .counters, .lining] l) : SameX l s0 (execResend p ep vc stream blockSeq s) := by
  with_reducible refine SameX.step (k := [.seams, .groups, .counters, .lining]) ?_ h0 hk
  have h : SameBut [.seams, .groups, .counters, .lining] s s := SameBut.refl _ _
  clear h0 hk
  unfold execResend
  try dsimp only
  repeat' first | (with_reducible first | assumption | apply State.takeRx_same | apply State.count_same
                                        | apply State.setGroup_same | apply State.sendRy_same | apply sameX_next
                                        | apply same_foldl) | (with_reducible apply Within.mk; decide) | split

theorem execReadyToken_same {l : List Part} {s0 s : State} (h0 : SameBut l s0 s) (p : Nat) (ep : Nat) (vc : Nat)
    (t : ReadyToken)
 (hk : Within [.caps, .ready, .seams, .mem, .ctxs, .journal, .collar, .cores, .fabric, .chains, .groups,
     .counters, .trace, .belt, .lining, .i3c, .free] l) : SameX l s0 (execReadyToken p ep vc t s) := by
  with_reducible refine SameX.step (k := [.caps, .ready, .seams, .mem, .ctxs, .journal, .collar,
                     .cores, .fabric, .chains, .groups, .counters, .trace, .belt, .lining, .i3c, .free]) ?_ h0 hk
  have h : SameBut [.caps, .ready, .seams, .mem, .ctxs, .journal, .collar, .cores, .fabric, .chains, .groups,
      .counters, .trace, .belt, .lining, .i3c, .free] s s := SameBut.refl _ _
  clear h0 hk
  unfold execReadyToken
  try dsimp only
  repeat' first | (with_reducible first | assumption | apply State.takeRx_same | apply State.leaveReady_same
                                        | apply State.passToken_same | apply State.setGroup_same
                                        | apply sameX_next | apply same_foldl)
                | (with_reducible apply Within.mk; decide) | split

theorem execBackupReady_same {l : List Part} {s0 s : State} (h0 : SameBut l s0 s) (p : Nat) (ep : Nat) (vc : Nat) 
 (hk : Within [.seams, .groups] l) : SameX l s0 (execBackupReady p ep vc s) := by
  with_reducible refine SameX.step (k := [.seams, .groups]) ?_ h0 hk
  have h : SameBut [.seams, .groups] s s := SameBut.refl _ _
  clear h0 hk
  unfold execBackupReady
  try dsimp only
  repeat' first | (with_reducible first | assumption | apply State.takeRx_same | apply State.setGroup_same
                                        | apply sameX_next | apply same_foldl)
                | (with_reducible apply Within.mk; decide) | split

theorem execBackupRequest_same {l : List Part} {s0 s : State} (h0 : SameBut l s0 s) (p : Nat) (ep : Nat) (vc : Nat) 
 (hk : Within [.seams, .mem, .journal, .fabric, .groups, .counters, .lining] l) : SameX l s0 (execBackupRequest p
     ep vc s) := by
  with_reducible refine SameX.step (k := [.seams, .mem, .journal, .fabric, .groups, .counters, .lining]) ?_ h0 hk
  have h : SameBut [.seams, .mem, .journal, .fabric, .groups, .counters, .lining] s s := SameBut.refl _ _
  clear h0 hk
  unfold execBackupRequest
  try dsimp only
  repeat' first | (with_reducible first | assumption | apply State.takeRx_same | apply State.count_same
                                        | apply State.backupCursor_same | apply State.sendRy_same
                                        | apply State.setGroup_same | apply sameX_next | apply same_foldl)
                | (with_reducible apply Within.mk; decide) | split | intro _ _ _

theorem execRyDeadline_same {l : List Part} {s0 s : State} (h0 : SameBut l s0 s) (group : Nat) 
 (hk : Within [.seams, .groups, .counters, .lining] l) : SameX l s0 (execRyDeadline group s) := by
  with_reducible refine SameX.step (k := [.seams, .groups, .counters, .lining]) ?_ h0 hk
  have h : SameBut [.seams, .groups, .counters, .lining] s s := SameBut.refl _ _
  clear h0 hk
  unfold execRyDeadline
  try dsimp only
  repeat' first | (with_reducible first | assumption | apply State.settleLate_same | apply sameX_next
                                        | apply same_foldl) | (with_reducible apply Within.mk; decide) | split

theorem execNormToken_same {l : List Part} {s0 s : State} (h0 : SameBut l s0 s) (p : Nat) (ep : Nat) (vc : Nat)
    (lap : Nat) (tensor : Nat) (value : BitVec 64)
 (hk : Within [.seams, .mem, .ctxs, .cores, .fabric, .groups, .counters, .lining] l) : SameX l s0 (execNormToken p
     ep vc lap tensor value s) := by
  with_reducible refine SameX.step (k := [.seams, .mem, .ctxs, .cores, .fabric, .groups, .counters, .lining]) ?_ h0 hk
  have h : SameBut [.seams, .mem, .ctxs, .cores, .fabric, .groups, .counters, .lining] s s := SameBut.refl _ _
  clear h0 hk
  unfold execNormToken
  try dsimp only
  repeat' first | (with_reducible first | assumption | apply State.takeRx_same | apply State.setGroup_same
                                        | apply State.writeNorm_same | apply State.sendNorm_same
                                        | apply sameX_next | apply same_foldl)
                | (with_reducible apply Within.mk; decide) | split

theorem execParameterHeader_same {l : List Part} {s0 s : State} (h0 : SameBut l s0 s) (p : Nat) (ep : Nat) (vc :
    Nat) (data : Bytes)
 (hk : Within [.seams, .mem, .ctxs, .cores, .fabric, .groups, .counters, .lining] l) : SameX l s0
     (execParameterHeader p ep vc data s) := by
  with_reducible refine SameX.step (k := [.seams, .mem, .ctxs, .cores, .fabric, .groups, .counters, .lining]) ?_ h0 hk
  have h : SameBut [.seams, .mem, .ctxs, .cores, .fabric, .groups, .counters, .lining] s s := SameBut.refl _ _
  clear h0 hk
  unfold execParameterHeader
  try dsimp only
  repeat' first | (with_reducible first | assumption | apply State.lapIn_same | apply sameX_next)
                | (with_reducible apply Within.mk; decide)

theorem execParameterData_same {l : List Part} {s0 s : State} (h0 : SameBut l s0 s) (p : Nat) (ep : Nat) (vc :
    Nat) (data : Bytes)
 (hk : Within [.seams, .mem, .ctxs, .cores, .fabric, .groups, .counters, .lining] l) : SameX l s0
     (execParameterData p ep vc data s) := by
  with_reducible refine SameX.step (k := [.seams, .mem, .ctxs, .cores, .fabric, .groups, .counters, .lining]) ?_ h0 hk
  have h : SameBut [.seams, .mem, .ctxs, .cores, .fabric, .groups, .counters, .lining] s s := SameBut.refl _ _
  clear h0 hk
  unfold execParameterData
  try dsimp only
  repeat' first | (with_reducible first | assumption | apply State.lapIn_same | apply sameX_next)
                | (with_reducible apply Within.mk; decide)

theorem execForecastData_same {l : List Part} {s0 s : State} (h0 : SameBut l s0 s) (p : Nat) (ep : Nat) (vc : Nat)
    (data : Bytes)
 (hk : Within [.seams, .mem, .ctxs, .cores, .fabric, .groups, .counters, .lining] l) : SameX l s0
     (execForecastData p ep vc data s) := by
  with_reducible refine SameX.step (k := [.seams, .mem, .ctxs, .cores, .fabric, .groups, .counters, .lining]) ?_ h0 hk
  have h : SameBut [.seams, .mem, .ctxs, .cores, .fabric, .groups, .counters, .lining] s s := SameBut.refl _ _
  clear h0 hk
  unfold execForecastData
  try dsimp only
  repeat' first | (with_reducible first | assumption | apply State.lapIn_same | apply sameX_next)
                | (with_reducible apply Within.mk; decide)

theorem execI3cPrivateWrite_same {l : List Part} {s0 s : State} (h0 : SameBut l s0 s) (data : List (BitVec 8)) 
 (hk : Within [.tb, .caps, .boot, .stks, .seams, .mem, .ctxs, .journal, .collar, .cores, .fabric, .counters,
     .trace, .belt, .lining, .i3c] l) : SameX l s0 (execI3cPrivateWrite data s) := by
  with_reducible refine SameX.step (k := [.tb, .caps, .boot, .stks, .seams, .mem, .ctxs, .journal,
                     .collar, .cores, .fabric, .counters, .trace, .belt, .lining, .i3c]) ?_ h0 hk
  have h : SameBut [.tb, .caps, .boot, .stks, .seams, .mem, .ctxs, .journal, .collar, .cores, .fabric, .counters,
      .trace, .belt, .lining, .i3c] s s := SameBut.refl _ _
  clear h0 hk
  unfold execI3cPrivateWrite
  try dsimp only
  repeat' first | (with_reducible first | assumption | apply State.bootBytes_same | apply State.i3cWords_same
                                        | apply sameX_next | apply same_foldl)
                | (with_reducible apply Within.mk; decide) | split | intro _ _ _ | intro _ _ | intro _
  any_goals (refine same_mk ?_)
  repeat' first | with_reducible assumption

theorem execI3cPrivateRead_same {l : List Part} {s0 s : State} (h0 : SameBut l s0 s) (count : Nat) 
 (hk : Within [.i3c, .latches] l) : SameX l s0 (execI3cPrivateRead count s) := by
  with_reducible refine SameX.step (k := [.i3c, .latches]) ?_ h0 hk
  have h : SameBut [.i3c, .latches] s s := SameBut.refl _ _
  clear h0 hk
  unfold execI3cPrivateRead
  try dsimp only
  repeat' first | (with_reducible first | assumption | apply State.i3cRead_same | apply State.i3cAnswer_same
                                        | apply sameX_next | apply same_foldl)
                | (with_reducible apply Within.mk; decide) | split | intro _ _ _ | intro _ _ | intro _
  any_goals (refine same_mk ?_)
  repeat' first | (with_reducible first | assumption | apply State.i3cRead_same | apply State.i3cAnswer_same
                                        | apply sameX_next) | (with_reducible apply Within.mk; decide)

theorem execEntdaa_same {l : List Part} {s0 s : State} (h0 : SameBut l s0 s) (address : BitVec 7) 
 (hk : Within [.i3c] l) : SameX l s0 (execEntdaa address s) := by
  with_reducible refine SameX.step (k := [.i3c]) ?_ h0 hk
  have h : SameBut [.i3c] s s := SameBut.refl _ _
  clear h0 hk
  unfold execEntdaa
  try dsimp only
  repeat' first | (with_reducible first | assumption | apply State.i3cAddress_same | apply sameX_next
                                        | apply same_foldl) | (with_reducible apply Within.mk; decide) | split

theorem execSetdasa_same {l : List Part} {s0 s : State} (h0 : SameBut l s0 s) (staticAddress : BitVec 7) (address
    : BitVec 7)
 (hk : Within [.i3c] l) : SameX l s0 (execSetdasa staticAddress address s) := by
  with_reducible refine SameX.step (k := [.i3c]) ?_ h0 hk
  have h : SameBut [.i3c] s s := SameBut.refl _ _
  clear h0 hk
  unfold execSetdasa
  try dsimp only
  repeat' first | (with_reducible first | assumption | apply State.i3cAddress_same | apply sameX_next
                                        | apply same_foldl) | (with_reducible apply Within.mk; decide) | split

theorem execSetnewda_same {l : List Part} {s0 s : State} (h0 : SameBut l s0 s) (address : BitVec 7) 
 (hk : Within [.i3c] l) : SameX l s0 (execSetnewda address s) := by
  with_reducible refine SameX.step (k := [.i3c]) ?_ h0 hk
  have h : SameBut [.i3c] s s := SameBut.refl _ _
  clear h0 hk
  unfold execSetnewda
  try dsimp only
  repeat' first | (with_reducible first | assumption | apply State.i3cAddress_same | apply sameX_next
                                        | apply same_foldl) | (with_reducible apply Within.mk; decide) | split

theorem execRstdaa_same {l : List Part} {s0 s : State} (h0 : SameBut l s0 s) 
 (hk : Within [.i3c] l) : SameX l s0 (execRstdaa s) := by
  with_reducible refine SameX.step (k := [.i3c]) ?_ h0 hk
  have h : SameBut [.i3c] s s := SameBut.refl _ _
  clear h0 hk
  unfold execRstdaa
  try dsimp only
  repeat' first | (with_reducible first | assumption | apply State.i3cAddress_same | apply sameX_next
                                        | apply same_foldl) | (with_reducible apply Within.mk; decide) | split

theorem execGetpid_same {l : List Part} {s0 s : State} (h0 : SameBut l s0 s) 
 (hk : Within [.i3c] l) : SameX l s0 (execGetpid s) := by
  with_reducible refine SameX.step (k := [.i3c]) ?_ h0 hk
  have h : SameBut [.i3c] s s := SameBut.refl _ _
  clear h0 hk
  unfold execGetpid
  try dsimp only
  repeat' first | (with_reducible first | assumption | apply State.i3cAnswer_same | apply sameX_next
                                        | apply same_foldl) | (with_reducible apply Within.mk; decide) | split

theorem execGetbcr_same {l : List Part} {s0 s : State} (h0 : SameBut l s0 s) 
 (hk : Within [.i3c] l) : SameX l s0 (execGetbcr s) := by
  with_reducible refine SameX.step (k := [.i3c]) ?_ h0 hk
  have h : SameBut [.i3c] s s := SameBut.refl _ _
  clear h0 hk
  unfold execGetbcr
  try dsimp only
  repeat' first | (with_reducible first | assumption | apply State.i3cAnswer_same | apply sameX_next
                                        | apply same_foldl) | (with_reducible apply Within.mk; decide) | split

theorem execGetdcr_same {l : List Part} {s0 s : State} (h0 : SameBut l s0 s) 
 (hk : Within [.i3c] l) : SameX l s0 (execGetdcr s) := by
  with_reducible refine SameX.step (k := [.i3c]) ?_ h0 hk
  have h : SameBut [.i3c] s s := SameBut.refl _ _
  clear h0 hk
  unfold execGetdcr
  try dsimp only
  repeat' first | (with_reducible first | assumption | apply State.i3cAnswer_same | apply sameX_next
                                        | apply same_foldl) | (with_reducible apply Within.mk; decide) | split

theorem execGetstatus_same {l : List Part} {s0 s : State} (h0 : SameBut l s0 s) 
 (hk : Within [.i3c] l) : SameX l s0 (execGetstatus s) := by
  with_reducible refine SameX.step (k := [.i3c]) ?_ h0 hk
  have h : SameBut [.i3c] s s := SameBut.refl _ _
  clear h0 hk
  unfold execGetstatus
  try dsimp only
  repeat' first | (with_reducible first | assumption | apply State.i3cAnswer_same | apply sameX_next
                                        | apply same_foldl) | (with_reducible apply Within.mk; decide) | split
                | intro _ _ _ | intro _ _ | intro _
  any_goals (refine same_mk ?_)
  repeat' first | (with_reducible first | assumption | apply State.i3cAnswer_same | apply sameX_next)
                | (with_reducible apply Within.mk; decide)

theorem execGetmwl_same {l : List Part} {s0 s : State} (h0 : SameBut l s0 s) 
 (hk : Within [.i3c] l) : SameX l s0 (execGetmwl s) := by
  with_reducible refine SameX.step (k := [.i3c]) ?_ h0 hk
  have h : SameBut [.i3c] s s := SameBut.refl _ _
  clear h0 hk
  unfold execGetmwl
  try dsimp only
  repeat' first | (with_reducible first | assumption | apply State.i3cAnswer_same | apply sameX_next
                                        | apply same_foldl) | (with_reducible apply Within.mk; decide) | split

theorem execGetmrl_same {l : List Part} {s0 s : State} (h0 : SameBut l s0 s) 
 (hk : Within [.i3c] l) : SameX l s0 (execGetmrl s) := by
  with_reducible refine SameX.step (k := [.i3c]) ?_ h0 hk
  have h : SameBut [.i3c] s s := SameBut.refl _ _
  clear h0 hk
  unfold execGetmrl
  try dsimp only
  repeat' first | (with_reducible first | assumption | apply State.i3cAnswer_same | apply sameX_next
                                        | apply same_foldl) | (with_reducible apply Within.mk; decide) | split

theorem execEnec_same {l : List Part} {s0 s : State} (h0 : SameBut l s0 s) (events : BitVec 8) 
 (hk : Within [.i3c] l) : SameX l s0 (execEnec events s) := by
  with_reducible refine SameX.step (k := [.i3c]) ?_ h0 hk
  have h : SameBut [.i3c] s s := SameBut.refl _ _
  clear h0 hk
  unfold execEnec
  try dsimp only
  repeat' first | (with_reducible first | assumption | apply sameX_next | apply same_foldl)
                | (with_reducible apply Within.mk; decide) | split | intro _ _ _ | intro _ _ | intro _
  any_goals (refine same_mk ?_)
  repeat' first | with_reducible assumption

theorem execDisec_same {l : List Part} {s0 s : State} (h0 : SameBut l s0 s) (events : BitVec 8) 
 (hk : Within [.i3c] l) : SameX l s0 (execDisec events s) := by
  with_reducible refine SameX.step (k := [.i3c]) ?_ h0 hk
  have h : SameBut [.i3c] s s := SameBut.refl _ _
  clear h0 hk
  unfold execDisec
  try dsimp only
  repeat' first | (with_reducible first | assumption | apply sameX_next | apply same_foldl)
                | (with_reducible apply Within.mk; decide) | split | intro _ _ _ | intro _ _ | intro _
  any_goals (refine same_mk ?_)
  repeat' first | with_reducible assumption

theorem execBypass_same {l : List Part} {s0 s : State} (h0 : SameBut l s0 s) 
 (hk : Within [.tap] l) : SameX l s0 (execBypass s) := by
  with_reducible refine SameX.step (k := [.tap]) ?_ h0 hk
  have h : SameBut [.tap] s s := SameBut.refl _ _
  clear h0 hk
  unfold execBypass
  try dsimp only
  repeat' first | (with_reducible first | assumption | apply State.tapSelect_same | apply sameX_next)
                | (with_reducible apply Within.mk; decide)

theorem execIdcode_same {l : List Part} {s0 s : State} (h0 : SameBut l s0 s) 
 (hk : Within [.tap] l) : SameX l s0 (execIdcode s) := by
  with_reducible refine SameX.step (k := [.tap]) ?_ h0 hk
  have h : SameBut [.tap] s s := SameBut.refl _ _
  clear h0 hk
  unfold execIdcode
  try dsimp only
  repeat' first | (with_reducible first | assumption | apply State.tapSelect_same | apply sameX_next)
                | (with_reducible apply Within.mk; decide)

theorem execSamplePreload_same {l : List Part} {s0 s : State} (h0 : SameBut l s0 s) (cells : BitVec 32) 
 (hk : Within [.tap] l) : SameX l s0 (execSamplePreload cells s) := by
  with_reducible refine SameX.step (k := [.tap]) ?_ h0 hk
  have h : SameBut [.tap] s s := SameBut.refl _ _
  clear h0 hk
  unfold execSamplePreload
  try dsimp only
  repeat' first | (with_reducible first | assumption | apply State.tapSelect_same | apply sameX_next
                                        | apply same_foldl) | (with_reducible apply Within.mk; decide) | split
                | intro _ _ _ | intro _ _ | intro _
  any_goals (refine same_mk ?_)
  repeat' first | (with_reducible first | assumption | apply State.tapSelect_same | apply sameX_next)
                | (with_reducible apply Within.mk; decide)

theorem execExtest_same {l : List Part} {s0 s : State} (h0 : SameBut l s0 s) 
 (hk : Within [.tap] l) : SameX l s0 (execExtest s) := by
  with_reducible refine SameX.step (k := [.tap]) ?_ h0 hk
  have h : SameBut [.tap] s s := SameBut.refl _ _
  clear h0 hk
  unfold execExtest
  try dsimp only
  repeat' first | (with_reducible first | assumption | apply State.tapSelect_same | apply sameX_next
                                        | apply same_foldl) | (with_reducible apply Within.mk; decide) | split
                | intro _ _ _ | intro _ _ | intro _
  any_goals (refine same_mk ?_)
  repeat' first | (with_reducible first | assumption | apply State.tapSelect_same | apply sameX_next)
                | (with_reducible apply Within.mk; decide)

theorem execClamp_same {l : List Part} {s0 s : State} (h0 : SameBut l s0 s) 
 (hk : Within [.tap] l) : SameX l s0 (execClamp s) := by
  with_reducible refine SameX.step (k := [.tap]) ?_ h0 hk
  have h : SameBut [.tap] s s := SameBut.refl _ _
  clear h0 hk
  unfold execClamp
  try dsimp only
  repeat' first | (with_reducible first | assumption | apply State.tapDrive_same | apply sameX_next)
                | (with_reducible apply Within.mk; decide)

theorem execHighz_same {l : List Part} {s0 s : State} (h0 : SameBut l s0 s) 
 (hk : Within [.tap] l) : SameX l s0 (execHighz s) := by
  with_reducible refine SameX.step (k := [.tap]) ?_ h0 hk
  have h : SameBut [.tap] s s := SameBut.refl _ _
  clear h0 hk
  unfold execHighz
  try dsimp only
  repeat' first | (with_reducible first | assumption | apply State.tapDrive_same | apply sameX_next)
                | (with_reducible apply Within.mk; decide)

theorem execDoorbell_same {l : List Part} {s0 s : State} (h0 : SameBut l s0 s) (src : Source) (ctx : Nat) (value :
    W32)
 (hk : Within [.tb, .caps, .stks, .seams, .mem, .ctxs, .journal, .collar, .cores, .fabric, .counters, .trace,
     .belt, .lining, .i3c] l) : SameX l s0 (execDoorbell src ctx value s) := by
  with_reducible refine SameX.step (k := [.tb, .caps, .stks, .seams, .mem, .ctxs, .journal,
                     .collar, .cores, .fabric, .counters, .trace, .belt, .lining, .i3c]) ?_ h0 hk
  have h : SameBut [.tb, .caps, .stks, .seams, .mem, .ctxs, .journal, .collar, .cores, .fabric, .counters, .trace,
      .belt, .lining, .i3c] s s := SameBut.refl _ _
  clear h0 hk
  unfold execDoorbell
  try dsimp only
  repeat' first | (with_reducible first | assumption | apply State.regWrite_same | apply sameX_next)
                | (with_reducible apply Within.mk; decide)

theorem execPreempt_same {l : List Part} {s0 s : State} (h0 : SameBut l s0 s) (ctx : Nat) (seq : W32) (cursors :
    List (Nat × Nat × Nat))
 (hk : Within [.seams, .mem, .ctxs, .journal, .cores, .fabric, .chains, .starved, .counters, .trace, .belt,
     .lining, .free] l) : SameX l s0 (execPreempt ctx seq cursors s) := by
  with_reducible refine SameX.step (k := [.seams, .mem, .ctxs, .journal, .cores, .fabric, .chains,
                     .starved, .counters, .trace, .belt, .lining, .free]) ?_ h0 hk
  have h : SameBut [.seams, .mem, .ctxs, .journal, .cores, .fabric, .chains, .starved, .counters, .trace, .belt,
      .lining, .free] s s := SameBut.refl _ _
  clear h0 hk
  unfold execPreempt
  try dsimp only
  repeat' first | (with_reducible first | assumption | apply State.preemptWork_same | apply sameX_next
                                        | apply same_foldl) | (with_reducible apply Within.mk; decide) | split

theorem execCopy_same {l : List Part} {s0 s : State} (h0 : SameBut l s0 s) (ctx : Nat) (seq : W32) 
 (hk : Within [.caps, .seams, .mem, .ctxs, .journal, .collar, .cores, .fabric, .chains, .starved, .counters,
     .trace, .belt, .lining, .i3c, .stamps, .free] l) : SameX l s0 (execCopy ctx seq s) := by
  with_reducible refine SameX.step (k := [.caps, .seams, .mem, .ctxs, .journal, .collar, .cores,
                     .fabric, .chains, .starved, .counters, .trace, .belt, .lining, .i3c, .stamps, .free]) ?_ h0 hk
  have h : SameBut [.caps, .seams, .mem, .ctxs, .journal, .collar, .cores, .fabric, .chains, .starved, .counters,
      .trace, .belt, .lining, .i3c, .stamps, .free] s s := SameBut.refl _ _
  clear h0 hk
  unfold execCopy
  try dsimp only
  repeat' first | (with_reducible first | assumption | apply State.runWork_same | apply sameX_next)
                | (with_reducible apply Within.mk; decide)

theorem execStreamDefine_same {l : List Part} {s0 s : State} (h0 : SameBut l s0 s) (ctx : Nat) (seq : W32) 
 (hk : Within [.seams, .mem, .ctxs, .journal, .cores, .fabric, .chains, .counters, .free] l) : SameX l s0
     (execStreamDefine ctx seq s) := by
  with_reducible refine SameX.step (k := [.seams, .mem, .ctxs, .journal, .cores, .fabric, .chains,
                     .counters, .free]) ?_ h0 hk
  have h : SameBut [.seams, .mem, .ctxs, .journal, .cores, .fabric, .chains, .counters, .free] s s := SameBut.refl _ _
  clear h0 hk
  unfold execStreamDefine
  try dsimp only
  repeat' first | (with_reducible first | assumption | apply streamDefineEff_same | apply sameX_next
                                        | apply same_foldl)
                | (with_reducible refine State.runOp_plain _ _ _ _ rfl ?_ ?_)
                | (with_reducible apply Within.mk; decide) | split | intro _ _ _ | intro _ _ | intro _

theorem execPrefetch_same {l : List Part} {s0 s : State} (h0 : SameBut l s0 s) (ctx : Nat) (seq : W32) 
 (hk : Within [.seams, .mem, .ctxs, .journal, .cores, .fabric, .chains, .starved, .counters, .trace, .belt,
     .stamps, .free] l) : SameX l s0 (execPrefetch ctx seq s) := by
  with_reducible refine SameX.step (k := [.seams, .mem, .ctxs, .journal, .cores, .fabric, .chains,
                     .starved, .counters, .trace, .belt, .stamps, .free]) ?_ h0 hk
  have h : SameBut [.seams, .mem, .ctxs, .journal, .cores, .fabric, .chains, .starved, .counters, .trace, .belt,
      .stamps, .free] s s := SameBut.refl _ _
  clear h0 hk
  unfold execPrefetch
  try dsimp only
  repeat' first | (with_reducible first | assumption | apply State.runOp_same | apply prefetchEff_same
                                        | apply sameX_next | apply same_foldl)
                | (with_reducible apply Within.mk; decide) | split | intro _ _ _ | intro _ _ | intro _

theorem execMulticast_same {l : List Part} {s0 s : State} (h0 : SameBut l s0 s) (ctx : Nat) (seq : W32) (detached
    : List (Nat × Nat))
 (hk : Within [.seams, .mem, .journal, .cores, .fabric, .chains, .starved, .counters, .trace, .belt, .stamps,
     .free] l) : SameX l s0 (execMulticast ctx seq detached s) := by
  with_reducible refine SameX.step (k := [.seams, .mem, .journal, .cores, .fabric, .chains,
                     .starved, .counters, .trace, .belt, .stamps, .free]) ?_ h0 hk
  have h : SameBut [.seams, .mem, .journal, .cores, .fabric, .chains, .starved, .counters, .trace, .belt, .stamps,
      .free] s s := SameBut.refl _ _
  clear h0 hk
  unfold execMulticast
  try dsimp only
  repeat' first | (with_reducible first | assumption | apply State.runOp_same | apply multicastEff_same
                                        | apply sameX_next | apply same_foldl)
                | (with_reducible apply Within.mk; decide) | split | intro _ _ _ | intro _ _ | intro _

theorem execGather_same {l : List Part} {s0 s : State} (h0 : SameBut l s0 s) (ctx : Nat) (seq : W32) (faults :
    List CoreFault)
 (hk : Within [.caps, .seams, .mem, .ctxs, .journal, .collar, .cores, .fabric, .chains, .starved, .counters,
     .trace, .belt, .lining, .i3c, .stamps, .free] l) : SameX l s0 (execGather ctx seq faults s) := by
  with_reducible refine SameX.step (k := [.caps, .seams, .mem, .ctxs, .journal, .collar, .cores,
                     .fabric, .chains, .starved, .counters, .trace, .belt, .lining, .i3c, .stamps, .free]) ?_ h0 hk
  have h : SameBut [.caps, .seams, .mem, .ctxs, .journal, .collar, .cores, .fabric, .chains, .starved, .counters,
      .trace, .belt, .lining, .i3c, .stamps, .free] s s := SameBut.refl _ _
  clear h0 hk
  unfold execGather
  try dsimp only
  repeat' first | (with_reducible first | assumption | apply State.runWork_same | apply sameX_next)
                | (with_reducible apply Within.mk; decide)

theorem execScatter_same {l : List Part} {s0 s : State} (h0 : SameBut l s0 s) (ctx : Nat) (seq : W32) (faults :
    List CoreFault)
 (hk : Within [.caps, .seams, .mem, .ctxs, .journal, .collar, .cores, .fabric, .chains, .starved, .counters,
     .trace, .belt, .lining, .i3c, .stamps, .free] l) : SameX l s0 (execScatter ctx seq faults s) := by
  with_reducible refine SameX.step (k := [.caps, .seams, .mem, .ctxs, .journal, .collar, .cores,
                     .fabric, .chains, .starved, .counters, .trace, .belt, .lining, .i3c, .stamps, .free]) ?_ h0 hk
  have h : SameBut [.caps, .seams, .mem, .ctxs, .journal, .collar, .cores, .fabric, .chains, .starved, .counters,
      .trace, .belt, .lining, .i3c, .stamps, .free] s s := SameBut.refl _ _
  clear h0 hk
  unfold execScatter
  try dsimp only
  repeat' first | (with_reducible first | assumption | apply State.runWork_same | apply sameX_next)
                | (with_reducible apply Within.mk; decide)

theorem execPocketWrite_same {l : List Part} {s0 s : State} (h0 : SameBut l s0 s) (ctx : Nat) (seq : W32) 
 (hk : Within [.caps, .seams, .mem, .ctxs, .journal, .collar, .cores, .fabric, .chains, .starved, .counters,
     .trace, .belt, .lining, .i3c, .stamps, .free] l) : SameX l s0 (execPocketWrite ctx seq s) := by
  with_reducible refine SameX.step (k := [.caps, .seams, .mem, .ctxs, .journal, .collar, .cores,
                     .fabric, .chains, .starved, .counters, .trace, .belt, .lining, .i3c, .stamps, .free]) ?_ h0 hk
  have h : SameBut [.caps, .seams, .mem, .ctxs, .journal, .collar, .cores, .fabric, .chains, .starved, .counters,
      .trace, .belt, .lining, .i3c, .stamps, .free] s s := SameBut.refl _ _
  clear h0 hk
  unfold execPocketWrite
  try dsimp only
  repeat' first | (with_reducible first | assumption | apply State.runWork_same | apply sameX_next)
                | (with_reducible apply Within.mk; decide)

theorem execPocketRead_same {l : List Part} {s0 s : State} (h0 : SameBut l s0 s) (ctx : Nat) (seq : W32) 
 (hk : Within [.caps, .seams, .mem, .ctxs, .journal, .collar, .cores, .fabric, .chains, .starved, .counters,
     .trace, .belt, .lining, .i3c, .stamps, .free] l) : SameX l s0 (execPocketRead ctx seq s) := by
  with_reducible refine SameX.step (k := [.caps, .seams, .mem, .ctxs, .journal, .collar, .cores,
                     .fabric, .chains, .starved, .counters, .trace, .belt, .lining, .i3c, .stamps, .free]) ?_ h0 hk
  have h : SameBut [.caps, .seams, .mem, .ctxs, .journal, .collar, .cores, .fabric, .chains, .starved, .counters,
      .trace, .belt, .lining, .i3c, .stamps, .free] s s := SameBut.refl _ _
  clear h0 hk
  unfold execPocketRead
  try dsimp only
  repeat' first | (with_reducible first | assumption | apply State.runWork_same | apply sameX_next)
                | (with_reducible apply Within.mk; decide)

theorem execMmFwd_same {l : List Part} {s0 s : State} (h0 : SameBut l s0 s) (ctx : Nat) (seq : W32) (faults : List
    CoreFault)
 (hk : Within [.caps, .seams, .mem, .ctxs, .journal, .collar, .cores, .fabric, .chains, .starved, .counters,
     .trace, .belt, .lining, .i3c, .stamps, .free] l) : SameX l s0 (execMmFwd ctx seq faults s) := by
  with_reducible refine SameX.step (k := [.caps, .seams, .mem, .ctxs, .journal, .collar, .cores,
                     .fabric, .chains, .starved, .counters, .trace, .belt, .lining, .i3c, .stamps, .free]) ?_ h0 hk
  have h : SameBut [.caps, .seams, .mem, .ctxs, .journal, .collar, .cores, .fabric, .chains, .starved, .counters,
      .trace, .belt, .lining, .i3c, .stamps, .free] s s := SameBut.refl _ _
  clear h0 hk
  unfold execMmFwd
  try dsimp only
  repeat' first | (with_reducible first | assumption | apply State.runWork_same | apply sameX_next)
                | (with_reducible apply Within.mk; decide)

theorem execMmDx_same {l : List Part} {s0 s : State} (h0 : SameBut l s0 s) (ctx : Nat) (seq : W32) (faults : List
    CoreFault)
 (hk : Within [.caps, .seams, .mem, .ctxs, .journal, .collar, .cores, .fabric, .chains, .starved, .counters,
     .trace, .belt, .lining, .i3c, .stamps, .free] l) : SameX l s0 (execMmDx ctx seq faults s) := by
  with_reducible refine SameX.step (k := [.caps, .seams, .mem, .ctxs, .journal, .collar, .cores,
                     .fabric, .chains, .starved, .counters, .trace, .belt, .lining, .i3c, .stamps, .free]) ?_ h0 hk
  have h : SameBut [.caps, .seams, .mem, .ctxs, .journal, .collar, .cores, .fabric, .chains, .starved, .counters,
      .trace, .belt, .lining, .i3c, .stamps, .free] s s := SameBut.refl _ _
  clear h0 hk
  unfold execMmDx
  try dsimp only
  repeat' first | (with_reducible first | assumption | apply State.runWork_same | apply sameX_next)
                | (with_reducible apply Within.mk; decide)

theorem execMmDw_same {l : List Part} {s0 s : State} (h0 : SameBut l s0 s) (ctx : Nat) (seq : W32) (faults : List
    CoreFault)
 (hk : Within [.caps, .seams, .mem, .ctxs, .journal, .collar, .cores, .fabric, .chains, .starved, .counters,
     .trace, .belt, .lining, .i3c, .stamps, .free] l) : SameX l s0 (execMmDw ctx seq faults s) := by
  with_reducible refine SameX.step (k := [.caps, .seams, .mem, .ctxs, .journal, .collar, .cores,
                     .fabric, .chains, .starved, .counters, .trace, .belt, .lining, .i3c, .stamps, .free]) ?_ h0 hk
  have h : SameBut [.caps, .seams, .mem, .ctxs, .journal, .collar, .cores, .fabric, .chains, .starved, .counters,
      .trace, .belt, .lining, .i3c, .stamps, .free] s s := SameBut.refl _ _
  clear h0 hk
  unfold execMmDw
  try dsimp only
  repeat' first | (with_reducible first | assumption | apply State.runWork_same | apply sameX_next)
                | (with_reducible apply Within.mk; decide)

theorem execMmConvFwd_same {l : List Part} {s0 s : State} (h0 : SameBut l s0 s) (ctx : Nat) (seq : W32) (faults :
    List CoreFault)
 (hk : Within [.caps, .seams, .mem, .ctxs, .journal, .collar, .cores, .fabric, .chains, .starved, .counters,
     .trace, .belt, .lining, .i3c, .stamps, .free] l) : SameX l s0 (execMmConvFwd ctx seq faults s) := by
  with_reducible refine SameX.step (k := [.caps, .seams, .mem, .ctxs, .journal, .collar, .cores,
                     .fabric, .chains, .starved, .counters, .trace, .belt, .lining, .i3c, .stamps, .free]) ?_ h0 hk
  have h : SameBut [.caps, .seams, .mem, .ctxs, .journal, .collar, .cores, .fabric, .chains, .starved, .counters,
      .trace, .belt, .lining, .i3c, .stamps, .free] s s := SameBut.refl _ _
  clear h0 hk
  unfold execMmConvFwd
  try dsimp only
  repeat' first | (with_reducible first | assumption | apply State.runWork_same | apply sameX_next)
                | (with_reducible apply Within.mk; decide)

theorem execMmConvDx_same {l : List Part} {s0 s : State} (h0 : SameBut l s0 s) (ctx : Nat) (seq : W32) (faults :
    List CoreFault)
 (hk : Within [.caps, .seams, .mem, .ctxs, .journal, .collar, .cores, .fabric, .chains, .starved, .counters,
     .trace, .belt, .lining, .i3c, .stamps, .free] l) : SameX l s0 (execMmConvDx ctx seq faults s) := by
  with_reducible refine SameX.step (k := [.caps, .seams, .mem, .ctxs, .journal, .collar, .cores,
                     .fabric, .chains, .starved, .counters, .trace, .belt, .lining, .i3c, .stamps, .free]) ?_ h0 hk
  have h : SameBut [.caps, .seams, .mem, .ctxs, .journal, .collar, .cores, .fabric, .chains, .starved, .counters,
      .trace, .belt, .lining, .i3c, .stamps, .free] s s := SameBut.refl _ _
  clear h0 hk
  unfold execMmConvDx
  try dsimp only
  repeat' first | (with_reducible first | assumption | apply State.runWork_same | apply sameX_next)
                | (with_reducible apply Within.mk; decide)

theorem execMmConvDw_same {l : List Part} {s0 s : State} (h0 : SameBut l s0 s) (ctx : Nat) (seq : W32) (faults :
    List CoreFault)
 (hk : Within [.caps, .seams, .mem, .ctxs, .journal, .collar, .cores, .fabric, .chains, .starved, .counters,
     .trace, .belt, .lining, .i3c, .stamps, .free] l) : SameX l s0 (execMmConvDw ctx seq faults s) := by
  with_reducible refine SameX.step (k := [.caps, .seams, .mem, .ctxs, .journal, .collar, .cores,
                     .fabric, .chains, .starved, .counters, .trace, .belt, .lining, .i3c, .stamps, .free]) ?_ h0 hk
  have h : SameBut [.caps, .seams, .mem, .ctxs, .journal, .collar, .cores, .fabric, .chains, .starved, .counters,
      .trace, .belt, .lining, .i3c, .stamps, .free] s s := SameBut.refl _ _
  clear h0 hk
  unfold execMmConvDw
  try dsimp only
  repeat' first | (with_reducible first | assumption | apply State.runWork_same | apply sameX_next)
                | (with_reducible apply Within.mk; decide)

theorem execMmDist_same {l : List Part} {s0 s : State} (h0 : SameBut l s0 s) (ctx : Nat) (seq : W32) (faults :
    List CoreFault)
 (hk : Within [.caps, .seams, .mem, .ctxs, .journal, .collar, .cores, .fabric, .chains, .starved, .counters,
     .trace, .belt, .lining, .i3c, .stamps, .free] l) : SameX l s0 (execMmDist ctx seq faults s) := by
  with_reducible refine SameX.step (k := [.caps, .seams, .mem, .ctxs, .journal, .collar, .cores,
                     .fabric, .chains, .starved, .counters, .trace, .belt, .lining, .i3c, .stamps, .free]) ?_ h0 hk
  have h : SameBut [.caps, .seams, .mem, .ctxs, .journal, .collar, .cores, .fabric, .chains, .starved, .counters,
      .trace, .belt, .lining, .i3c, .stamps, .free] s s := SameBut.refl _ _
  clear h0 hk
  unfold execMmDist
  try dsimp only
  repeat' first | (with_reducible first | assumption | apply State.runWork_same | apply sameX_next)
                | (with_reducible apply Within.mk; decide)

theorem execMmSafe_same {l : List Part} {s0 s : State} (h0 : SameBut l s0 s) (ctx : Nat) (seq : W32) (faults :
    List CoreFault)
 (hk : Within [.caps, .seams, .mem, .ctxs, .journal, .collar, .cores, .fabric, .chains, .starved, .counters,
     .trace, .belt, .lining, .i3c, .stamps, .free] l) : SameX l s0 (execMmSafe ctx seq faults s) := by
  with_reducible refine SameX.step (k := [.caps, .seams, .mem, .ctxs, .journal, .collar, .cores,
                     .fabric, .chains, .starved, .counters, .trace, .belt, .lining, .i3c, .stamps, .free]) ?_ h0 hk
  have h : SameBut [.caps, .seams, .mem, .ctxs, .journal, .collar, .cores, .fabric, .chains, .starved, .counters,
      .trace, .belt, .lining, .i3c, .stamps, .free] s s := SameBut.refl _ _
  clear h0 hk
  unfold execMmSafe
  try dsimp only
  repeat' first | (with_reducible first | assumption | apply State.runWork_same | apply sameX_next)
                | (with_reducible apply Within.mk; decide)

theorem execVecOp_same {l : List Part} {s0 s : State} (h0 : SameBut l s0 s) (ctx : Nat) (seq : W32) (faults : List
    CoreFault)
 (hk : Within [.caps, .seams, .mem, .ctxs, .journal, .collar, .cores, .fabric, .chains, .starved, .counters,
     .trace, .belt, .lining, .i3c, .stamps, .free] l) : SameX l s0 (execVecOp ctx seq faults s) := by
  with_reducible refine SameX.step (k := [.caps, .seams, .mem, .ctxs, .journal, .collar, .cores,
                     .fabric, .chains, .starved, .counters, .trace, .belt, .lining, .i3c, .stamps, .free]) ?_ h0 hk
  have h : SameBut [.caps, .seams, .mem, .ctxs, .journal, .collar, .cores, .fabric, .chains, .starved, .counters,
      .trace, .belt, .lining, .i3c, .stamps, .free] s s := SameBut.refl _ _
  clear h0 hk
  unfold execVecOp
  try dsimp only
  repeat' first | (with_reducible first | assumption | apply State.runWork_same | apply sameX_next)
                | (with_reducible apply Within.mk; decide)

theorem execSoftmaxBwd_same {l : List Part} {s0 s : State} (h0 : SameBut l s0 s) (ctx : Nat) (seq : W32) (faults :
    List CoreFault)
 (hk : Within [.caps, .seams, .mem, .ctxs, .journal, .collar, .cores, .fabric, .chains, .starved, .counters,
     .trace, .belt, .lining, .i3c, .stamps, .free] l) : SameX l s0 (execSoftmaxBwd ctx seq faults s) := by
  with_reducible refine SameX.step (k := [.caps, .seams, .mem, .ctxs, .journal, .collar, .cores,
                     .fabric, .chains, .starved, .counters, .trace, .belt, .lining, .i3c, .stamps, .free]) ?_ h0 hk
  have h : SameBut [.caps, .seams, .mem, .ctxs, .journal, .collar, .cores, .fabric, .chains, .starved, .counters,
      .trace, .belt, .lining, .i3c, .stamps, .free] s s := SameBut.refl _ _
  clear h0 hk
  unfold execSoftmaxBwd
  try dsimp only
  repeat' first | (with_reducible first | assumption | apply State.runWork_same | apply sameX_next)
                | (with_reducible apply Within.mk; decide)

theorem execNormBwd_same {l : List Part} {s0 s : State} (h0 : SameBut l s0 s) (ctx : Nat) (seq : W32) (faults :
    List CoreFault)
 (hk : Within [.caps, .seams, .mem, .ctxs, .journal, .collar, .cores, .fabric, .chains, .starved, .counters,
     .trace, .belt, .lining, .i3c, .stamps, .free] l) : SameX l s0 (execNormBwd ctx seq faults s) := by
  with_reducible refine SameX.step (k := [.caps, .seams, .mem, .ctxs, .journal, .collar, .cores,
                     .fabric, .chains, .starved, .counters, .trace, .belt, .lining, .i3c, .stamps, .free]) ?_ h0 hk
  have h : SameBut [.caps, .seams, .mem, .ctxs, .journal, .collar, .cores, .fabric, .chains, .starved, .counters,
      .trace, .belt, .lining, .i3c, .stamps, .free] s s := SameBut.refl _ _
  clear h0 hk
  unfold execNormBwd
  try dsimp only
  repeat' first | (with_reducible first | assumption | apply State.runWork_same | apply sameX_next)
                | (with_reducible apply Within.mk; decide)

theorem execMaskPack_same {l : List Part} {s0 s : State} (h0 : SameBut l s0 s) (ctx : Nat) (seq : W32) (faults :
    List CoreFault)
 (hk : Within [.caps, .seams, .mem, .ctxs, .journal, .collar, .cores, .fabric, .chains, .starved, .counters,
     .trace, .belt, .lining, .i3c, .stamps, .free] l) : SameX l s0 (execMaskPack ctx seq faults s) := by
  with_reducible refine SameX.step (k := [.caps, .seams, .mem, .ctxs, .journal, .collar, .cores,
                     .fabric, .chains, .starved, .counters, .trace, .belt, .lining, .i3c, .stamps, .free]) ?_ h0 hk
  have h : SameBut [.caps, .seams, .mem, .ctxs, .journal, .collar, .cores, .fabric, .chains, .starved, .counters,
      .trace, .belt, .lining, .i3c, .stamps, .free] s s := SameBut.refl _ _
  clear h0 hk
  unfold execMaskPack
  try dsimp only
  repeat' first | (with_reducible first | assumption | apply State.runWork_same | apply sameX_next)
                | (with_reducible apply Within.mk; decide)

theorem execTieSum_same {l : List Part} {s0 s : State} (h0 : SameBut l s0 s) (ctx : Nat) (seq : W32) (faults :
    List CoreFault)
 (hk : Within [.caps, .seams, .mem, .ctxs, .journal, .collar, .cores, .fabric, .chains, .starved, .counters,
     .trace, .belt, .lining, .i3c, .stamps, .free] l) : SameX l s0 (execTieSum ctx seq faults s) := by
  with_reducible refine SameX.step (k := [.caps, .seams, .mem, .ctxs, .journal, .collar, .cores,
                     .fabric, .chains, .starved, .counters, .trace, .belt, .lining, .i3c, .stamps, .free]) ?_ h0 hk
  have h : SameBut [.caps, .seams, .mem, .ctxs, .journal, .collar, .cores, .fabric, .chains, .starved, .counters,
      .trace, .belt, .lining, .i3c, .stamps, .free] s s := SameBut.refl _ _
  clear h0 hk
  unfold execTieSum
  try dsimp only
  repeat' first | (with_reducible first | assumption | apply State.runWork_same | apply sameX_next)
                | (with_reducible apply Within.mk; decide)

theorem execUpdate_same {l : List Part} {s0 s : State} (h0 : SameBut l s0 s) (ctx : Nat) (seq : W32) (faults :
    List CoreFault) (gussetFaults : List GussetFault)
 (hk : Within [.caps, .seams, .mem, .ctxs, .journal, .collar, .cores, .sleeves, .fabric, .chains, .starved,
     .counters, .trace, .belt, .lining, .i3c, .stamps, .free] l) : SameX l s0 (execUpdate ctx seq faults gussetFaults
     s) := by
  with_reducible refine SameX.step (k := [.caps, .seams, .mem, .ctxs, .journal, .collar, .cores,
                     .sleeves, .fabric, .chains, .starved, .counters, .trace, .belt, .lining, .i3c, .stamps, .free])
                     ?_ h0 hk
  have h : SameBut [.caps, .seams, .mem, .ctxs, .journal, .collar, .cores, .sleeves, .fabric, .chains, .starved,
      .counters, .trace, .belt, .lining, .i3c, .stamps, .free] s s := SameBut.refl _ _
  clear h0 hk
  unfold execUpdate
  try dsimp only
  repeat' first | (with_reducible first | assumption | apply State.runGusset_same | apply sameX_next)
                | (with_reducible apply Within.mk; decide)

theorem execUpdateRows_same {l : List Part} {s0 s : State} (h0 : SameBut l s0 s) (ctx : Nat) (seq : W32) (faults :
    List CoreFault)
 (hk : Within [.caps, .seams, .mem, .ctxs, .journal, .collar, .cores, .fabric, .chains, .starved, .counters,
     .trace, .belt, .lining, .i3c, .stamps, .free] l) : SameX l s0 (execUpdateRows ctx seq faults s) := by
  with_reducible refine SameX.step (k := [.caps, .seams, .mem, .ctxs, .journal, .collar, .cores,
                     .fabric, .chains, .starved, .counters, .trace, .belt, .lining, .i3c, .stamps, .free]) ?_ h0 hk
  have h : SameBut [.caps, .seams, .mem, .ctxs, .journal, .collar, .cores, .fabric, .chains, .starved, .counters,
      .trace, .belt, .lining, .i3c, .stamps, .free] s s := SameBut.refl _ _
  clear h0 hk
  unfold execUpdateRows
  try dsimp only
  repeat' first | (with_reducible first | assumption | apply State.runWork_same | apply sameX_next)
                | (with_reducible apply Within.mk; decide)

theorem execPrecondFactor_same {l : List Part} {s0 s : State} (h0 : SameBut l s0 s) (ctx : Nat) (seq : W32)
    (faults : List CoreFault) (gussetFaults : List GussetFault)
 (hk : Within [.caps, .seams, .mem, .ctxs, .journal, .collar, .cores, .sleeves, .fabric, .chains, .starved,
     .counters, .trace, .belt, .lining, .i3c, .stamps, .free] l) : SameX l s0 (execPrecondFactor ctx seq faults
     gussetFaults s) := by
  with_reducible refine SameX.step (k := [.caps, .seams, .mem, .ctxs, .journal, .collar, .cores,
                     .sleeves, .fabric, .chains, .starved, .counters, .trace, .belt, .lining, .i3c, .stamps, .free])
                     ?_ h0 hk
  have h : SameBut [.caps, .seams, .mem, .ctxs, .journal, .collar, .cores, .sleeves, .fabric, .chains, .starved,
      .counters, .trace, .belt, .lining, .i3c, .stamps, .free] s s := SameBut.refl _ _
  clear h0 hk
  unfold execPrecondFactor
  try dsimp only
  repeat' first | (with_reducible first | assumption | apply State.runGusset_same | apply sameX_next)
                | (with_reducible apply Within.mk; decide)

theorem execVersionRelease_same {l : List Part} {s0 s : State} (h0 : SameBut l s0 s) (ctx : Nat) (seq : W32) 
 (hk : Within [.seams, .mem, .journal, .retained, .cores, .fabric, .chains, .counters, .free] l) : SameX l s0
     (execVersionRelease ctx seq s) := by
  with_reducible refine SameX.step (k := [.seams, .mem, .journal, .retained, .cores, .fabric,
                     .chains, .counters, .free]) ?_ h0 hk
  have h : SameBut [.seams, .mem, .journal, .retained, .cores, .fabric, .chains, .counters, .free] s s :=
      SameBut.refl _ _
  clear h0 hk
  unfold execVersionRelease
  try dsimp only
  repeat' first | (with_reducible first | assumption | apply versionReleaseEff_same | apply sameX_next
                                        | apply same_foldl)
                | (with_reducible refine State.runOp_plain _ _ _ _ rfl ?_ ?_)
                | (with_reducible apply Within.mk; decide) | split | intro _ _ _ | intro _ _ | intro _

theorem execRyRoundOpen_same {l : List Part} {s0 s : State} (h0 : SameBut l s0 s) (ctx : Nat) (seq : W32) 
 (hk : Within [.seams, .mem, .journal, .cores, .fabric, .chains, .groups, .counters, .trace, .free] l) : SameX l
     s0 (execRyRoundOpen ctx seq s) := by
  with_reducible refine SameX.step (k := [.seams, .mem, .journal, .cores, .fabric, .chains,
                     .groups, .counters, .trace, .free]) ?_ h0 hk
  have h : SameBut [.seams, .mem, .journal, .cores, .fabric, .chains, .groups, .counters, .trace, .free] s s :=
      SameBut.refl _ _
  clear h0 hk
  unfold execRyRoundOpen
  try dsimp only
  repeat' first | (with_reducible first | assumption | apply State.openRound_same | apply ryRoundOpenWork_same
                                        | apply sameX_next | apply same_foldl)
                | (with_reducible refine State.runOp_plain _ _ _ _ rfl ?_ ?_)
                | (with_reducible apply Within.mk; decide) | split | intro _ _ _ | intro _ _ | intro _

theorem execRyContribute_same {l : List Part} {s0 s : State} (h0 : SameBut l s0 s) (ctx : Nat) (seq : W32) 
 (hk : Within [.caps, .ready, .seams, .mem, .ctxs, .journal, .collar, .cores, .fabric, .chains, .groups,
     .counters, .trace, .belt, .lining, .i3c, .free] l) : SameX l s0 (execRyContribute ctx seq s) := by
  with_reducible refine SameX.step (k := [.caps, .ready, .seams, .mem, .ctxs, .journal, .collar,
                     .cores, .fabric, .chains, .groups, .counters, .trace, .belt, .lining, .i3c, .free]) ?_ h0 hk
  have h : SameBut [.caps, .ready, .seams, .mem, .ctxs, .journal, .collar, .cores, .fabric, .chains, .groups,
      .counters, .trace, .belt, .lining, .i3c, .free] s s := SameBut.refl _ _
  clear h0 hk
  unfold execRyContribute
  try dsimp only
  repeat' first | (with_reducible first | assumption | apply State.startOrSettle_same
                                        | apply State.roundWork_same | apply ryContributeWork_same
                                        | apply sameX_next | apply same_foldl)
                | (with_reducible apply Within.mk; decide) | split

theorem execRyHop_same {l : List Part} {s0 s : State} (h0 : SameBut l s0 s) (ctx : Nat) (seq : W32) (adderFaults :
    List Nat)
 (hk : Within [.caps, .ready, .seams, .mem, .ctxs, .journal, .collar, .cores, .fabric, .chains, .groups,
     .counters, .trace, .belt, .lining, .i3c, .free] l) : SameX l s0 (execRyHop ctx seq adderFaults s) := by
  with_reducible refine SameX.step (k := [.caps, .ready, .seams, .mem, .ctxs, .journal, .collar,
                     .cores, .fabric, .chains, .groups, .counters, .trace, .belt, .lining, .i3c, .free]) ?_ h0 hk
  have h : SameBut [.caps, .ready, .seams, .mem, .ctxs, .journal, .collar, .cores, .fabric, .chains, .groups,
      .counters, .trace, .belt, .lining, .i3c, .free] s s := SameBut.refl _ _
  clear h0 hk
  unfold execRyHop
  try dsimp only
  repeat' first | (with_reducible first | assumption | apply State.ryAgain_same | apply State.startOrSettle_same
                                        | apply State.roundWork_same | apply ryHopWork_same | apply sameX_next
                                        | apply same_foldl) | (with_reducible apply Within.mk; decide) | split

theorem execRyOwn_same {l : List Part} {s0 s : State} (h0 : SameBut l s0 s) (ctx : Nat) (seq : W32) 
 (hk : Within [.caps, .ready, .seams, .mem, .ctxs, .journal, .collar, .cores, .fabric, .chains, .groups,
     .counters, .trace, .belt, .lining, .i3c, .free] l) : SameX l s0 (execRyOwn ctx seq s) := by
  with_reducible refine SameX.step (k := [.caps, .ready, .seams, .mem, .ctxs, .journal, .collar,
                     .cores, .fabric, .chains, .groups, .counters, .trace, .belt, .lining, .i3c, .free]) ?_ h0 hk
  have h : SameBut [.caps, .ready, .seams, .mem, .ctxs, .journal, .collar, .cores, .fabric, .chains, .groups,
      .counters, .trace, .belt, .lining, .i3c, .free] s s := SameBut.refl _ _
  clear h0 hk
  unfold execRyOwn
  try dsimp only
  repeat' first | (with_reducible first | assumption | apply State.ryAgain_same | apply State.startOrSettle_same
                                        | apply State.roundWork_same | apply ryOwnWork_same | apply sameX_next
                                        | apply same_foldl) | (with_reducible apply Within.mk; decide) | split

theorem execRyRoundClose_same {l : List Part} {s0 s : State} (h0 : SameBut l s0 s) (ctx : Nat) (seq : W32) 
 (hk : Within [.caps, .seams, .mem, .ctxs, .journal, .collar, .cores, .fabric, .chains, .starved, .groups,
     .counters, .trace, .belt, .lining, .i3c, .stamps, .free] l) : SameX l s0 (execRyRoundClose ctx seq s) := by
  with_reducible refine SameX.step (k := [.caps, .seams, .mem, .ctxs, .journal, .collar, .cores,
                     .fabric, .chains, .starved, .groups, .counters, .trace, .belt, .lining, .i3c, .stamps, .free]) ?_
                     h0 hk
  have h : SameBut [.caps, .seams, .mem, .ctxs, .journal, .collar, .cores, .fabric, .chains, .starved, .groups,
      .counters, .trace, .belt, .lining, .i3c, .stamps, .free] s s := SameBut.refl _ _
  clear h0 hk
  unfold execRyRoundClose
  split
  · exact h
  · extract_lets s1
    have h1 : SameBut [.caps, .seams, .mem, .ctxs, .journal, .collar, .cores, .fabric, .chains, .starved, .groups,
        .counters, .trace, .belt, .lining, .i3c, .stamps, .free] s s1 := by
      unfold s1
      split
      · split
        · exact State.abortRound_same h _ _ _ (by decide)
        · exact h
      · exact h
    clear_value s1
    have g := State.runWork_same h1 .ryRoundClose ctx seq [] roundClosePlan (by decide)
    split
    · exact sameX_next (State.afterClose_same (sameX_of (by assumption) g) _ _ (by decide))
    · exact g


theorem execRyParamSend_same {l : List Part} {s0 s : State} (h0 : SameBut l s0 s) (ctx : Nat) (seq : W32) 
 (hk : Within [.seams, .mem, .journal, .cores, .fabric, .chains, .groups, .counters, .lining, .free] l) : SameX l
     s0 (execRyParamSend ctx seq s) := by
  with_reducible refine SameX.step (k := [.seams, .mem, .journal, .cores, .fabric, .chains,
                     .groups, .counters, .lining, .free]) ?_ h0 hk
  have h : SameBut [.seams, .mem, .journal, .cores, .fabric, .chains, .groups, .counters, .lining, .free] s s :=
      SameBut.refl _ _
  clear h0 hk
  unfold execRyParamSend
  try dsimp only
  repeat' first | (with_reducible first | assumption | apply ryParamSendWork_same | apply sameX_next
                                        | apply same_foldl)
                | (with_reducible refine State.runOp_plain _ _ _ _ rfl ?_ ?_)
                | (with_reducible apply Within.mk; decide) | split | intro _ _ _ | intro _ _ | intro _

theorem execRyParamRecv_same {l : List Part} {s0 s : State} (h0 : SameBut l s0 s) (ctx : Nat) (seq : W32) 
 (hk : Within [.caps, .seams, .mem, .ctxs, .journal, .collar, .cores, .fabric, .chains, .starved, .groups,
     .counters, .trace, .belt, .lining, .i3c, .stamps, .free] l) : SameX l s0 (execRyParamRecv ctx seq s) := by
  with_reducible refine SameX.step (k := [.caps, .seams, .mem, .ctxs, .journal, .collar, .cores,
                     .fabric, .chains, .starved, .groups, .counters, .trace, .belt, .lining, .i3c, .stamps, .free]) ?_
                     h0 hk
  have h : SameBut [.caps, .seams, .mem, .ctxs, .journal, .collar, .cores, .fabric, .chains, .starved, .groups,
      .counters, .trace, .belt, .lining, .i3c, .stamps, .free] s s := SameBut.refl _ _
  clear h0 hk

  unfold execRyParamRecv
  split
  · exact h
  · split
    · exact sameO_of (by assumption) (State.lapBegin_same h _ (by decide))
    · have g := State.runWork_same h .ryParamRecv ctx seq [] ryParamRecvPlan (by decide)
      split
      · exact sameX_next (State.lapFailed_same (sameX_of (by assumption) g) _ (by decide))
      · exact g


theorem execGovBounds_same {l : List Part} {s0 s : State} (h0 : SameBut l s0 s) (ctx : Nat) (seq : W32) 
 (hk : Within [.seams, .mem, .ctxs, .journal, .cores, .fabric, .chains, .counters, .trace, .free] l) : SameX l s0
     (execGovBounds ctx seq s) := by
  with_reducible refine SameX.step (k := [.seams, .mem, .ctxs, .journal, .cores, .fabric, .chains,
                     .counters, .trace, .free]) ?_ h0 hk
  have h : SameBut [.seams, .mem, .ctxs, .journal, .cores, .fabric, .chains, .counters, .trace, .free] s s :=
      SameBut.refl _ _
  clear h0 hk
  unfold execGovBounds
  try dsimp only
  repeat' first | (with_reducible first | assumption | apply govBoundsWork_same | apply sameX_next
                                        | apply same_foldl)
                | (with_reducible refine State.runOp_plain _ _ _ _ rfl ?_ ?_)
                | (with_reducible apply Within.mk; decide) | split | intro _ _ _ | intro _ _ | intro _

theorem execGovRead_same {l : List Part} {s0 s : State} (h0 : SameBut l s0 s) (ctx : Nat) (seq : W32) 
 (hk : Within [.seams, .mem, .ctxs, .journal, .cores, .fabric, .chains, .counters, .lining, .free] l) : SameX l s0
     (execGovRead ctx seq s) := by
  with_reducible refine SameX.step (k := [.seams, .mem, .ctxs, .journal, .cores, .fabric, .chains,
                     .counters, .lining, .free]) ?_ h0 hk
  have h : SameBut [.seams, .mem, .ctxs, .journal, .cores, .fabric, .chains, .counters, .lining, .free] s s :=
      SameBut.refl _ _
  clear h0 hk
  unfold execGovRead
  try dsimp only
  repeat' first | (with_reducible first | assumption | apply govReadWork_same | apply sameX_next
                                        | apply same_foldl)
                | (with_reducible refine State.runOp_plain _ _ _ _ rfl ?_ ?_)
                | (with_reducible apply Within.mk; decide) | split | intro _ _ _ | intro _ _ | intro _

theorem execGovStep_same {l : List Part} {s0 s : State} (h0 : SameBut l s0 s) (ctx : Nat) (seq : W32) 
 (hk : Within [.seams, .mem, .ctxs, .journal, .cores, .fabric, .chains, .counters, .trace, .free] l) : SameX l s0
     (execGovStep ctx seq s) := by
  with_reducible refine SameX.step (k := [.seams, .mem, .ctxs, .journal, .cores, .fabric, .chains,
                     .counters, .trace, .free]) ?_ h0 hk
  have h : SameBut [.seams, .mem, .ctxs, .journal, .cores, .fabric, .chains, .counters, .trace, .free] s s :=
      SameBut.refl _ _
  clear h0 hk
  unfold execGovStep
  try dsimp only
  repeat' first | (with_reducible first | assumption | apply govStepWork_same | apply sameX_next
                                        | apply same_foldl)
                | (with_reducible refine State.runOp_plain _ _ _ _ rfl ?_ ?_)
                | (with_reducible apply Within.mk; decide) | split | intro _ _ _ | intro _ _ | intro _

theorem execSchedLoad_same {l : List Part} {s0 s : State} (h0 : SameBut l s0 s) (ctx : Nat) (seq : W32) 
 (hk : Within [.seams, .mem, .ctxs, .journal, .cores, .fabric, .chains, .counters, .free] l) : SameX l s0
     (execSchedLoad ctx seq s) := by
  with_reducible refine SameX.step (k := [.seams, .mem, .ctxs, .journal, .cores, .fabric, .chains,
                     .counters, .free]) ?_ h0 hk
  have h : SameBut [.seams, .mem, .ctxs, .journal, .cores, .fabric, .chains, .counters, .free] s s := SameBut.refl _ _
  clear h0 hk
  unfold execSchedLoad
  try dsimp only
  repeat' first | (with_reducible first | assumption | apply schedLoadWork_same | apply sameX_next
                                        | apply same_foldl)
                | (with_reducible refine State.runOp_plain _ _ _ _ rfl ?_ ?_)
                | (with_reducible apply Within.mk; decide) | split | intro _ _ _ | intro _ _ | intro _

theorem execSchedArm_same {l : List Part} {s0 s : State} (h0 : SameBut l s0 s) (ctx : Nat) (seq : W32) 
 (hk : Within [.mem, .ctxs, .journal, .cores, .fabric, .chains, .counters, .trace, .free] l) : SameX l s0
     (execSchedArm ctx seq s) := by
  with_reducible refine SameX.step (k := [.mem, .ctxs, .journal, .cores, .fabric, .chains,
                     .counters, .trace, .free]) ?_ h0 hk
  have h : SameBut [.mem, .ctxs, .journal, .cores, .fabric, .chains, .counters, .trace, .free] s s := SameBut.refl _ _
  clear h0 hk
  unfold execSchedArm
  try dsimp only
  repeat' first | (with_reducible first | assumption | apply schedArmWork_same | apply sameX_next
                                        | apply same_foldl)
                | (with_reducible refine State.runOp_narrow _ _ _ _ rfl ?_ ?_)
                | (with_reducible apply Within.mk; decide) | split | intro _ _ _ | intro _ _ | intro _

theorem execSealImport_same {l : List Part} {s0 s : State} (h0 : SameBut l s0 s) (ctx : Nat) (seq : W32) 
 (hk : Within [.seams, .mem, .journal, .cores, .fabric, .chains, .counters, .lining, .free] l) : SameX l s0
     (execSealImport ctx seq s) := by
  with_reducible refine SameX.step (k := [.seams, .mem, .journal, .cores, .fabric, .chains,
                     .counters, .lining, .free]) ?_ h0 hk
  have h : SameBut [.seams, .mem, .journal, .cores, .fabric, .chains, .counters, .lining, .free] s s :=
      SameBut.refl _ _
  clear h0 hk
  unfold execSealImport
  try dsimp only
  repeat' first | (with_reducible first | assumption | apply sealImportWork_same | apply sameX_next
                                        | apply same_foldl)
                | (with_reducible refine State.runOp_plain _ _ _ _ rfl ?_ ?_)
                | (with_reducible apply Within.mk; decide) | split | intro _ _ _ | intro _ _ | intro _

theorem execAttest_same {l : List Part} {s0 s : State} (h0 : SameBut l s0 s) (ctx : Nat) (seq : W32) 
 (hk : Within [.seams, .mem, .ctxs, .journal, .cores, .fabric, .chains, .counters, .lining, .free] l) : SameX l s0
     (execAttest ctx seq s) := by
  with_reducible refine SameX.step (k := [.seams, .mem, .ctxs, .journal, .cores, .fabric, .chains,
                     .counters, .lining, .free]) ?_ h0 hk
  have h : SameBut [.seams, .mem, .ctxs, .journal, .cores, .fabric, .chains, .counters, .lining, .free] s s :=
      SameBut.refl _ _
  clear h0 hk
  unfold execAttest
  try dsimp only
  repeat' first | (with_reducible first | assumption | apply attestWork_same | apply sameX_next
                                        | apply same_foldl)
                | (with_reducible refine State.runOp_plain _ _ _ _ rfl ?_ ?_)
                | (with_reducible apply Within.mk; decide) | split | intro _ _ _ | intro _ _ | intro _

theorem execRoleSession_same {l : List Part} {s0 s : State} (h0 : SameBut l s0 s) (ctx : Nat) (seq : W32) 
 (hk : Within [.seams, .mem, .ctxs, .journal, .cores, .fabric, .chains, .counters, .lining, .free] l) : SameX l s0
     (execRoleSession ctx seq s) := by
  with_reducible refine SameX.step (k := [.seams, .mem, .ctxs, .journal, .cores, .fabric, .chains,
                     .counters, .lining, .free]) ?_ h0 hk
  have h : SameBut [.seams, .mem, .ctxs, .journal, .cores, .fabric, .chains, .counters, .lining, .free] s s :=
      SameBut.refl _ _
  clear h0 hk
  unfold execRoleSession
  try dsimp only
  repeat' first | (with_reducible first | assumption | apply roleSessionWork_same | apply sameX_next
                                        | apply same_foldl)
                | (with_reducible refine State.runOp_plain _ _ _ _ rfl ?_ ?_)
                | (with_reducible apply Within.mk; decide) | split | intro _ _ _ | intro _ _ | intro _

theorem execProfileLoad_same {l : List Part} {s0 s : State} (h0 : SameBut l s0 s) (ctx : Nat) (seq : W32) 
 (hk : Within [.caps, .ready, .boot, .stks, .seams, .mem, .journal, .cores, .sleeves, .fabric, .chains, .counters,
     .belt, .lining, .i3c, .free] l) : SameX l s0 (execProfileLoad ctx seq s) := by
  with_reducible refine SameX.step (k := [.caps, .ready, .boot, .stks, .seams, .mem, .journal,
                     .cores, .sleeves, .fabric, .chains, .counters, .belt, .lining, .i3c, .free]) ?_ h0 hk
  have h : SameBut [.caps, .ready, .boot, .stks, .seams, .mem, .journal, .cores, .sleeves, .fabric, .chains,
      .counters, .belt, .lining, .i3c, .free] s s := SameBut.refl _ _
  clear h0 hk
  unfold execProfileLoad
  try dsimp only
  repeat' first | (with_reducible first | assumption | apply profileLoadWork_same | apply sameX_next
                                        | apply same_foldl)
                | (with_reducible refine State.runOp_plain _ _ _ _ rfl ?_ ?_)
                | (with_reducible apply Within.mk; decide) | split | intro _ _ _ | intro _ _ | intro _

theorem execFwStage_same {l : List Part} {s0 s : State} (h0 : SameBut l s0 s) (ctx : Nat) (seq : W32) 
 (hk : Within [.boot, .seams, .mem, .journal, .cores, .fabric, .chains, .counters, .lining, .free] l) : SameX l s0
     (execFwStage ctx seq s) := by
  with_reducible refine SameX.step (k := [.boot, .seams, .mem, .journal, .cores, .fabric, .chains,
                     .counters, .lining, .free]) ?_ h0 hk
  have h : SameBut [.boot, .seams, .mem, .journal, .cores, .fabric, .chains, .counters, .lining, .free] s s :=
      SameBut.refl _ _
  clear h0 hk
  unfold execFwStage
  try dsimp only
  repeat' first | (with_reducible first | assumption | apply fwStageWork_same | apply sameX_next
                                        | apply same_foldl)
                | (with_reducible refine State.runOp_plain _ _ _ _ rfl ?_ ?_)
                | (with_reducible apply Within.mk; decide) | split | intro _ _ _ | intro _ _ | intro _

theorem execFwCommit_same {l : List Part} {s0 s : State} (h0 : SameBut l s0 s) (ctx : Nat) (seq : W32) 
 (hk : Within [.ready, .boot, .mem, .journal, .cores, .fabric, .counters, .belt, .lining, .i3c] l) : SameX l s0
     (execFwCommit ctx seq s) := by
  with_reducible refine SameX.step (k := [.ready, .boot, .mem, .journal, .cores, .fabric,
                     .counters, .belt, .lining, .i3c]) ?_ h0 hk
  have h : SameBut [.ready, .boot, .mem, .journal, .cores, .fabric, .counters, .belt, .lining, .i3c] s s :=
      SameBut.refl _ _
  clear h0 hk
  unfold execFwCommit
  try dsimp only
  repeat' first | (with_reducible first | assumption | apply State.fwCommitStep_same | apply sameX_next
                                        | apply same_foldl) | (with_reducible apply Within.mk; decide) | split

theorem execCounterSnap_same {l : List Part} {s0 s : State} (h0 : SameBut l s0 s) (ctx : Nat) (seq : W32) 
 (hk : Within [.caps, .seams, .mem, .ctxs, .journal, .collar, .cores, .fabric, .chains, .starved, .counters,
     .trace, .belt, .lining, .i3c, .stamps, .free] l) : SameX l s0 (execCounterSnap ctx seq s) := by
  with_reducible refine SameX.step (k := [.caps, .seams, .mem, .ctxs, .journal, .collar, .cores,
                     .fabric, .chains, .starved, .counters, .trace, .belt, .lining, .i3c, .stamps, .free]) ?_ h0 hk
  have h : SameBut [.caps, .seams, .mem, .ctxs, .journal, .collar, .cores, .fabric, .chains, .starved, .counters,
      .trace, .belt, .lining, .i3c, .stamps, .free] s s := SameBut.refl _ _
  clear h0 hk
  unfold execCounterSnap
  try dsimp only
  repeat' first | (with_reducible first | assumption | apply State.runWork_same | apply sameX_next)
                | (with_reducible apply Within.mk; decide)

theorem execTraceCtl_same {l : List Part} {s0 s : State} (h0 : SameBut l s0 s) (ctx : Nat) (seq : W32) 
 (hk : Within [.seams, .mem, .journal, .cores, .fabric, .chains, .counters, .trace, .lining, .free] l) : SameX l
     s0 (execTraceCtl ctx seq s) := by
  with_reducible refine SameX.step (k := [.seams, .mem, .journal, .cores, .fabric, .chains,
                     .counters, .trace, .lining, .free]) ?_ h0 hk
  have h : SameBut [.seams, .mem, .journal, .cores, .fabric, .chains, .counters, .trace, .lining, .free] s s :=
      SameBut.refl _ _
  clear h0 hk
  unfold execTraceCtl
  try dsimp only
  repeat' first | (with_reducible first | assumption | apply traceCtlWork_same | apply sameX_next
                                        | apply same_foldl)
                | (with_reducible refine State.runOp_plain _ _ _ _ rfl ?_ ?_)
                | (with_reducible apply Within.mk; decide) | split | intro _ _ _ | intro _ _ | intro _

theorem execTraceTrigger_same {l : List Part} {s0 s : State} (h0 : SameBut l s0 s) (ctx : Nat) (seq : W32) 
 (hk : Within [.mem, .journal, .fabric, .chains, .counters, .trace, .free] l) : SameX l s0 (execTraceTrigger ctx
     seq s) := by
  with_reducible refine SameX.step (k := [.mem, .journal, .fabric, .chains, .counters, .trace, .free]) ?_ h0 hk
  have h : SameBut [.mem, .journal, .fabric, .chains, .counters, .trace, .free] s s := SameBut.refl _ _
  clear h0 hk
  unfold execTraceTrigger
  try dsimp only
  repeat' first | (with_reducible first | assumption | apply traceTriggerWork_same | apply sameX_next
                                        | apply same_foldl)
                | (with_reducible refine State.runOp_narrow _ _ _ _ rfl ?_ ?_)
                | (with_reducible apply Within.mk; decide) | split | intro _ _ _ | intro _ _ | intro _

theorem execCtxCqHeadWrite_same {l : List Part} {s0 s : State} (h0 : SameBut l s0 s) (src : Source) (ctx : Nat)
    (value : W32)
 (hk : Within [.tb, .caps, .stks, .seams, .mem, .ctxs, .journal, .collar, .cores, .fabric, .counters, .trace,
     .belt, .lining, .i3c] l) : SameX l s0 (execCtxCqHeadWrite src ctx value s) := by
  with_reducible refine SameX.step (k := [.tb, .caps, .stks, .seams, .mem, .ctxs, .journal,
                     .collar, .cores, .fabric, .counters, .trace, .belt, .lining, .i3c]) ?_ h0 hk
  have h : SameBut [.tb, .caps, .stks, .seams, .mem, .ctxs, .journal, .collar, .cores, .fabric, .counters, .trace,
      .belt, .lining, .i3c] s s := SameBut.refl _ _
  clear h0 hk
  unfold execCtxCqHeadWrite
  try dsimp only
  repeat' first | (with_reducible first | assumption | apply State.regWrite_same | apply sameX_next)
                | (with_reducible apply Within.mk; decide)

theorem execColXlateInval_same {l : List Part} {s0 s : State} (h0 : SameBut l s0 s) (src : Source) (value : W32) 
 (hk : Within [.tb, .caps, .stks, .seams, .mem, .ctxs, .journal, .collar, .cores, .fabric, .counters, .trace,
     .belt, .lining, .i3c] l) : SameX l s0 (execColXlateInval src value s) := by
  with_reducible refine SameX.step (k := [.tb, .caps, .stks, .seams, .mem, .ctxs, .journal,
                     .collar, .cores, .fabric, .counters, .trace, .belt, .lining, .i3c]) ?_ h0 hk
  have h : SameBut [.tb, .caps, .stks, .seams, .mem, .ctxs, .journal, .collar, .cores, .fabric, .counters, .trace,
      .belt, .lining, .i3c] s s := SameBut.refl _ _
  clear h0 hk
  unfold execColXlateInval
  try dsimp only
  repeat' first | (with_reducible first | assumption | apply State.regWrite_same | apply sameX_next)
                | (with_reducible apply Within.mk; decide)

theorem execXlateInvalDone_same {l : List Part} {s0 s : State} (h0 : SameBut l s0 s) 
 (hk : Within [.collar, .cores, .fabric] l) : SameX l s0 (execXlateInvalDone s) := by
  with_reducible refine SameX.step (k := [.collar, .cores, .fabric]) ?_ h0 hk
  have h : SameBut [.collar, .cores, .fabric] s s := SameBut.refl _ _
  clear h0 hk
  unfold execXlateInvalDone
  try dsimp only
  repeat' first | (with_reducible first | assumption | apply sameX_next | apply same_foldl)
                | (with_reducible apply Within.mk; decide) | split | intro _ _ _ | intro _ _ | intro _
  any_goals (refine same_mk ?_)
  repeat' first | with_reducible assumption

theorem execColJrnlCtlEnable_same {l : List Part} {s0 s : State} (h0 : SameBut l s0 s) (src : Source) (value : W32) 
 (hk : Within [.tb, .caps, .stks, .seams, .mem, .ctxs, .journal, .collar, .cores, .fabric, .counters, .trace,
     .belt, .lining, .i3c] l) : SameX l s0 (execColJrnlCtlEnable src value s) := by
  with_reducible refine SameX.step (k := [.tb, .caps, .stks, .seams, .mem, .ctxs, .journal,
                     .collar, .cores, .fabric, .counters, .trace, .belt, .lining, .i3c]) ?_ h0 hk
  have h : SameBut [.tb, .caps, .stks, .seams, .mem, .ctxs, .journal, .collar, .cores, .fabric, .counters, .trace,
      .belt, .lining, .i3c] s s := SameBut.refl _ _
  clear h0 hk
  unfold execColJrnlCtlEnable
  try dsimp only
  repeat' first | (with_reducible first | assumption | apply State.regWrite_same | apply sameX_next)
                | (with_reducible apply Within.mk; decide)

theorem execColRetireReq_same {l : List Part} {s0 s : State} (h0 : SameBut l s0 s) (src : Source) (value : W32) 
 (hk : Within [.tb, .caps, .stks, .seams, .mem, .ctxs, .journal, .collar, .cores, .fabric, .counters, .trace,
     .belt, .lining, .i3c] l) : SameX l s0 (execColRetireReq src value s) := by
  with_reducible refine SameX.step (k := [.tb, .caps, .stks, .seams, .mem, .ctxs, .journal,
                     .collar, .cores, .fabric, .counters, .trace, .belt, .lining, .i3c]) ?_ h0 hk
  have h : SameBut [.tb, .caps, .stks, .seams, .mem, .ctxs, .journal, .collar, .cores, .fabric, .counters, .trace,
      .belt, .lining, .i3c] s s := SameBut.refl _ _
  clear h0 hk
  unfold execColRetireReq
  try dsimp only
  repeat' first | (with_reducible first | assumption | apply State.regWrite_same | apply sameX_next)
                | (with_reducible apply Within.mk; decide)

theorem execColLossClear_same {l : List Part} {s0 s : State} (h0 : SameBut l s0 s) (src : Source) (value : W32) 
 (hk : Within [.tb, .caps, .stks, .seams, .mem, .ctxs, .journal, .collar, .cores, .fabric, .counters, .trace,
     .belt, .lining, .i3c] l) : SameX l s0 (execColLossClear src value s) := by
  with_reducible refine SameX.step (k := [.tb, .caps, .stks, .seams, .mem, .ctxs, .journal,
                     .collar, .cores, .fabric, .counters, .trace, .belt, .lining, .i3c]) ?_ h0 hk
  have h : SameBut [.tb, .caps, .stks, .seams, .mem, .ctxs, .journal, .collar, .cores, .fabric, .counters, .trace,
      .belt, .lining, .i3c] s s := SameBut.refl _ _
  clear h0 hk
  unfold execColLossClear
  try dsimp only
  repeat' first | (with_reducible first | assumption | apply State.regWrite_same | apply sameX_next)
                | (with_reducible apply Within.mk; decide)

theorem execColCtx0Apply_same {l : List Part} {s0 s : State} (h0 : SameBut l s0 s) (src : Source) (value : W32) 
 (hk : Within [.tb, .caps, .stks, .seams, .mem, .ctxs, .journal, .collar, .cores, .fabric, .counters, .trace,
     .belt, .lining, .i3c] l) : SameX l s0 (execColCtx0Apply src value s) := by
  with_reducible refine SameX.step (k := [.tb, .caps, .stks, .seams, .mem, .ctxs, .journal,
                     .collar, .cores, .fabric, .counters, .trace, .belt, .lining, .i3c]) ?_ h0 hk
  have h : SameBut [.tb, .caps, .stks, .seams, .mem, .ctxs, .journal, .collar, .cores, .fabric, .counters, .trace,
      .belt, .lining, .i3c] s s := SameBut.refl _ _
  clear h0 hk
  unfold execColCtx0Apply
  try dsimp only
  repeat' first | (with_reducible first | assumption | apply State.regWrite_same | apply sameX_next)
                | (with_reducible apply Within.mk; decide)

theorem execLinCtx0EpWrite_same {l : List Part} {s0 s : State} (h0 : SameBut l s0 s) (src : Source) (value : W32) 
 (hk : Within [.tb, .caps, .stks, .seams, .mem, .ctxs, .journal, .collar, .cores, .fabric, .counters, .trace,
     .belt, .lining, .i3c] l) : SameX l s0 (execLinCtx0EpWrite src value s) := by
  with_reducible refine SameX.step (k := [.tb, .caps, .stks, .seams, .mem, .ctxs, .journal,
                     .collar, .cores, .fabric, .counters, .trace, .belt, .lining, .i3c]) ?_ h0 hk
  have h : SameBut [.tb, .caps, .stks, .seams, .mem, .ctxs, .journal, .collar, .cores, .fabric, .counters, .trace,
      .belt, .lining, .i3c] s s := SameBut.refl _ _
  clear h0 hk
  unfold execLinCtx0EpWrite
  try dsimp only
  repeat' first | (with_reducible first | assumption | apply State.regWrite_same | apply sameX_next)
                | (with_reducible apply Within.mk; decide)

theorem execTbLoadHiWrite_same {l : List Part} {s0 s : State} (h0 : SameBut l s0 s) (src : Source) (value : W32) 
 (hk : Within [.tb, .caps, .stks, .seams, .mem, .ctxs, .journal, .collar, .cores, .fabric, .counters, .trace,
     .belt, .lining, .i3c] l) : SameX l s0 (execTbLoadHiWrite src value s) := by
  with_reducible refine SameX.step (k := [.tb, .caps, .stks, .seams, .mem, .ctxs, .journal,
                     .collar, .cores, .fabric, .counters, .trace, .belt, .lining, .i3c]) ?_ h0 hk
  have h : SameBut [.tb, .caps, .stks, .seams, .mem, .ctxs, .journal, .collar, .cores, .fabric, .counters, .trace,
      .belt, .lining, .i3c] s s := SameBut.refl _ _
  clear h0 hk
  unfold execTbLoadHiWrite
  try dsimp only
  repeat' first | (with_reducible first | assumption | apply State.regWrite_same | apply sameX_next)
                | (with_reducible apply Within.mk; decide)

theorem execBeltPowerCapWrite_same {l : List Part} {s0 s : State} (h0 : SameBut l s0 s) (src : Source) (value : W32) 
 (hk : Within [.tb, .caps, .stks, .seams, .mem, .ctxs, .journal, .collar, .cores, .fabric, .counters, .trace,
     .belt, .lining, .i3c] l) : SameX l s0 (execBeltPowerCapWrite src value s) := by
  with_reducible refine SameX.step (k := [.tb, .caps, .stks, .seams, .mem, .ctxs, .journal,
                     .collar, .cores, .fabric, .counters, .trace, .belt, .lining, .i3c]) ?_ h0 hk
  have h : SameBut [.tb, .caps, .stks, .seams, .mem, .ctxs, .journal, .collar, .cores, .fabric, .counters, .trace,
      .belt, .lining, .i3c] s s := SameBut.refl _ _
  clear h0 hk
  unfold execBeltPowerCapWrite
  try dsimp only
  repeat' first | (with_reducible first | assumption | apply State.regWrite_same | apply sameX_next)
                | (with_reducible apply Within.mk; decide)

theorem execBeltCoolantInWrite_same {l : List Part} {s0 s : State} (h0 : SameBut l s0 s) (src : Source) (value : W32) 
 (hk : Within [.tb, .caps, .stks, .seams, .mem, .ctxs, .journal, .collar, .cores, .fabric, .counters, .trace,
     .belt, .lining, .i3c] l) : SameX l s0 (execBeltCoolantInWrite src value s) := by
  with_reducible refine SameX.step (k := [.tb, .caps, .stks, .seams, .mem, .ctxs, .journal,
                     .collar, .cores, .fabric, .counters, .trace, .belt, .lining, .i3c]) ?_ h0 hk
  have h : SameBut [.tb, .caps, .stks, .seams, .mem, .ctxs, .journal, .collar, .cores, .fabric, .counters, .trace,
      .belt, .lining, .i3c] s s := SameBut.refl _ _
  clear h0 hk
  unfold execBeltCoolantInWrite
  try dsimp only
  repeat' first | (with_reducible first | assumption | apply State.regWrite_same | apply sameX_next)
                | (with_reducible apply Within.mk; decide)

theorem execBeltCalWrite_same {l : List Part} {s0 s : State} (h0 : SameBut l s0 s) (src : Source) (domain : Nat)
    (value : W32)
 (hk : Within [.tb, .caps, .stks, .seams, .mem, .ctxs, .journal, .collar, .cores, .fabric, .counters, .trace,
     .belt, .lining, .i3c] l) : SameX l s0 (execBeltCalWrite src domain value s) := by
  with_reducible refine SameX.step (k := [.tb, .caps, .stks, .seams, .mem, .ctxs, .journal,
                     .collar, .cores, .fabric, .counters, .trace, .belt, .lining, .i3c]) ?_ h0 hk
  have h : SameBut [.tb, .caps, .stks, .seams, .mem, .ctxs, .journal, .collar, .cores, .fabric, .counters, .trace,
      .belt, .lining, .i3c] s s := SameBut.refl _ _
  clear h0 hk
  unfold execBeltCalWrite
  try dsimp only
  repeat' first | (with_reducible first | assumption | apply State.regWrite_same | apply sameX_next)
                | (with_reducible apply Within.mk; decide)

theorem execEnrol_same {l : List Part} {s0 s : State} (h0 : SameBut l s0 s) (src : Source) (value : W32) 
 (hk : Within [.tb, .caps, .stks, .seams, .mem, .ctxs, .journal, .collar, .cores, .fabric, .counters, .trace,
     .belt, .lining, .i3c] l) : SameX l s0 (execEnrol src value s) := by
  with_reducible refine SameX.step (k := [.tb, .caps, .stks, .seams, .mem, .ctxs, .journal,
                     .collar, .cores, .fabric, .counters, .trace, .belt, .lining, .i3c]) ?_ h0 hk
  have h : SameBut [.tb, .caps, .stks, .seams, .mem, .ctxs, .journal, .collar, .cores, .fabric, .counters, .trace,
      .belt, .lining, .i3c] s s := SameBut.refl _ _
  clear h0 hk
  unfold execEnrol
  try dsimp only
  repeat' first | (with_reducible first | assumption | apply State.regWrite_same | apply sameX_next)
                | (with_reducible apply Within.mk; decide)

theorem execEnrolRemove_same {l : List Part} {s0 s : State} (h0 : SameBut l s0 s) (src : Source) (value : W32) 
 (hk : Within [.tb, .caps, .stks, .seams, .mem, .ctxs, .journal, .collar, .cores, .fabric, .counters, .trace,
     .belt, .lining, .i3c] l) : SameX l s0 (execEnrolRemove src value s) := by
  with_reducible refine SameX.step (k := [.tb, .caps, .stks, .seams, .mem, .ctxs, .journal,
                     .collar, .cores, .fabric, .counters, .trace, .belt, .lining, .i3c]) ?_ h0 hk
  have h : SameBut [.tb, .caps, .stks, .seams, .mem, .ctxs, .journal, .collar, .cores, .fabric, .counters, .trace,
      .belt, .lining, .i3c] s s := SameBut.refl _ _
  clear h0 hk
  unfold execEnrolRemove
  try dsimp only
  repeat' first | (with_reducible first | assumption | apply State.regWrite_same | apply sameX_next)
                | (with_reducible apply Within.mk; decide)

theorem execLatchedPairRead_same {l : List Part} {s0 s : State} (h0 : SameBut l s0 s) (src : Source) (offset : Nat) 
 (hk : Within [.latches] l) : SameX l s0 (execLatchedPairRead src offset s) := by
  with_reducible refine SameX.step (k := [.latches]) ?_ h0 hk
  have h : SameBut [.latches] s s := SameBut.refl _ _
  clear h0 hk
  unfold execLatchedPairRead
  try dsimp only
  repeat' first | (with_reducible first | assumption | apply State.readWord_same | apply sameX_next)
                | (with_reducible apply Within.mk; decide)

theorem execRegisterWrite_same {l : List Part} {s0 s : State} (h0 : SameBut l s0 s) (src : Source) (offset : Nat)
    (value : W32)
 (hk : Within [.tb, .caps, .stks, .seams, .mem, .ctxs, .journal, .collar, .cores, .fabric, .counters, .trace,
     .belt, .lining, .i3c] l) : SameX l s0 (execRegisterWrite src offset value s) := by
  with_reducible refine SameX.step (k := [.tb, .caps, .stks, .seams, .mem, .ctxs, .journal,
                     .collar, .cores, .fabric, .counters, .trace, .belt, .lining, .i3c]) ?_ h0 hk
  have h : SameBut [.tb, .caps, .stks, .seams, .mem, .ctxs, .journal, .collar, .cores, .fabric, .counters, .trace,
      .belt, .lining, .i3c] s s := SameBut.refl _ _
  clear h0 hk
  unfold execRegisterWrite
  try dsimp only
  repeat' first | (with_reducible first | assumption | apply State.regWrite_same | apply sameX_next)
                | (with_reducible apply Within.mk; decide)

theorem execChallengeExpiry_same {l : List Part} {s0 s : State} (h0 : SameBut l s0 s) (endpoint : Nat) (role : Nat) 
 (hk : Within [.lining] l) : SameX l s0 (execChallengeExpiry endpoint role s) := by
  with_reducible refine SameX.step (k := [.lining]) ?_ h0 hk
  have h : SameBut [.lining] s s := SameBut.refl _ _
  clear h0 hk
  unfold execChallengeExpiry
  try dsimp only
  repeat' first | (with_reducible first | assumption | apply sameX_next | apply same_foldl)
                | (with_reducible apply Within.mk; decide) | split | intro _ _ _ | intro _ _ | intro _
  any_goals (refine same_mk ?_)
  repeat' first | with_reducible assumption

theorem execAuthLockoutEnd_same {l : List Part} {s0 s : State} (h0 : SameBut l s0 s) (endpoint : Nat) 
 (hk : Within [.lining] l) : SameX l s0 (execAuthLockoutEnd endpoint s) := by
  with_reducible refine SameX.step (k := [.lining]) ?_ h0 hk
  have h : SameBut [.lining] s s := SameBut.refl _ _
  clear h0 hk
  unfold execAuthLockoutEnd
  try dsimp only
  repeat' first | (with_reducible first | assumption | apply sameX_next | apply same_foldl)
                | (with_reducible apply Within.mk; decide) | split | intro _ _ _ | intro _ _ | intro _
  any_goals (refine same_mk ?_)
  repeat' first | with_reducible assumption

theorem execSleeveFault_same {l : List Part} {s0 s : State} (h0 : SameBut l s0 s) (sleeve : Nat) (cause :
    SleeveCause)
 (hk : Within [.caps, .ready, .boot, .seams, .mem, .ctxs, .journal, .collar, .cores, .sleeves, .fabric, .chains,
     .counters, .trace, .belt, .lining, .i3c, .free] l) : SameX l s0 (execSleeveFault sleeve cause s) := by
  with_reducible refine SameX.step (k := [.caps, .ready, .boot, .seams, .mem, .ctxs, .journal,
                     .collar, .cores, .sleeves, .fabric, .chains, .counters, .trace, .belt, .lining, .i3c, .free]) ?_
                     h0 hk
  have h : SameBut [.caps, .ready, .boot, .seams, .mem, .ctxs, .journal, .collar, .cores, .sleeves, .fabric,
      .chains, .counters, .trace, .belt, .lining, .i3c, .free] s s := SameBut.refl _ _
  clear h0 hk
  unfold execSleeveFault
  try dsimp only
  repeat' first | (with_reducible first | assumption | apply State.setSleeve_same | apply State.traceFault_same
                                        | apply State.hitEntry_same | apply State.resetSleeve_same
                                        | apply State.retireSleeve_same | apply State.strand_same
                                        | apply State.startChecks_same | apply sameX_next | apply same_foldl)
                | (with_reducible apply Within.mk; decide) | split | intro _ _ _ | intro _ _ | intro _
  any_goals (refine same_mk ?_)
  repeat' first | (with_reducible first | assumption | apply State.setSleeve_same | apply State.traceFault_same
                                        | apply State.hitEntry_same | apply State.resetSleeve_same
                                        | apply State.retireSleeve_same | apply State.strand_same
                                        | apply State.startChecks_same | apply sameX_next | apply same_foldl)
                | (with_reducible apply Within.mk; decide) | split | intro _ _ _

theorem execCollarSoftReset_same {l : List Part} {s0 s : State} (h0 : SameBut l s0 s) (cause : SoftCause) 
 (hk : Within [.ready, .boot, .mem, .journal, .cores, .fabric, .counters, .trace, .belt, .lining, .i3c] l) : SameX
     l s0 (execCollarSoftReset cause s) := by
  with_reducible refine SameX.step (k := [.ready, .boot, .mem, .journal, .cores, .fabric,
                     .counters, .trace, .belt, .lining, .i3c]) ?_ h0 hk
  have h : SameBut [.ready, .boot, .mem, .journal, .cores, .fabric, .counters, .trace, .belt, .lining, .i3c] s s
      := SameBut.refl _ _
  clear h0 hk
  unfold execCollarSoftReset
  try dsimp only
  repeat' first | (with_reducible first | assumption | apply State.traceFault_same | apply State.softReset_same
                                        | apply sameX_next | apply same_foldl)
                | (with_reducible apply Within.mk; decide) | split

theorem execRecovery_same {l : List Part} {s0 s : State} (h0 : SameBut l s0 s) 
 (hk : Within [.ready, .boot, .seams, .mem, .ctxs, .journal, .collar, .fences, .retained, .cores, .sleeves,
     .fabric, .chains, .counters, .trace, .belt, .lining, .i3c] l) : SameX l s0 (execRecovery s) := by
  with_reducible refine SameX.step (k := [.ready, .boot, .seams, .mem, .ctxs, .journal, .collar,
                     .fences, .retained, .cores, .sleeves, .fabric, .chains, .counters, .trace, .belt, .lining, .i3c])
                     ?_ h0 hk
  have h : SameBut [.ready, .boot, .seams, .mem, .ctxs, .journal, .collar, .fences, .retained, .cores, .sleeves,
      .fabric, .chains, .counters, .trace, .belt, .lining, .i3c] s s := SameBut.refl _ _
  clear h0 hk
  unfold execRecovery
  try dsimp only
  repeat' first | (with_reducible first | assumption | apply State.releaseCollar_same | apply State.recover_same
                                        | apply sameX_next | apply same_foldl)
                | (with_reducible apply Within.mk; decide) | split

theorem execStackUnrecoverableCondition_same {l : List Part} {s0 s : State} (h0 : SameBut l s0 s) (m : Nat) 
 (hk : Within [.caps, .ready, .stks, .seams, .mem, .ctxs, .journal, .collar, .cores, .fabric, .counters, .trace,
     .belt, .lining, .i3c, .free] l) : SameX l s0 (execStackUnrecoverableCondition m s) := by
  with_reducible refine SameX.step (k := [.caps, .ready, .stks, .seams, .mem, .ctxs, .journal,
                     .collar, .cores, .fabric, .counters, .trace, .belt, .lining, .i3c, .free]) ?_ h0 hk
  have h : SameBut [.caps, .ready, .stks, .seams, .mem, .ctxs, .journal, .collar, .cores, .fabric, .counters,
      .trace, .belt, .lining, .i3c, .free] s s := SameBut.refl _ _
  clear h0 hk
  unfold execStackUnrecoverableCondition
  try dsimp only
  repeat' first | (with_reducible first | assumption | apply State.failStack_same | apply sameX_next
                                        | apply same_foldl) | (with_reducible apply Within.mk; decide) | split

theorem execTimeBaseSlew_same {l : List Part} {s0 s : State} (h0 : SameBut l s0 s) 
 (hk : Within [.tb, .cores, .starved, .counters, .trace, .belt, .free] l) : SameX l s0 (execTimeBaseSlew s) := by
  with_reducible refine SameX.step (k := [.tb, .cores, .starved, .counters, .trace, .belt, .free]) ?_ h0 hk
  have h : SameBut [.tb, .cores, .starved, .counters, .trace, .belt, .free] s s := SameBut.refl _ _
  clear h0 hk

  unfold execTimeBaseSlew
  split
  · exact h
  · exact State.pass_same h _ (by decide)


theorem execPerBankRefresh_same {l : List Part} {s0 s : State} (h0 : SameBut l s0 s) (m : Nat) (pc : Nat) (bank :
    Nat)
 (hk : Within [.stks, .fabric] l) : SameX l s0 (execPerBankRefresh m pc bank s) := by
  with_reducible refine SameX.step (k := [.stks, .fabric]) ?_ h0 hk
  have h : SameBut [.stks, .fabric] s s := SameBut.refl _ _
  clear h0 hk
  unfold execPerBankRefresh
  try dsimp only
  repeat' first | (with_reducible first | assumption | apply State.onPort_same | apply State.setStack_same
                                        | apply sameX_next | apply same_foldl)
                | (with_reducible apply Within.mk; decide) | split

theorem execStackTemperatureReadOut_same {l : List Part} {s0 s : State} (h0 : SameBut l s0 s) (m : Nat)
    (temperature : BitVec 16)
 (hk : Within [.stks] l) : SameX l s0 (execStackTemperatureReadOut m temperature s) := by
  with_reducible refine SameX.step (k := [.stks]) ?_ h0 hk
  have h : SameBut [.stks] s s := SameBut.refl _ _
  clear h0 hk
  unfold execStackTemperatureReadOut
  try dsimp only
  repeat' first | (with_reducible first | assumption | apply State.setStack_same | apply sameX_next
                                        | apply same_foldl) | (with_reducible apply Within.mk; decide) | split

/-! ## The register rows, each with the registers that it writes -/

/-- A write of a word whose effect is known to change some parts at most. -/
theorem regWrite_frame {l : List Part} {s : State} {src : Source} {off : Nat} {v : W32}
    (h : SameO l s (s.tryWrite src off v)) (hl : Part.counters ∈ l) : SameBut l s (s.regWrite src off v).2 := by
  unfold State.regWrite
  split
  · exact sameO_of (by assumption) h
  · refine State.count_same (SameBut.refl _ _) _ _ ?_
    simpa [Within] using hl

theorem tryWrite_page {s : State} {src : Source} {c reg : Nat} {v : W32} (hc : c < 1024) (hr : reg < 64)
    (h4 : reg % 4 = 0) : s.tryWrite src (0x010000 + reg + 0x40 * c) v = s.pageWrite src c reg v := by
  unfold State.tryWrite
  rw [if_neg (by omega), if_neg (by omega), if_pos (by omega)]
  congr 1 <;> omega

theorem execDoorbell_frame (src : Source) (ctx : Nat) (v : W32) (s : State) :
    SameX [.ctxs, .counters] s (execDoorbell src ctx v s) := by
  refine regWrite_frame ?_ (by decide)
  have := tryWrite_page (s := s) (src := src) (v := v) (Nat.mod_lt ctx (by decide : 0 < 1024)) (by decide : 0 <
      64) rfl
  rw [Nat.add_zero] at this
  rw [this]
  unfold State.pageWrite
  split
  · exact sameO_none
  · exact sameO_some (State.doorbell_same (SameBut.refl _ _) _ _ (by decide))

theorem execCtxCqHeadWrite_frame (src : Source) (ctx : Nat) (v : W32) (s : State) :
    SameX [.mem, .ctxs, .journal, .fabric, .counters] s (execCtxCqHeadWrite src ctx v s) := by
  refine regWrite_frame ?_ (by decide)
  have := tryWrite_page (s := s) (src := src) (v := v) (Nat.mod_lt ctx (by decide : 0 < 1024)) (by decide : 0x0C <
      64) rfl
  rw [show 0x01000C + 0x40 * (ctx % 1024) = 0x010000 + 0x0C + 0x40 * (ctx % 1024) from rfl, this]
  unfold State.pageWrite
  split
  · exact sameO_none
  · exact sameO_some (State.cqHeadWrite_same (SameBut.refl _ _) _ _ (by decide))

theorem execColXlateInval_frame (src : Source) (v : W32) (s : State) :
    SameX [.collar, .counters] s (execColXlateInval src v s) := by
  refine regWrite_frame ?_ (by decide)
  have : s.tryWrite src 0x020000 v =
      if s.srcOwns src (v.toNat % 1024) then some (s.xlateWrite (v.toNat % 1024)) else none := by
    simp [State.tryWrite]
  rw [this]
  split
  · exact sameO_some (State.xlateWrite_same (SameBut.refl _ _) _ (by decide))
  · exact sameO_none

theorem tryWrite_journal {s : State} {src : Source} {off : Nat} {v : W32} (h : 0x020100 ≤ off) (g : off < 0x020170)
    (h4 : off % 4 = 0) : s.tryWrite src off v = s.journalWrite src off v := by
  unfold State.tryWrite
  rw [if_neg (by omega), if_neg (by omega), if_neg (by omega), if_neg (by omega), if_pos ⟨h, g⟩]

theorem execColJrnlCtlEnable_frame (src : Source) (v : W32) (s : State) :
    SameX [.stks, .journal, .collar, .counters, .lining, .i3c] s (execColJrnlCtlEnable src v s) := by
  refine regWrite_frame ?_ (by decide)
  rw [tryWrite_journal (by decide) (by decide) rfl]
  have : s.journalWrite src 0x020110 v =
      if s.journal.enable || !v.getLsbD 0 then (if s.srcRole src 1 then some s else none)
      else s.roleWrite src 1 0x020110 v s.enableJournal := by
    simp [State.journalWrite]
  rw [this]
  refine same_ite (same_ite (sameO_some (SameBut.refl _ _)) sameO_none) ?_
  exact State.roleWrite_same (State.enableJournal_same (SameBut.refl _ _) (by decide)) _ _ _ _ _ (by decide)

theorem execColRetireReq_frame (src : Source) (v : W32) (s : State) :
    SameX [.caps, .seams, .mem, .journal, .collar, .cores, .fabric, .counters, .trace, .lining, .i3c] s
      (execColRetireReq src v s) := by
  refine regWrite_frame ?_ (by decide)
  rw [tryWrite_journal (by decide) (by decide) rfl]
  have : s.journalWrite src 0x020130 v =
      s.roleWrite src 1 0x020130 v
        (if v.getLsbD 31 then
          ({ s with collar := { s.collar with retireReq := v.setWidth 7 } }).retireByRequest (v.toNat % 128)
        else { s with collar := { s.collar with retireReq := v.setWidth 7 } }) := by
    simp [State.journalWrite]
  rw [this]
  refine State.roleWrite_same ?_ _ _ _ _ _ (by decide)
  exact same_ite' (State.retireByRequest_same (same_mk (SameBut.refl _ _)) _ (by decide)) (same_mk (SameBut.refl _ _))

theorem execColLossClear_frame (src : Source) (v : W32) (s : State) :
    SameX [.mem, .journal, .collar, .fabric, .counters] s (execColLossClear src v s) := by
  refine regWrite_frame ?_ (by decide)
  rw [tryWrite_journal (by decide) (by decide) rfl]
  have : s.journalWrite src 0x020148 v =
      if s.srcHolds src 1 || s.srcHolds src 2 then
        some ({ s with collar := { s.collar with lossClear := v.setWidth 12 } }.clearLoss (v.toNat % 4096))
      else none := by
    simp [State.journalWrite]
  rw [this]
  exact same_ite (sameO_some (State.clearLoss_same (same_mk (SameBut.refl _ _)) _ (by decide))) sameO_none

theorem execColCtx0Apply_frame (src : Source) (v : W32) (s : State) :
    SameX [.mem, .ctxs, .journal, .collar, .fabric, .counters, .lining] s (execColCtx0Apply src v s) := by
  refine regWrite_frame ?_ (by decide)
  have : s.tryWrite src 0x020218 v = s.ctx0Write src 0x020218 v := by simp [State.tryWrite]
  rw [this]
  exact State.ctx0Write_same (SameBut.refl _ _) _ _ _ (by decide)

theorem tryWrite_lining {s : State} {src : Source} {off : Nat} {v : W32} (h : 0x300000 ≤ off) (g : off < 0x380000)
    (h4 : off % 4 = 0) : s.tryWrite src off v = s.linWrite src off v := by
  unfold State.tryWrite
  rw [if_neg (by omega), if_neg (by omega), if_neg (by omega), if_neg (by omega), if_neg (by omega),
    if_neg (by omega), if_neg (by omega), if_pos ⟨h, g⟩]

theorem execLinCtx0EpWrite_frame (src : Source) (v : W32) (s : State) :
    SameX [.counters, .lining] s (execLinCtx0EpWrite src v s) := by
  refine regWrite_frame ?_ (by decide)
  rw [tryWrite_lining (off := 0x300004) (by omega) (by omega) (by omega)]
  with_reducible exact State.linWrite_same (SameBut.refl _ _) src _ v (by decide)

theorem execEnrol_frame (src : Source) (v : W32) (s : State) : SameX [.counters, .lining] s (execEnrol src v s) := by
  refine regWrite_frame ?_ (by decide)
  rw [tryWrite_lining (off := 0x300180) (by omega) (by omega) (by omega)]
  with_reducible exact State.linWrite_same (SameBut.refl _ _) src _ v (by decide)

theorem execEnrolRemove_frame (src : Source) (v : W32) (s : State) :
    SameX [.counters, .lining] s (execEnrolRemove src v s) := by
  refine regWrite_frame ?_ (by decide)
  rw [tryWrite_lining (off := 0x300180) (by omega) (by omega) (by omega)]
  with_reducible exact State.linWrite_same (SameBut.refl _ _) src _ v (by decide)

theorem execTbLoadHiWrite_frame (src : Source) (v : W32) (s : State) :
    SameX [.tb, .counters, .lining] s (execTbLoadHiWrite src v s) := by
  refine regWrite_frame ?_ (by decide)
  have : s.tryWrite src 0x200C v = s.tbWrite src 0x200C v := by simp [State.tryWrite]
  rw [this]
  exact State.tbWrite_same (SameBut.refl _ _) _ _ _ (by decide)

theorem tryWrite_belt {s : State} {src : Source} {off : Nat} {v : W32} (h : 0x200000 ≤ off) (g : off < 0x20030C)
    (h4 : off % 4 = 0) : s.tryWrite src off v = s.beltWrite src off v := by
  unfold State.tryWrite
  rw [if_neg (by omega), if_neg (by omega), if_neg (by omega), if_neg (by omega), if_neg (by omega),
    if_neg (by omega), if_pos ⟨h, g⟩]

theorem execBeltPowerCapWrite_frame (src : Source) (v : W32) (s : State) :
    SameX [.counters, .belt, .lining] s (execBeltPowerCapWrite src v s) := by
  refine regWrite_frame ?_ (by decide)
  rw [tryWrite_belt (off := 0x200018) (by omega) (by omega) (by omega)]
  with_reducible exact State.beltWrite_same (SameBut.refl _ _) src _ v (by decide)

theorem execBeltCoolantInWrite_frame (src : Source) (v : W32) (s : State) :
    SameX [.counters, .belt, .lining] s (execBeltCoolantInWrite src v s) := by
  refine regWrite_frame ?_ (by decide)
  rw [tryWrite_belt (off := 0x20001C) (by omega) (by omega) (by omega)]
  with_reducible exact State.beltWrite_same (SameBut.refl _ _) src _ v (by decide)

theorem execBeltCalWrite_frame (src : Source) (k : Nat) (v : W32) (s : State) (hk : k < 131) :
    SameX [.counters, .belt, .lining] s (execBeltCalWrite src k v s) := by
  refine regWrite_frame ?_ (by decide)
  rw [tryWrite_belt (off := 0x200100 + 4 * k) (by omega) (by omega) (by omega)]
  with_reducible exact State.beltWrite_same (SameBut.refl _ _) src _ v (by decide)

/-! ## Data commands without core faults -/

theorem runWork_nil_frame (s : State) (op : Op) (ctx : Nat) (seq : W32)
    (plan : State → Entry → Plan) : SameX workParts s (s.runWork op ctx seq [] plan) := by
  have h : SameBut workParts s s := SameBut.refl _ _
  unfold State.runWork
  split
  · exact h
  · split
    · exact State.memberEnd_same (State.conclude_same h _ _ _ _ (by decide)) _ _ (by decide)
    · split
      · exact h
      · rename_i e _ _ _ _
        extract_lets failed
        have hf : ∀ i r, SameBut workParts s (failed i r) := by
          intro i r
          refine State.failWork_same ?_ _ _ _ (by decide)
          split
          · split
            · exact State.count_same h _ _ (by decide)
            · exact h
          · exact h
        clear_value failed
        split
        · exact State.standBack_same h _ (by decide)
        · split
          · exact State.standBack_same h _ (by decide)
          · exact State.standBack_same (State.count_same h _ _ (by decide)) _ (by decide)
        · exact hf _ _
        · exact hf _ _
        · split
          · exact h
          · extract_lets x
            have hx : SameBut workParts s x.s := h
            clear_value x
            split
            · exact State.failWork_same (State.markSlot_same hx _ _ (by decide)) _ _ _ (by decide)
            · split
              · exact State.setEntry_same hx _ (by decide)
              · exact State.metered_same (State.workEnd_same (State.applyDelta_same hx _ _ (by decide)) _ _ (by
                  decide))
                  _ _ _ (by decide)

end Sys2Proof.Machine
end

