-- ==== Sys2Proof/Laws/State.lean ====
section
/-!
SUPPORT. Sys2Proof/Laws/State.lean: what each setter of the state leaves alone, one lemma per field, true by
unfolding; and what a map, a context, a fence counter, a counter or an entry reads as after it is set.
-/
set_option Elab.async false

namespace Sys2Proof.Machine

/-! ## setStack -/

@[simp] theorem State.setStack_die (s : State) (m : Nat) (p : StackPort) : (s.setStack m p).die = s.die := rfl
@[simp] theorem State.setStack_pins (s : State) (m : Nat) (p : StackPort) : (s.setStack m p).pins = s.pins := rfl
@[simp] theorem State.setStack_tb (s : State) (m : Nat) (p : StackPort) : (s.setStack m p).tb = s.tb := rfl
@[simp] theorem State.setStack_caps (s : State) (m : Nat) (p : StackPort) : (s.setStack m p).caps = s.caps := rfl
@[simp] theorem State.setStack_ready (s : State) (m : Nat) (p : StackPort) : (s.setStack m p).ready = s.ready := rfl
@[simp] theorem State.setStack_boot (s : State) (m : Nat) (p : StackPort) : (s.setStack m p).boot = s.boot := rfl
@[simp] theorem State.setStack_seams (s : State) (m : Nat) (p : StackPort) : (s.setStack m p).seams = s.seams := rfl
@[simp] theorem State.setStack_hostReads (s : State) (m : Nat) (p : StackPort) : (s.setStack m p).hostReads = s.hostReads := rfl
@[simp] theorem State.setStack_mem (s : State) (m : Nat) (p : StackPort) : (s.setStack m p).mem = s.mem := rfl
@[simp] theorem State.setStack_ctxs (s : State) (m : Nat) (p : StackPort) : (s.setStack m p).ctxs = s.ctxs := rfl
@[simp] theorem State.setStack_journal (s : State) (m : Nat) (p : StackPort) : (s.setStack m p).journal = s.journal := rfl
@[simp] theorem State.setStack_collar (s : State) (m : Nat) (p : StackPort) : (s.setStack m p).collar = s.collar := rfl
@[simp] theorem State.setStack_fences (s : State) (m : Nat) (p : StackPort) : (s.setStack m p).fences = s.fences := rfl
@[simp] theorem State.setStack_retained (s : State) (m : Nat) (p : StackPort) : (s.setStack m p).retained = s.retained := rfl
@[simp] theorem State.setStack_cores (s : State) (m : Nat) (p : StackPort) : (s.setStack m p).cores = s.cores := rfl
@[simp] theorem State.setStack_sleeves (s : State) (m : Nat) (p : StackPort) : (s.setStack m p).sleeves = s.sleeves := rfl
@[simp] theorem State.setStack_fabric (s : State) (m : Nat) (p : StackPort) : (s.setStack m p).fabric = s.fabric := rfl
@[simp] theorem State.setStack_chains (s : State) (m : Nat) (p : StackPort) : (s.setStack m p).chains = s.chains := rfl
@[simp] theorem State.setStack_starved (s : State) (m : Nat) (p : StackPort) : (s.setStack m p).starved = s.starved := rfl
@[simp] theorem State.setStack_groups (s : State) (m : Nat) (p : StackPort) : (s.setStack m p).groups = s.groups := rfl
@[simp] theorem State.setStack_counters (s : State) (m : Nat) (p : StackPort) : (s.setStack m p).counters = s.counters := rfl
@[simp] theorem State.setStack_trace (s : State) (m : Nat) (p : StackPort) : (s.setStack m p).trace = s.trace := rfl
@[simp] theorem State.setStack_belt (s : State) (m : Nat) (p : StackPort) : (s.setStack m p).belt = s.belt := rfl
@[simp] theorem State.setStack_lining (s : State) (m : Nat) (p : StackPort) : (s.setStack m p).lining = s.lining := rfl
@[simp] theorem State.setStack_i3c (s : State) (m : Nat) (p : StackPort) : (s.setStack m p).i3c = s.i3c := rfl
@[simp] theorem State.setStack_tap (s : State) (m : Nat) (p : StackPort) : (s.setStack m p).tap = s.tap := rfl
@[simp] theorem State.setStack_latches (s : State) (m : Nat) (p : StackPort) : (s.setStack m p).latches = s.latches := rfl
@[simp] theorem State.setStack_stamps (s : State) (m : Nat) (p : StackPort) : (s.setStack m p).stamps = s.stamps := rfl
@[simp] theorem State.setStack_free (s : State) (m : Nat) (p : StackPort) : (s.setStack m p).free = s.free := rfl
@[simp] theorem State.setStack_pending (s : State) (m : Nat) (p : StackPort) : (s.setStack m p).pending = s.pending := rfl

/-! ## setSeam -/

@[simp] theorem State.setSeam_die (s : State) (p : Nat) (x : SeamPort) : (s.setSeam p x).die = s.die := rfl
@[simp] theorem State.setSeam_pins (s : State) (p : Nat) (x : SeamPort) : (s.setSeam p x).pins = s.pins := rfl
@[simp] theorem State.setSeam_tb (s : State) (p : Nat) (x : SeamPort) : (s.setSeam p x).tb = s.tb := rfl
@[simp] theorem State.setSeam_caps (s : State) (p : Nat) (x : SeamPort) : (s.setSeam p x).caps = s.caps := rfl
@[simp] theorem State.setSeam_ready (s : State) (p : Nat) (x : SeamPort) : (s.setSeam p x).ready = s.ready := rfl
@[simp] theorem State.setSeam_boot (s : State) (p : Nat) (x : SeamPort) : (s.setSeam p x).boot = s.boot := rfl
@[simp] theorem State.setSeam_stks (s : State) (p : Nat) (x : SeamPort) : (s.setSeam p x).stks = s.stks := rfl
@[simp] theorem State.setSeam_hostReads (s : State) (p : Nat) (x : SeamPort) : (s.setSeam p x).hostReads = s.hostReads := rfl
@[simp] theorem State.setSeam_mem (s : State) (p : Nat) (x : SeamPort) : (s.setSeam p x).mem = s.mem := rfl
@[simp] theorem State.setSeam_ctxs (s : State) (p : Nat) (x : SeamPort) : (s.setSeam p x).ctxs = s.ctxs := rfl
@[simp] theorem State.setSeam_journal (s : State) (p : Nat) (x : SeamPort) : (s.setSeam p x).journal = s.journal := rfl
@[simp] theorem State.setSeam_collar (s : State) (p : Nat) (x : SeamPort) : (s.setSeam p x).collar = s.collar := rfl
@[simp] theorem State.setSeam_fences (s : State) (p : Nat) (x : SeamPort) : (s.setSeam p x).fences = s.fences := rfl
@[simp] theorem State.setSeam_retained (s : State) (p : Nat) (x : SeamPort) : (s.setSeam p x).retained = s.retained := rfl
@[simp] theorem State.setSeam_cores (s : State) (p : Nat) (x : SeamPort) : (s.setSeam p x).cores = s.cores := rfl
@[simp] theorem State.setSeam_sleeves (s : State) (p : Nat) (x : SeamPort) : (s.setSeam p x).sleeves = s.sleeves := rfl
@[simp] theorem State.setSeam_fabric (s : State) (p : Nat) (x : SeamPort) : (s.setSeam p x).fabric = s.fabric := rfl
@[simp] theorem State.setSeam_chains (s : State) (p : Nat) (x : SeamPort) : (s.setSeam p x).chains = s.chains := rfl
@[simp] theorem State.setSeam_starved (s : State) (p : Nat) (x : SeamPort) : (s.setSeam p x).starved = s.starved := rfl
@[simp] theorem State.setSeam_groups (s : State) (p : Nat) (x : SeamPort) : (s.setSeam p x).groups = s.groups := rfl
@[simp] theorem State.setSeam_counters (s : State) (p : Nat) (x : SeamPort) : (s.setSeam p x).counters = s.counters := rfl
@[simp] theorem State.setSeam_trace (s : State) (p : Nat) (x : SeamPort) : (s.setSeam p x).trace = s.trace := rfl
@[simp] theorem State.setSeam_belt (s : State) (p : Nat) (x : SeamPort) : (s.setSeam p x).belt = s.belt := rfl
@[simp] theorem State.setSeam_lining (s : State) (p : Nat) (x : SeamPort) : (s.setSeam p x).lining = s.lining := rfl
@[simp] theorem State.setSeam_i3c (s : State) (p : Nat) (x : SeamPort) : (s.setSeam p x).i3c = s.i3c := rfl
@[simp] theorem State.setSeam_tap (s : State) (p : Nat) (x : SeamPort) : (s.setSeam p x).tap = s.tap := rfl
@[simp] theorem State.setSeam_latches (s : State) (p : Nat) (x : SeamPort) : (s.setSeam p x).latches = s.latches := rfl
@[simp] theorem State.setSeam_stamps (s : State) (p : Nat) (x : SeamPort) : (s.setSeam p x).stamps = s.stamps := rfl
@[simp] theorem State.setSeam_free (s : State) (p : Nat) (x : SeamPort) : (s.setSeam p x).free = s.free := rfl
@[simp] theorem State.setSeam_pending (s : State) (p : Nat) (x : SeamPort) : (s.setSeam p x).pending = s.pending := rfl

/-! ## setSleeve -/

@[simp] theorem State.setSleeve_die (s : State) (k : Nat) (x : Sleeve) : (s.setSleeve k x).die = s.die := rfl
@[simp] theorem State.setSleeve_pins (s : State) (k : Nat) (x : Sleeve) : (s.setSleeve k x).pins = s.pins := rfl
@[simp] theorem State.setSleeve_tb (s : State) (k : Nat) (x : Sleeve) : (s.setSleeve k x).tb = s.tb := rfl
@[simp] theorem State.setSleeve_caps (s : State) (k : Nat) (x : Sleeve) : (s.setSleeve k x).caps = s.caps := rfl
@[simp] theorem State.setSleeve_ready (s : State) (k : Nat) (x : Sleeve) : (s.setSleeve k x).ready = s.ready := rfl
@[simp] theorem State.setSleeve_boot (s : State) (k : Nat) (x : Sleeve) : (s.setSleeve k x).boot = s.boot := rfl
@[simp] theorem State.setSleeve_stks (s : State) (k : Nat) (x : Sleeve) : (s.setSleeve k x).stks = s.stks := rfl
@[simp] theorem State.setSleeve_seams (s : State) (k : Nat) (x : Sleeve) : (s.setSleeve k x).seams = s.seams := rfl
@[simp] theorem State.setSleeve_hostReads (s : State) (k : Nat) (x : Sleeve) : (s.setSleeve k x).hostReads = s.hostReads := rfl
@[simp] theorem State.setSleeve_mem (s : State) (k : Nat) (x : Sleeve) : (s.setSleeve k x).mem = s.mem := rfl
@[simp] theorem State.setSleeve_ctxs (s : State) (k : Nat) (x : Sleeve) : (s.setSleeve k x).ctxs = s.ctxs := rfl
@[simp] theorem State.setSleeve_journal (s : State) (k : Nat) (x : Sleeve) : (s.setSleeve k x).journal = s.journal := rfl
@[simp] theorem State.setSleeve_collar (s : State) (k : Nat) (x : Sleeve) : (s.setSleeve k x).collar = s.collar := rfl
@[simp] theorem State.setSleeve_fences (s : State) (k : Nat) (x : Sleeve) : (s.setSleeve k x).fences = s.fences := rfl
@[simp] theorem State.setSleeve_retained (s : State) (k : Nat) (x : Sleeve) : (s.setSleeve k x).retained = s.retained := rfl
@[simp] theorem State.setSleeve_cores (s : State) (k : Nat) (x : Sleeve) : (s.setSleeve k x).cores = s.cores := rfl
@[simp] theorem State.setSleeve_fabric (s : State) (k : Nat) (x : Sleeve) : (s.setSleeve k x).fabric = s.fabric := rfl
@[simp] theorem State.setSleeve_chains (s : State) (k : Nat) (x : Sleeve) : (s.setSleeve k x).chains = s.chains := rfl
@[simp] theorem State.setSleeve_starved (s : State) (k : Nat) (x : Sleeve) : (s.setSleeve k x).starved = s.starved := rfl
@[simp] theorem State.setSleeve_groups (s : State) (k : Nat) (x : Sleeve) : (s.setSleeve k x).groups = s.groups := rfl
@[simp] theorem State.setSleeve_counters (s : State) (k : Nat) (x : Sleeve) : (s.setSleeve k x).counters = s.counters := rfl
@[simp] theorem State.setSleeve_trace (s : State) (k : Nat) (x : Sleeve) : (s.setSleeve k x).trace = s.trace := rfl
@[simp] theorem State.setSleeve_belt (s : State) (k : Nat) (x : Sleeve) : (s.setSleeve k x).belt = s.belt := rfl
@[simp] theorem State.setSleeve_lining (s : State) (k : Nat) (x : Sleeve) : (s.setSleeve k x).lining = s.lining := rfl
@[simp] theorem State.setSleeve_i3c (s : State) (k : Nat) (x : Sleeve) : (s.setSleeve k x).i3c = s.i3c := rfl
@[simp] theorem State.setSleeve_tap (s : State) (k : Nat) (x : Sleeve) : (s.setSleeve k x).tap = s.tap := rfl
@[simp] theorem State.setSleeve_latches (s : State) (k : Nat) (x : Sleeve) : (s.setSleeve k x).latches = s.latches := rfl
@[simp] theorem State.setSleeve_stamps (s : State) (k : Nat) (x : Sleeve) : (s.setSleeve k x).stamps = s.stamps := rfl
@[simp] theorem State.setSleeve_free (s : State) (k : Nat) (x : Sleeve) : (s.setSleeve k x).free = s.free := rfl
@[simp] theorem State.setSleeve_pending (s : State) (k : Nat) (x : Sleeve) : (s.setSleeve k x).pending = s.pending := rfl

/-! ## setCore -/

@[simp] theorem State.setCore_die (s : State) (c : Nat) (x : CoreUnit) : (s.setCore c x).die = s.die := rfl
@[simp] theorem State.setCore_pins (s : State) (c : Nat) (x : CoreUnit) : (s.setCore c x).pins = s.pins := rfl
@[simp] theorem State.setCore_tb (s : State) (c : Nat) (x : CoreUnit) : (s.setCore c x).tb = s.tb := rfl
@[simp] theorem State.setCore_caps (s : State) (c : Nat) (x : CoreUnit) : (s.setCore c x).caps = s.caps := rfl
@[simp] theorem State.setCore_ready (s : State) (c : Nat) (x : CoreUnit) : (s.setCore c x).ready = s.ready := rfl
@[simp] theorem State.setCore_boot (s : State) (c : Nat) (x : CoreUnit) : (s.setCore c x).boot = s.boot := rfl
@[simp] theorem State.setCore_stks (s : State) (c : Nat) (x : CoreUnit) : (s.setCore c x).stks = s.stks := rfl
@[simp] theorem State.setCore_seams (s : State) (c : Nat) (x : CoreUnit) : (s.setCore c x).seams = s.seams := rfl
@[simp] theorem State.setCore_hostReads (s : State) (c : Nat) (x : CoreUnit) : (s.setCore c x).hostReads = s.hostReads := rfl
@[simp] theorem State.setCore_mem (s : State) (c : Nat) (x : CoreUnit) : (s.setCore c x).mem = s.mem := rfl
@[simp] theorem State.setCore_ctxs (s : State) (c : Nat) (x : CoreUnit) : (s.setCore c x).ctxs = s.ctxs := rfl
@[simp] theorem State.setCore_journal (s : State) (c : Nat) (x : CoreUnit) : (s.setCore c x).journal = s.journal := rfl
@[simp] theorem State.setCore_collar (s : State) (c : Nat) (x : CoreUnit) : (s.setCore c x).collar = s.collar := rfl
@[simp] theorem State.setCore_fences (s : State) (c : Nat) (x : CoreUnit) : (s.setCore c x).fences = s.fences := rfl
@[simp] theorem State.setCore_retained (s : State) (c : Nat) (x : CoreUnit) : (s.setCore c x).retained = s.retained := rfl
@[simp] theorem State.setCore_sleeves (s : State) (c : Nat) (x : CoreUnit) : (s.setCore c x).sleeves = s.sleeves := rfl
@[simp] theorem State.setCore_fabric (s : State) (c : Nat) (x : CoreUnit) : (s.setCore c x).fabric = s.fabric := rfl
@[simp] theorem State.setCore_chains (s : State) (c : Nat) (x : CoreUnit) : (s.setCore c x).chains = s.chains := rfl
@[simp] theorem State.setCore_starved (s : State) (c : Nat) (x : CoreUnit) : (s.setCore c x).starved = s.starved := rfl
@[simp] theorem State.setCore_groups (s : State) (c : Nat) (x : CoreUnit) : (s.setCore c x).groups = s.groups := rfl
@[simp] theorem State.setCore_counters (s : State) (c : Nat) (x : CoreUnit) : (s.setCore c x).counters = s.counters := rfl
@[simp] theorem State.setCore_trace (s : State) (c : Nat) (x : CoreUnit) : (s.setCore c x).trace = s.trace := rfl
@[simp] theorem State.setCore_belt (s : State) (c : Nat) (x : CoreUnit) : (s.setCore c x).belt = s.belt := rfl
@[simp] theorem State.setCore_lining (s : State) (c : Nat) (x : CoreUnit) : (s.setCore c x).lining = s.lining := rfl
@[simp] theorem State.setCore_i3c (s : State) (c : Nat) (x : CoreUnit) : (s.setCore c x).i3c = s.i3c := rfl
@[simp] theorem State.setCore_tap (s : State) (c : Nat) (x : CoreUnit) : (s.setCore c x).tap = s.tap := rfl
@[simp] theorem State.setCore_latches (s : State) (c : Nat) (x : CoreUnit) : (s.setCore c x).latches = s.latches := rfl
@[simp] theorem State.setCore_stamps (s : State) (c : Nat) (x : CoreUnit) : (s.setCore c x).stamps = s.stamps := rfl
@[simp] theorem State.setCore_free (s : State) (c : Nat) (x : CoreUnit) : (s.setCore c x).free = s.free := rfl
@[simp] theorem State.setCore_pending (s : State) (c : Nat) (x : CoreUnit) : (s.setCore c x).pending = s.pending := rfl

/-! ## setCtx -/

@[simp] theorem State.setCtx_die (s : State) (n : Nat) (c : Ctx) : (s.setCtx n c).die = s.die := rfl
@[simp] theorem State.setCtx_pins (s : State) (n : Nat) (c : Ctx) : (s.setCtx n c).pins = s.pins := rfl
@[simp] theorem State.setCtx_tb (s : State) (n : Nat) (c : Ctx) : (s.setCtx n c).tb = s.tb := rfl
@[simp] theorem State.setCtx_caps (s : State) (n : Nat) (c : Ctx) : (s.setCtx n c).caps = s.caps := rfl
@[simp] theorem State.setCtx_ready (s : State) (n : Nat) (c : Ctx) : (s.setCtx n c).ready = s.ready := rfl
@[simp] theorem State.setCtx_boot (s : State) (n : Nat) (c : Ctx) : (s.setCtx n c).boot = s.boot := rfl
@[simp] theorem State.setCtx_stks (s : State) (n : Nat) (c : Ctx) : (s.setCtx n c).stks = s.stks := rfl
@[simp] theorem State.setCtx_seams (s : State) (n : Nat) (c : Ctx) : (s.setCtx n c).seams = s.seams := rfl
@[simp] theorem State.setCtx_hostReads (s : State) (n : Nat) (c : Ctx) : (s.setCtx n c).hostReads = s.hostReads := rfl
@[simp] theorem State.setCtx_mem (s : State) (n : Nat) (c : Ctx) : (s.setCtx n c).mem = s.mem := rfl
@[simp] theorem State.setCtx_journal (s : State) (n : Nat) (c : Ctx) : (s.setCtx n c).journal = s.journal := rfl
@[simp] theorem State.setCtx_collar (s : State) (n : Nat) (c : Ctx) : (s.setCtx n c).collar = s.collar := rfl
@[simp] theorem State.setCtx_fences (s : State) (n : Nat) (c : Ctx) : (s.setCtx n c).fences = s.fences := rfl
@[simp] theorem State.setCtx_retained (s : State) (n : Nat) (c : Ctx) : (s.setCtx n c).retained = s.retained := rfl
@[simp] theorem State.setCtx_cores (s : State) (n : Nat) (c : Ctx) : (s.setCtx n c).cores = s.cores := rfl
@[simp] theorem State.setCtx_sleeves (s : State) (n : Nat) (c : Ctx) : (s.setCtx n c).sleeves = s.sleeves := rfl
@[simp] theorem State.setCtx_fabric (s : State) (n : Nat) (c : Ctx) : (s.setCtx n c).fabric = s.fabric := rfl
@[simp] theorem State.setCtx_chains (s : State) (n : Nat) (c : Ctx) : (s.setCtx n c).chains = s.chains := rfl
@[simp] theorem State.setCtx_starved (s : State) (n : Nat) (c : Ctx) : (s.setCtx n c).starved = s.starved := rfl
@[simp] theorem State.setCtx_groups (s : State) (n : Nat) (c : Ctx) : (s.setCtx n c).groups = s.groups := rfl
@[simp] theorem State.setCtx_counters (s : State) (n : Nat) (c : Ctx) : (s.setCtx n c).counters = s.counters := rfl
@[simp] theorem State.setCtx_trace (s : State) (n : Nat) (c : Ctx) : (s.setCtx n c).trace = s.trace := rfl
@[simp] theorem State.setCtx_belt (s : State) (n : Nat) (c : Ctx) : (s.setCtx n c).belt = s.belt := rfl
@[simp] theorem State.setCtx_lining (s : State) (n : Nat) (c : Ctx) : (s.setCtx n c).lining = s.lining := rfl
@[simp] theorem State.setCtx_i3c (s : State) (n : Nat) (c : Ctx) : (s.setCtx n c).i3c = s.i3c := rfl
@[simp] theorem State.setCtx_tap (s : State) (n : Nat) (c : Ctx) : (s.setCtx n c).tap = s.tap := rfl
@[simp] theorem State.setCtx_latches (s : State) (n : Nat) (c : Ctx) : (s.setCtx n c).latches = s.latches := rfl
@[simp] theorem State.setCtx_stamps (s : State) (n : Nat) (c : Ctx) : (s.setCtx n c).stamps = s.stamps := rfl
@[simp] theorem State.setCtx_free (s : State) (n : Nat) (c : Ctx) : (s.setCtx n c).free = s.free := rfl
@[simp] theorem State.setCtx_pending (s : State) (n : Nat) (c : Ctx) : (s.setCtx n c).pending = s.pending := rfl

/-! ## setFence -/

@[simp] theorem State.setFence_die (s : State) (n : Nat) (v : W64) : (s.setFence n v).die = s.die := rfl
@[simp] theorem State.setFence_pins (s : State) (n : Nat) (v : W64) : (s.setFence n v).pins = s.pins := rfl
@[simp] theorem State.setFence_tb (s : State) (n : Nat) (v : W64) : (s.setFence n v).tb = s.tb := rfl
@[simp] theorem State.setFence_caps (s : State) (n : Nat) (v : W64) : (s.setFence n v).caps = s.caps := rfl
@[simp] theorem State.setFence_ready (s : State) (n : Nat) (v : W64) : (s.setFence n v).ready = s.ready := rfl
@[simp] theorem State.setFence_boot (s : State) (n : Nat) (v : W64) : (s.setFence n v).boot = s.boot := rfl
@[simp] theorem State.setFence_stks (s : State) (n : Nat) (v : W64) : (s.setFence n v).stks = s.stks := rfl
@[simp] theorem State.setFence_seams (s : State) (n : Nat) (v : W64) : (s.setFence n v).seams = s.seams := rfl
@[simp] theorem State.setFence_hostReads (s : State) (n : Nat) (v : W64) : (s.setFence n v).hostReads = s.hostReads := rfl
@[simp] theorem State.setFence_mem (s : State) (n : Nat) (v : W64) : (s.setFence n v).mem = s.mem := rfl
@[simp] theorem State.setFence_ctxs (s : State) (n : Nat) (v : W64) : (s.setFence n v).ctxs = s.ctxs := rfl
@[simp] theorem State.setFence_journal (s : State) (n : Nat) (v : W64) : (s.setFence n v).journal = s.journal := rfl
@[simp] theorem State.setFence_collar (s : State) (n : Nat) (v : W64) : (s.setFence n v).collar = s.collar := rfl
@[simp] theorem State.setFence_retained (s : State) (n : Nat) (v : W64) : (s.setFence n v).retained = s.retained := rfl
@[simp] theorem State.setFence_cores (s : State) (n : Nat) (v : W64) : (s.setFence n v).cores = s.cores := rfl
@[simp] theorem State.setFence_sleeves (s : State) (n : Nat) (v : W64) : (s.setFence n v).sleeves = s.sleeves := rfl
@[simp] theorem State.setFence_fabric (s : State) (n : Nat) (v : W64) : (s.setFence n v).fabric = s.fabric := rfl
@[simp] theorem State.setFence_chains (s : State) (n : Nat) (v : W64) : (s.setFence n v).chains = s.chains := rfl
@[simp] theorem State.setFence_starved (s : State) (n : Nat) (v : W64) : (s.setFence n v).starved = s.starved := rfl
@[simp] theorem State.setFence_groups (s : State) (n : Nat) (v : W64) : (s.setFence n v).groups = s.groups := rfl
@[simp] theorem State.setFence_counters (s : State) (n : Nat) (v : W64) : (s.setFence n v).counters = s.counters := rfl
@[simp] theorem State.setFence_trace (s : State) (n : Nat) (v : W64) : (s.setFence n v).trace = s.trace := rfl
@[simp] theorem State.setFence_belt (s : State) (n : Nat) (v : W64) : (s.setFence n v).belt = s.belt := rfl
@[simp] theorem State.setFence_lining (s : State) (n : Nat) (v : W64) : (s.setFence n v).lining = s.lining := rfl
@[simp] theorem State.setFence_i3c (s : State) (n : Nat) (v : W64) : (s.setFence n v).i3c = s.i3c := rfl
@[simp] theorem State.setFence_tap (s : State) (n : Nat) (v : W64) : (s.setFence n v).tap = s.tap := rfl
@[simp] theorem State.setFence_latches (s : State) (n : Nat) (v : W64) : (s.setFence n v).latches = s.latches := rfl
@[simp] theorem State.setFence_stamps (s : State) (n : Nat) (v : W64) : (s.setFence n v).stamps = s.stamps := rfl
@[simp] theorem State.setFence_free (s : State) (n : Nat) (v : W64) : (s.setFence n v).free = s.free := rfl
@[simp] theorem State.setFence_pending (s : State) (n : Nat) (v : W64) : (s.setFence n v).pending = s.pending := rfl

/-! ## onPort -/

@[simp] theorem State.onPort_die (s : State) (m : Nat) (f : Traffic → Traffic) : (s.onPort m f).die = s.die := rfl
@[simp] theorem State.onPort_pins (s : State) (m : Nat) (f : Traffic → Traffic) : (s.onPort m f).pins = s.pins := rfl
@[simp] theorem State.onPort_tb (s : State) (m : Nat) (f : Traffic → Traffic) : (s.onPort m f).tb = s.tb := rfl
@[simp] theorem State.onPort_caps (s : State) (m : Nat) (f : Traffic → Traffic) : (s.onPort m f).caps = s.caps := rfl
@[simp] theorem State.onPort_ready (s : State) (m : Nat) (f : Traffic → Traffic) : (s.onPort m f).ready = s.ready := rfl
@[simp] theorem State.onPort_boot (s : State) (m : Nat) (f : Traffic → Traffic) : (s.onPort m f).boot = s.boot := rfl
@[simp] theorem State.onPort_stks (s : State) (m : Nat) (f : Traffic → Traffic) : (s.onPort m f).stks = s.stks := rfl
@[simp] theorem State.onPort_seams (s : State) (m : Nat) (f : Traffic → Traffic) : (s.onPort m f).seams = s.seams := rfl
@[simp] theorem State.onPort_hostReads (s : State) (m : Nat) (f : Traffic → Traffic) : (s.onPort m f).hostReads = s.hostReads := rfl
@[simp] theorem State.onPort_mem (s : State) (m : Nat) (f : Traffic → Traffic) : (s.onPort m f).mem = s.mem := rfl
@[simp] theorem State.onPort_ctxs (s : State) (m : Nat) (f : Traffic → Traffic) : (s.onPort m f).ctxs = s.ctxs := rfl
@[simp] theorem State.onPort_journal (s : State) (m : Nat) (f : Traffic → Traffic) : (s.onPort m f).journal = s.journal := rfl
@[simp] theorem State.onPort_collar (s : State) (m : Nat) (f : Traffic → Traffic) : (s.onPort m f).collar = s.collar := rfl
@[simp] theorem State.onPort_fences (s : State) (m : Nat) (f : Traffic → Traffic) : (s.onPort m f).fences = s.fences := rfl
@[simp] theorem State.onPort_retained (s : State) (m : Nat) (f : Traffic → Traffic) : (s.onPort m f).retained = s.retained := rfl
@[simp] theorem State.onPort_cores (s : State) (m : Nat) (f : Traffic → Traffic) : (s.onPort m f).cores = s.cores := rfl
@[simp] theorem State.onPort_sleeves (s : State) (m : Nat) (f : Traffic → Traffic) : (s.onPort m f).sleeves = s.sleeves := rfl
@[simp] theorem State.onPort_chains (s : State) (m : Nat) (f : Traffic → Traffic) : (s.onPort m f).chains = s.chains := rfl
@[simp] theorem State.onPort_starved (s : State) (m : Nat) (f : Traffic → Traffic) : (s.onPort m f).starved = s.starved := rfl
@[simp] theorem State.onPort_groups (s : State) (m : Nat) (f : Traffic → Traffic) : (s.onPort m f).groups = s.groups := rfl
@[simp] theorem State.onPort_counters (s : State) (m : Nat) (f : Traffic → Traffic) : (s.onPort m f).counters = s.counters := rfl
@[simp] theorem State.onPort_trace (s : State) (m : Nat) (f : Traffic → Traffic) : (s.onPort m f).trace = s.trace := rfl
@[simp] theorem State.onPort_belt (s : State) (m : Nat) (f : Traffic → Traffic) : (s.onPort m f).belt = s.belt := rfl
@[simp] theorem State.onPort_lining (s : State) (m : Nat) (f : Traffic → Traffic) : (s.onPort m f).lining = s.lining := rfl
@[simp] theorem State.onPort_i3c (s : State) (m : Nat) (f : Traffic → Traffic) : (s.onPort m f).i3c = s.i3c := rfl
@[simp] theorem State.onPort_tap (s : State) (m : Nat) (f : Traffic → Traffic) : (s.onPort m f).tap = s.tap := rfl
@[simp] theorem State.onPort_latches (s : State) (m : Nat) (f : Traffic → Traffic) : (s.onPort m f).latches = s.latches := rfl
@[simp] theorem State.onPort_stamps (s : State) (m : Nat) (f : Traffic → Traffic) : (s.onPort m f).stamps = s.stamps := rfl
@[simp] theorem State.onPort_free (s : State) (m : Nat) (f : Traffic → Traffic) : (s.onPort m f).free = s.free := rfl
@[simp] theorem State.onPort_pending (s : State) (m : Nat) (f : Traffic → Traffic) : (s.onPort m f).pending = s.pending := rfl

/-! ## atPort -/

@[simp] theorem State.atPort_die (s : State) (ctx a n : Nat) (f : Traffic → Request → Traffic) : (s.atPort ctx a n f).die = s.die := by
  unfold State.atPort; split <;> rfl
@[simp] theorem State.atPort_pins (s : State) (ctx a n : Nat) (f : Traffic → Request → Traffic) : (s.atPort ctx a n f).pins = s.pins := by
  unfold State.atPort; split <;> rfl
@[simp] theorem State.atPort_tb (s : State) (ctx a n : Nat) (f : Traffic → Request → Traffic) : (s.atPort ctx a n f).tb = s.tb := by
  unfold State.atPort; split <;> rfl
@[simp] theorem State.atPort_caps (s : State) (ctx a n : Nat) (f : Traffic → Request → Traffic) : (s.atPort ctx a n f).caps = s.caps := by
  unfold State.atPort; split <;> rfl
@[simp] theorem State.atPort_ready (s : State) (ctx a n : Nat) (f : Traffic → Request → Traffic) : (s.atPort ctx a n f).ready = s.ready := by
  unfold State.atPort; split <;> rfl
@[simp] theorem State.atPort_boot (s : State) (ctx a n : Nat) (f : Traffic → Request → Traffic) : (s.atPort ctx a n f).boot = s.boot := by
  unfold State.atPort; split <;> rfl
@[simp] theorem State.atPort_stks (s : State) (ctx a n : Nat) (f : Traffic → Request → Traffic) : (s.atPort ctx a n f).stks = s.stks := by
  unfold State.atPort; split <;> rfl
@[simp] theorem State.atPort_seams (s : State) (ctx a n : Nat) (f : Traffic → Request → Traffic) : (s.atPort ctx a n f).seams = s.seams := by
  unfold State.atPort; split <;> rfl
@[simp] theorem State.atPort_hostReads (s : State) (ctx a n : Nat) (f : Traffic → Request → Traffic) : (s.atPort ctx a n f).hostReads = s.hostReads := by
  unfold State.atPort; split <;> rfl
@[simp] theorem State.atPort_mem (s : State) (ctx a n : Nat) (f : Traffic → Request → Traffic) : (s.atPort ctx a n f).mem = s.mem := by
  unfold State.atPort; split <;> rfl
@[simp] theorem State.atPort_ctxs (s : State) (ctx a n : Nat) (f : Traffic → Request → Traffic) : (s.atPort ctx a n f).ctxs = s.ctxs := by
  unfold State.atPort; split <;> rfl
@[simp] theorem State.atPort_journal (s : State) (ctx a n : Nat) (f : Traffic → Request → Traffic) : (s.atPort ctx a n f).journal = s.journal := by
  unfold State.atPort; split <;> rfl
@[simp] theorem State.atPort_collar (s : State) (ctx a n : Nat) (f : Traffic → Request → Traffic) : (s.atPort ctx a n f).collar = s.collar := by
  unfold State.atPort; split <;> rfl
@[simp] theorem State.atPort_fences (s : State) (ctx a n : Nat) (f : Traffic → Request → Traffic) : (s.atPort ctx a n f).fences = s.fences := by
  unfold State.atPort; split <;> rfl
@[simp] theorem State.atPort_retained (s : State) (ctx a n : Nat) (f : Traffic → Request → Traffic) : (s.atPort ctx a n f).retained = s.retained := by
  unfold State.atPort; split <;> rfl
@[simp] theorem State.atPort_cores (s : State) (ctx a n : Nat) (f : Traffic → Request → Traffic) : (s.atPort ctx a n f).cores = s.cores := by
  unfold State.atPort; split <;> rfl
@[simp] theorem State.atPort_sleeves (s : State) (ctx a n : Nat) (f : Traffic → Request → Traffic) : (s.atPort ctx a n f).sleeves = s.sleeves := by
  unfold State.atPort; split <;> rfl
@[simp] theorem State.atPort_chains (s : State) (ctx a n : Nat) (f : Traffic → Request → Traffic) : (s.atPort ctx a n f).chains = s.chains := by
  unfold State.atPort; split <;> rfl
@[simp] theorem State.atPort_starved (s : State) (ctx a n : Nat) (f : Traffic → Request → Traffic) : (s.atPort ctx a n f).starved = s.starved := by
  unfold State.atPort; split <;> rfl
@[simp] theorem State.atPort_groups (s : State) (ctx a n : Nat) (f : Traffic → Request → Traffic) : (s.atPort ctx a n f).groups = s.groups := by
  unfold State.atPort; split <;> rfl
@[simp] theorem State.atPort_counters (s : State) (ctx a n : Nat) (f : Traffic → Request → Traffic) : (s.atPort ctx a n f).counters = s.counters := by
  unfold State.atPort; split <;> rfl
@[simp] theorem State.atPort_trace (s : State) (ctx a n : Nat) (f : Traffic → Request → Traffic) : (s.atPort ctx a n f).trace = s.trace := by
  unfold State.atPort; split <;> rfl
@[simp] theorem State.atPort_belt (s : State) (ctx a n : Nat) (f : Traffic → Request → Traffic) : (s.atPort ctx a n f).belt = s.belt := by
  unfold State.atPort; split <;> rfl
@[simp] theorem State.atPort_lining (s : State) (ctx a n : Nat) (f : Traffic → Request → Traffic) : (s.atPort ctx a n f).lining = s.lining := by
  unfold State.atPort; split <;> rfl
@[simp] theorem State.atPort_i3c (s : State) (ctx a n : Nat) (f : Traffic → Request → Traffic) : (s.atPort ctx a n f).i3c = s.i3c := by
  unfold State.atPort; split <;> rfl
@[simp] theorem State.atPort_tap (s : State) (ctx a n : Nat) (f : Traffic → Request → Traffic) : (s.atPort ctx a n f).tap = s.tap := by
  unfold State.atPort; split <;> rfl
@[simp] theorem State.atPort_latches (s : State) (ctx a n : Nat) (f : Traffic → Request → Traffic) : (s.atPort ctx a n f).latches = s.latches := by
  unfold State.atPort; split <;> rfl
@[simp] theorem State.atPort_stamps (s : State) (ctx a n : Nat) (f : Traffic → Request → Traffic) : (s.atPort ctx a n f).stamps = s.stamps := by
  unfold State.atPort; split <;> rfl
@[simp] theorem State.atPort_free (s : State) (ctx a n : Nat) (f : Traffic → Request → Traffic) : (s.atPort ctx a n f).free = s.free := by
  unfold State.atPort; split <;> rfl
@[simp] theorem State.atPort_pending (s : State) (ctx a n : Nat) (f : Traffic → Request → Traffic) : (s.atPort ctx a n f).pending = s.pending := by
  unfold State.atPort; split <;> rfl

/-! ## engineLines -/

@[simp] theorem State.engineLines_die (s : State) (a n : Nat) : (s.engineLines a n).die = s.die := State.atPort_die s _ a _ _
@[simp] theorem State.engineLines_pins (s : State) (a n : Nat) : (s.engineLines a n).pins = s.pins := State.atPort_pins s _ a _ _
@[simp] theorem State.engineLines_tb (s : State) (a n : Nat) : (s.engineLines a n).tb = s.tb := State.atPort_tb s _ a _ _
@[simp] theorem State.engineLines_caps (s : State) (a n : Nat) : (s.engineLines a n).caps = s.caps := State.atPort_caps s _ a _ _
@[simp] theorem State.engineLines_ready (s : State) (a n : Nat) : (s.engineLines a n).ready = s.ready := State.atPort_ready s _ a _ _
@[simp] theorem State.engineLines_boot (s : State) (a n : Nat) : (s.engineLines a n).boot = s.boot := State.atPort_boot s _ a _ _
@[simp] theorem State.engineLines_stks (s : State) (a n : Nat) : (s.engineLines a n).stks = s.stks := State.atPort_stks s _ a _ _
@[simp] theorem State.engineLines_seams (s : State) (a n : Nat) : (s.engineLines a n).seams = s.seams := State.atPort_seams s _ a _ _
@[simp] theorem State.engineLines_hostReads (s : State) (a n : Nat) : (s.engineLines a n).hostReads = s.hostReads := State.atPort_hostReads s _ a _ _
@[simp] theorem State.engineLines_mem (s : State) (a n : Nat) : (s.engineLines a n).mem = s.mem := State.atPort_mem s _ a _ _
@[simp] theorem State.engineLines_ctxs (s : State) (a n : Nat) : (s.engineLines a n).ctxs = s.ctxs := State.atPort_ctxs s _ a _ _
@[simp] theorem State.engineLines_journal (s : State) (a n : Nat) : (s.engineLines a n).journal = s.journal := State.atPort_journal s _ a _ _
@[simp] theorem State.engineLines_collar (s : State) (a n : Nat) : (s.engineLines a n).collar = s.collar := State.atPort_collar s _ a _ _
@[simp] theorem State.engineLines_fences (s : State) (a n : Nat) : (s.engineLines a n).fences = s.fences := State.atPort_fences s _ a _ _
@[simp] theorem State.engineLines_retained (s : State) (a n : Nat) : (s.engineLines a n).retained = s.retained := State.atPort_retained s _ a _ _
@[simp] theorem State.engineLines_cores (s : State) (a n : Nat) : (s.engineLines a n).cores = s.cores := State.atPort_cores s _ a _ _
@[simp] theorem State.engineLines_sleeves (s : State) (a n : Nat) : (s.engineLines a n).sleeves = s.sleeves := State.atPort_sleeves s _ a _ _
@[simp] theorem State.engineLines_chains (s : State) (a n : Nat) : (s.engineLines a n).chains = s.chains := State.atPort_chains s _ a _ _
@[simp] theorem State.engineLines_starved (s : State) (a n : Nat) : (s.engineLines a n).starved = s.starved := State.atPort_starved s _ a _ _
@[simp] theorem State.engineLines_groups (s : State) (a n : Nat) : (s.engineLines a n).groups = s.groups := State.atPort_groups s _ a _ _
@[simp] theorem State.engineLines_counters (s : State) (a n : Nat) : (s.engineLines a n).counters = s.counters := State.atPort_counters s _ a _ _
@[simp] theorem State.engineLines_trace (s : State) (a n : Nat) : (s.engineLines a n).trace = s.trace := State.atPort_trace s _ a _ _
@[simp] theorem State.engineLines_belt (s : State) (a n : Nat) : (s.engineLines a n).belt = s.belt := State.atPort_belt s _ a _ _
@[simp] theorem State.engineLines_lining (s : State) (a n : Nat) : (s.engineLines a n).lining = s.lining := State.atPort_lining s _ a _ _
@[simp] theorem State.engineLines_i3c (s : State) (a n : Nat) : (s.engineLines a n).i3c = s.i3c := State.atPort_i3c s _ a _ _
@[simp] theorem State.engineLines_tap (s : State) (a n : Nat) : (s.engineLines a n).tap = s.tap := State.atPort_tap s _ a _ _
@[simp] theorem State.engineLines_latches (s : State) (a n : Nat) : (s.engineLines a n).latches = s.latches := State.atPort_latches s _ a _ _
@[simp] theorem State.engineLines_stamps (s : State) (a n : Nat) : (s.engineLines a n).stamps = s.stamps := State.atPort_stamps s _ a _ _
@[simp] theorem State.engineLines_free (s : State) (a n : Nat) : (s.engineLines a n).free = s.free := State.atPort_free s _ a _ _
@[simp] theorem State.engineLines_pending (s : State) (a n : Nat) : (s.engineLines a n).pending = s.pending := State.atPort_pending s _ a _ _

/-! ## lay -/

@[simp] theorem State.lay_die (s : State) (a : Nat) (bs : Bytes) : (s.lay a bs).die = s.die := rfl
@[simp] theorem State.lay_pins (s : State) (a : Nat) (bs : Bytes) : (s.lay a bs).pins = s.pins := rfl
@[simp] theorem State.lay_tb (s : State) (a : Nat) (bs : Bytes) : (s.lay a bs).tb = s.tb := rfl
@[simp] theorem State.lay_caps (s : State) (a : Nat) (bs : Bytes) : (s.lay a bs).caps = s.caps := rfl
@[simp] theorem State.lay_ready (s : State) (a : Nat) (bs : Bytes) : (s.lay a bs).ready = s.ready := rfl
@[simp] theorem State.lay_boot (s : State) (a : Nat) (bs : Bytes) : (s.lay a bs).boot = s.boot := rfl
@[simp] theorem State.lay_stks (s : State) (a : Nat) (bs : Bytes) : (s.lay a bs).stks = s.stks := rfl
@[simp] theorem State.lay_seams (s : State) (a : Nat) (bs : Bytes) : (s.lay a bs).seams = s.seams := rfl
@[simp] theorem State.lay_hostReads (s : State) (a : Nat) (bs : Bytes) : (s.lay a bs).hostReads = s.hostReads := rfl
@[simp] theorem State.lay_ctxs (s : State) (a : Nat) (bs : Bytes) : (s.lay a bs).ctxs = s.ctxs := rfl
@[simp] theorem State.lay_journal (s : State) (a : Nat) (bs : Bytes) : (s.lay a bs).journal = s.journal := rfl
@[simp] theorem State.lay_collar (s : State) (a : Nat) (bs : Bytes) : (s.lay a bs).collar = s.collar := rfl
@[simp] theorem State.lay_fences (s : State) (a : Nat) (bs : Bytes) : (s.lay a bs).fences = s.fences := rfl
@[simp] theorem State.lay_retained (s : State) (a : Nat) (bs : Bytes) : (s.lay a bs).retained = s.retained := rfl
@[simp] theorem State.lay_cores (s : State) (a : Nat) (bs : Bytes) : (s.lay a bs).cores = s.cores := rfl
@[simp] theorem State.lay_sleeves (s : State) (a : Nat) (bs : Bytes) : (s.lay a bs).sleeves = s.sleeves := rfl
@[simp] theorem State.lay_chains (s : State) (a : Nat) (bs : Bytes) : (s.lay a bs).chains = s.chains := rfl
@[simp] theorem State.lay_starved (s : State) (a : Nat) (bs : Bytes) : (s.lay a bs).starved = s.starved := rfl
@[simp] theorem State.lay_groups (s : State) (a : Nat) (bs : Bytes) : (s.lay a bs).groups = s.groups := rfl
@[simp] theorem State.lay_counters (s : State) (a : Nat) (bs : Bytes) : (s.lay a bs).counters = s.counters := rfl
@[simp] theorem State.lay_trace (s : State) (a : Nat) (bs : Bytes) : (s.lay a bs).trace = s.trace := rfl
@[simp] theorem State.lay_belt (s : State) (a : Nat) (bs : Bytes) : (s.lay a bs).belt = s.belt := rfl
@[simp] theorem State.lay_lining (s : State) (a : Nat) (bs : Bytes) : (s.lay a bs).lining = s.lining := rfl
@[simp] theorem State.lay_i3c (s : State) (a : Nat) (bs : Bytes) : (s.lay a bs).i3c = s.i3c := rfl
@[simp] theorem State.lay_tap (s : State) (a : Nat) (bs : Bytes) : (s.lay a bs).tap = s.tap := rfl
@[simp] theorem State.lay_latches (s : State) (a : Nat) (bs : Bytes) : (s.lay a bs).latches = s.latches := rfl
@[simp] theorem State.lay_stamps (s : State) (a : Nat) (bs : Bytes) : (s.lay a bs).stamps = s.stamps := rfl
@[simp] theorem State.lay_free (s : State) (a : Nat) (bs : Bytes) : (s.lay a bs).free = s.free := rfl
@[simp] theorem State.lay_pending (s : State) (a : Nat) (bs : Bytes) : (s.lay a bs).pending = s.pending := rfl

/-! ## put -/

@[simp] theorem State.put_die (s : State) (a : Nat) (bs : Bytes) : (s.put a bs).die = s.die := State.atPort_die _ _ a _ _
@[simp] theorem State.put_pins (s : State) (a : Nat) (bs : Bytes) : (s.put a bs).pins = s.pins := State.atPort_pins _ _ a _ _
@[simp] theorem State.put_tb (s : State) (a : Nat) (bs : Bytes) : (s.put a bs).tb = s.tb := State.atPort_tb _ _ a _ _
@[simp] theorem State.put_caps (s : State) (a : Nat) (bs : Bytes) : (s.put a bs).caps = s.caps := State.atPort_caps _ _ a _ _
@[simp] theorem State.put_ready (s : State) (a : Nat) (bs : Bytes) : (s.put a bs).ready = s.ready := State.atPort_ready _ _ a _ _
@[simp] theorem State.put_boot (s : State) (a : Nat) (bs : Bytes) : (s.put a bs).boot = s.boot := State.atPort_boot _ _ a _ _
@[simp] theorem State.put_stks (s : State) (a : Nat) (bs : Bytes) : (s.put a bs).stks = s.stks := State.atPort_stks _ _ a _ _
@[simp] theorem State.put_seams (s : State) (a : Nat) (bs : Bytes) : (s.put a bs).seams = s.seams := State.atPort_seams _ _ a _ _
@[simp] theorem State.put_hostReads (s : State) (a : Nat) (bs : Bytes) : (s.put a bs).hostReads = s.hostReads := State.atPort_hostReads _ _ a _ _
@[simp] theorem State.put_ctxs (s : State) (a : Nat) (bs : Bytes) : (s.put a bs).ctxs = s.ctxs := State.atPort_ctxs _ _ a _ _
@[simp] theorem State.put_journal (s : State) (a : Nat) (bs : Bytes) : (s.put a bs).journal = s.journal := State.atPort_journal _ _ a _ _
@[simp] theorem State.put_collar (s : State) (a : Nat) (bs : Bytes) : (s.put a bs).collar = s.collar := State.atPort_collar _ _ a _ _
@[simp] theorem State.put_fences (s : State) (a : Nat) (bs : Bytes) : (s.put a bs).fences = s.fences := State.atPort_fences _ _ a _ _
@[simp] theorem State.put_retained (s : State) (a : Nat) (bs : Bytes) : (s.put a bs).retained = s.retained := State.atPort_retained _ _ a _ _
@[simp] theorem State.put_cores (s : State) (a : Nat) (bs : Bytes) : (s.put a bs).cores = s.cores := State.atPort_cores _ _ a _ _
@[simp] theorem State.put_sleeves (s : State) (a : Nat) (bs : Bytes) : (s.put a bs).sleeves = s.sleeves := State.atPort_sleeves _ _ a _ _
@[simp] theorem State.put_chains (s : State) (a : Nat) (bs : Bytes) : (s.put a bs).chains = s.chains := State.atPort_chains _ _ a _ _
@[simp] theorem State.put_starved (s : State) (a : Nat) (bs : Bytes) : (s.put a bs).starved = s.starved := State.atPort_starved _ _ a _ _
@[simp] theorem State.put_groups (s : State) (a : Nat) (bs : Bytes) : (s.put a bs).groups = s.groups := State.atPort_groups _ _ a _ _
@[simp] theorem State.put_counters (s : State) (a : Nat) (bs : Bytes) : (s.put a bs).counters = s.counters := State.atPort_counters _ _ a _ _
@[simp] theorem State.put_trace (s : State) (a : Nat) (bs : Bytes) : (s.put a bs).trace = s.trace := State.atPort_trace _ _ a _ _
@[simp] theorem State.put_belt (s : State) (a : Nat) (bs : Bytes) : (s.put a bs).belt = s.belt := State.atPort_belt _ _ a _ _
@[simp] theorem State.put_lining (s : State) (a : Nat) (bs : Bytes) : (s.put a bs).lining = s.lining := State.atPort_lining _ _ a _ _
@[simp] theorem State.put_i3c (s : State) (a : Nat) (bs : Bytes) : (s.put a bs).i3c = s.i3c := State.atPort_i3c _ _ a _ _
@[simp] theorem State.put_tap (s : State) (a : Nat) (bs : Bytes) : (s.put a bs).tap = s.tap := State.atPort_tap _ _ a _ _
@[simp] theorem State.put_latches (s : State) (a : Nat) (bs : Bytes) : (s.put a bs).latches = s.latches := State.atPort_latches _ _ a _ _
@[simp] theorem State.put_stamps (s : State) (a : Nat) (bs : Bytes) : (s.put a bs).stamps = s.stamps := State.atPort_stamps _ _ a _ _
@[simp] theorem State.put_free (s : State) (a : Nat) (bs : Bytes) : (s.put a bs).free = s.free := State.atPort_free _ _ a _ _
@[simp] theorem State.put_pending (s : State) (a : Nat) (bs : Bytes) : (s.put a bs).pending = s.pending := State.atPort_pending _ _ a _ _

/-! ## putFor -/

@[simp] theorem State.putFor_die (s : State) (ctx a : Nat) (bs : Bytes) : (s.putFor ctx a bs).die = s.die := State.atPort_die _ _ a _ _
@[simp] theorem State.putFor_pins (s : State) (ctx a : Nat) (bs : Bytes) : (s.putFor ctx a bs).pins = s.pins := State.atPort_pins _ _ a _ _
@[simp] theorem State.putFor_tb (s : State) (ctx a : Nat) (bs : Bytes) : (s.putFor ctx a bs).tb = s.tb := State.atPort_tb _ _ a _ _
@[simp] theorem State.putFor_caps (s : State) (ctx a : Nat) (bs : Bytes) : (s.putFor ctx a bs).caps = s.caps := State.atPort_caps _ _ a _ _
@[simp] theorem State.putFor_ready (s : State) (ctx a : Nat) (bs : Bytes) : (s.putFor ctx a bs).ready = s.ready := State.atPort_ready _ _ a _ _
@[simp] theorem State.putFor_boot (s : State) (ctx a : Nat) (bs : Bytes) : (s.putFor ctx a bs).boot = s.boot := State.atPort_boot _ _ a _ _
@[simp] theorem State.putFor_stks (s : State) (ctx a : Nat) (bs : Bytes) : (s.putFor ctx a bs).stks = s.stks := State.atPort_stks _ _ a _ _
@[simp] theorem State.putFor_seams (s : State) (ctx a : Nat) (bs : Bytes) : (s.putFor ctx a bs).seams = s.seams := State.atPort_seams _ _ a _ _
@[simp] theorem State.putFor_hostReads (s : State) (ctx a : Nat) (bs : Bytes) : (s.putFor ctx a bs).hostReads = s.hostReads := State.atPort_hostReads _ _ a _ _
@[simp] theorem State.putFor_ctxs (s : State) (ctx a : Nat) (bs : Bytes) : (s.putFor ctx a bs).ctxs = s.ctxs := State.atPort_ctxs _ _ a _ _
@[simp] theorem State.putFor_journal (s : State) (ctx a : Nat) (bs : Bytes) : (s.putFor ctx a bs).journal = s.journal := State.atPort_journal _ _ a _ _
@[simp] theorem State.putFor_collar (s : State) (ctx a : Nat) (bs : Bytes) : (s.putFor ctx a bs).collar = s.collar := State.atPort_collar _ _ a _ _
@[simp] theorem State.putFor_fences (s : State) (ctx a : Nat) (bs : Bytes) : (s.putFor ctx a bs).fences = s.fences := State.atPort_fences _ _ a _ _
@[simp] theorem State.putFor_retained (s : State) (ctx a : Nat) (bs : Bytes) : (s.putFor ctx a bs).retained = s.retained := State.atPort_retained _ _ a _ _
@[simp] theorem State.putFor_cores (s : State) (ctx a : Nat) (bs : Bytes) : (s.putFor ctx a bs).cores = s.cores := State.atPort_cores _ _ a _ _
@[simp] theorem State.putFor_sleeves (s : State) (ctx a : Nat) (bs : Bytes) : (s.putFor ctx a bs).sleeves = s.sleeves := State.atPort_sleeves _ _ a _ _
@[simp] theorem State.putFor_chains (s : State) (ctx a : Nat) (bs : Bytes) : (s.putFor ctx a bs).chains = s.chains := State.atPort_chains _ _ a _ _
@[simp] theorem State.putFor_starved (s : State) (ctx a : Nat) (bs : Bytes) : (s.putFor ctx a bs).starved = s.starved := State.atPort_starved _ _ a _ _
@[simp] theorem State.putFor_groups (s : State) (ctx a : Nat) (bs : Bytes) : (s.putFor ctx a bs).groups = s.groups := State.atPort_groups _ _ a _ _
@[simp] theorem State.putFor_counters (s : State) (ctx a : Nat) (bs : Bytes) : (s.putFor ctx a bs).counters = s.counters := State.atPort_counters _ _ a _ _
@[simp] theorem State.putFor_trace (s : State) (ctx a : Nat) (bs : Bytes) : (s.putFor ctx a bs).trace = s.trace := State.atPort_trace _ _ a _ _
@[simp] theorem State.putFor_belt (s : State) (ctx a : Nat) (bs : Bytes) : (s.putFor ctx a bs).belt = s.belt := State.atPort_belt _ _ a _ _
@[simp] theorem State.putFor_lining (s : State) (ctx a : Nat) (bs : Bytes) : (s.putFor ctx a bs).lining = s.lining := State.atPort_lining _ _ a _ _
@[simp] theorem State.putFor_i3c (s : State) (ctx a : Nat) (bs : Bytes) : (s.putFor ctx a bs).i3c = s.i3c := State.atPort_i3c _ _ a _ _
@[simp] theorem State.putFor_tap (s : State) (ctx a : Nat) (bs : Bytes) : (s.putFor ctx a bs).tap = s.tap := State.atPort_tap _ _ a _ _
@[simp] theorem State.putFor_latches (s : State) (ctx a : Nat) (bs : Bytes) : (s.putFor ctx a bs).latches = s.latches := State.atPort_latches _ _ a _ _
@[simp] theorem State.putFor_stamps (s : State) (ctx a : Nat) (bs : Bytes) : (s.putFor ctx a bs).stamps = s.stamps := State.atPort_stamps _ _ a _ _
@[simp] theorem State.putFor_free (s : State) (ctx a : Nat) (bs : Bytes) : (s.putFor ctx a bs).free = s.free := State.atPort_free _ _ a _ _
@[simp] theorem State.putFor_pending (s : State) (ctx a : Nat) (bs : Bytes) : (s.putFor ctx a bs).pending = s.pending := State.atPort_pending _ _ a _ _

/-! ## addAt -/

@[simp] theorem State.addAt_die (s : State) (a n : Nat) : (s.addAt a n).die = s.die := rfl
@[simp] theorem State.addAt_pins (s : State) (a n : Nat) : (s.addAt a n).pins = s.pins := rfl
@[simp] theorem State.addAt_tb (s : State) (a n : Nat) : (s.addAt a n).tb = s.tb := rfl
@[simp] theorem State.addAt_caps (s : State) (a n : Nat) : (s.addAt a n).caps = s.caps := rfl
@[simp] theorem State.addAt_ready (s : State) (a n : Nat) : (s.addAt a n).ready = s.ready := rfl
@[simp] theorem State.addAt_boot (s : State) (a n : Nat) : (s.addAt a n).boot = s.boot := rfl
@[simp] theorem State.addAt_stks (s : State) (a n : Nat) : (s.addAt a n).stks = s.stks := rfl
@[simp] theorem State.addAt_seams (s : State) (a n : Nat) : (s.addAt a n).seams = s.seams := rfl
@[simp] theorem State.addAt_hostReads (s : State) (a n : Nat) : (s.addAt a n).hostReads = s.hostReads := rfl
@[simp] theorem State.addAt_mem (s : State) (a n : Nat) : (s.addAt a n).mem = s.mem := rfl
@[simp] theorem State.addAt_ctxs (s : State) (a n : Nat) : (s.addAt a n).ctxs = s.ctxs := rfl
@[simp] theorem State.addAt_journal (s : State) (a n : Nat) : (s.addAt a n).journal = s.journal := rfl
@[simp] theorem State.addAt_collar (s : State) (a n : Nat) : (s.addAt a n).collar = s.collar := rfl
@[simp] theorem State.addAt_fences (s : State) (a n : Nat) : (s.addAt a n).fences = s.fences := rfl
@[simp] theorem State.addAt_retained (s : State) (a n : Nat) : (s.addAt a n).retained = s.retained := rfl
@[simp] theorem State.addAt_cores (s : State) (a n : Nat) : (s.addAt a n).cores = s.cores := rfl
@[simp] theorem State.addAt_sleeves (s : State) (a n : Nat) : (s.addAt a n).sleeves = s.sleeves := rfl
@[simp] theorem State.addAt_fabric (s : State) (a n : Nat) : (s.addAt a n).fabric = s.fabric := rfl
@[simp] theorem State.addAt_chains (s : State) (a n : Nat) : (s.addAt a n).chains = s.chains := rfl
@[simp] theorem State.addAt_starved (s : State) (a n : Nat) : (s.addAt a n).starved = s.starved := rfl
@[simp] theorem State.addAt_groups (s : State) (a n : Nat) : (s.addAt a n).groups = s.groups := rfl
@[simp] theorem State.addAt_trace (s : State) (a n : Nat) : (s.addAt a n).trace = s.trace := rfl
@[simp] theorem State.addAt_belt (s : State) (a n : Nat) : (s.addAt a n).belt = s.belt := rfl
@[simp] theorem State.addAt_lining (s : State) (a n : Nat) : (s.addAt a n).lining = s.lining := rfl
@[simp] theorem State.addAt_i3c (s : State) (a n : Nat) : (s.addAt a n).i3c = s.i3c := rfl
@[simp] theorem State.addAt_tap (s : State) (a n : Nat) : (s.addAt a n).tap = s.tap := rfl
@[simp] theorem State.addAt_latches (s : State) (a n : Nat) : (s.addAt a n).latches = s.latches := rfl
@[simp] theorem State.addAt_stamps (s : State) (a n : Nat) : (s.addAt a n).stamps = s.stamps := rfl
@[simp] theorem State.addAt_free (s : State) (a n : Nat) : (s.addAt a n).free = s.free := rfl
@[simp] theorem State.addAt_pending (s : State) (a n : Nat) : (s.addAt a n).pending = s.pending := rfl

/-! ## count -/

@[simp] theorem State.count_die (s : State) (c : Counter) (n : Nat) : (s.count c n).die = s.die := rfl
@[simp] theorem State.count_pins (s : State) (c : Counter) (n : Nat) : (s.count c n).pins = s.pins := rfl
@[simp] theorem State.count_tb (s : State) (c : Counter) (n : Nat) : (s.count c n).tb = s.tb := rfl
@[simp] theorem State.count_caps (s : State) (c : Counter) (n : Nat) : (s.count c n).caps = s.caps := rfl
@[simp] theorem State.count_ready (s : State) (c : Counter) (n : Nat) : (s.count c n).ready = s.ready := rfl
@[simp] theorem State.count_boot (s : State) (c : Counter) (n : Nat) : (s.count c n).boot = s.boot := rfl
@[simp] theorem State.count_stks (s : State) (c : Counter) (n : Nat) : (s.count c n).stks = s.stks := rfl
@[simp] theorem State.count_seams (s : State) (c : Counter) (n : Nat) : (s.count c n).seams = s.seams := rfl
@[simp] theorem State.count_hostReads (s : State) (c : Counter) (n : Nat) : (s.count c n).hostReads = s.hostReads := rfl
@[simp] theorem State.count_mem (s : State) (c : Counter) (n : Nat) : (s.count c n).mem = s.mem := rfl
@[simp] theorem State.count_ctxs (s : State) (c : Counter) (n : Nat) : (s.count c n).ctxs = s.ctxs := rfl
@[simp] theorem State.count_journal (s : State) (c : Counter) (n : Nat) : (s.count c n).journal = s.journal := rfl
@[simp] theorem State.count_collar (s : State) (c : Counter) (n : Nat) : (s.count c n).collar = s.collar := rfl
@[simp] theorem State.count_fences (s : State) (c : Counter) (n : Nat) : (s.count c n).fences = s.fences := rfl
@[simp] theorem State.count_retained (s : State) (c : Counter) (n : Nat) : (s.count c n).retained = s.retained := rfl
@[simp] theorem State.count_cores (s : State) (c : Counter) (n : Nat) : (s.count c n).cores = s.cores := rfl
@[simp] theorem State.count_sleeves (s : State) (c : Counter) (n : Nat) : (s.count c n).sleeves = s.sleeves := rfl
@[simp] theorem State.count_fabric (s : State) (c : Counter) (n : Nat) : (s.count c n).fabric = s.fabric := rfl
@[simp] theorem State.count_chains (s : State) (c : Counter) (n : Nat) : (s.count c n).chains = s.chains := rfl
@[simp] theorem State.count_starved (s : State) (c : Counter) (n : Nat) : (s.count c n).starved = s.starved := rfl
@[simp] theorem State.count_groups (s : State) (c : Counter) (n : Nat) : (s.count c n).groups = s.groups := rfl
@[simp] theorem State.count_trace (s : State) (c : Counter) (n : Nat) : (s.count c n).trace = s.trace := rfl
@[simp] theorem State.count_belt (s : State) (c : Counter) (n : Nat) : (s.count c n).belt = s.belt := rfl
@[simp] theorem State.count_lining (s : State) (c : Counter) (n : Nat) : (s.count c n).lining = s.lining := rfl
@[simp] theorem State.count_i3c (s : State) (c : Counter) (n : Nat) : (s.count c n).i3c = s.i3c := rfl
@[simp] theorem State.count_tap (s : State) (c : Counter) (n : Nat) : (s.count c n).tap = s.tap := rfl
@[simp] theorem State.count_latches (s : State) (c : Counter) (n : Nat) : (s.count c n).latches = s.latches := rfl
@[simp] theorem State.count_stamps (s : State) (c : Counter) (n : Nat) : (s.count c n).stamps = s.stamps := rfl
@[simp] theorem State.count_free (s : State) (c : Counter) (n : Nat) : (s.count c n).free = s.free := rfl
@[simp] theorem State.count_pending (s : State) (c : Counter) (n : Nat) : (s.count c n).pending = s.pending := rfl

/-! ## countIf -/

@[simp] theorem State.countIf_die (s : State) (c : Counter) (n : Nat) : (s.countIf c n).die = s.die := by
  unfold State.countIf; split <;> rfl
@[simp] theorem State.countIf_pins (s : State) (c : Counter) (n : Nat) : (s.countIf c n).pins = s.pins := by
  unfold State.countIf; split <;> rfl
@[simp] theorem State.countIf_tb (s : State) (c : Counter) (n : Nat) : (s.countIf c n).tb = s.tb := by
  unfold State.countIf; split <;> rfl
@[simp] theorem State.countIf_caps (s : State) (c : Counter) (n : Nat) : (s.countIf c n).caps = s.caps := by
  unfold State.countIf; split <;> rfl
@[simp] theorem State.countIf_ready (s : State) (c : Counter) (n : Nat) : (s.countIf c n).ready = s.ready := by
  unfold State.countIf; split <;> rfl
@[simp] theorem State.countIf_boot (s : State) (c : Counter) (n : Nat) : (s.countIf c n).boot = s.boot := by
  unfold State.countIf; split <;> rfl
@[simp] theorem State.countIf_stks (s : State) (c : Counter) (n : Nat) : (s.countIf c n).stks = s.stks := by
  unfold State.countIf; split <;> rfl
@[simp] theorem State.countIf_seams (s : State) (c : Counter) (n : Nat) : (s.countIf c n).seams = s.seams := by
  unfold State.countIf; split <;> rfl
@[simp] theorem State.countIf_hostReads (s : State) (c : Counter) (n : Nat) : (s.countIf c n).hostReads = s.hostReads := by
  unfold State.countIf; split <;> rfl
@[simp] theorem State.countIf_mem (s : State) (c : Counter) (n : Nat) : (s.countIf c n).mem = s.mem := by
  unfold State.countIf; split <;> rfl
@[simp] theorem State.countIf_ctxs (s : State) (c : Counter) (n : Nat) : (s.countIf c n).ctxs = s.ctxs := by
  unfold State.countIf; split <;> rfl
@[simp] theorem State.countIf_journal (s : State) (c : Counter) (n : Nat) : (s.countIf c n).journal = s.journal := by
  unfold State.countIf; split <;> rfl
@[simp] theorem State.countIf_collar (s : State) (c : Counter) (n : Nat) : (s.countIf c n).collar = s.collar := by
  unfold State.countIf; split <;> rfl
@[simp] theorem State.countIf_fences (s : State) (c : Counter) (n : Nat) : (s.countIf c n).fences = s.fences := by
  unfold State.countIf; split <;> rfl
@[simp] theorem State.countIf_retained (s : State) (c : Counter) (n : Nat) : (s.countIf c n).retained = s.retained := by
  unfold State.countIf; split <;> rfl
@[simp] theorem State.countIf_cores (s : State) (c : Counter) (n : Nat) : (s.countIf c n).cores = s.cores := by
  unfold State.countIf; split <;> rfl
@[simp] theorem State.countIf_sleeves (s : State) (c : Counter) (n : Nat) : (s.countIf c n).sleeves = s.sleeves := by
  unfold State.countIf; split <;> rfl
@[simp] theorem State.countIf_fabric (s : State) (c : Counter) (n : Nat) : (s.countIf c n).fabric = s.fabric := by
  unfold State.countIf; split <;> rfl
@[simp] theorem State.countIf_chains (s : State) (c : Counter) (n : Nat) : (s.countIf c n).chains = s.chains := by
  unfold State.countIf; split <;> rfl
@[simp] theorem State.countIf_starved (s : State) (c : Counter) (n : Nat) : (s.countIf c n).starved = s.starved := by
  unfold State.countIf; split <;> rfl
@[simp] theorem State.countIf_groups (s : State) (c : Counter) (n : Nat) : (s.countIf c n).groups = s.groups := by
  unfold State.countIf; split <;> rfl
@[simp] theorem State.countIf_trace (s : State) (c : Counter) (n : Nat) : (s.countIf c n).trace = s.trace := by
  unfold State.countIf; split <;> rfl
@[simp] theorem State.countIf_belt (s : State) (c : Counter) (n : Nat) : (s.countIf c n).belt = s.belt := by
  unfold State.countIf; split <;> rfl
@[simp] theorem State.countIf_lining (s : State) (c : Counter) (n : Nat) : (s.countIf c n).lining = s.lining := by
  unfold State.countIf; split <;> rfl
@[simp] theorem State.countIf_i3c (s : State) (c : Counter) (n : Nat) : (s.countIf c n).i3c = s.i3c := by
  unfold State.countIf; split <;> rfl
@[simp] theorem State.countIf_tap (s : State) (c : Counter) (n : Nat) : (s.countIf c n).tap = s.tap := by
  unfold State.countIf; split <;> rfl
@[simp] theorem State.countIf_latches (s : State) (c : Counter) (n : Nat) : (s.countIf c n).latches = s.latches := by
  unfold State.countIf; split <;> rfl
@[simp] theorem State.countIf_stamps (s : State) (c : Counter) (n : Nat) : (s.countIf c n).stamps = s.stamps := by
  unfold State.countIf; split <;> rfl
@[simp] theorem State.countIf_free (s : State) (c : Counter) (n : Nat) : (s.countIf c n).free = s.free := by
  unfold State.countIf; split <;> rfl
@[simp] theorem State.countIf_pending (s : State) (c : Counter) (n : Nat) : (s.countIf c n).pending = s.pending := by
  unfold State.countIf; split <;> rfl

/-! ## setChain -/

@[simp] theorem State.setChain_die (s : State) (c : ChainState) : (s.setChain c).die = s.die := rfl
@[simp] theorem State.setChain_pins (s : State) (c : ChainState) : (s.setChain c).pins = s.pins := rfl
@[simp] theorem State.setChain_tb (s : State) (c : ChainState) : (s.setChain c).tb = s.tb := rfl
@[simp] theorem State.setChain_caps (s : State) (c : ChainState) : (s.setChain c).caps = s.caps := rfl
@[simp] theorem State.setChain_ready (s : State) (c : ChainState) : (s.setChain c).ready = s.ready := rfl
@[simp] theorem State.setChain_boot (s : State) (c : ChainState) : (s.setChain c).boot = s.boot := rfl
@[simp] theorem State.setChain_stks (s : State) (c : ChainState) : (s.setChain c).stks = s.stks := rfl
@[simp] theorem State.setChain_seams (s : State) (c : ChainState) : (s.setChain c).seams = s.seams := rfl
@[simp] theorem State.setChain_hostReads (s : State) (c : ChainState) : (s.setChain c).hostReads = s.hostReads := rfl
@[simp] theorem State.setChain_mem (s : State) (c : ChainState) : (s.setChain c).mem = s.mem := rfl
@[simp] theorem State.setChain_ctxs (s : State) (c : ChainState) : (s.setChain c).ctxs = s.ctxs := rfl
@[simp] theorem State.setChain_journal (s : State) (c : ChainState) : (s.setChain c).journal = s.journal := rfl
@[simp] theorem State.setChain_collar (s : State) (c : ChainState) : (s.setChain c).collar = s.collar := rfl
@[simp] theorem State.setChain_fences (s : State) (c : ChainState) : (s.setChain c).fences = s.fences := rfl
@[simp] theorem State.setChain_retained (s : State) (c : ChainState) : (s.setChain c).retained = s.retained := rfl
@[simp] theorem State.setChain_cores (s : State) (c : ChainState) : (s.setChain c).cores = s.cores := rfl
@[simp] theorem State.setChain_sleeves (s : State) (c : ChainState) : (s.setChain c).sleeves = s.sleeves := rfl
@[simp] theorem State.setChain_fabric (s : State) (c : ChainState) : (s.setChain c).fabric = s.fabric := rfl
@[simp] theorem State.setChain_starved (s : State) (c : ChainState) : (s.setChain c).starved = s.starved := rfl
@[simp] theorem State.setChain_groups (s : State) (c : ChainState) : (s.setChain c).groups = s.groups := rfl
@[simp] theorem State.setChain_counters (s : State) (c : ChainState) : (s.setChain c).counters = s.counters := rfl
@[simp] theorem State.setChain_trace (s : State) (c : ChainState) : (s.setChain c).trace = s.trace := rfl
@[simp] theorem State.setChain_belt (s : State) (c : ChainState) : (s.setChain c).belt = s.belt := rfl
@[simp] theorem State.setChain_lining (s : State) (c : ChainState) : (s.setChain c).lining = s.lining := rfl
@[simp] theorem State.setChain_i3c (s : State) (c : ChainState) : (s.setChain c).i3c = s.i3c := rfl
@[simp] theorem State.setChain_tap (s : State) (c : ChainState) : (s.setChain c).tap = s.tap := rfl
@[simp] theorem State.setChain_latches (s : State) (c : ChainState) : (s.setChain c).latches = s.latches := rfl
@[simp] theorem State.setChain_stamps (s : State) (c : ChainState) : (s.setChain c).stamps = s.stamps := rfl
@[simp] theorem State.setChain_free (s : State) (c : ChainState) : (s.setChain c).free = s.free := rfl
@[simp] theorem State.setChain_pending (s : State) (c : ChainState) : (s.setChain c).pending = s.pending := rfl

/-! ## setGroup -/

@[simp] theorem State.setGroup_die (s : State) (k : Nat) (g : RyGroup) : (s.setGroup k g).die = s.die := rfl
@[simp] theorem State.setGroup_pins (s : State) (k : Nat) (g : RyGroup) : (s.setGroup k g).pins = s.pins := rfl
@[simp] theorem State.setGroup_tb (s : State) (k : Nat) (g : RyGroup) : (s.setGroup k g).tb = s.tb := rfl
@[simp] theorem State.setGroup_caps (s : State) (k : Nat) (g : RyGroup) : (s.setGroup k g).caps = s.caps := rfl
@[simp] theorem State.setGroup_ready (s : State) (k : Nat) (g : RyGroup) : (s.setGroup k g).ready = s.ready := rfl
@[simp] theorem State.setGroup_boot (s : State) (k : Nat) (g : RyGroup) : (s.setGroup k g).boot = s.boot := rfl
@[simp] theorem State.setGroup_stks (s : State) (k : Nat) (g : RyGroup) : (s.setGroup k g).stks = s.stks := rfl
@[simp] theorem State.setGroup_seams (s : State) (k : Nat) (g : RyGroup) : (s.setGroup k g).seams = s.seams := rfl
@[simp] theorem State.setGroup_hostReads (s : State) (k : Nat) (g : RyGroup) : (s.setGroup k g).hostReads = s.hostReads := rfl
@[simp] theorem State.setGroup_mem (s : State) (k : Nat) (g : RyGroup) : (s.setGroup k g).mem = s.mem := rfl
@[simp] theorem State.setGroup_ctxs (s : State) (k : Nat) (g : RyGroup) : (s.setGroup k g).ctxs = s.ctxs := rfl
@[simp] theorem State.setGroup_journal (s : State) (k : Nat) (g : RyGroup) : (s.setGroup k g).journal = s.journal := rfl
@[simp] theorem State.setGroup_collar (s : State) (k : Nat) (g : RyGroup) : (s.setGroup k g).collar = s.collar := rfl
@[simp] theorem State.setGroup_fences (s : State) (k : Nat) (g : RyGroup) : (s.setGroup k g).fences = s.fences := rfl
@[simp] theorem State.setGroup_retained (s : State) (k : Nat) (g : RyGroup) : (s.setGroup k g).retained = s.retained := rfl
@[simp] theorem State.setGroup_cores (s : State) (k : Nat) (g : RyGroup) : (s.setGroup k g).cores = s.cores := rfl
@[simp] theorem State.setGroup_sleeves (s : State) (k : Nat) (g : RyGroup) : (s.setGroup k g).sleeves = s.sleeves := rfl
@[simp] theorem State.setGroup_fabric (s : State) (k : Nat) (g : RyGroup) : (s.setGroup k g).fabric = s.fabric := rfl
@[simp] theorem State.setGroup_chains (s : State) (k : Nat) (g : RyGroup) : (s.setGroup k g).chains = s.chains := rfl
@[simp] theorem State.setGroup_starved (s : State) (k : Nat) (g : RyGroup) : (s.setGroup k g).starved = s.starved := rfl
@[simp] theorem State.setGroup_counters (s : State) (k : Nat) (g : RyGroup) : (s.setGroup k g).counters = s.counters := rfl
@[simp] theorem State.setGroup_trace (s : State) (k : Nat) (g : RyGroup) : (s.setGroup k g).trace = s.trace := rfl
@[simp] theorem State.setGroup_belt (s : State) (k : Nat) (g : RyGroup) : (s.setGroup k g).belt = s.belt := rfl
@[simp] theorem State.setGroup_lining (s : State) (k : Nat) (g : RyGroup) : (s.setGroup k g).lining = s.lining := rfl
@[simp] theorem State.setGroup_i3c (s : State) (k : Nat) (g : RyGroup) : (s.setGroup k g).i3c = s.i3c := rfl
@[simp] theorem State.setGroup_tap (s : State) (k : Nat) (g : RyGroup) : (s.setGroup k g).tap = s.tap := rfl
@[simp] theorem State.setGroup_latches (s : State) (k : Nat) (g : RyGroup) : (s.setGroup k g).latches = s.latches := rfl
@[simp] theorem State.setGroup_stamps (s : State) (k : Nat) (g : RyGroup) : (s.setGroup k g).stamps = s.stamps := rfl
@[simp] theorem State.setGroup_free (s : State) (k : Nat) (g : RyGroup) : (s.setGroup k g).free = s.free := rfl
@[simp] theorem State.setGroup_pending (s : State) (k : Nat) (g : RyGroup) : (s.setGroup k g).pending = s.pending := rfl

/-! ## setChannel -/

@[simp] theorem State.setChannel_die (s : State) (c : Channel) : (s.setChannel c).die = s.die := rfl
@[simp] theorem State.setChannel_pins (s : State) (c : Channel) : (s.setChannel c).pins = s.pins := rfl
@[simp] theorem State.setChannel_tb (s : State) (c : Channel) : (s.setChannel c).tb = s.tb := rfl
@[simp] theorem State.setChannel_caps (s : State) (c : Channel) : (s.setChannel c).caps = s.caps := rfl
@[simp] theorem State.setChannel_ready (s : State) (c : Channel) : (s.setChannel c).ready = s.ready := rfl
@[simp] theorem State.setChannel_boot (s : State) (c : Channel) : (s.setChannel c).boot = s.boot := rfl
@[simp] theorem State.setChannel_stks (s : State) (c : Channel) : (s.setChannel c).stks = s.stks := rfl
@[simp] theorem State.setChannel_seams (s : State) (c : Channel) : (s.setChannel c).seams = s.seams := rfl
@[simp] theorem State.setChannel_hostReads (s : State) (c : Channel) : (s.setChannel c).hostReads = s.hostReads := rfl
@[simp] theorem State.setChannel_mem (s : State) (c : Channel) : (s.setChannel c).mem = s.mem := rfl
@[simp] theorem State.setChannel_ctxs (s : State) (c : Channel) : (s.setChannel c).ctxs = s.ctxs := rfl
@[simp] theorem State.setChannel_journal (s : State) (c : Channel) : (s.setChannel c).journal = s.journal := rfl
@[simp] theorem State.setChannel_collar (s : State) (c : Channel) : (s.setChannel c).collar = s.collar := rfl
@[simp] theorem State.setChannel_fences (s : State) (c : Channel) : (s.setChannel c).fences = s.fences := rfl
@[simp] theorem State.setChannel_retained (s : State) (c : Channel) : (s.setChannel c).retained = s.retained := rfl
@[simp] theorem State.setChannel_cores (s : State) (c : Channel) : (s.setChannel c).cores = s.cores := rfl
@[simp] theorem State.setChannel_sleeves (s : State) (c : Channel) : (s.setChannel c).sleeves = s.sleeves := rfl
@[simp] theorem State.setChannel_fabric (s : State) (c : Channel) : (s.setChannel c).fabric = s.fabric := rfl
@[simp] theorem State.setChannel_chains (s : State) (c : Channel) : (s.setChannel c).chains = s.chains := rfl
@[simp] theorem State.setChannel_starved (s : State) (c : Channel) : (s.setChannel c).starved = s.starved := rfl
@[simp] theorem State.setChannel_groups (s : State) (c : Channel) : (s.setChannel c).groups = s.groups := rfl
@[simp] theorem State.setChannel_counters (s : State) (c : Channel) : (s.setChannel c).counters = s.counters := rfl
@[simp] theorem State.setChannel_trace (s : State) (c : Channel) : (s.setChannel c).trace = s.trace := rfl
@[simp] theorem State.setChannel_belt (s : State) (c : Channel) : (s.setChannel c).belt = s.belt := rfl
@[simp] theorem State.setChannel_i3c (s : State) (c : Channel) : (s.setChannel c).i3c = s.i3c := rfl
@[simp] theorem State.setChannel_tap (s : State) (c : Channel) : (s.setChannel c).tap = s.tap := rfl
@[simp] theorem State.setChannel_latches (s : State) (c : Channel) : (s.setChannel c).latches = s.latches := rfl
@[simp] theorem State.setChannel_stamps (s : State) (c : Channel) : (s.setChannel c).stamps = s.stamps := rfl
@[simp] theorem State.setChannel_free (s : State) (c : Channel) : (s.setChannel c).free = s.free := rfl
@[simp] theorem State.setChannel_pending (s : State) (c : Channel) : (s.setChannel c).pending = s.pending := rfl

/-! ## ibi -/

@[simp] theorem State.ibi_die (s : State) : s.ibi.die = s.die := rfl
@[simp] theorem State.ibi_pins (s : State) : s.ibi.pins = s.pins := rfl
@[simp] theorem State.ibi_tb (s : State) : s.ibi.tb = s.tb := rfl
@[simp] theorem State.ibi_caps (s : State) : s.ibi.caps = s.caps := rfl
@[simp] theorem State.ibi_ready (s : State) : s.ibi.ready = s.ready := rfl
@[simp] theorem State.ibi_boot (s : State) : s.ibi.boot = s.boot := rfl
@[simp] theorem State.ibi_stks (s : State) : s.ibi.stks = s.stks := rfl
@[simp] theorem State.ibi_seams (s : State) : s.ibi.seams = s.seams := rfl
@[simp] theorem State.ibi_hostReads (s : State) : s.ibi.hostReads = s.hostReads := rfl
@[simp] theorem State.ibi_mem (s : State) : s.ibi.mem = s.mem := rfl
@[simp] theorem State.ibi_ctxs (s : State) : s.ibi.ctxs = s.ctxs := rfl
@[simp] theorem State.ibi_journal (s : State) : s.ibi.journal = s.journal := rfl
@[simp] theorem State.ibi_collar (s : State) : s.ibi.collar = s.collar := rfl
@[simp] theorem State.ibi_fences (s : State) : s.ibi.fences = s.fences := rfl
@[simp] theorem State.ibi_retained (s : State) : s.ibi.retained = s.retained := rfl
@[simp] theorem State.ibi_cores (s : State) : s.ibi.cores = s.cores := rfl
@[simp] theorem State.ibi_sleeves (s : State) : s.ibi.sleeves = s.sleeves := rfl
@[simp] theorem State.ibi_fabric (s : State) : s.ibi.fabric = s.fabric := rfl
@[simp] theorem State.ibi_chains (s : State) : s.ibi.chains = s.chains := rfl
@[simp] theorem State.ibi_starved (s : State) : s.ibi.starved = s.starved := rfl
@[simp] theorem State.ibi_groups (s : State) : s.ibi.groups = s.groups := rfl
@[simp] theorem State.ibi_counters (s : State) : s.ibi.counters = s.counters := rfl
@[simp] theorem State.ibi_trace (s : State) : s.ibi.trace = s.trace := rfl
@[simp] theorem State.ibi_belt (s : State) : s.ibi.belt = s.belt := rfl
@[simp] theorem State.ibi_lining (s : State) : s.ibi.lining = s.lining := rfl
@[simp] theorem State.ibi_tap (s : State) : s.ibi.tap = s.tap := rfl
@[simp] theorem State.ibi_latches (s : State) : s.ibi.latches = s.latches := rfl
@[simp] theorem State.ibi_stamps (s : State) : s.ibi.stamps = s.stamps := rfl
@[simp] theorem State.ibi_free (s : State) : s.ibi.free = s.free := rfl
@[simp] theorem State.ibi_pending (s : State) : s.ibi.pending = s.pending := rfl

/-! ## What reads back -/

theorem smGet?_append {α : Type} (x y : SMap α) (k : Nat) :
    smGet? (x ++ y) k = (smGet? x k).or (smGet? y k) := by
  induction x with
  | nil => simp [smGet?]
  | cons e r ih =>
    obtain ⟨j, v⟩ := e
    by_cases h : j = k
    · simp [smGet?, h]
    · simp [smGet?, h, ih]

theorem smGet?_filter {α : Type} (m : SMap α) (k : Nat) (p : Nat → Bool) :
    smGet? (m.filter (fun e => p e.1)) k = if p k then smGet? m k else none := by
  induction m with
  | nil => simp [smGet?]
  | cons e r ih =>
    obtain ⟨j, v⟩ := e
    by_cases hp : p j = true
    · by_cases h : j = k
      · subst h; simp [smGet?, hp]
      · simp [hp, smGet?, h, ih]
    · by_cases h : j = k
      · subst h; simp [hp, ih]
      · simp [hp, smGet?, h, ih]

theorem smGet?_smSet {α : Type} (m : SMap α) (j k : Nat) (v : α) :
    smGet? (smSet m j v) k = if j = k then some v else smGet? m k := by
  rw [smSet, smGet?_append, smGet?_append, smGet?_filter m k (fun x => decide (x < j)),
    smGet?_filter m k (fun x => decide (j < x))]
  rcases Nat.lt_trichotomy k j with h | h | h
  · have h1 : ¬ j = k := by omega
    have h2 : ¬ j < k := by omega
    simp [smGet?, h, h1, h2]
  · subst h; simp [smGet?]
  · have h1 : ¬ j = k := by omega
    have h2 : ¬ k < j := by omega
    simp [smGet?, h, h1, h2]

theorem smGet?_smDel {α : Type} (m : SMap α) (j k : Nat) :
    smGet? (smDel m j) k = if j = k then none else smGet? m k := by
  rw [smDel, smGet?_filter m k (fun x => x != j)]
  by_cases h : j = k
  · simp [h]
  · have h1 : k ≠ j := fun e => h e.symm
    simp [h, h1]

theorem smGet_smSet {α : Type} (m : SMap α) (j k : Nat) (v d : α) :
    smGet (smSet m j v) k d = if j = k then v else smGet m k d := by
  rw [smGet, smGet?_smSet]; split <;> rfl

@[simp] theorem State.setCtx_ctx (s : State) (n k : Nat) (c : Ctx) :
    (s.setCtx n c).ctx k = if n = k then c else s.ctx k := by
  simp only [State.ctx, State.setCtx, smGet_smSet]

@[simp] theorem State.setFence_fence (s : State) (n k : Nat) (v : W64) :
    (s.setFence n v).fence k = if n = k then v else s.fence k := by
  simp only [State.fence, State.setFence, smGet_smSet]

@[simp] theorem State.addAt_counterAt (s : State) (a n b : Nat) :
    (s.addAt a n).counterAt b = if a = b then s.counterAt a + BitVec.ofNat 64 n else s.counterAt b := by
  simp only [State.counterAt, State.addAt, smGet_smSet]
  split
  · subst_vars; ac_rfl
  · rfl

/-- What lies in memory after a write of the engine or of a context: its bytes. -/
@[simp] theorem State.lay_mem (s : State) (a : Nat) (bs : Bytes) : (s.lay a bs).mem = memPut s.mem a bs := rfl
@[simp] theorem State.put_mem (s : State) (a : Nat) (bs : Bytes) : (s.put a bs).mem = memPut s.mem a bs :=
  State.atPort_mem _ _ a _ _
@[simp] theorem State.putFor_mem (s : State) (ctx a : Nat) (bs : Bytes) : (s.putFor ctx a bs).mem = memPut s.mem a bs :=
  State.atPort_mem _ _ a _ _

theorem find?_replace (es : List Entry) (e x : Entry) (h : es.find? (fun y => y.id == e.id) = some x) :
    (es.map (fun y => if y.id = e.id then e else y)).find? (fun y => y.id == e.id) = some e := by
  induction es with
  | nil => simp at h
  | cons a r ih =>
    by_cases ha : a.id = e.id
    · simp [ha]
    · simp only [List.find?_cons, beq_eq_false_iff_ne.mpr ha] at h
      simp [ha, ih h]

/-- Bytes written to the journal regions leave the journal's own registers. -/
@[simp] theorem State.journalPut_journal (s : State) (off : Nat) (bs : Bytes) :
    (s.journalPut off bs).journal = s.journal := by
  unfold State.journalPut
  split
  · rfl
  · split <;> simp

@[simp] theorem State.linePut_journal (s : State) (pos : Nat) (bs : Bytes) :
    (s.linePut pos bs).journal = s.journal := State.journalPut_journal s _ bs

/-- What setting an entry leaves in the list of entries. -/
theorem State.setEntry_entries (s : State) (e : Entry) :
    (s.setEntry e).journal.entries = s.journal.entries.map (fun y => if y.id = e.id then e else y) := by
  unfold State.setEntry
  dsimp only
  split
  · rw [State.linePut_journal]
  · rfl

/-- An entry that is there reads back as it was set. -/
theorem State.setEntry_entryAt (s : State) (e x : Entry) (h : s.entryAt e.id = some x) :
    (s.setEntry e).entryAt e.id = some e := by
  unfold State.entryAt at h ⊢
  rw [State.setEntry_entries]
  exact find?_replace _ _ _ h

end Sys2Proof.Machine
end

