-- ==== Sys2Proof/Tests/Slice0.lean ====
section
/-!
SUPPORT. Sys2Proof/Tests/Slice0.lean: ill-formed commands that are refused, a machine and operands that meet the
hypotheses of each statement of Certificates/Slice0/Obligations.lean, and what single steps do on small machines.
Expected values are worked out by hand from the rules named.
-/
set_option Elab.async false

namespace Sys2Proof.Tests

open Sys2Proof.Machine Sys2Proof.Claims

/-! ## Small machines -/

/-- Bytes with fields laid into them: offset and value. -/
def lay (n : Nat) (fs : List (Nat × Nat)) : Bytes := leBytes n (fs.foldl (fun v f => v + f.2 * 2 ^ (8 * f.1)) 0)

/-- A command packet of context 0 (R211). -/
def packet (op : Op) (seq : Nat) (fs : List (Nat × Nat)) : Bytes := lay 64 ([(0, op.code), (4, seq)] ++ fs)

/-- Context 0 with its rings applied: 64 entries each, in pages 16 and 17 of stack 0, on core 0. -/
def ctxZero : Ctx :=
  { Ctx.zero with
    sq := Region.mk 0 4096 [16] false 0x100000, cq := Region.mk 0 2048 [17] false 0x110000
    sqEntries := 64, cqEntries := 64, placement := 1, acceptSeq := 1, sqTail := 1, sqHead := 1, acceptHead := 1
    cqTail := 1 }

/-- A machine at work: everything ready, stacks of 16 GiB, ports with credits, no journal. -/
def base : State :=
  { State.reset with
    ready := Ready.mk true true true 0x3F 0xF 0xFFFF
    stks := List.replicate 6 { StackPort.init with state := .ready, capacity := 16, zeroed := 16, cleared := true }
    seams := List.replicate 4 { SeamPort.init with
      state := .active, tx := 15, rx := 15, credits := List.replicate 18 1000, granted := List.replicate 18 1000 }
    boot := { State.reset.boot with stage := .running, everReady := true }
    collar := { Collar.init with ctx0Active := true }
    lining := { State.reset.lining with measured := true, ctx0Ep := 1, ctx0Latched := true }
    ctxs := [(0, ctxZero)] }

/-- A dispatched command of context 0 with SEQ 1. -/
def cmd (op : Op) (fs : List (Nat × Nat)) : Entry :=
  { Entry.fresh 0 0 (packet op 1 fs) [] 0 1 1 none false 0 true with
    state := .dispatched, dispatchedOnce := true, tStarted := some 0 }

/-- A machine with one command. -/
def withCmd (s : State) (e : Entry) : State :=
  { s with journal := { s.journal with entries := [e], nextId := e.id + 1 } }

/-- The machine after a command. -/
def after (i : Instr) (s : State) : State :=
  match exec i s with
  | .next t => t
  | _ => s

/-- STATUS and RESULT that a command has been given, none while it has no outcome. -/
def outcome (t : State) (id : Nat) : Option (Nat × Nat) :=
  (t.entryAt id).bind (fun e => if e.decided then some (e.status.toNat, e.result.toNat) else none)

/-! ## Ill-formed operands, one of each check -/

theorem refused_offset_odd : wellFormed (.registerWrite .i3c 0x2001 0) = false := by decide
theorem refused_offset_high : wellFormed (.latchedPairRead .i3c 0x1000000) = false := by decide
theorem refused_context : wellFormed (.nop 1024 0) = false := by decide
theorem refused_cores : wellFormed (.gather 0 0 [.memory 3, .memory 128]) = false := by decide
theorem refused_sleeves : wellFormed (.update 0 0 [] [GussetFault.mk 16 0 0]) = false := by decide
theorem refused_cache : wellFormed (.mmFwd 0 0 [.lineLost 16 0]) = false := by decide
theorem refused_endpoint_zero : wellFormed (.keyx 0 0 (KeyxMsg.mk [] [] [] 0 0)) = false := by decide
theorem refused_endpoint_ones : wellFormed (.authLockoutEnd 0xFFFF) = false := by decide
theorem refused_lane_port : wellFormed (.backupReady 4 1 0) = false := by decide
theorem refused_lane_endpoint : wellFormed (.backupReady 0 0 0) = false := by decide
theorem refused_lane_channel : wellFormed (.backupReady 0 1 16) = false := by decide
theorem refused_source_port : wellFormed (.enrol (.seam 4 1 true) 0) = false := by decide
theorem refused_source_endpoint : wellFormed (.enrol (.seam 3 0 true) 0) = false := by decide
theorem refused_metering_lengths :
    wellFormed (.meteringInterval (Metering.mk [] (List.replicate 6 0) (List.replicate 17 0))) = false := by decide
theorem refused_boot_chunk : wellFormed (.bootChunk .i3c (2 ^ 28) [0]) = false := by decide
theorem refused_sleeve : wellFormed (.selfCheck 16 0 false false) = false := by decide
theorem refused_stack : wellFormed (.stackZeroed 6) = false := by decide
theorem refused_bank : wellFormed (.perBankRefresh 0 0 64) = false := by decide
theorem refused_line : wellFormed (.stackAccessReturn 0 0 (2 ^ 31) .ok) = false := by decide
theorem refused_port : wellFormed (.seamDetect 4 0 0) = false := by decide
theorem refused_credits : wellFormed (.configFrame 0 (ConfigFrame.mk 0 0 0 [])) = false := by decide
theorem refused_address : wellFormed (.inboundMwr 0 1 (2 ^ 48) []) = false := by decide
theorem refused_read_length : wellFormed (.inboundMrd 0 1 0 4097 0) = false := by decide
theorem refused_status : wellFormed (.cpl 0 0 3 []) = false := by decide
theorem refused_words : wellFormed (.rrd 0 1 0 17 0) = false := by decide
theorem refused_write_words : wellFormed (.rwr 0 1 true 0 [] 0) = false := by decide
theorem refused_window_context : wellFormed (.bounceBind 0 1 0 1024 0 1 0) = false := by decide
theorem refused_block : wellFormed (.ryBlock 0 1 0 [0] []) = false := by decide
theorem refused_resend : wellFormed (.resend 0 1 0 1024 0) = false := by decide
theorem refused_lap : wellFormed (.readyToken 0 1 0 (ReadyToken.mk 3 0 0 false false)) = false := by decide
theorem refused_group : wellFormed (.ryDeadline 16) = false := by decide
theorem refused_tensor : wellFormed (.normToken 0 1 0 1 4096 0) = false := by decide
theorem refused_header : wellFormed (.parameterHeader 0 1 0 []) = false := by decide
theorem refused_core : wellFormed (.queueGrant 128) = false := by decide
theorem refused_detached : wellFormed (.multicast 0 0 [(128, 8)]) = false := by decide
theorem refused_domain : wellFormed (.beltCalWrite .i3c 27 0) = false := by decide
theorem refused_role : wellFormed (.challengeExpiry 1 3) = false := by decide
theorem accepted_some : [Instr.nop 1023 0, .registerWrite .i3c 0xFFFFFC 0, .queueGrant 127, .backupReady 3 1 15,
  .resend 0 0xFFFE 0 1023 65535, .stackZeroed 5].all wellFormed = true := by decide

/-! ## Reset, the queue, what every step keeps, time -/

theorem witness_coldReset : State.reset.pins.pwrGood = true ∧ base.pins.pwrGood = true := by decide

/-- A sound machine other than the one after reset: its cores are at work. -/
theorem witness_everyStepKeepsSound : Sound base ∧ base.ready.collar = true := by
  unfold Sound Numbered State.auditSound State.shapeOk Caps.le
  exact ⟨⟨by decide +kernel, by decide +kernel, rfl, by decide +kernel, by decide +kernel⟩, rfl⟩

theorem witness_whatNoStepUndoes :
    Sound base ∧ isCold (.colRetireReq .i3c 0) = false ∧ isCold (.registerWrite .i3c 0 0) = false :=
  ⟨witness_everyStepKeepsSound.1, rfl, rfl⟩

theorem witness_everyRowKeepsItsFrame : wellFormed .aliveToggle = true ∧
    exec .aliveToggle base = .next { base with pins := { base.pins with alive := true } } := ⟨rfl, rfl⟩

/-- A time base at work: locked, with one edge seen. -/
def locked (now gap : Nat) : State :=
  { base with tb := { base.tb with now := BitVec.ofNat 64 now, mode := .locked, sinceEdge := some gap, edges := 20 } }

theorem witness_timeNeverDecreases : wellFormed (.syncLost 8000) = true ∧ isCold (.syncLost 8000) = false ∧
    exec (.syncLost 8000) (locked 5 0) = .next (after (.syncLost 8000) (locked 5 0)) ∧
    (locked 5 0).tb.slewLeft ≤ 10 ∧
    (locked 5 0).tb.now.toNat + elapsedIn (.syncLost 8000) (locked 5 0) + 2000 < 2 ^ 64 := ⟨rfl, rfl, rfl, by decide, by decide⟩

/-- The errors that an edge can find: none, one to slew, one too large; in each state (R321). -/
theorem witness_timeSyncEdge :
    (locked 999 0).inReset = false ∧ (locked 999 0).tb.loadPending = false ∧
    ((locked 999 0).tb.advance 1).now.toNat + 1000 < 2 ^ 64 ∧ ((locked 999 0).tb.advance 1).phase = 0 ∧
    ((locked 999 0).tb.advance 2).phase.natAbs ≤ 2 ∧
    ((locked 999 0).tb.advance 7999).lapsed = false ∧ ((locked 999 0).tb.advance 8000).lapsed = true ∧
    ((locked 999 0).tb.advance 8000).lose.phase ≠ 0 ∧ ((locked 0 0).tb.advance 8000).lose.phase = 0 ∧
    2 < ((locked 999 0).tb.advance 4).phase.natAbs ∧ ((locked 999 0).tb.advance 65).phase.natAbs ≤ 64 ∧
    64 < ((locked 999 0).tb.advance 66).phase.natAbs ∧ ((locked 999 0).tb.advance 66).mode = .locked ∧
    ({ (locked 999 0).tb with bad := 3 }.advance 66).bad + 1 = 4 ∧
    ({ (locked 999 0).tb with mode := .acquiring }.advance 1).mode = .acquiring ∧
    (State.reset.tb.advance 1).mode = .free ∧ (State.reset.tb.advance 1).phase ≠ 0 := by decide +kernel

/-- The load edge: at the ends of its window, with a value that is taken and with one that is not (R322). -/
def loading (v : Nat) : State :=
  { locked 5 0 with tb := { (locked 5 0).tb with loadPending := true, loadLo := BitVec.ofNat 32 v } }

theorem witness_loadEdge : (loading 9000).inReset = false ∧ (loading 9000).tb.loadPending = true ∧
    ((loading 9000).tb.advance 2500).sinceEdge = some 2500 ∧ ((loading 9000).tb.advance 7999).sinceEdge = some 7999 ∧
    ((loading 9000).tb.advance 2499).sinceEdge = some 2499 ∧ ((loading 9000).tb.advance 8000).sinceEdge = some 8000 ∧
    ((loading 9000).tb.loadHi ++ (loading 9000).tb.loadLo : W64).toNat % 1000 = 0 ∧
    ((loading 9000).tb.advance 2500).now.toNat < ((loading 9000).tb.loadHi ++ (loading 9000).tb.loadLo : W64).toNat := by
  decide +kernel

/-- 9,000 ns is taken 2,500 ns after the last edge, 9,001 is not (R322). -/
theorem test_load : (after (.timeSyncEdge 2500) (loading 9000)).tb.now = 9000 ∧
    (after (.timeSyncEdge 2500) (loading 9001)).tb.loadErr = true ∧
    (after (.timeSyncEdge 2499) (loading 9000)).tb.loadPending = true ∧
    (after (.timeSyncEdge 8000) (loading 9000)).tb.losses = 1 := by decide +kernel

/-- While acquiring, an error of 65 steps the count to the next thousand; one of 3 is slewed; 1,000 is left (R321). -/
theorem test_edge :
    (after (.timeSyncEdge 66) { base with tb := { (locked 999 0).tb with mode := .acquiring } }).tb.now = 2000 ∧
    (after (.timeSyncEdge 4) (locked 999 0)).tb.slewLeft = 3 ∧
    (after (.timeSyncEdge 1) (locked 999 0)).tb.now = 1000 := by decide +kernel

theorem witness_timeRunsWithoutEdges :
    (locked 5 0).inReset = false ∧ (locked 5 0).tb.mode = .locked ∧ (locked 5 0).tb.sinceEdge = some 0 ∧
    State.reset.tb.mode = .free ∧
    0 < { (locked 5 0).tb with slewLeft := 3, slewIn := 100 }.slewLeft ∧
    base.pending = [] ∧ base.inReset = false ∧ base.tb.slewLeft = 0 ∧
    (after .powerFail base).inReset = true ∧ (after .powerFail base).pending = [] := by decide +kernel

/-- 7,999 ns without an edge keep the state, 8,000 lose it (R321); an empty queue passes a tick (log 2). -/
theorem test_syncLost : (after (.syncLost 7999) (locked 5 0)).tb.mode = .locked ∧
    (after (.syncLost 8000) (locked 5 0)).tb.mode = .syncLost ∧
    (match step base with | .next t => t.tb.now | _ => 0) = 1 := by decide +kernel

/-! ## Pins, boot, power -/

/-- The machine held in warm reset. -/
def warm : State := after .warmReset base

theorem witness_warmReset :
    State.reset.inReset = false ∧ State.reset.pins.warmResetN = true ∧ State.reset.boot.everReady = false ∧
    base.inReset = false ∧ base.pins.warmResetN = true ∧ base.boot.everReady = true ∧
    (base.stks[0]?).map (fun x => x.state) = some .ready ∧
    warm.inReset = false ∧ warm.pins.warmResetN = false ∧
    (warm.stks[5]?).map (fun x => x.state) = some .selfRefresh ∧
    ((warm.setStack 5 StackPort.init).stks[5]?).map (fun x => x.state) = some .training := by decide +kernel

/-- A stack keeps its contents in self-refresh and trains again; the time base runs on (R420, R300). -/
theorem test_warmReset : (warm.stack 0).state = .selfRefresh ∧ warm.ready.collar = false ∧
    ((after .warmResetRelease warm).stack 0).state = .retraining ∧
    (after .warmResetRelease warm).pins.warmResetN = true := by decide +kernel

/-- Sleeve 2 is being checked. -/
def checking : State := { base with boot := { base.boot with checking := 4 } }

theorem witness_selfTestsEnd :
    State.reset.inReset = false ∧ State.reset.ready.tag = true ∧ State.reset.ready.lining = false ∧
    checking.stks.length = 6 ∧ checking.seams.length = 4 ∧ checking.sleeves.length = 16 ∧
    checking.boot.checking.getLsbD 2 = true ∧ checking.ready.collar = true ∧ checking.caps.sleeves.getLsbD 2 = true ∧
    (0xFF#8 &&& (checking.caps.cores >>> (8 * 2)).setWidth 8) = (checking.caps.cores >>> (8 * 2)).setWidth 8 ∧
    (0x01#8 &&& (checking.caps.cores >>> (8 * 2)).setWidth 8) ≠ (checking.caps.cores >>> (8 * 2)).setWidth 8 := by
  decide +kernel

/-- One core fails: it is absent, the sleeve is ready. All fail: the sleeve is absent (R439). -/
theorem test_selfCheck :
    (after (.selfCheck 2 1 false false) checking).corePresent 16 = false ∧
    (after (.selfCheck 2 1 false false) checking).corePresent 17 = true ∧
    (after (.selfCheck 2 1 true false) checking).caps.gusset.getLsbD 2 = false ∧
    (after (.selfCheck 2 0xFF false false) checking).caps.sleeves.getLsbD 2 = false ∧
    (after (.selfCheck 2 0 false true) checking).ready.sleeves.getLsbD 2 = false := by decide +kernel

/-- A boot bundle of 64 bytes: MAGIC, TOTAL, nothing else. -/
def bundle64 : Bytes := lay 64 [(4, 64)]

/-- The machine waits for its bundle at Seam port 0. -/
def booting : State := { State.reset with seams := base.seams }

theorem witness_bundleArrives :
    booting.inReset = false ∧ booting.pins.warmResetN = true ∧ booting.ready.tag = true ∧
    booting.bootSource (.seam 0 1 false) = true ∧ booting.boot.stage = .waitBundle ∧ booting.boot.err ≠ 5 ∧
    booting.boot.bundle.length = 0 ∧ 8 ≤ bundle64.length ∧ fieldOf bundle64 4 4 ≤ 8 * 2 ^ 20 ∧
    fieldOf bundle64 4 4 ≤ bundle64.length ∧ (bundle64.take 32).length < fieldOf (bundle64.take 32) 4 4 ∧
    8 * 2 ^ 20 < fieldOf (lay 8 [(4, 8 * 2 ^ 20 + 1)]) 4 4 := by decide +kernel

/-- The bundle is whole with its last byte; one that starts elsewhere, or is too large, is discarded (R436). -/
theorem test_bootChunk :
    (after (.bootChunk (.seam 0 1 false) 0 bundle64) booting).boot.stage = .verifying ∧
    (after (.bootChunk (.seam 0 1 false) 0 (bundle64.take 32)) booting).boot.bundle = bundle64.take 32 ∧
    (after (.bootChunk (.seam 0 1 false) 1 bundle64) booting).boot.err = 4 ∧
    (after (.bootChunk (.seam 0 1 false) 0 (lay 8 [(4, 8 * 2 ^ 20 + 1)])) booting).boot.err = 4 := by decide +kernel

/-- The bundle waits for the Lining. Which certificate is good is open (`Config.certifiedKey`), so the clauses
beyond the helper's signature have no machine that Lean could evaluate. -/
def verifying : State :=
  { State.reset with
    ready := { State.reset.ready with lining := true }
    boot := { State.reset.boot with stage := .verifying, bundle := bundle64 } }

theorem witness_bundleVerifies : verifying.inReset = false ∧ verifying.pins.warmResetN = true ∧
    verifying.boot.stage = .verifying ∧ verifying.ready.lining = true := by decide

/-! ## The Belt -/

/-- A window has been granted in the first 100 ticks. -/
def windowed : State := { base with belt := { base.belt with nextWindow := 1 } }

theorem witness_slewWindow : base.inReset = false ∧ windowed.inReset = false ∧
    base.stamp.toNat / 100 < windowed.belt.nextWindow ∧ base.belt.nextWindow ≤ base.stamp.toNat / 100 ∧
    (base.belt.inForce (base.stamp.toNat / 100 * 100)).powerCap ≠ 0 := by decide +kernel

/-- A second window in the same 100 ticks does nothing (R339). -/
theorem test_slewWindow : (after .slewWindow base).belt.nextWindow = 1 ∧
    (after .slewWindow windowed).belt = windowed.belt := by
  decide +kernel

/-- An interval in which nothing was measured, with every sensor at a temperature. -/
def interval (temp : Int) : Metering :=
  Metering.mk (List.replicate 27 0) (List.replicate 6 0) (List.replicate 17 temp)

/-- The machine at the end of its first interval. -/
def atInterval : State := { base with tb := { base.tb with now := 10000 } }

theorem witness_meteringInterval :
    atInterval.inReset = false ∧ atInterval.belt.lastInterval < atInterval.tb.now.toNat / 10000 * 10000 ∧
    atInterval.belt.trip = false ∧ ({ atInterval.belt with trip := true } : Belt).trip = true ∧
    (let sensors := dieSensors atInterval.die (interval 1600).sensors
     atInterval.belt.tTrip.toInt ≤ sensors.foldl max (sensors.headD 0)) ∧
    (let sensors := dieSensors atInterval.die (interval 1361).sensors
     sensors.foldl max (sensors.headD 0) < atInterval.belt.tTrip.toInt ∧
     sensors.any (fun x => decide (atInterval.belt.tLimit.toInt < x)) = true) ∧
    (let sensors := dieSensors atInterval.die (interval 400).sensors
     let nj := atInterval.dieEnergy (interval 400) (atInterval.intervalEnergy (interval 400))
     let b := { atInterval.belt with
       bucket := atInterval.belt.bucket + nj - atInterval.belt.powerCap.toNat * 10000 }.thermal nj
     sensors.any (fun x => decide (atInterval.belt.tLimit.toInt < x)) = false ∧
     b.overPower nj = false ∧ b.overModel nj = false ∧ b.calm nj = true) := by decide +kernel

/-- 100 degrees trip, 85 and a sixteenth throttle, 25 do neither (R345, R348, R349). -/
theorem test_interval :
    (after (.meteringInterval (interval 1600)) atInterval).belt.trip = true ∧
    (after (.meteringInterval (interval 1600)) atInterval).belt.step = 15 ∧
    (after (.meteringInterval (interval 1361)) atInterval).belt.step = 1 ∧
    (after (.meteringInterval (interval 400)) atInterval).belt.step = 0 := by decide +kernel

/-- A trip after 1,000,000 cool ticks. -/
def tripped : State := { base with belt := { base.belt with trip := true, cool := 1000000, step := 15 } }

theorem witness_tripEnd : tripped.belt.trip = true ∧ 1000000 ≤ tripped.belt.cool := by decide
theorem test_tripEnd : (after .tripEnd tripped).belt.step = 8 ∧ (after .tripEnd tripped).tripPin = false := by
  decide +kernel

/-! ## Stacks -/

/-- A machine whose stack 2 is in a state, after some failed trainings. -/
def stackIn (st : StackState) (fails : Nat) (cleared : Bool) : State :=
  base.setStack 2 { StackPort.init with state := st, trainFails := fails, cleared := cleared, capacity := 16 }

theorem witness_stackComesUp :
    (∀ st ∈ [StackState.training, .retraining, .zeroing], (stackIn st 0 true).stackUp 2 = true ∧
      (stackIn st 0 true).stks.length = 6 ∧ (stackIn st 0 true).seams.length = 4 ∧
      (stackIn st 0 true).sleeves.length = 16 ∧
      ((stackIn st 0 true).stks[2]?).map (fun x => x.state) = some st) ∧
    ((stackIn .training 2 false).stks[2]?).map (fun x => (x.trainFails, x.cleared)) = some (2, false) ∧
    ((stackIn .retraining 1 true).stks[2]?).map (fun x => (x.trainFails, x.cleared)) = some (1, true) := by
  decide +kernel

theorem test_stackTrainingDone :
    ((after (.stackTrainingDone 2 true 16 8 64 128) (stackIn .training 2 false)).stack 2).state = .zeroing ∧
    ((after (.stackTrainingDone 2 false 16 8 64 128) (stackIn .training 2 false)).stack 2).state = .failed ∧
    ((after (.stackTrainingDone 2 false 16 8 64 128) (stackIn .training 1 false)).stack 2).trainFails = 2 ∧
    (after (.stackTrainingDone 2 true 16 8 64 128) (stackIn .retraining 0 true)).ready.stks.getLsbD 2 = true := by
  decide +kernel

/-- The last byte of stack 1, the ends of stack 2 and the first byte of stack 3. -/
def edges2 : List Host.Cell :=
  [(2 * stackWindow - 1, 1), (2 * stackWindow, 2), (3 * stackWindow - 1, 3), (3 * stackWindow, 4)]

theorem test_stackZeroed :
    (after (.stackZeroed 2) { stackIn .zeroing 0 false with mem := edges2 }).mem =
      [(2 * stackWindow - 1, 1), (3 * stackWindow, 4)] := by decide +kernel

/-- Stack 2 is ready, line 7 of its pseudo-channel 63 is being repeated, and seven others have failed. -/
def accessed : State :=
  base.setStack 2 { (base.stack 2) with repeats := [(63, 7)], pcFailed := 0x7F }

theorem witness_stackAccesses :
    accessed.stackUp 2 = true ∧ accessed.stks.length = 6 ∧ accessed.seams.length = 4 ∧ accessed.sleeves.length = 16 ∧
    (accessed.stks[2]?).map (fun x => x.state) = some .ready ∧
    (accessed.stack 2).pcFailed.getLsbD 63 = false ∧ (63, 7) ∈ (accessed.stack 2).repeats ∧
    (63, 8) ∉ (accessed.stack 2).repeats ∧ 8 ≤ popMask ((accessed.stack 2).pcFailed ||| (1#64 <<< 63)) ∧
    popMask ((base.stack 2).pcFailed ||| (1#64 <<< 63)) < 8 ∧
    base.stackUp 0 = true ∧ base.stackUp 3 = true ∧ (base.stks[0]?).map (fun x => x.state) = some .ready ∧
    { base.journal with state := 1 }.state = 1 := by decide +kernel

/-- Two requests of one bank hold slots of stack 2; the one for line 0 has the lower ticket. -/
def requested : State :=
  base.onPort 2 (fun t => { t with slots := [
    Request.mk 0 1 0 (2 * (stackWindow / 64) + 1) false .stream 0 5 0 false,
    Request.mk 0 1 0 (2 * (stackWindow / 64)) false .stream 0 3 0 false] })
theorem witness_accessInOrder :
    (∀ l ∈ [0, 1], (requested.fabric.port 2).slots.any (fun y => y.line == 2 * (stackWindow / 64) + l) = true) ∧
    ((requested.fabric.port 2).leave (2 * (stackWindow / 64) + 1) requested.tb.now).2.1 = [] ∧
    ((requested.fabric.port 2).leave (2 * (stackWindow / 64)) requested.tb.now).2.1 ≠ [] ∧
    (requested.fabric.port 2).waits = [] ∧ requested.stackUp 2 = true ∧
    (base.fabric.port 2).slots.any (fun y => y.line == 2 * (stackWindow / 64)) = false := by decide +kernel
theorem test_accessInOrder :
    ((after (.stackAccessReturn 2 0 1 .ok) requested).fabric.port 2).slots.length = 2 ∧
    ((after (.stackAccessReturn 2 0 0 .ok) requested).fabric.port 2).slots.map (fun r => r.ticket) = [5] := by decide +kernel

theorem test_stackAccessReturn :
    ((after (.stackAccessReturn 2 63 7 .crcError) accessed).stack 2).state = .failed ∧
    ((after (.stackAccessReturn 2 63 8 .crcError) accessed).stack 2).repeats = [(63, 8), (63, 7)] ∧
    ((after (.stackAccessReturn 2 63 8 .uncorrectable) base).stack 2).pcFailed = 1#64 <<< 63 ∧
    (after (.stackAccessReturn 2 63 8 .corrected) base).counter (.stack 2 4) = 1 := by decide +kernel

/-- The journal goes on in the other region when one of its stacks fails (R374). -/
theorem test_stackLost :
    (after (.stackUnrecoverableCondition 0) { base with journal := { base.journal with state := 1 } }).journal.state = 3 ∧
    (after (.stackUnrecoverableCondition 3) { base with journal := { base.journal with state := 1 } }).journal.state = 2 ∧
    (after (.stackUnrecoverableCondition 2) base).caps.stks = 0x3B := by decide +kernel

/-! ## Seam ports -/

/-- Port 1 trains. -/
def portIn (st : SeamState) (fails : Nat) : State :=
  base.setSeam 1 { SeamPort.init with state := st, trainFails := fails, detTx := 3, detRx := 3 }

/-- A configuration frame with the least credits that a host die grants (R428). -/
def config : ConfigFrame := ConfigFrame.mk 9 2 0xFF (List.replicate 16 256 ++ [16, 16])

theorem witness_seamTrains :
    (∀ st ∈ [SeamState.idle, .detect, .equalise, .config], (portIn st 2).trains 1 = true ∧
      (portIn st 2).stks.length = 6 ∧ (portIn st 2).seams.length = 4 ∧ (portIn st 2).sleeves.length = 16 ∧
      ((portIn st 2).seams[1]?).map (fun x => (x.state, x.trainFails)) = some (st, 2)) ∧
    (((portIn .equalise 0).seam 1).accept 1 2).1 ≠ 0 ∧ (((portIn .equalise 0).seam 1).accept 1 2).2 ≠ 0 ∧
    creditsOk config.credits = true := by decide +kernel

theorem test_seamTrains :
    ((after (.seamDetect 1 1 2) (portIn .idle 0)).seam 1).state = .equalise ∧
    ((after (.seamDetect 1 1 0) (portIn .idle 0)).seam 1).state = .detect ∧
    ((after (.configFrame 1 config) (portIn .config 0)).seam 1).peerDie = 9 ∧
    ((after (.seamTrainTimeout 1) (portIn .config 2)).seam 1).state = .failed := by decide +kernel

/-- A frame with an empty packet space, the next FSEQ, 3 credits for virtual channel 2, and its CRC. -/
def emptyFrame : Frame :=
  let c : BitVec 60 := BitVec.ofNat 60 (2 * 2 ^ 25 + 3 * 2 ^ 30)
  let f := Frame.mk true false c (List.replicate 16 0)
  { f with control := c ||| ((crc16 (frameBits f)).setWidth 60 <<< 44) }

theorem witness_framesReceived :
    base.inReset = false ∧ base.stks.length = 6 ∧ base.seams.length = 4 ∧ base.sleeves.length = 16 ∧
    base.seams[0]? = some (base.seam 0) ∧ (base.seam 0).state = .active ∧ (base.seam 0).fseqRx = 0 ∧
    (base.seam 0).partialRx = [] ∧ (base.seam 0).txQueue = [] ∧ (base.seam 0).credits.length = 18 ∧
    emptyFrame.fecOk = true ∧ crc16 (frameBits emptyFrame) = (frameFields emptyFrame).crc ∧
    (frameFields emptyFrame).fseq = 0 ∧ (frameFields emptyFrame).nak = false ∧ emptyFrame.space = List.replicate 16 0 ∧
    (frameFields emptyFrame).cvc < 18 ∧ (Frame.mk false false 0 []).fecOk = false := by decide +kernel

theorem test_frameReceive :
    ((after (.frameReceive 0 emptyFrame) base).seam 0).fseqRx = 1 ∧
    ((after (.frameReceive 0 emptyFrame) base).seam 0).credits.getD 2 0 = 1003 ∧
    ((after (.frameReceive 0 { emptyFrame with fecOk := false }) base).seam 0).nak = true ∧
    (after (.frameReceive 0 { emptyFrame with fecOk := false }) base).counter (.seam 0 3) = 1 := by decide +kernel

/-- A read of the engine in host window 0 that waits for 8 bytes. -/
def reading : State := { base with hostReads := [HostRead.mk 0 5 hostBase 8 0 1] }

/-- Page 3 of stack 0 is sealed. -/
def sealedPage : State :=
  { base with lining := { base.lining with seals := [Seal.mk 0 0 7 9 false [3] none] } }

theorem witness_hostMemoryPackets :
    base.seamUp 0 = true ∧ base.inboundOk 256 2 = true ∧ base.anySealed [(256, 2)] = false ∧
    base.inboundOk (16 * 2 ^ 30 - 1) 1 = true ∧ base.inboundOk (16 * 2 ^ 30 - 1) 2 = false ∧
    sealedPage.seamUp 0 = true ∧ sealedPage.inboundOk 196608 2 = true ∧ sealedPage.anySealed [(196608, 2)] = true ∧
    reading.seamUp 0 = true ∧
    (reading.hostReads.find? (fun x => x.port == 0 && x.tag == 5)).map (fun r => r.len) = some 8 := by decide +kernel

theorem test_inbound :
    (after (.inboundMwr 0 1 256 [1, 0, 3]) base).mem = [(256, 1), (258, 3)] ∧
    (after (.inboundMwr 0 1 196608 [1]) sealedPage).mem = [] ∧
    (after (.inboundMwr 0 1 (16 * 2 ^ 30) [1]) base).mem = [] ∧
    (after (.cpl 0 5 0 (zeroBytes 8)) reading).hostReads = [] ∧
    (after (.cpl 0 5 0 (zeroBytes 7)) reading).hostReads.length = 1 := by decide +kernel

/-- Endpoint 1 holds an installer session and an operator session on encrypted channels. -/
def ruled : State :=
  { base with lining := { base.lining with
    sessions := [some (Session.mk 1 0 1), some (Session.mk 2 3 1)] ++ List.replicate 14 none } }

/-- The installer's endpoint, on an encrypted channel. -/
def installer : Source := .seam 0 1 true

theorem witness_registerPackets :
    base.seamUp 0 = true ∧ base.ready.tag = true ∧ 1 ≤ 16 ∧ 0x2000 % 4 = 0 ∧ 0x2001 % 4 ≠ 0 ∧ 16 < 17 ∧
    [0#32].length = 1 ∧ 0x2000 % 8 = 0 ∧ ((base.pairAt 0x2000).isSome ∨ isRoPairLo 0x2000 = true) ∧
    ((1, 0x2004, 7) : Nat × Nat × W32).1 ≠ readerOf .i3c := by decide +kernel

/-- A pair reads whole: the LO read latches the HI word (R323, R460). -/
theorem test_pairRead :
    let s := { base with tb := { base.tb with now := 0x500000001 } }
    let t := after (.latchedPairRead .i3c 0x2000) s
    ({ t with tb := { t.tb with now := 0x900000000 } }.readWord .i3c 0x2004).1 = 5 := by decide +kernel

/-- A read of one word is answered with one RCPL; a count of 17 is discarded and counted (R430). -/
theorem test_rrd :
    (after (.rrd 0 1 0x2010 1 0) base).counter (.seam 0 0) = 1 ∧
    (after (.rrd 0 1 0x2010 17 0) base).counter (.seam 0 5) = 1 := by decide +kernel

theorem test_rwr :
    (after (.rwr 0 1 true 0x2008 [7] 0) ruled).tb.loadLo = 7 ∧
    (after (.rwr 0 1 false 0x2008 [7] 0) ruled).tb.loadLo = 0 ∧
    (after (.rwr 0 1 false 0x2008 [7] 0) ruled).counter (.control 0) = 1 := by decide +kernel

/-- A key exchange whose peer sends no point. Which peers are accepted is open (`Config.certifiedKey`,
`Config.profilePeer`), so the clause on an accepted one has no message that Lean could evaluate. -/
theorem witness_keyExchange : base.ready.lining = true ∧ (base.seam 0).state = .active ∧
    ecdh ((Config.random384 base.lining.draws).toNat % (p384N - 1) + 1) [] = none := ⟨rfl, rfl, rfl⟩

/-- An SPDM connection of endpoint 1 whose session 4 stands. -/
def spdm : State :=
  { base with lining := { base.lining with
    conns := [SpdmConn.mk 0 1 3], spdm := [Spdm.mk 4 0 1 true] } }

theorem witness_securedSessions :
    spdm.ready.lining = true ∧ (spdm.seam 0).state = .active ∧ (spdm.lining.spdmSession 0 1 4).isSome = true ∧
    3 ≤ spdm.lining.spdmStage 0 1 ∧ (spdm.lining.spdmSession 0 1 4).map (fun x => x.finished) = some true ∧
    (spdm.ctx 0).state ≠ .closed ∧ spdm.inHost 0 hostBase 4096 = true ∧
    spdm.inHost 0 (hostBase + 4096) 32 = true ∧ spdm.inHost 0 0 4096 = false := by decide +kernel

theorem test_spdm :
    (after (.spdmRequest 0 1 .getVersion) base).lining.spdmStage 0 1 = 1 ∧
    (after (.spdmRequest 0 1 (.endSession 4)) spdm).lining.spdm = [] ∧
    ((after (.bounceBind 0 1 4 0 hostBase 1 (hostBase + 4096)) spdm).ctx 0).bounce.map (fun b => (b.base, b.counter)) =
      some (hostBase, 1) ∧
    ((after (.bounceBind 0 1 4 0 0 1 (hostBase + 4096)) spdm).ctx 0).bounce = none := by decide +kernel

/-! ## Rounds: packets -/

/-- A channel to endpoint 1 of a port. -/
def chan (p : Nat) : RyChan := RyChan.mk p true 1

/-- A round of three positions, this one position 1, with a backup on port 2, and backing position 0 on port 3. -/
def round3 : RyDesc :=
  { RyDesc.parse (zeroBytes 128) with
    group := 4, vc := 2, size := 3, position := 1, steps := 64, listN := 1, deadline := 100, step := 9
    up := chan 0, down := chan 1, backupIn := chan 2, backupOut := chan 3, backsPos := 0, work := 0x1000 }

/-- Its one tensor: three rows of 32 columns, one row and one block in each shard. -/
def tensor3 : RyTensor := { RyTensor.parse (zeroBytes 64) with rows := 3, cols := 32 }

/-- The round as it was opened. -/
def opened3 : RyGroup := RyGroup.fresh (cmd .ryRoundOpen []) round3 [tensor3] [] [] 0 []

/-- The data phase: the shard that this position starts has gone, its hop and its owner are at work. -/
def data3 : RyGroup :=
  { opened3 with phase := .data, settled := some 0, hop := some 1, own := some 2, started := 1, normsBegun := true }

/-- A machine with a group. -/
def withGroup (s : State) (g : RyGroup) : State := { s with groups := [(4, g)] }

theorem witness_readyPhase :
    (withGroup base opened3).groupAt RyDesc.backupIn 2 1 2 = some (4, opened3) ∧
    smGet? (withGroup base opened3).groups 4 = some opened3 ∧ opened3.isOpen = true ∧ opened3.phase = .ready ∧
    opened3.settled = none ∧ opened3.d.deadline.toNat ≤ (locked 100 0).tb.now.toNat ∧ opened3.d.work ≠ 0 ∧
    (locked 99 0).tb.now.toNat < opened3.d.deadline.toNat ∧
    (withGroup base opened3).groupAt RyDesc.up 0 1 2 = some (4, opened3) ∧
    opened3.hop = none ∧ opened3.own = none ∧ opened3.inbox = [] ∧ opened3.d.position ≠ 0 ∧
    ({ opened3 with settled := some 0 } : RyGroup).settled ≠ none := by decide +kernel

/-- At DEADLINE a position without a backup is MISSING, one with a backup that is ready is BACKUP (R190). -/
theorem test_ryDeadline :
    (smGet? (after (.ryDeadline 4) (withGroup (locked 100 0) opened3)).groups 4).map (fun g => g.settled) = some (some 2) ∧
    (smGet? (after (.ryDeadline 4) (withGroup (locked 100 0) { opened3 with backupReady := true })).groups 4).map
      (fun g => g.settled) = some (some 1) := by decide +kernel

/-- Lap 2 begins the data phase, or aborts the round (R191). -/
theorem test_readyToken :
    (smGet? (after (.readyToken 0 1 2 (ReadyToken.mk 2 0 0 false false))
      (withGroup base { opened3 with settled := some 0 })).groups 4).map (fun g => g.phase) = some .data ∧
    (smGet? (after (.readyToken 0 1 2 (ReadyToken.mk 2 0 0 true true))
      (withGroup base { opened3 with settled := some 0 })).groups 4).map (fun g => (g.phase, g.why)) =
      some (.aborted, 1) ∧
    (smGet? (after (.readyToken 0 1 2 (ReadyToken.mk 2 0 0 false true))
      (withGroup base { opened3 with settled := some 0 })).groups 4).map (fun g => g.why) = some 2 := by decide +kernel

/-- The block of shard 2 that comes first, and the block of the own shard behind it: mantissas of 5. -/
def block5 (seq : Nat) : Bytes :=
  (YBlock.of (firstScale round3) seq false false true false (List.replicate 32 5)).bytes

/-- The replay window holds 256 blocks. -/
def full3 : RyGroup := { data3 with window := List.replicate 256 (0, 0, []) }

/-- The own shard is expected. -/
def own3 : RyGroup := { data3 with up := RyIn.mk 1 0 [] [] }

theorem witness_blocksAdded :
    (withGroup base data3).groupAt RyDesc.up 0 1 2 = some (4, data3) ∧ data3.phase = .data ∧ data3.isOpen = true ∧
    data3.inbox = [] ∧ data3.up.expects data3.incoming = some (2, 0) ∧ data3.block 2 0 = some (RyAt.mk 0 2 0 2) ∧
    data3.check data3.up data3.incoming 2 0 2 (block5 0) =
      .take (YBlock.of (firstScale round3) 0 false false true false (List.replicate 32 5)) ∧
    data3.count data3.first ≤ data3.started ∧ 2 ≠ data3.d.position ∧ (withGroup base data3).mayTake data3 2 = true ∧
    (withGroup base full3).mayTake full3 2 = false ∧ (withGroup base full3).groupAt RyDesc.up 0 1 2 = some (4, full3) ∧
    (withGroup base own3).mayTake own3 1 = true ∧
    (withGroup base data3).share data3 data3.hopRows 2 0 (RyAt.mk 0 2 0 2) =
      some (Contrib.mk (List.replicate 32 0) 0 0, false) ∧
    (withGroup base own3).groupAt RyDesc.up 0 1 2 = some (4, own3) ∧
    own3.up.expects own3.incoming = some (1, 0) ∧ 1 = own3.d.position ∧ own3.own ≠ none ∧
    own3.block 1 0 = some (RyAt.mk 0 1 0 1) := by decide +kernel

theorem test_ryBlock :
    ((smGet? (after (.ryBlock 0 1 2 (block5 0) []) (withGroup base data3)).groups 4).map (fun g => g.window)) =
      some [(2, 0, block5 0)] ∧
    ((smGet? (after (.ryBlock 0 1 2 (block5 0) []) (withGroup base own3)).groups 4).map (fun g => g.finals)) =
      some [(false, List.replicate 32 5)] ∧
    ((smGet? (after (.ryBlock 0 1 2 (block5 0) []) (withGroup base full3)).groups 4).map (fun g => g.inbox)) =
      some [(block5 0, [])] := by decide +kernel

/-- What this position has sent, and the copy of position 0 that it holds: a cleared buffer. -/
def sent3 : RyGroup := { data3 with window := [(2, 65536, block5 0)], copy := some [[]] }

theorem witness_blocksSentAgain :
    data3.normsBegun = true ∧ (withGroup base data3).mayTake data3 2 = true ∧
    data3.check data3.up data3.incoming 2 0 2 (zeroBytes 72) = .fault 2 0 ∧ (2, 0) ∉ data3.up.faulted ∧
    data3.check (RyIn.mk 0 0 [] [(2, 7, (chkLo (List.replicate 32 5) + 65536 * chkHi (List.replicate 32 5)))])
      data3.incoming 2 0 2 (block5 7) = .duplicate ∧
    (withGroup base sent3).groupAt RyDesc.down 1 1 2 = some (4, sent3) ∧
    sent3.window.find? (fun x => x.1 == 2 && x.2.1 % 65536 == 0 % 65536) = some (2, 65536, block5 0) ∧
    (withGroup base sent3).groupAt RyDesc.backupOut 3 1 2 = some (4, sent3) ∧ sent3.copy = some [[]] ∧
    sent3.served = none ∧
    (withGroup base sent3).vectorFree sent3.ctx (((withGroup base sent3).backer 4 sent3.ctx).map (fun e => e.seq)) =
      true := by decide +kernel

theorem witness_packetRowsComplete :
    base.seamUp 1 = true ∧ base.ready.tag = true ∧ base.belt.trip = false ∧ base.belt.requests = [] ∧
    (withGroup base sent3).belt.requests = [] ∧ (withGroup base sent3).belt.trip = false ∧
    (base.pairAt 0x2000).isSome = true ∧ isRoPairLo 0x200068 = true := by decide +kernel

/-- A read of TB_NOW's LO word latches the HI word; RRD is answered and RWR acts on an active port (R430, R460). -/
theorem test_packetRows : (after (.latchedPairRead .i3c 0x2000) base).latches.length = 1 ∧
    ((after (.rrd 1 1 0x2000 2 0) base).seam 1).fseqTx ≠ (base.seam 1).fseqTx ∧
    ((after (.rwr 1 1 false 0x2000 [0] 0) base).seam 1).fseqTx ≠ (base.seam 1).fseqTx := by decide +kernel

theorem test_blocksSentAgain :
    ((smGet? (after (.ryBlock 0 1 2 (zeroBytes 72) []) (withGroup base data3)).groups 4).map (fun g => g.up.faulted)) =
      some [(2, 0)] ∧
    ((smGet? (after (.resend 1 1 2 2 0) (withGroup base sent3)).groups 4).map (fun g => g.n.resends)) = some 1 := by
  decide +kernel

/-- A norm record of tensor 0 in the first bytes of page 2, and a token of it. -/
def norms3 : RyGroup := { data3 with normAt := [(0, [(131072, 32)])] }

/-- A round that has closed, and a parameter lap at work on it: a header has come. -/
def closed3 : RyGroup := { data3 with isOpen := false, hop := none, own := none }
def lap3 : RyGroup := { closed3 with recv := some 5, heads := [RyHead.mk 0 2 0 1 0 64 3 0 []] }

/-- The header of shard 2 of tensor 0. -/
def head3 : Bytes := lay 64 [(2, 2), (8, 1)]

theorem witness_normTokensAndLap :
    (withGroup base norms3).groupAt RyDesc.up 0 1 2 = some (4, norms3) ∧ norms3.phase = .data ∧
    norms3.normDone.contains 0 = false ∧ norms3.d.position ≠ 0 ∧ norms3.normOwn.find? (fun x => x.1 == 0) = none ∧
    norms3.normAt.find? (fun x => x.1 == 0) = some (0, [(131072, 32)]) ∧
    ((withGroup base norms3).ctx norms3.ctx).bounce = none ∧
    (withGroup base closed3).lapAt 0 1 2 = some (4, closed3) ∧
    smGet? (withGroup base closed3).groups 4 = some closed3 ∧ closed3.recv = none ∧ (withGroup base lap3).lapAt 0 1 2 = some (4, lap3) ∧ lap3.recv = some 5 ∧
    bitsOf (fieldOf head3 0 2) 0 12 < lap3.tensors.length ∧ bitsOf (fieldOf head3 2 2) 0 10 < lap3.d.size ∧
    bitsOf (fieldOf head3 2 2) 0 10 ≠ lap3.d.position ∧ lap3.heads.getLast? = some (RyHead.mk 0 2 0 1 0 64 3 0 []) := by
  decide +kernel

theorem test_normToken :
    memRead (after (.normToken 0 1 2 2 0 0x4000000000000000) (withGroup base norms3)).mem 131072 32 =
      lay 32 [(0, 0x4000000000000000), (16, 9), (24, 1)] := by decide +kernel

theorem test_parameterLap :
    ((smGet? (after (.parameterHeader 0 1 2 head3) (withGroup base lap3)).groups 4).map (fun g => g.heads.length)) =
      some 2 ∧
    ((smGet? (after (.parameterData 0 1 2 (zeroBytes 64)) (withGroup base closed3)).groups 4).map (fun g => g.early)) =
      some [(7, zeroBytes 64)] ∧
    ((smGet? (after (.forecastData 0 1 2 (List.replicate 64 9)) (withGroup base lap3)).groups 4).map
      (fun g => g.heads.map (fun h => h.bytes))) = some [[9, 9, 9]] := by decide +kernel

/-! ## The Tag port and the test access port -/

/-- An I3C header: offset, words less one, boot, read. -/
def i3cHead (off n : Nat) (boot read : Bool) : Bytes :=
  leBytes 3 off ++ leBytes 1 (n - 1 + 64 * boot.toNat + 128 * read.toNat)

theorem witness_tagPort :
    State.reset.i3cUp = true ∧ 4 ≤ (i3cHead 0 64 false true).length ∧
    (fieldOf (i3cHead 0 64 false true) 3 1).testBit 7 = true ∧
    (fieldOf (i3cHead 0 1 false false ++ [1, 0, 0, 0]) 3 1).testBit 7 = false ∧
    (fieldOf (i3cHead 0 1 false false ++ [1, 0, 0, 0]) 3 1).testBit 6 = false ∧
    4 + 4 * 1 ≤ (i3cHead 0 1 false false ++ [1, 0, 0, 0]).length ∧
    (fieldOf (i3cHead 0 1 true false ++ [1, 0, 0, 0]) 3 1).testBit 6 = true ∧
    (i3cHead 0 1 false false).length < 4 + 4 * 1 ∧
    State.reset.i3c.dynamic = none ∧ ({ State.reset.i3c with dynamic := some 9 } : I3c).dynamic ≠ none ∧
    (1#8).getLsbD 0 = true ∧ (2#8).getLsbD 0 = false ∧ 5#7 ≠ 0x50 + (State.reset.pins.straps &&& 7#6).setWidth 7 := by
  decide +kernel

/-- A private read brings the DIE_ID word that its header asked for; SETDASA answers at 50H (R433). -/
theorem test_i3c :
    (after (.i3cPrivateRead 4) (after (.i3cPrivateWrite (i3cHead 0x2010 1 false true)) State.reset)).i3c.out.length = 4 ∧
    (after (.setdasa 0x50 9) State.reset).i3c.dynamic = some 9 ∧
    (after (.setdasa 0x51 9) State.reset).i3c.dynamic = none ∧
    (after .rstdaa (after (.entdaa 8) State.reset)).i3c.dynamic = none ∧
    (after (.enec 1) State.reset).i3c.ibiEnabled = true := by decide +kernel

theorem witness_testAccessPort : State.reset.pins.pwrGood = true ∧ State.reset.pins.coldResetN = true ∧
    (after .coldResetAssert State.reset).pins.pwrGood = true ∧
    (after .coldResetAssert State.reset).pins.coldResetN = false := by decide +kernel

theorem test_tap :
    (after .idcode State.reset).tap.out = 0x1A5160F3 ∧ (after .extest State.reset).tap.instr = .bypass ∧
    (after .extest (after .coldResetAssert State.reset)).tap.instr = .extest := by decide +kernel

/-! ## Rings, acceptance, dispatch -/

theorem witness_ringPointers :
    0 < 1024 ∧ base.srcOwns installer 0 = true ∧ base.collar.ctx0Active = true ∧
    (let c := base.ctx 0
     ((c.sqTail - c.sqHead).toNat ≤ ((65#32) - c.sqHead).toNat ∧ ((65#32) - c.sqHead).toNat ≤ c.sqEntries) ∧
     ¬((66#32) - c.sqHead).toNat ≤ c.sqEntries ∧
     ((1#32) - c.cqHead).toNat ≤ (c.cqTail - c.cqHead).toNat ∧
     (c.cqTail - c.cqHead).toNat < ((2#32) - c.cqHead).toNat) := by decide +kernel

theorem test_rings :
    ((after (.doorbell installer 0 65) base).ctx 0).sqTail = 65 ∧
    ((after (.doorbell installer 0 66) base).ctx 0).dbErr = true ∧
    ((after (.ctxCqHeadWrite installer 0 1) base).ctx 0).cqHead = 1 ∧
    ((after (.ctxCqHeadWrite installer 0 2) base).ctx 0).cqErr = true := by decide +kernel

/-- A machine with a packet at SQ_HEAD of context 0: SEQ 2 is the next. -/
def fetching (p : Bytes) : State :=
  { base with
    ctxs := [(0, { ctxZero with sqTail := 2 })]
    mem := memPut [] 0x100040 p
    journal := { base.journal with enable := true } }

theorem witness_packetsAccepted :
    (fetching (packet .nop 2 [])).fetches 0 = true ∧
    (fetching (packet .nop 2 [])).packetAt 0 1 = some (packet .nop 2 []) ∧
    checkHeader 0 2 (packet .nop 2 []) = .accept ∧ ctxZero.failedMembers = 0 ∧
    Op.ofCode (pkOpcode (packet .nop 2 [])) ≠ some .chain ∧
    (fetching (packet .nop 2 [])).takes 0 [packet .nop 2 []] = true ∧
    checkHeader 0 2 (packet .nop 1 []) = .duplicate ∧ checkHeader 0 2 (packet .nop 3 []) = .refuse ∧
    1 ≤ (fetching (packet .nop 3 [])).ringRoom 0 ∧ (fetching (packet .nop 3 [])).cqSlotOk 0 1 = true := by
  decide +kernel

theorem test_packetAccept :
    (after (.packetAccept 0) (fetching (packet .nop 2 []))).journal.entries.map (fun e => e.seq) = [2] ∧
    ((after (.packetAccept 0) (fetching (packet .nop 2 []))).ctx 0).acceptSeq = 2 ∧
    ((after (.packetAccept 0) (fetching (packet .nop 1 []))).ctx 0).dup = 1 ∧
    ((after (.packetAccept 0) (fetching (packet .nop 3 []))).ctx 0).seqErr = true := by decide +kernel

/-- An accepted NOP, one whose packet has a reserved bit set, and one that waits on fence counter 3. -/
def acceptedNop (fs : List (Nat × Nat)) : Entry := Entry.fresh 0 0 (packet .nop 1 fs) [] 0 1 1 none false 0 true

theorem witness_commandsDispatch :
    (∀ fs ∈ [[], [(0x11, 16)], [(0, 2 ^ 12), (8, 3), (12, 1)]],
      (withCmd base (acceptedNop fs)).ready.collar = true ∧ ((withCmd base (acceptedNop fs)).ctx 0).state = .opened ∧
      (withCmd base (acceptedNop fs)).candidate 0 = some (acceptedNop fs) ∧ (acceptedNop fs).state = .accepted ∧
      (withCmd base (acceptedNop fs)).slotFor 0 1 = none ∧ (acceptedNop fs).op ≠ some .chain) ∧
    (withCmd base (acceptedNop [])).mayDispatch (acceptedNop []) none = true ∧
    (withCmd base (acceptedNop [])).dispatchIssues (acceptedNop []) = [] ∧
    (withCmd base (acceptedNop [])).regionsLost (acceptedNop []) = [] ∧
    (withCmd base (acceptedNop [(0, 2 ^ 12), (8, 3), (12, 1)])).regionsLost
      (acceptedNop [(0, 2 ^ 12), (8, 3), (12, 1)]) = [] ∧
    (withCmd base (acceptedNop [(0, 2 ^ 12), (8, 3), (12, 1)])).mayDispatch
      (acceptedNop [(0, 2 ^ 12), (8, 3), (12, 1)]) none = false := by decide +kernel

/-- An accepted GOV_STEP of a context whose governor region is lost (R473). -/
def lostStep : Entry := Entry.fresh 0 0 (packet .govStep 1 []) [] 0 1 1 none false 0 true
def lostS : State :=
  { withCmd base lostStep with ctxs := [(0, { ctxZero with gov := some (Region.mk 0 0x2000000 [] true 0x4000000) })] }

theorem witness_lostWait :
    lostS.candidate 0 = some lostStep ∧ lostS.ready.collar = true ∧ (lostS.ctx 0).state = .opened ∧
    lostStep.state = .accepted ∧ lostS.slotFor 0 1 = none ∧ lostStep.op ≠ some .chain ∧
    lostS.regionsLost lostStep ≠ [] := by decide +kernel

theorem test_lostWait :
    ((after (.commandDispatch 0) lostS).entryAt 0).map (fun e => e.state) = some .lostWait := by decide +kernel

theorem test_commandDispatch :
    ((after (.commandDispatch 0) (withCmd base (acceptedNop []))).entryAt 0).map (fun e => e.state) = some .dispatched ∧
    ((after (.commandDispatch 0) (withCmd base (acceptedNop [(0, 2 ^ 12), (8, 3), (12, 1)]))).entryAt 0).map
      (fun e => e.state) = some .accepted := by decide +kernel

/-- A MULTICAST to core 0 that waits for its queue there, where `used` queues are held by another command. -/
def queueing (used : Nat) : State :=
  { withCmd base (cmd .multicast [(0x18, 1)]) with cores := [(0, { CoreUnit.init with queues := [QueueHold.mk 1 9 used 0 0] })] }

theorem witness_queuesGranted :
    (queueing 0).ready.collar = true ∧ (queueing 0).coreReady 0 = true ∧
    earliest ((queueing 0).queueWaiters 0) = some (cmd .multicast [(0x18, 1)]) ∧
    earliest ((queueing 16).queueWaiters 0) = some (cmd .multicast [(0x18, 1)]) ∧
    (queueing 0).hemNeed (cmd .multicast [(0x18, 1)]) 0 = [] ∧ ((queueing 0).core 0).hem = [] ∧
    (queueing 0).queueNeed (cmd .multicast [(0x18, 1)]) ≤ ((queueing 0).core 0).free ∧
    ((queueing 16).core 0).free < (queueing 16).queueNeed (cmd .multicast [(0x18, 1)]) := by decide +kernel

theorem test_queueGrant :
    ((after (.queueGrant 0) (queueing 15)).core 0).queues.map (fun b => (b.ctx, b.seq, b.n)) = [(1, 9, 15), (0, 1, 1)] ∧
    ((after (.queueGrant 0) (queueing 16)).core 0).queues.map (fun b => (b.ctx, b.seq, b.n)) = [(1, 9, 16)] := by decide +kernel

/-! ## Data commands on small tensors -/

/-- Memory with bytes at addresses. -/
def memOf (xs : List (Nat × Bytes)) : List Host.Cell := xs.foldl (fun m x => memPut m x.1 x.2) []

/-- Core 0 with the queues of the command with SEQ 1. -/
def granted : List (Nat × CoreUnit) := [(0, { CoreUnit.init with queues := [QueueHold.mk 0 1 1 0 0] })]

/-- A machine with one dispatched command, its queues granted, and some memory. -/
def work (op : Op) (fs : List (Nat × Nat)) (xs : List (Nat × Bytes)) : State :=
  withCmd { base with mem := memOf xs, cores := granted } (cmd op fs)

/-- A tensor descriptor of some rows and columns at a base, with a pitch of 64 bytes (R274). -/
def tdesc (addr rows cols fmt : Nat) (more : List (Nat × Nat)) : Bytes :=
  lay 64 ([(0, addr), (8, rows), (0xC, cols), (0x10, 64), (0x14, fmt)] ++ more)

/-- BF16 elements, and binary32 elements. -/
def bf (xs : List Nat) : Bytes := xs.flatMap (leBytes 2)
def f32 (xs : List Nat) : Bytes := xs.flatMap (leBytes 4)

/-- Descriptor number i, and the first byte of tensor number i. -/
def dAt (i : Nat) : Nat := 0x200000 + 64 * i
def tAt (i : Nat) : Nat := 0x210000 + 0x1000 * i

/-- An operand block of eight addresses (R250). -/
def block (xs : List Nat) : Bytes := xs.flatMap (leBytes 8)

/-- What a command's plan needs: it is at work, allowed to, and done. -/
def worksB (op : Op) (plan : State → Entry → Plan) (s : State) (e : Entry) : Bool :=
  decide (s.runnable op 0 1 = some e) &&
  decide ((s.journal.entries.map (fun e => e.id)).Pairwise (· < ·) ∧ ∀ e ∈ s.journal.entries, e.id < s.journal.nextId) &&
  decide (s.brokenFor e = none) && s.producerDone e && s.mayWork op e && s.hasStarted op e &&
  (match plan (s.viewFor e) e with
   | .done d => s.commitRoom e d
   | _ => false)

theorem works_of (i : Instr) (op : Op) (plan : State → Entry → Plan) (s : State) (e : Entry)
    (h : dataRow i = some (op, 0, 1, plan)) (hb : worksB op plan s e = true) : ∃ d, Works s i e d := by
  simp only [worksB, Bool.and_eq_true, decide_eq_true_eq] at hb
  obtain ⟨⟨⟨⟨⟨⟨h1, h2⟩, h3⟩, h4⟩, h5⟩, h7⟩, h6⟩ := hb
  cases hp : plan (s.viewFor e) e with
  | done d =>
    rw [hp] at h6
    exact ⟨d, op, 0, 1, plan, h, ⟨h1, h2, h3, h4⟩, h5, h7, hp, h6⟩
  | wait => rw [hp] at h6; cases h6
  | hold st => rw [hp] at h6; cases h6
  | fail is => rw [hp] at h6; cases h6
  | refuse is => rw [hp] at h6; cases h6

/-- Bytes of memory after a command. -/
def memAfter (i : Instr) (s : State) (a n : Nat) : Bytes := memRead (after i s).mem a n

/-! QUERY_CAPS: the first 64 bytes of the identity block. -/
def capsFs : List (Nat × Nat) := [(0x10, 0x200000), (0x18, 64)]
theorem works_queryCaps : ∃ d, Works (work .queryCaps capsFs []) (.queryCaps 0 1) (cmd .queryCaps capsFs) d :=
  works_of _ .queryCaps queryCapsPlan _ _ rfl (by decide +kernel)
theorem test_queryCaps : outcome (after (.queryCaps 0 1) (work .queryCaps capsFs [])) 0 = some (0, 64) := by decide +kernel

/-! COPY of 65 bytes across a page boundary: two lines. -/
def copyFs : List (Nat × Nat) := [(0x10, 0x20FFFF), (0x18, 0x300000), (0x20, 65)]
def copyS : State := work .copy copyFs [(0x20FFFF, List.replicate 65 7)]
theorem works_copy : ∃ d, Works copyS (.copy 0 1) (cmd .copy copyFs) d :=
  works_of _ .copy copyPlan _ _ rfl (by decide +kernel)
theorem test_copy : outcome (after (.copy 0 1) copyS) 0 = some (0, 2) ∧
    memAfter (.copy 0 1) copyS 0x2FFFFF 67 = [0] ++ List.replicate 65 7 ++ [0] := by decide +kernel

/-! POCKET_WRITE of inline bytes, POCKET_READ into RESULT. -/
def pocketFs : List (Nat × Nat) := [(0x10, 0x200000), (0x20, 3), (0x28, 0x030201)]
theorem works_pocketWrite : ∃ d, Works (work .pocketWrite pocketFs []) (.pocketWrite 0 1) (cmd .pocketWrite pocketFs) d :=
  works_of _ .pocketWrite pocketWritePlan _ _ rfl (by decide +kernel)
theorem test_pocketWrite : outcome (after (.pocketWrite 0 1) (work .pocketWrite pocketFs [])) 0 = some (0, 3) ∧
    (after (.pocketWrite 0 1) (work .pocketWrite pocketFs [])).mem = [(0x200000, 1), (0x200001, 2), (0x200002, 3)] := by
  decide +kernel
def pocketRFs : List (Nat × Nat) := [(0x10, 0x200000), (0x20, 3)]
def pocketRS : State := work .pocketRead pocketRFs [(0x200000, [1, 2, 3, 4])]
theorem works_pocketRead : ∃ d, Works pocketRS (.pocketRead 0 1) (cmd .pocketRead pocketRFs) d :=
  works_of _ .pocketRead pocketReadPlan _ _ rfl (by decide +kernel)
theorem test_pocketRead : outcome (after (.pocketRead 0 1) pocketRS) 0 = some (0, 0x030201) := by decide +kernel

/-! GATHER and SCATTER: rows 1 and 0 of a table of two rows, three BF16 elements each. -/
def rows2 : List (Nat × Bytes) :=
  [(dAt 0, tdesc (tAt 0) 2 3 7 []), (dAt 1, tdesc (tAt 1) 2 3 7 []), (tAt 0, bf [1, 2, 3]), (tAt 0 + 64, bf [4, 5, 6]),
   (tAt 2, f32 [1, 0])]
def gatherFs : List (Nat × Nat) := [(0x10, dAt 0), (0x18, tAt 2), (0x20, dAt 1)]
theorem works_gather : ∃ d, Works (work .gather gatherFs rows2) (.gather 0 1 []) (cmd .gather gatherFs) d :=
  works_of _ .gather gatherPlan _ _ rfl (by decide +kernel)
theorem test_gather : outcome (after (.gather 0 1 []) (work .gather gatherFs rows2)) 0 = some (0, 2) ∧
    memAfter (.gather 0 1 []) (work .gather gatherFs rows2) (tAt 1) 6 = bf [4, 5, 6] := by decide +kernel
def scatterFs : List (Nat × Nat) := [(0x10, dAt 1), (0x18, tAt 2), (0x20, dAt 0)]
theorem works_scatter : ∃ d, Works (work .scatter scatterFs rows2) (.scatter 0 1 []) (cmd .scatter scatterFs) d :=
  works_of _ .scatter scatterPlan _ _ rfl (by decide +kernel)
theorem test_scatter : outcome (after (.scatter 0 1 []) (work .scatter scatterFs rows2)) 0 = some (0, 2) ∧
    memAfter (.scatter 0 1 []) (work .scatter scatterFs rows2) (tAt 1) 6 = bf [4, 5, 6] := by decide +kernel

/-! Matrix products: x = (1, 2), W = (3, 4) as a column, dy = (2). -/
def mats : List (Nat × Bytes) :=
  [(dAt 0, tdesc (tAt 0) 1 2 7 []), (dAt 1, tdesc (tAt 1) 2 1 7 []), (dAt 2, tdesc (tAt 2) 1 1 7 []),
   (dAt 3, tdesc (tAt 3) 1 1 7 []), (dAt 4, tdesc (tAt 4) 1 2 7 []), (dAt 5, tdesc (tAt 5) 2 1 7 []),
   (tAt 0, bf [0x3F80, 0x4000]), (tAt 1, bf [0x4040]), (tAt 1 + 64, bf [0x4080]), (tAt 2, bf [0x4000]),
   (dAt 15, tdesc (tAt 6) 1 1 10 [])]
def ops : Nat := 0x208000
/-- x W = 3 + 8 = 11. -/
def fwdS : State := work .mmFwd [(0x10, ops)] (mats ++ [(ops, block [dAt 0, 0, dAt 1, dAt 3, 0, 0, 0, 0])])
theorem works_mmFwd : ∃ d, Works fwdS (.mmFwd 0 1 []) (cmd .mmFwd [(0x10, ops)]) d :=
  works_of _ .mmFwd mmFwdPlan _ _ rfl (by decide +kernel)
theorem test_mmFwd : outcome (after (.mmFwd 0 1 []) fwdS) 0 = some (0, 0) ∧
    memAfter (.mmFwd 0 1 []) fwdS (tAt 3) 2 = bf [0x4130] := by decide +kernel
/-- dy W^T = (6, 8). -/
def dxS : State := work .mmDx [(0x10, ops)] (mats ++ [(ops, block [0, dAt 2, dAt 1, dAt 4, 0, 0, 0, 0])])
theorem works_mmDx : ∃ d, Works dxS (.mmDx 0 1 []) (cmd .mmDx [(0x10, ops)]) d :=
  works_of _ .mmDx mmDxPlan _ _ rfl (by decide +kernel)
theorem test_mmDx : memAfter (.mmDx 0 1 []) dxS (tAt 4) 4 = bf [0x40C0, 0x4100] := by decide +kernel
/-- x^T dy = (2, 4). -/
def dwS : State := work .mmDw [(0x10, ops)] (mats ++ [(ops, block [dAt 0, dAt 2, 0, dAt 5, 0, 0, 0, 0])])
theorem works_mmDw : ∃ d, Works dwS (.mmDw 0 1 []) (cmd .mmDw [(0x10, ops)]) d :=
  works_of _ .mmDw mmDwPlan _ _ rfl (by decide +kernel)
theorem test_mmDw : memAfter (.mmDw 0 1 []) dwS (tAt 5) 2 = bf [0x4000] ∧
    memAfter (.mmDw 0 1 []) dwS (tAt 5 + 64) 2 = bf [0x4080] := by decide +kernel
/-- L1 distance: |1 - 3| + |2 - 4| = 4. -/
def distS : State := work .mmDist [(0x10, ops)] (mats ++ [(ops, block [dAt 0, 0, dAt 1, dAt 3, 0, 0, 0, 0])])
theorem works_mmDist : ∃ d, Works distS (.mmDist 0 1 []) (cmd .mmDist [(0x10, ops)]) d :=
  works_of _ .mmDist mmDistPlan _ _ rfl (by decide +kernel)
theorem test_mmDist : memAfter (.mmDist 0 1 []) distS (tAt 3) 2 = bf [0x4080] := by decide +kernel

/-! Convolutions with a kernel of one position over one image of one position: the same products (R73, R75). -/
def geom : Bytes := lay 32 [(0, 1), (2, 1), (4, 1), (6, 2), (8, 1), (0xA, 1), (0xB, 1), (0xC, 1), (0xD, 1), (0xE, 1),
  (0xF, 1), (0x14, 1), (0x16, 1), (0x18, 1)]
def convS (op : Op) (a b w out : Nat) : State :=
  work op [(0x10, ops)] (mats ++ [(ops, block [a, b, w, out, 0, 0, 0, 0x209000]), (0x209000, geom)])
theorem works_mmConvFwd : ∃ d, Works (convS .mmConvFwd (dAt 0) 0 (dAt 1) (dAt 3)) (.mmConvFwd 0 1 [])
    (cmd .mmConvFwd [(0x10, ops)]) d := works_of _ .mmConvFwd mmConvFwdPlan _ _ rfl (by decide +kernel)
theorem test_mmConvFwd : memAfter (.mmConvFwd 0 1 []) (convS .mmConvFwd (dAt 0) 0 (dAt 1) (dAt 3)) (tAt 3) 2 =
    bf [0x4130] := by decide +kernel
theorem works_mmConvDx : ∃ d, Works (convS .mmConvDx 0 (dAt 2) (dAt 1) (dAt 4)) (.mmConvDx 0 1 [])
    (cmd .mmConvDx [(0x10, ops)]) d := works_of _ .mmConvDx mmConvDxPlan _ _ rfl (by decide +kernel)
theorem test_mmConvDx : memAfter (.mmConvDx 0 1 []) (convS .mmConvDx 0 (dAt 2) (dAt 1) (dAt 4)) (tAt 4) 4 =
    bf [0x40C0, 0x4100] := by decide +kernel
theorem works_mmConvDw : ∃ d, Works (convS .mmConvDw (dAt 0) (dAt 2) 0 (dAt 5)) (.mmConvDw 0 1 [])
    (cmd .mmConvDw [(0x10, ops)]) d := works_of _ .mmConvDw mmConvDwPlan _ _ rfl (by decide +kernel)
theorem test_mmConvDw : memAfter (.mmConvDw 0 1 []) (convS .mmConvDw (dAt 0) (dAt 2) 0 (dAt 5)) (tAt 5 + 64) 2 =
    bf [0x4080] := by decide +kernel

/-! Vector commands: the worked rows of R122 and R126 among them. -/

/-- 1 + 2 and 2 + 3 in BF16. -/
def addFs : List (Nat × Nat) := [(0x10, 1), (0x18, dAt 0), (0x20, dAt 1), (0x30, dAt 2)]
def addS : State := work .vecOp addFs
  [(dAt 0, tdesc (tAt 0) 1 2 7 []), (dAt 1, tdesc (tAt 1) 1 2 7 []), (dAt 2, tdesc (tAt 2) 1 2 7 []),
   (tAt 0, bf [0x3F80, 0x4000]), (tAt 1, bf [0x4000, 0x4040])]
theorem works_vecOp : ∃ d, Works addS (.vecOp 0 1 []) (cmd .vecOp addFs) d :=
  works_of _ .vecOp vecOpPlan _ _ rfl (by decide +kernel)
theorem test_vecOp : outcome (after (.vecOp 0 1 []) addS) 0 = some (0, 0) ∧
    memAfter (.vecOp 0 1 []) addS (tAt 2) 4 = bf [0x4040, 0x40A0] := by decide +kernel

/-- The row of R122: Y = (0.5, 0.25, 0.25, 0), dY = (1, 2, -1, 4), tau = 1. -/
def softFs : List (Nat × Nat) := [(0x10, ops), (0x28, 0x3F800000)]
def softS : State := work .softmaxBwd softFs
  [(dAt 0, tdesc (tAt 0) 1 4 7 []), (dAt 1, tdesc (tAt 1) 1 4 7 []), (dAt 2, tdesc (tAt 2) 1 4 7 []),
   (tAt 0, bf [0x3F00, 0x3E80, 0x3E80, 0]), (tAt 1, bf [0x3F80, 0x4000, 0xBF80, 0x4080]),
   (ops, block [dAt 0, dAt 1, 0, dAt 2, 0, 0, 0, 0])]
theorem works_softmaxBwd : ∃ d, Works softS (.softmaxBwd 0 1 []) (cmd .softmaxBwd softFs) d :=
  works_of _ .softmaxBwd softmaxBwdPlan _ _ rfl (by decide +kernel)
theorem test_softmaxBwd : memAfter (.softmaxBwd 0 1 []) softS (tAt 2) 8 = bf [0x3E00, 0x3EA0, 0xBEE0, 0] := by
  decide +kernel

/-- The row of R126: x = (0, 0, 4, 4), mu = 2, rho = 0.5, gamma = (1, 2, 1, 0.5), dy = (0.5, -0.25, 1, 2). -/
def normFs : List (Nat × Nat) := [(0x10, ops)]
def normS : State := work .normBwd normFs
  [(dAt 0, tdesc (tAt 0) 1 4 7 []), (dAt 1, tdesc (tAt 1) 1 4 10 []), (dAt 2, tdesc (tAt 2) 1 4 7 []),
   (dAt 3, tdesc (tAt 3) 1 4 7 []), (tAt 0, bf [0, 0, 0x4080, 0x4080]),
   (tAt 1, f32 [0x3F800000, 0x40000000, 0x3F800000, 0x3F000000]), (tAt 2, bf [0x3F00, 0xBE80, 0x3F80, 0x4000]),
   (tAt 4, f32 [0x40000000, 0x3F000000]),
   (ops, block [dAt 0, tAt 4, dAt 1, dAt 2, 0, dAt 3, 0, 0])]
theorem works_normBwd : ∃ d, Works normS (.normBwd 0 1 []) (cmd .normBwd normFs) d :=
  works_of _ .normBwd normBwdPlan _ _ rfl (by decide +kernel)
theorem test_normBwd : memAfter (.normBwd 0 1 []) normS (tAt 3) 8 = bf [0x3E80, 0xBE80, 0, 0] := by decide +kernel

/-- SIGN1 of (1, -1, 0, 2): bits 0 and 3, and two elements that are 1 (R114). -/
def packFs : List (Nat × Nat) := [(0x10, dAt 0), (0x18, dAt 1)]
def packS : State := work .maskPack packFs
  [(dAt 0, tdesc (tAt 0) 1 4 7 []), (dAt 1, tdesc (tAt 1) 1 4 0 [(0x15, 2)]),
   (tAt 0, bf [0x3F80, 0xBF80, 0, 0x4000])]
theorem works_maskPack : ∃ d, Works packS (.maskPack 0 1 []) (cmd .maskPack packFs) d :=
  works_of _ .maskPack maskPackPlan _ _ rfl (by decide +kernel)
theorem test_maskPack : outcome (after (.maskPack 0 1 []) packS) 0 = some (0, 2) ∧
    memAfter (.maskPack 0 1 []) packS (tAt 1) 1 = [9] := by decide +kernel

/-! Gradient pair buffers: two slots of one pair, 1 and 2, into a cleared target (R133). -/

/-- A buffer of one row of two elements at a base: its descriptor, its header and its committed pairs. -/
def buffer (i : Nat) (cleared : Bool) (xs : List Nat) : List (Nat × Bytes) :=
  [(dAt i, tdesc (tAt i) 1 2 10 [(0x15, 1)]), (tAt i, lay 64 [(0, 2 * cleared.toNat), (0x18, 64)]), (tAt i + 64, f32 xs)]
def tieFs : List (Nat × Nat) := [(0x10, dAt 0), (0x18, tAt 4), (0x20, 2)]
def tieS : State := work .tieSum tieFs
  (buffer 0 true [] ++ buffer 1 false [0x3F800000, 0, 0, 0] ++ buffer 2 false [0x40000000, 0, 0, 0] ++
   [(tAt 4, block [dAt 1, dAt 2])])
theorem works_tieSum : ∃ d, Works tieS (.tieSum 0 1 []) (cmd .tieSum tieFs) d :=
  works_of _ .tieSum tieSumPlan _ _ rfl (by decide +kernel)
/-- 1 + 2 = 3 in epoch 1 of the target, which is committed; the slots are cleared. -/
theorem test_tieSum : outcome (after (.tieSum 0 1 []) tieS) 0 = some (0, 2) ∧
    memAfter (.tieSum 0 1 []) tieS (tAt 0 + 128) 8 = f32 [0x40400000, 0] ∧
    fieldOf (memAfter (.tieSum 0 1 []) tieS (tAt 0) 64) 0 4 = 1 ∧
    fieldOf (memAfter (.tieSum 0 1 []) tieS (tAt 1) 64) 0 4 = 2 := by decide +kernel

/-! The update family on a parameter of one row of two elements: w = (3, 1), g = (2, 4), SGD with a rate of 0.5. -/

/-- A parameter descriptor at 0x220000, stored in BF16: its flags, its master, and slot 0 held (R157). -/
def paramOf (flags : Nat) (more : List (Nat × Nat)) : List (Nat × Bytes) :=
  [(0x220000, lay 256 ([(0, flags), (0x20, 1), (0x24, 2), (0x28, 64), (0x30, 64), (0x38, 0x221000),
    (0x60, 0x222000), (0x70, 0x17), (0x74, 64), (0x80, 0x222100), (0x90, 0x07), (0x94, 64),
    (0xA0, 0x222200), (0xB0, 0x07), (0xB4, 64), (0xC8, 7)] ++ more)),
   (0x221000, f32 [0x40400000, 0x3F800000])]
/-- The same with no optimiser state yet (ZERO). -/
def param (more : List (Nat × Nat)) : List (Nat × Bytes) := paramOf 4 more
/-- LR 0.5, GSCALE 1, STEP 1 (R161). -/
def literals : Bytes := lay 64 [(0, 0x3F000000), (0x14, 0x3F800000), (0x20, 1)]
def withLiterals (e : Entry) : Entry := { e with literal := literals }
def updFs : List (Nat × Nat) := [(0x10, 0x220000), (0x18, 0x223000), (0x20, dAt 0)]
def updMem : List (Nat × Bytes) := buffer 0 false [0x40000000, 0, 0x40800000, 0] ++ [(0x223000, literals)]
def updS : State := withCmd (work .update updFs (param [] ++ updMem)) (withLiterals (cmd .update updFs))
theorem works_update : ∃ d, Works updS (.update 0 1 [] []) (withLiterals (cmd .update updFs)) d :=
  works_of _ .update updatePlan _ _ rfl (by decide +kernel)
/-- The new master (2, -1) in epoch 1, its copy in slot 1; COUNT 1 (R164, R173). -/
theorem test_update : outcome (after (.update 0 1 [] []) updS) 0 = some (0, 0) ∧
    memAfter (.update 0 1 [] []) updS 0x221040 8 = f32 [0x40000000, 0xBF800000] ∧
    memAfter (.update 0 1 [] []) updS 0x222100 4 = bf [0x4000, 0xBF80] ∧
    fieldOf (memAfter (.update 0 1 [] []) updS 0x220000 256) 8 8 = 1 := by decide +kernel

/-- The same on a descriptor of lazy rows, whose bitmap names row 0 (R181, R182). -/
def rowsFs : List (Nat × Nat) := [(0x10, 0x220000), (0x18, 0x223000), (0x20, dAt 0), (0x28, 0x224000)]
def rowsS : State :=
  withCmd (work .updateRows rowsFs (param [(1, 2), (0x50, 0x225000)] ++ updMem ++ [(0x224000, [1])]))
    (withLiterals (cmd .updateRows rowsFs))
theorem works_updateRows : ∃ d, Works rowsS (.updateRows 0 1 []) (withLiterals (cmd .updateRows rowsFs)) d :=
  works_of _ .updateRows updateRowsPlan _ _ rfl (by decide +kernel)
theorem test_updateRows : outcome (after (.updateRows 0 1 []) rowsS) 0 = some (0, 1) ∧
    memAfter (.updateRows 0 1 []) rowsS 0x221040 8 = f32 [0x40000000, 0xBF800000] := by decide +kernel

/-- PRECOND_FACTOR of zero statistics with a damping of 0: both sides fall back (R171, R172). -/
def preFs : List (Nat × Nat) := [(0x10, 0x220000), (0x1C, 0x3F800000), (0x20, 2), (0x21, 1)]
def preS : State := work .precondFactor preFs
  (param [(0x2C, 2), (0x40, 0x226000), (0x50, 0x227000), (0x58, 0x228000)])
theorem works_precondFactor : ∃ d, Works preS (.precondFactor 0 1 [] []) (cmd .precondFactor preFs) d :=
  works_of _ .precondFactor precondPlan _ _ rfl (by decide +kernel)
theorem test_precondFactor : outcome (after (.precondFactor 0 1 [] []) preS) 0 =
    some (Status.fallbackPrecond.toNat, 2) := by decide +kernel

/-- MM_SAFE of shape 5, 64 by 64 in binary16 at PL4 (R80): the plan is there; its sums are not formed here. -/
def safeFs : List (Nat × Nat) := [(0x10, ops), (0x26, 5)]
def safeS : State := work .mmSafe safeFs
  [(dAt 0, lay 64 [(0, 0x230000), (8, 64), (0xC, 64), (0x10, 128), (0x14, 8)]),
   (dAt 1, lay 64 [(0, 0x240000), (8, 64), (0xC, 64), (0x10, 128), (0x14, 8)]),
   (dAt 2, lay 64 [(0, 0x250000), (8, 64), (0xC, 64), (0x10, 128), (0x14, 8)]),
   (ops, block [dAt 0, 0, dAt 1, dAt 2, 0, 0, 0, 0])]
theorem works_mmSafe : ∃ d, Works safeS (.mmSafe 0 1 []) (cmd .mmSafe safeFs) d :=
  works_of _ .mmSafe mmSafePlan _ _ rfl (by decide +kernel)

/-- COUNTER_SNAP of the engine's groups, 2,000 ticks after its dispatch (R448). -/
def snapFs : List (Nat × Nat) := [(0x10, 0x260000), (0x18, 4096), (0x1E, 0x800)]
def snapS : State := { work .counterSnap snapFs [] with tb := { base.tb with now := 2000 } }
theorem works_counterSnap : ∃ d, Works snapS (.counterSnap 0 1) (cmd .counterSnap snapFs) d :=
  works_of _ .counterSnap counterSnapPlan _ _ rfl (by decide +kernel)

/-- MM_SAFE of shape 8 keeps its fold entries in a half of the Hem: one is free, or none (R91, R310). -/
def hemming (held : Nat) : State :=
  { withCmd { base with mem := safeS.mem } (cmd .mmSafe [(0x10, ops), (0x26, 8)]) with
    cores := [(0, { CoreUnit.init with hem := List.replicate held (HemHalf.mk 1 9 1) })] }
theorem witness_hemGranted :
    (hemming 1).ready.collar = true ∧ (hemming 1).coreReady 0 = true ∧
    earliest ((hemming 1).queueWaiters 0) = some (cmd .mmSafe [(0x10, ops), (0x26, 8)]) ∧
    earliest ((hemming 2).queueWaiters 0) = some (cmd .mmSafe [(0x10, ops), (0x26, 8)]) ∧
    (hemming 1).hemNeed (cmd .mmSafe [(0x10, ops), (0x26, 8)]) 0 = [256 * 64 * dieArrays base.die] ∧
    (hemming 1).queueNeed (cmd .mmSafe [(0x10, ops), (0x26, 8)]) ≤ ((hemming 1).core 0).free ∧
    ((hemming 1).core 0).hem.length + 1 ≤ 2 ∧ 2 < ((hemming 2).core 0).hem.length + 1 := by decide +kernel
theorem test_hemGrant : ((after (.queueGrant 0) (hemming 2)).core 0).queues = [] := by decide +kernel

/-! ## Chains, completion, outcomes -/

/-- What `Runs` asks for. -/
def runsB (op : Op) (s : State) (e : Entry) : Bool :=
  decide (s.runnable op 0 1 = some e) &&
  decide ((s.journal.entries.map (fun e => e.id)).Pairwise (· < ·) ∧ ∀ e ∈ s.journal.entries, e.id < s.journal.nextId) &&
  decide (s.brokenFor e = none) && s.producerDone e

theorem runs_of (op : Op) (s : State) (e : Entry) (hb : runsB op s e = true) : Runs s op 0 1 e := by
  simp only [runsB, Bool.and_eq_true, decide_eq_true_eq] at hb
  obtain ⟨⟨⟨h1, h2⟩, h3⟩, h4⟩ := hb
  exact ⟨h1, h2, h3, h4⟩

/-- A chain of two stages whose CHAIN packet has SEQ 1, with a link of some bytes (R221, R290). -/
def chain2 (admitted : Bool) (link : Bytes) : ChainState :=
  ChainState.mk 0 1 0 2 1 2 [link] [] [false] none false 0x280000 65536 [] admitted [] []

/-- Its CHAIN packet and its members: a VEC_OP that adds into the link, and a RELU that reads from it. -/
def chainHead : Entry :=
  Entry.fresh 0 0 (packet .chain 1 [(0x10, 2), (0x12, 1), (0x14, 2), (0x18, 0x280000), (0x20, 65536)]) [] 0 1 1 none
    false 0 true
def member0 : Entry :=
  Entry.fresh 1 0 (packet .vecOp 2 [(0x10, 1), (0x18, dAt 0), (0x20, dAt 1), (0x30, dAt 2)]) [] 0 1 1 (some 0) false 0 true
def member1 : Entry :=
  Entry.fresh 2 0 (packet .vecOp 3 [(0x10, 5), (0x18, dAt 2), (0x30, dAt 3)]) [] 0 1 1 (some 1) false 0 true
def linked (rows : Nat) : List (Nat × Bytes) :=
  [(dAt 0, tdesc (tAt 0) 1 2 7 []), (dAt 1, tdesc (tAt 1) 1 2 7 []), (dAt 2, tdesc 0 rows 2 0x47 []),
   (dAt 3, tdesc (tAt 3) 1 2 7 []), (tAt 0, bf [0x3F80, 0x4000]), (tAt 1, bf [0x4000, 0x4040])]

/-- The machine with the chain waiting, `promised` blocks of core 0 promised to another. -/
def waiting (promised : Nat) : State :=
  { base with
    chains := [chain2 false []]
    cores := [(0, { CoreUnit.init with promised := [Promise.mk 1 9 promised 0] })]
    mem := memOf (linked 1)
    journal := { base.journal with entries := [chainHead, member0, member1], nextId := 3 } }

/-- The chain admitted, its link with two bytes that wait for member 1, which is not at work; member 0 is, and its output
of some rows of 64 bytes is to go into the link of two blocks. Nothing has moved since the beginning. -/
def stalled (rows now : Nat) : State :=
  { waiting 0 with
    chains := [chain2 true [1, 2]]
    mem := memOf (linked rows), starved := some 0, tb := { base.tb with now := BitVec.ofNat 64 now }
    journal := { base.journal with
      entries := [{ chainHead with state := .dispatched }, { member0 with state := .dispatched }, member1], nextId := 3 } }

theorem witness_chains :
    (waiting 30).ready.collar = true ∧ earliest (waiting 30).chainWaiters = some chainHead ∧
    (waiting 30).chain? 0 1 = some (chain2 false []) ∧
    (chain2 false []).buffer ≤ (((waiting 30).usable 0).map (waiting 30).allowanceLeft).foldl (· + ·) 0 ∧
    (waiting 30).promiseQueues 1 ((waiting 30).usable 0) 0 (chain2 false []).buffer = true ∧
    earliest (waiting 31).chainWaiters = some chainHead ∧
    (((waiting 31).usable 0).map (waiting 31).allowanceLeft).foldl (· + ·) 0 < (chain2 false []).buffer ∧
    (stalled 2048 99999).stallOver = false ∧ (stalled 2048 99999).ready.collar = true ∧
    (stalled 1 100000).stallOver = true ∧ (stalled 1 100000).chainStarved (chain2 true [1, 2]) = false ∧
    (stalled 2048 100000).stallOver = true ∧ (stalled 2048 100000).chains = [chain2 true [1, 2]] ∧
    (stalled 2048 100000).chainStarved (chain2 true [1, 2]) = true ∧ (chain2 true [1, 2]).overflow = false ∧
    (stalled 2048 100000).linkTaken (chain2 true [1, 2]) 0 = 0 ∧ (chain2 true [1, 2]).ring = [] ∧
    ((stalled 2048 100000).resolve 0 0x280000 65536 true).toOption = some [(0x280000, 65536)] := by decide +kernel

theorem test_chains :
    ((after .chainAdmit (waiting 30)).chain? 0 1).map (fun c => c.admitted) = some true ∧
    ((after .chainAdmit (waiting 31)).chain? 0 1).map (fun c => c.admitted) = some false ∧
    (after .deadlockBreak (stalled 2048 100000)).counter (.control 2) = 1 ∧
    memAfter .deadlockBreak (stalled 2048 100000) 0x280000 2 = [1, 2] ∧
    ((after .deadlockBreak (stalled 2048 100000)).entryAt 2).map (fun e => e.notes) = some [Status.deadlockBroken] := by
  decide +kernel

/-- A NOP that signals fence counter 3, its outcome decided. -/
def doneNop : Entry := { cmd .nop [(0, 2 ^ 13), (10, 3)] with decided := true }

theorem witness_commandsComplete :
    (withCmd base doneNop).entry? 0 1 = some doneNop ∧ (withCmd base doneNop).ready.collar = true ∧
    doneNop.decided = true ∧ doneNop.state = .dispatched ∧ (withCmd base doneNop).flushPorts doneNop = [] ∧
    (withCmd base doneNop).hostReads = [] ∧ (withCmd base doneNop).statsRoom doneNop = true ∧
    (withCmd base doneNop).signalling < 256 ∧ (withCmd base doneNop).cqSlotOk 0 1 = true ∧
    pkSignalEn doneNop.packet = true ∧ ((withCmd base doneNop).ctx 0).hasFence (pkSignalCtr doneNop.packet) = true ∧
    (pkSignalCtr doneNop.packet, 0, 1) ∉ (withCmd base doneNop).journal.signals ∧
    Quiet (withCmd base doneNop) := by unfold Quiet; decide +kernel

/-- The record of SEQ 1 stands in slot 1 of the ring, and counter 3 has counted. -/
theorem test_commandComplete :
    (after (.commandComplete 0 1) (withCmd base doneNop)).fence 3 = 1 ∧
    ((after (.commandComplete 0 1) (withCmd base doneNop)).ctx 0).cqTail = 2 ∧
    ((after (.commandComplete 0 1) (withCmd base doneNop)).entryAt 0).map (fun e => e.state) = some .completed ∧
    fieldOf (memAfter (.commandComplete 0 1) (withCmd base doneNop) 0x110020 32) 0 6 = 1 + 2 ^ 40 := by decide +kernel

/-! The rows that need no core: one that is done, one that fails, one that waits, and members of a chain. -/

/-- A member of a chain whose producer failed, and one whose producer is at work. -/
def behind (broken : Option (BitVec 8 × Nat)) : State :=
  { base with
    chains := [{ chain2 true [] with broken := broken }]
    journal := { base.journal with entries := [lateNop], nextId := 3 } }
where lateNop : Entry :=
  { Entry.fresh 2 0 (packet .nop 1 []) [] 0 1 1 (some 1) false 0 true with state := .dispatched }

theorem witness_commandsEnd :
    opRow (.nop 0 1) = some (.nop, 0, 1, nopWork) ∧
    (behind none).runnable .nop 0 1 = some behind.lateNop ∧ (behind none).brokenFor behind.lateNop = none ∧
    (behind none).producerDone behind.lateNop = false ∧
    (behind (some (Status.malformed, 0))).runnable .nop 0 1 = some behind.lateNop ∧
    (behind (some (Status.malformed, 0))).brokenFor behind.lateNop = some Status.malformed := by
  refine ⟨rfl, ?_⟩; decide +kernel

theorem test_brokenChain :
    outcome (after (.nop 0 1) (behind (some (Status.malformed, 0)))) 2 = some (Status.malformed.toNat, 0) ∧
    outcome (after (.nop 0 1) (behind none)) 2 = none := by decide +kernel

/-- NOP, FENCE, SIGNAL, WAIT; a reserved bit set; a target not met. -/
def ctl (op : Op) (fs : List (Nat × Nat)) : State := withCmd base (cmd op fs)
theorem runs_nop : Runs (ctl .nop []) .nop 0 1 (cmd .nop []) ∧ (cmd .nop []).clean [] = true :=
  ⟨runs_of _ _ _ (by decide +kernel), by decide +kernel⟩
theorem runs_fence : Runs (ctl .fence []) .fence 0 1 (cmd .fence []) ∧
    ∀ x ∈ (ctl .fence []).entriesOf 0, x.id < (cmd .fence []).id → x.live = false :=
  ⟨runs_of _ _ _ (by decide +kernel), by decide +kernel⟩
/-- A FENCE behind an accepted NOP. -/
def fenceBehind : State :=
  { base with journal := { base.journal with entries := [{ acceptedNop [] with seq := 0 }, { cmd .fence [] with id := 1 }]
                                             nextId := 2 } }
theorem runs_fenceBehind : Runs fenceBehind .fence 0 1 { cmd .fence [] with id := 1 } ∧
    ∃ x ∈ fenceBehind.entriesOf 0, x.id < 1 ∧ x.live = true :=
  ⟨runs_of _ _ _ (by decide +kernel), by decide +kernel⟩
def signalFs : List (Nat × Nat) := [(0x10, 65535), (0x14, 7)]
theorem runs_signal : Runs (ctl .signal signalFs) .signal 0 1 (cmd .signal signalFs) ∧
    (cmd .signal signalFs).clean [(0x10, 0, 16), (0x14, 0, 32)] = true ∧
    ((ctl .signal signalFs).ctx 0).hasFence ((cmd .signal signalFs).field 0x10 2) = true :=
  ⟨runs_of _ _ _ (by decide +kernel), by decide +kernel⟩
def waitFs (k : Nat) : List (Nat × Nat) := [(0x10, 5), (0x18, k)]
theorem runs_wait : (∀ k ∈ [0, 1], Runs (ctl .wait (waitFs k)) .wait 0 1 (cmd .wait (waitFs k))) ∧
    (cmd .wait (waitFs 1)).clean [(0x10, 0, 16), (0x18, 0, 64)] = true ∧
    ((ctl .wait (waitFs 1)).ctx 0).hasFence 5 = true ∧
    ((ctl .wait (waitFs 1)).fence 5).toNat < (cmd .wait (waitFs 1)).field 0x18 8 ∧
    (cmd .wait (waitFs 0)).field 0x18 8 ≤ ((ctl .wait (waitFs 0)).fence 5).toNat := by
  refine ⟨?_, by decide +kernel⟩
  intro k hk
  simp only [List.mem_cons, List.not_mem_nil, or_false] at hk
  rcases hk with rfl | rfl <;> exact runs_of _ _ _ (by decide +kernel)
theorem test_control :
    outcome (after (.nop 0 1) (ctl .nop [])) 0 = some (0, 0) ∧
    outcome (after (.nop 0 1) (ctl .nop [(0x10, 1)])) 0 = some (Status.malformed.toNat, 0) ∧
    outcome (after (.fence 0 1) (ctl .fence [])) 0 = some (0, 0) ∧ outcome (after (.fence 0 1) fenceBehind) 1 = none ∧
    outcome (after (.signal 0 1) (ctl .signal signalFs)) 0 = some (0, 7) ∧
    outcome (after (.wait 0 1) (ctl .wait (waitFs 1))) 0 = none ∧
    outcome (after (.wait 0 1) (ctl .wait (waitFs 0))) 0 = some (0, 0) := by decide +kernel

/-- A CHAIN at work whose members have ended well, and one whose member has not ended. -/
def chainState (live : Bool) : State :=
  { stalled 1 0 with journal := { base.journal with
      entries := [{ chainHead with state := .dispatched },
        if live then member1 else { member1 with state := .completed, decided := true }], nextId := 3 } }
theorem runs_chain : (∀ live ∈ [true, false],
      Runs (chainState live) .chain 0 1 { chainHead with state := .dispatched }) ∧
    (∃ m ∈ (chainState true).entriesOf 0, m.member ≠ none ∧ m.chain = 1 ∧ 0 < m.id ∧ m.live = true) ∧
    ∀ m ∈ (chainState false).entriesOf 0, m.member ≠ none → m.live = false ∧ m.status = Status.ok := by
  refine ⟨?_, by decide +kernel⟩
  intro k hk
  simp only [List.mem_cons, List.not_mem_nil, or_false] at hk
  rcases hk with rfl | rfl <;> exact runs_of _ _ _ (by decide +kernel)
theorem test_chain : outcome (after (.chain 0 1) (chainState true)) 0 = none ∧
    outcome (after (.chain 0 1) (chainState false)) 0 = some (0, 0) := by decide +kernel

/-- VERSION_RELEASE of version 0, of which three references are kept: two are taken away. -/
def relFs : List (Nat × Nat) := [(0x10, 0x220000), (0x20, 2)]
def relS : State := { work .versionRelease relFs (param []) with retained := [(VRef.mk 0 0x220000 0, 3)] }
theorem runs_versionRelease : Runs relS .versionRelease 0 1 (cmd .versionRelease relFs) ∧
    (cmd .versionRelease relFs).clean [(0x10, 0, 64), (0x18, 0, 64), (0x20, 0, 16)] = true ∧
    (match relS.readVersion (cmd .versionRelease relFs) 0x220000 0 with
      | .slot _ r => decide (r = VRef.mk 0 0x220000 0) | _ => false) = true ∧
    relS.sealIssues 0 [] [] (relS.structRuns (cmd .versionRelease relFs)) = [] :=
  ⟨runs_of _ _ _ (by decide +kernel), by decide +kernel⟩
theorem test_versionRelease : outcome (after (.versionRelease 0 1) relS) 0 = some (0, 1) := by decide +kernel

/-! ## Contexts -/

/-- An attribute block of context 5, and the page table that maps its first 2 MiB to 0x400000 (R242, R304). -/
def attr : Bytes := lay 128 [(0, 0x10000), (8, 0x20000), (0x10, 64), (0x14, 64), (0x18, 5), (0x1C, 65536), (0x20, 65535),
  (0x24, 1), (0x28, 1), (0x38, 255), (0x3A, 16384), (0x3C, 0xFFFE), (0x68, 0x300000)]
def table5 : List (Nat × Bytes) :=
  [(0x300000, leBytes 8 0x301001), (0x301000, leBytes 8 0x302001), (0x302000, leBytes 8 0x400007)]
def openFs : List (Nat × Nat) := [(0x10, 5), (0x18, 0x200000)]
def openS : State :=
  let s := work .contextOpen openFs ([(0x200000, attr)] ++ table5)
  { s with journal := { s.journal with enable := true } }

theorem runs_contextOpen : Runs openS .contextOpen 0 1 (cmd .contextOpen openFs) ∧
    (cmd .contextOpen openFs).clean [(0x10, 0, 10), (0x18, 0, 64)] = true ∧ (openS.ctx 5).state = .closed ∧
    openS.journal.enable = true ∧ ((openS.asRead (cmd .contextOpen openFs)).readStruct 0 0x200000 128 64).toOption = some attr ∧ attrOk attr = true ∧
    (openS.openedCtx 5 attr).1 = [] := ⟨runs_of _ _ _ (by decide +kernel), by decide +kernel⟩
theorem test_contextOpen : outcome (after (.contextOpen 0 1) openS) 0 = some (0, 5) ∧
    ((after (.contextOpen 0 1) openS).ctx 5).state = .opened ∧
    ((after (.contextOpen 0 1) openS).ctx 5).acceptSeq = 4 ∧
    ((after (.contextOpen 0 1) openS).ctx 5).sq.pages = [0x41] := by decide +kernel

/-- Context 5 open, with two dispatched commands, one sealed page, a stream, a reservation; closed or stopped by
context 0. -/
def five : Ctx := { Ctx.init with state := .opened, inflight := 64, fenceN := 8, placement := 1, endpoint := 7 }
def held (k : Nat) (op : Op) : Entry := { cmd op [] with id := k, ctx := 5, seq := BitVec.ofNat 32 k }
def withFive (op : Op) (fs : List (Nat × Nat)) (c : Ctx) (es : List Entry) : State :=
  { base with
    ctxs := [(0, ctxZero), (5, c)]
    mem := [(3 * 65536 + 9, 1)]
    lining := { base.lining with seals := [Seal.mk 0 5 7 9 false [3] none] }
    belt := { base.belt with resv := [some (Reservation.mk 5 48 10), none, none, none] }
    journal := { base.journal with entries := es ++ [{ cmd op fs with id := 9 }], nextId := 10 } }
def closeS : State := withFive .contextClose [(0x10, 5)] five [held 3 .nop, held 4 .nop]
/-- The close has begun, by the command of some SEQ; commands with an outcome have their records to come. -/
def endingS (q : W32) (es : List Entry) : State :=
  withFive .contextClose [(0x10, 5)] { five with state := .closing, closing := some (q, 2) } es
theorem runs_contextClose :
    Runs closeS .contextClose 0 1 { cmd .contextClose [(0x10, 5)] with id := 9 } ∧
    Runs (withFive .contextClose [(0x10, 6)] five []) .contextClose 0 1 { cmd .contextClose [(0x10, 6)] with id := 9 } ∧
    Runs (endingS 0 []) .contextClose 0 1 { cmd .contextClose [(0x10, 5)] with id := 9 } ∧
    Runs (endingS 1 []) .contextClose 0 1 { cmd .contextClose [(0x10, 5)] with id := 9 } ∧
    Runs (endingS 1 [{ held 3 .nop with decided := true }]) .contextClose 0 1
      { cmd .contextClose [(0x10, 5)] with id := 9 } ∧
    ((endingS 0 []).ctx 5).state = .closing ∧ ((endingS 0 []).ctx 5).closing = some (0, 2) ∧
    ((endingS 1 []).ctx 5).closing = some (1, 2) ∧
    (endingS 1 []).stillEnding 5 = false ∧ (endingS 1 [{ held 3 .nop with decided := true }]).stillEnding 5 = true ∧
    (cmd .contextClose [(0x10, 5)]).clean [(0x10, 0, 10)] = true ∧ (closeS.ctx 5).state ≠ .closed ∧
    (closeS.ctx 5).state ≠ .closing ∧ (closeS.ctx 6).state = .closed ∧ Quiet (endingS 1 []) ∧
    ∃ x ∈ (endingS 1 []).lining.seals, x.ctx = 5 :=
  ⟨runs_of _ _ _ (by decide +kernel), runs_of _ _ _ (by decide +kernel), runs_of _ _ _ (by decide +kernel),
    runs_of _ _ _ (by decide +kernel), runs_of _ _ _ (by decide +kernel), by unfold Quiet; decide +kernel⟩
theorem test_contextClose :
    ((after (.contextClose 0 1) closeS).ctx 5).state = .closing ∧
    ((after (.contextClose 0 1) closeS).ctx 5).closing = some (1, 2) ∧
    outcome (after (.contextClose 0 1) closeS) 9 = none ∧
    outcome (after (.contextClose 0 1) (endingS 1 [{ held 3 .nop with decided := true }])) 9 = none := by decide +kernel
theorem test_contextCloseEnds : outcome (after (.contextClose 0 1) (endingS 1 [])) 9 = some (0, 2) ∧
    ((after (.contextClose 0 1) (endingS 1 [])).ctx 5).state = .closed ∧ (after (.contextClose 0 1) (endingS 1 [])).mem = [] ∧
    (after (.contextClose 0 1) (endingS 1 [])).belt.resvOf 5 = none := by decide +kernel

def stopFs : List (Nat × Nat) := [(0x10, 5)]
def resumeFs : List (Nat × Nat) := [(0x10, 5), (0x12, 1)]
def stopS : State := withFive .preempt stopFs five [held 3 .copy, held 4 .vecOp]
def busyS : State := withFive .preempt stopFs five [held 3 .contextOpen]
def resumeS : State := withFive .preempt resumeFs { five with state := .preempted } []
theorem runs_preempt :
    Runs stopS .preempt 0 1 { cmd .preempt stopFs with id := 9 } ∧
    Runs busyS .preempt 0 1 { cmd .preempt stopFs with id := 9 } ∧
    Runs resumeS .preempt 0 1 { cmd .preempt resumeFs with id := 9 } ∧
    (cmd .preempt resumeFs).clean [(0x10, 0, 10), (0x12, 0, 1)] = true ∧ five.stopping = none ∧
    (stopS.ctx 5).state = .opened ∧
    (∀ x ∈ (stopS.entriesOf 5).filter Entry.inWork, x.exempt = false ∧ x.working = false) ∧
    (stopS.entriesOf 5).filter Entry.inWork ≠ [] :=
  ⟨runs_of _ _ _ (by decide +kernel), runs_of _ _ _ (by decide +kernel), runs_of _ _ _ (by decide +kernel),
    by decide +kernel⟩
theorem test_preempt : outcome (after (.preempt 0 1 []) stopS) 9 = some (0, 2) ∧
    ((after (.preempt 0 1 []) stopS).ctx 5).state = .preempted ∧
    ((after (.preempt 0 1 []) stopS).entryAt 4).map (fun e => e.state) = some .stopped ∧
    ((after (.preempt 0 1 []) resumeS).ctx 5).state = .opened := by decide +kernel

/-- A RELU of context 5 at work on core 0, its save area in page 80, its addresses mapped by the table above; it can
stop before its first row. -/
def relu5 : Entry := { cmd .vecOp [(0x10, 5), (0x18, 0x1000), (0x30, 0x1040)] with
  id := 3, ctx := 5, seq := 3, working := true }
def haltS : State :=
  let s := withFive .preempt stopFs { five with translation := 0x300000, save := some (Region.mk 0 65536 [80] false 0x100000) }
    [relu5]
  { s with
    mem := memOf (table5 ++ [(0x401000, tdesc 0x2000 1 2 7 []), (0x401040, tdesc 0x3000 1 2 7 []), (0x402000, bf [0x3F80])])
    cores := [(0, { CoreUnit.init with queues := [QueueHold.mk 5 3 2 0 0] })] }
theorem runs_preemptStops : Runs haltS .preempt 0 1 { cmd .preempt stopFs with id := 9 } ∧
    (haltS.entriesOf 5).filter Entry.inWork = [relu5] ∧ (haltS.ctx 5).state = .opened ∧ (haltS.ctx 5).stopping = none ∧
    (match haltS.haltOf [(3, 0, 0)] relu5 with | .stops _ _ v => v == Saved.mk [(0, 0)] 0 64 | _ => false) = true :=
  ⟨runs_of _ _ _ (by decide +kernel), by decide +kernel⟩
theorem test_preemptStops : outcome (after (.preempt 0 1 [(3, 0, 0)]) haltS) 9 = some (0, 1) ∧
    ((after (.preempt 0 1 [(3, 0, 0)]) haltS).entryAt 3).map (fun e => e.state) = some .stopped ∧
    ((after (.preempt 0 1 [(3, 0, 0)]) haltS).ctx 5).saveUsed = 64 ∧
    ((after (.preempt 0 1 [(3, 0, 1)]) haltS).entryAt 3).map (fun e => e.state) = some .dispatched := by decide +kernel

/-! ## Data commands that do not complete, and faults -/

/-- A VEC_OP whose operand descriptor is missing. -/
def badFs : List (Nat × Nat) := [(0x10, 1)]
theorem runs_vecOpBad : Runs (work .vecOp badFs []) .vecOp 0 1 (cmd .vecOp badFs) ∧
    (work .vecOp badFs []).mayWork .vecOp (cmd .vecOp badFs) = true ∧
    (match vecOpPlan ((work .vecOp badFs []).viewFor (cmd .vecOp badFs)) (cmd .vecOp badFs) with
      | .fail _ => true | _ => false) = true ∧
    ({ work .vecOp badFs [] with belt := { base.belt with trip := true } } : State).mayWork .vecOp (cmd .vecOp badFs)
      = false := ⟨runs_of _ _ _ (by decide +kernel), by decide +kernel⟩

/-- A GATHER whose second index is beyond the table. -/
def farRows : List (Nat × Bytes) := rows2 ++ [(tAt 2 + 4, f32 [2])]
theorem runs_gatherFar : Runs (work .gather gatherFs farRows) .gather 0 1 (cmd .gather gatherFs) ∧
    (match gatherPlan ((work .gather gatherFs farRows).viewFor (cmd .gather gatherFs)) (cmd .gather gatherFs) with
      | .refuse _ => true | _ => false) = true := ⟨runs_of _ _ _ (by decide +kernel), by decide +kernel⟩

/-- An UPDATE whose parameter has no free slot: the others hold versions that other commands keep (R177). -/
def fullS : State :=
  let s := withCmd (work .update updFs (param [(0x18, 0), (0x88, 1), (0x90, 0x10), (0xA8, 2), (0xB0, 0x10)] ++ updMem))
    (withLiterals (cmd .update updFs))
  { s with retained := [(VRef.mk 0 0x220000 0, 1), (VRef.mk 0 0x220000 1, 1), (VRef.mk 0 0x220000 2, 1)] }
theorem runs_updateFull : Runs fullS .update 0 1 (withLiterals (cmd .update updFs)) ∧
    fullS.mayWork .update (withLiterals (cmd .update updFs)) = true ∧
    (match updatePlan (fullS.viewFor (withLiterals (cmd .update updFs))) (withLiterals (cmd .update updFs)) with
      | .hold _ => true | _ => false) = true := ⟨runs_of _ _ _ (by decide +kernel), by decide +kernel⟩

theorem test_dataFails :
    outcome (after (.vecOp 0 1 []) (work .vecOp badFs [])) 0 = some (Status.malformed.toNat, 0) ∧
    outcome (after (.gather 0 1 []) (work .gather gatherFs farRows)) 0 = some (Status.outOfBounds.toNat, 0) ∧
    memAfter (.gather 0 1 []) (work .gather gatherFs farRows) (tAt 1) 6 = zeroBytes 6 ∧
    outcome (after (.update 0 1 [] []) fullS) 0 = none := by decide +kernel

/-- The addition of `addS` on cores 0 and 1, so that one is left when the other goes; at its start, and at its second fault
on core 0. -/
def retried (n : Nat) : Entry := { cmd .vecOp addFs with faultCore := some 0, faults := 1, retirements := n }
def onTwo (cores : BitVec 128) (e : Entry) : State :=
  { withCmd addS e with
    ctxs := [(0, { ctxZero with placement := cores })]
    cores := [0, 1].map (fun k => (k, { CoreUnit.init with queues := [QueueHold.mk 0 1 1 0 0] })) }
def twoCores : State := onTwo 3 (cmd .vecOp addFs)
theorem works_twoCores : ∃ d, Works twoCores (.vecOp 0 1 [.memory 0]) (cmd .vecOp addFs) d :=
  works_of _ .vecOp vecOpPlan _ _ rfl (by decide +kernel)
theorem works_second : ∀ n ∈ [0, 2], ∃ d, Works (onTwo 3 (retried n)) (.vecOp 0 1 [.memory 0]) (retried n) d := by
  intro n hn
  refine works_of _ .vecOp vecOpPlan _ _ rfl ?_
  revert n; decide +kernel
theorem witness_faults : (∀ d : Delta, d.charged [.memory 0] = [(.ecc, 0)]) ∧
    twoCores.corePresent 0 = true ∧ 0 ∈ twoCores.queueCores (cmd .vecOp addFs) ∧ (cmd .vecOp addFs).faultCore = none ∧
    (cmd .vecOp addFs).faults = 0 ∧ 0 ∈ (onTwo 3 (retried 0)).queueCores (retried 0) ∧ (retried 0).faultCore = some 0 ∧
    (retried 0).faults = 1 ∧ (retried 0).retirements < 2 ∧ 2 ≤ (retried 2).retirements ∧
    (∃ c ∈ twoCores.placed 0, c ≠ 0) ∧ (∀ c ∈ addS.placed 0, c = 0) ∧
    0 ∈ safeS.queueCores (cmd .mmSafe safeFs) := by refine ⟨fun _ => rfl, ?_⟩; decide +kernel
/-- Retried; retired with a core left, and with none left; a third retirement (R366, R368). -/
theorem test_faults :
    outcome (after (.vecOp 0 1 [.memory 0]) twoCores) 0 = none ∧
    ((after (.vecOp 0 1 [.memory 0]) twoCores).entryAt 0).map (fun e => (e.notes, e.faults)) =
      some ([Status.faultRetried], 1) ∧
    outcome (after (.vecOp 0 1 [.memory 0]) (onTwo 3 (retried 0))) 0 = none ∧
    (after (.vecOp 0 1 [.memory 0]) (onTwo 3 (retried 0))).corePresent 0 = false ∧
    outcome (after (.vecOp 0 1 [.memory 0]) (onTwo 1 (retried 0))) 0 = some (Status.unitAbsent.toNat, 0) ∧
    outcome (after (.vecOp 0 1 [.memory 0]) (onTwo 3 (retried 2))) 0 = some (Status.unitAbsent.toNat, 0) ∧
    (after (.vecOp 0 1 [.memory 0]) (onTwo 3 (retried 2))).corePresent 0 = true := by decide +kernel
/-- The first welt check of a product sees its result, 11, or something else (R363, R364). -/
theorem test_welt :
    (match mmFwdPlan (fwdS.viewFor (cmd .mmFwd [(0x10, ops)])) (cmd .mmFwd [(0x10, ops)]) with
      | .done d => d.charged [.welt 0 0x41300000] == [] && d.charged [.welt 0 0x41400000] == [(.welt, 0)]
      | _ => false) = true := by decide +kernel
/-- Statistics of ones: three row sums, each 1. A Gusset sees 2 in the first: the work runs again, then the Gusset goes
(R372). -/
def rowOff : List GussetFault := [GussetFault.mk 0 0 0x4000000000000000]
def preOnes : State := work .precondFactor preFs
  (paramOf 0 [(0x2C, 2), (0x40, 0x226000), (0x50, 0x227000), (0x58, 0x228000)] ++
   [(0x227000, f32 (List.replicate 16 0x3F800000)), (0x226000, f32 (List.replicate 16 0x3F800000))])
def preAgain : State := preOnes.setSleeve 0 { preOnes.sleeve 0 with gussetCharge := some (0, 1, 1) }
theorem witness_gussetFaults : (∀ s ∈ [preOnes, preAgain],
      (match precondPlan (s.viewFor (cmd .precondFactor preFs)) (cmd .precondFactor preFs) with
        | .done d => s.gussetFails 0 d rowOff == [0] && s.commitRoom (cmd .precondFactor preFs) d | _ => false) = true) ∧
    (preOnes.sleeve 0).gussetCharge = none ∧ (preAgain.sleeve 0).gussetCharge = some (0, 1, 1) ∧
    preOnes.caps.gusset.getLsbD 0 = true ∧ preAgain.shapeOk ∧ preOnes.shapeOk := by unfold State.shapeOk; decide +kernel
theorem test_gussetFaults :
    (after (.precondFactor 0 1 [] rowOff) preOnes).caps.gusset.getLsbD 0 = true ∧
    ((after (.precondFactor 0 1 [] rowOff) preOnes).sleeve 0).gussetCharge = some (0, 1, 1) ∧
    (after (.precondFactor 0 1 [] rowOff) preAgain).caps.gusset.getLsbD 0 = false ∧
    outcome (after (.precondFactor 0 1 [] rowOff) preAgain) 0 = some (Status.unitAbsent.toNat, 0) := by decide +kernel

/-! ## Numbers -/

/-- The largest finite code of each format is finite, and a value between two codes. -/
theorem witness_conversions : 0x7F7F < 2 ^ fmtWidth .bf16 ∧ (fmtVal .bf16 0x7F7F).finite = true ∧
    0x7E < 2 ^ fmtWidth .fp8e4m3 ∧ (fmtVal .fp8e4m3 0x7E).finite = true ∧ 0x80 < 2 ^ fmtWidth .int8 ∧
    (fmtVal .int8 0x80).finite = true ∧ (fmtVal .binary32 0x7F7FFFFF).finite = true ∧ (-1074 : Int) ≤ -10 := by decide +kernel
theorem test_conversions :
    (convert .bf16 (.num false 0x1008 (-12))).code = 0x3F80 ∧ (convert .int8 (.num true 400 0)).code = 0x80 ∧
    (convert .fp8e4m3 (.num false 1000 0)).code = 0x7E ∧ (convert .int8 (.num false 5 (-1))).code = 3 := by decide +kernel
theorem witness_products : 0xF < 16 ^ 1 ∧ fmtPleat .int4 = 1 ∧ fmtPleat .fp4e2m1 = 1 ∧
    (fmtVal .fp4e2m1 7).finite = true ∧ (fmtVal .fp4e2m1 7).isZero = false ∧ (fmtVal .int4 8).isZero = false ∧
    ([valOfInt 3, valOfInt 4] : List Val).length = ([valOfInt 5, valOfInt 6] : List Val).length := by decide +kernel
theorem test_products : sliceProduct 2 0xAB 0xCD = 0xAB * 0xCD ∧
    productTerms 1 (fmtVal .fp4e2m1 7) (fmtVal .int4 8) = [0xC2400000] := by decide +kernel

/-! MovesMoveBytes: `copyS`, `pocketRS` and the Pocket write above, from a source too. -/
def pocketSFs : List (Nat × Nat) := [(0x10, 0x200000), (0x18, 0x210000), (0x20, 256)]
def pocketSS : State := work .pocketWrite pocketSFs [(0x210000, List.replicate 256 5)]
theorem witness_moves :
    ((copyS.viewFor (cmd .copy copyFs)).resolve 0 0x20FFFF 65 false).toOption = some [(0x20FFFF, 1), (0x210000, 64)] ∧
    ((copyS.viewFor (cmd .copy copyFs)).resolve 0 0x300000 65 true).toOption = some [(0x300000, 65)] ∧
    (copyS.viewFor (cmd .copy copyFs)).sealIssues 0 [(0x20FFFF, 1), (0x210000, 64)] [(0x300000, 65)] [] = [] ∧
    (cmd .copy copyFs).member = none ∧ (copyS.ctx 0).bounce = none ∧ Quiet copyS ∧
    (cmd .pocketWrite pocketFs).pocketLen = 3 ∧ (cmd .pocketWrite pocketSFs).pocketLen = 256 ∧
    ((pocketSS.viewFor (cmd .pocketWrite pocketSFs)).resolve 0 0x210000 256 false).toOption = some [(0x210000, 256)] ∧
    pocketSS.runnable .pocketWrite 0 1 = some (cmd .pocketWrite pocketSFs) ∧
    pocketRS.runnable .pocketRead 0 1 = some (cmd .pocketRead pocketRFs) ∧
    ((pocketRS.viewFor (cmd .pocketRead pocketRFs)).resolve 0 0x200000 3 false).toOption = some [(0x200000, 3)] ∧
    (pocketRS.viewFor (cmd .pocketRead pocketRFs)).anySealed [(0x200000, 3)] = false := by unfold Quiet; decide +kernel


/-! ## Registers and rights -/

/-- The ends of the range of the cap, and a metering interval that ends (R344). -/
theorem witness_powerCap : InstallerMay ruled installer ∧ (100#32).setWidth 16 = (100#16) ∧
    100 ≤ ruled.belt.susMax.toNat ∧ ruled.belt.susMax.toNat < 0xFFFF ∧
    (after (.beltPowerCapWrite installer 100) { ruled with tb := { base.tb with now := 10000 } }).inReset = false ∧
    ruled.belt.lastInterval < 10000 / 10000 * 10000 := by unfold InstallerMay; decide +kernel
theorem test_powerCap :
    (after (.beltPowerCapWrite installer 100) ruled).belt.capNext = some 100 ∧
    (after (.beltPowerCapWrite installer 99) ruled).belt.cfgErr = true ∧
    (after (.beltPowerCapWrite (.seam 0 2 true) 100) ruled).belt.capNext = none ∧
    (after (.beltPowerCapWrite (.seam 0 2 true) 100) ruled).counter (.control 0) = 1 := by decide +kernel

/-- The ends of each range; a core at work that retires; journals that have a place and that have not. -/
def journalled : State :=
  { ruled with journal := { ruled.journal with base := 0x40000000, mirror := BitVec.ofNat 64 (3 * stackWindow) } }
def retiring : State :=
  { ruled with
    cores := [(5, { CoreUnit.init with queues := [QueueHold.mk 0 1 2 0 0] })]
    journal := { ruled.journal with entries := [cmd .vecOp []], nextId := 1 } }
theorem witness_installerWrites : InstallerMay ruled installer ∧ ruled.domainPresent 26 = true ∧
    ruled.domainPresent 0 = true ∧ ({ ruled with caps := { ruled.caps with stks := 0 } } : State).domainPresent 16 = false ∧ (0x500#16).toInt = 1280 ∧ (0xFFFF#16).toInt < 0 ∧ 1280 < (0x501#16).toInt ∧
    ruled.belt.gainMin.toNat ≤ (0x8000#16).toNat ∧ (0x8000#16).toNat ≤ ruled.belt.gainMax.toNat ∧
    ruled.belt.gainMax.toNat < 0xFFFF ∧ ruled.journal.enable = false ∧ InstallerMay journalled installer ∧
    journalled.journalPlace journalled.journal.base.toNat 0 = true ∧
    journalled.journalPlace journalled.journal.mirror.toNat 3 = true ∧
    ruled.journalPlace ruled.journal.mirror.toNat 3 = false ∧ InstallerMay retiring installer ∧
    retiring.corePresent (0x80000005 % 128) = true ∧
    (∀ e ∈ retiring.journal.entries, e.live = true ∧ e.decided = false ∧
      ∃ b ∈ (retiring.core 5).queues, b.ctx = e.ctx ∧ b.seq = e.seq) := by unfold InstallerMay; decide +kernel
theorem witness_shapeOk : ruled.shapeOk ∧ journalled.shapeOk ∧ base.shapeOk := by unfold State.shapeOk; decide +kernel
theorem test_installerWrites :
    (after (.colRetireReq installer 0x80000005) retiring).corePresent 5 = false ∧
    (after (.beltCoolantInWrite installer 1280) ruled).belt.coolant = 1280 ∧
    (after (.beltCoolantInWrite installer 1281) ruled).belt.cfgErr = true ∧
    (after (.linCtx0EpWrite installer 7) ruled).lining.ctx0Ep = 7 := by decide +kernel
theorem test_belts :
    (after (.beltCalWrite installer 3 0x8000) ruled).belt.calNext = [(3, 0x8000)] ∧
    (after (.tbLoadHiWrite installer 5) ruled).tb.loadPending = true ∧
    (after (.colJrnlCtlEnable installer 1) journalled).journal.state = 1 ∧
    (after (.colJrnlCtlEnable installer 1) ruled).journal.state = 0 := by decide +kernel

/-- The edges of the refused ranges, a full audit log, roles that are not held. -/
theorem witness_writesRefused :
    registerRow (.registerWrite installer 0x1FFC 0) = some (installer, 0x1FFC, 0) ∧
    registerRow (.colRetireReq .i3c 1) = some (.i3c, 0x020130, 1) ∧
    registerRow (.enrol .i3c 2) = some (.i3c, 0x300180, 2) ∧
    registerRow (.beltCalWrite installer 26 0) = some (installer, 0x200168, 0) ∧
    base.tryWrite .i3c 0x300180 2 = none ∧ ruled.tryWrite installer 0x080000 0 = none ∧
    ruled.tryWrite installer 0x1FFFFC 0 = none ∧ ruled.tryWrite installer 0x380000 0 = none ∧
    ruled.tryWrite installer 0x2009 0 = none ∧ base.latches = [] ∧
    (∀ x ∈ base.lining.sessions, x = none) := by decide +kernel
theorem witness_auditFull : ({ ruled with lining := { ruled.lining with
    audit := List.replicate 8192 (Audit.mk 1 1 1 0 0 0 0 0) } } : State).auditRoom = false ∧
    registerRow (.colRetireReq installer 0) = some (installer, 0x020130, 0) := by decide +kernel
theorem test_registerWrite :
    (after (.registerWrite installer 0x2008 7) ruled).tb.loadLo = 7 ∧
    (after (.registerWrite .i3c 0x300100 0xA5) base).lining.enrolBuf.take 4 = [0xA5, 0, 0, 0] ∧
    (after (.registerWrite .i3c 0x2008 7) base).counter (.control 0) = 1 := by decide +kernel

/-- Context 5 is endpoint 7's, an invalidation of it is at work and one of 6 waits; a command waits on loss record 2. -/
def owned : State :=
  { base with
    ctxs := [(0, ctxZero), (5, five)]
    cores := [(2, { CoreUnit.init with stage := [stage5, { stage5 with ctx := 6 }] })] }
where
  five : Ctx := { Ctx.init with state := .opened, endpoint := 7 }
  stage5 : Staged := Staged.mk 5 9 0 [] 1 none
def invalidating : State := { owned with collar := { owned.collar with xlateBusy := some 5, xlateNext := some 6 } }
def lost : State :=
  { ruled with journal := { ruled.journal with
      entries := [{ cmd .nop [] with state := .lostWait }], nextId := 1
      losses := [none, none, some (Loss.mk 0 0 0 0 1 1 [1])] } }
theorem witness_collarRegisters :
    owned.srcOwns (.seam 0 7 false) (5 % 1024) = true ∧ invalidating.srcOwns (.seam 0 7 false) 5 = true ∧
    invalidating.collar.xlateBusy = some 5 ∧ lost.srcHolds installer 1 = true ∧ Numbered lost ∧
    (lost.journal.losses.getD (2 % 4096) none).isSome = true ∧
    (∀ e ∈ lost.journal.entries, e.state = .lostWait) := by unfold Numbered; decide +kernel
/-- Rings of context 0 in stack 0, in use and not, with a doorbell held; and rings of a bad size. -/
def ctx0Regs (active : Bool) (entries : W32) : State :=
  { base with
    collar := { base.collar with
      ctx0Active := active, ctx0Sq := 0x100000, ctx0SqEntries := entries, ctx0Cq := 0x110000, ctx0CqEntries := 64 }
    ctxs := [(0, { Ctx.zero with sqTail := 3 })] }
theorem witness_ctx0Apply : ∀ active ∈ [true, false], (ctx0Regs active 64).lining.ctx0Latched = true ∧
    (ctx0Regs active 64).lining.ctx0Ep = 1 ∧ ringSize 64 64 65536 = true ∧ ringSize 63 64 65536 = false ∧
    ringSize 65536 64 65536 = true ∧ ringSize 131072 64 65536 = false ∧
    (ctx0Regs active 64).ringPlace 0x100000 (64 * 64) = true ∧ (ctx0Regs active 64).ringPlace 0x110000 (32 * 64) = true ∧
    (∀ e ∈ (ctx0Regs active 64).entriesOf 0, e.live = false) ∧
    (0 < ((ctx0Regs active 64).ctx 0).sqTail.toNat ∧ ((ctx0Regs active 64).ctx 0).sqTail.toNat ≤ 64) := by decide +kernel
theorem test_collarRegisters :
    ((after .xlateInvalDone invalidating).core 2).stage.map (fun b => b.ctx) = [6] ∧
    (after .xlateInvalDone invalidating).collar.xlateBusy = some 6 ∧
    (after (.colXlateInval (.seam 0 7 false) 5) owned).collar.xlateBusy = some 5 ∧
    ((after (.colLossClear installer 2) lost).entryAt 0).map (fun e => e.state) = some .accepted := by decide +kernel
theorem test_ctx0Apply :
    ((after (.colCtx0Apply installer 1) (ctx0Regs false 64)).ctx 0).sqTail = 3 ∧
    ((after (.colCtx0Apply installer 1) (ctx0Regs true 64)).ctx 0).sqTail = 0 ∧
    (after (.colCtx0Apply installer 1) (ctx0Regs false 63)).collar.ctx0CfgErr = true ∧
    (after (.colCtx0Apply (.seam 0 2 true) 1) (ctx0Regs false 64)).collar.ctx0Active = false := by decide +kernel

/-- The base point of P-384 is a key; 97 zero bytes are none (R418). -/
def keyG : Bytes := p384Bytes (p384Gx, p384Gy)
def enrolling (key : Bytes) : State :=
  { ruled with lining := { ruled.lining with
      enrolBuf := key ++ zeroBytes 31
      sessions := [some (Session.mk 1 0 1), some (Session.mk 2 3 1), some (Session.mk 2 4 1)] ++ List.replicate 13 none } }
theorem witness_keys :
    (∀ key ∈ [keyG, zeroBytes 97], (enrolling key).srcRole installer (enrolRole 0) = true ∧
      (enrolling key).srcRole installer (enrolRole 1) = true ∧
      (enrolling key).auditRoomFor ((enrolling key).enrolEntries 0 3 false) = true ∧
      (enrolling key).auditRoomFor ((enrolling key).enrolEntries 1 31 false) = true ∧
      (enrolling key).lining.enrolBuf.take 97 = key) ∧
    (p384Point keyG).isSome = true ∧ p384Point (zeroBytes 97) = none ∧ enrolSlots 0 = 16 ∧ 15 < enrolSlots 0 ∧
    enrolSlots 1 = 32 ∧ 31 < enrolSlots 1 ∧
    (0x10C#32).toNat % 4 = 0 ∧ (0x10C#32).toNat / 4 % 32 = 3 ∧ (0x10C#32).getLsbD 8 = true ∧
    (0x10C#32).getLsbD 7 = false ∧ (0x18C#32).getLsbD 7 = true ∧ (0x140#32).toNat / 4 % 32 = 16 := by decide +kernel
theorem test_enrol :
    (after (.enrol installer 0x10C) (enrolling keyG)).lining.opKeys.getD 3 none = some keyG ∧
    (after (.enrol installer 0x10C) (enrolling keyG)).lining.sessions.getD 1 none = none ∧
    (after (.enrol installer 0x10C) (enrolling (zeroBytes 97))).lining.enrolErr = true ∧
    (after (.enrol installer 0x140) (enrolling keyG)).lining.enrolErr = true := by decide +kernel
theorem test_enrolRemove :
    (after (.enrolRemove installer 0x18C) (after (.enrol installer 0x10C) (enrolling keyG))).lining.opKeys.getD 3 none =
      none := by decide +kernel

/-- A challenge of the installer's role that was made at 0, and the eighth failure of endpoint 1 at 0: each is gone
at the end of its time, and not one tick before (R396, R397). -/
def challenged (now : W64) : State :=
  { ruled with
    tb := { ruled.tb with now := now }
    lining := { ruled.lining with
      challenges := [Challenge.mk 1 1 (zeroBytes 128) 0 0], failures := [(1, 8, some 0)] } }
theorem test_challengeEnds :
    (after (.challengeExpiry 1 1) (challenged 60000000000)).lining.challenges = [] ∧
    (after (.challengeExpiry 1 1) (challenged 59999999999)).lining.challenges.length = 1 ∧
    (after (.authLockoutEnd 1) (challenged 1000000000)).lining.failures = [] ∧
    (after (.authLockoutEnd 1) (challenged 999999999)).lining.failures.length = 1 := by decide +kernel

/-! ## Rounds: the commands -/

/-- A round of two positions, this one position 0, over one tensor of two rows of two elements, as it stands in memory
(R189, R196). -/
def roundBytes : Bytes := lay 128 [(0, 0x24), (2, 2), (7, 64), (0xA, 1), (0x20, 100), (0x28, 0x10004), (0x2C, 0x10005),
  (0x40, 0x301000), (0x48, 0x302000), (0x58, 0x310000)]
def roundMem : List (Nat × Bytes) :=
  [(0x300000, roundBytes), (0x301000, lay 64 [(0, dAt 0), (0x10, 0x220000), (0x30, 2), (0x34, 2)]),
   (0x302000, lay 68 [(8, 2), (0x10, 2)]), (dAt 0, tdesc (tAt 0) 2 2 10 [(0x15, 1)]), (tAt 0, lay 64 [(0x18, 128)]),
   (tAt 0 + 64, f32 [0x3F800000, 0, 0x40000000, 0]), (tAt 0 + 128, f32 [0x3F800000, 0, 0x40000000, 0])] ++ param []
def round2 : RyDesc := RyDesc.parse roundBytes
def tensor2 : RyTensor := { RyTensor.parse (zeroBytes 64) with buffer := dAt 0, owner := 0x220000, rows := 2, cols := 2 }
def opened2 : RyGroup := RyGroup.fresh (cmd .ryRoundOpen []) round2 [tensor2] (lay 68 [(8, 2), (0x10, 2)]) [] 0 []
/-- A command of the round, in a machine with its memory. -/
def round (op : Op) (fs : List (Nat × Nat)) : State := work op fs roundMem
/-- The same, at work. -/
def roundOn (op : Op) (fs : List (Nat × Nat)) (g : RyGroup) : State :=
  withGroup (withCmd (round op fs) { cmd op fs with working := true }) g
def openRoundFs : List (Nat × Nat) := [(0x10, 0x300000)]
def groupFs : List (Nat × Nat) := [(0x10, 4)]
/-- A command of the round that was accepted after it, and the machine with it: before its work, and at work. -/
def partOf (op : Op) : Entry := { cmd op groupFs with id := 1 }
def roundWith (op : Op) (g : RyGroup) : State := withGroup (withCmd (round op groupFs) (partOf op)) g
def roundAt (op : Op) (g : RyGroup) : State :=
  withGroup (withCmd (round op groupFs) { partOf op with working := true }) g
/-- The round in each phase. -/
def inPhase (ph : RyPhase) (settled : Option Nat) : RyGroup :=
  { opened2 with phase := ph, settled := settled, given := 1, primary := some 1 }

theorem runs_ryRoundOpen : Runs (round .ryRoundOpen openRoundFs) .ryRoundOpen 0 1 (cmd .ryRoundOpen openRoundFs) ∧
    (cmd .ryRoundOpen openRoundFs).clean [(0x10, 0, 64)] = true ∧
    ((round .ryRoundOpen openRoundFs).roundDesc (cmd .ryRoundOpen openRoundFs)).toOption = some round2 ∧
    smGet? (round .ryRoundOpen openRoundFs).groups round2.group = none ∧
    ((round .ryRoundOpen openRoundFs).openRound (cmd .ryRoundOpen openRoundFs) round2).1 = [] :=
  ⟨runs_of _ _ _ (by decide +kernel), by decide +kernel⟩
theorem runs_ryRoundOpenOn : ∀ ph ∈ [RyPhase.ready, .data, .aborted],
    Runs (roundOn .ryRoundOpen openRoundFs (inPhase ph none)) .ryRoundOpen 0 1
      { cmd .ryRoundOpen openRoundFs with working := true } ∧
    ((roundOn .ryRoundOpen openRoundFs (inPhase ph none)).groups.find? (fun x => x.2.openId == 0)).map
      (fun x => x.2.phase) = some ph := by
  intro ph hp
  refine ⟨runs_of _ _ _ ?_, ?_⟩ <;> revert ph <;> decide +kernel
theorem test_ryRoundOpen :
    ((smGet? (after (.ryRoundOpen 0 1) (round .ryRoundOpen openRoundFs)).groups 4).map (fun g => (g.phase, g.isOpen))) =
      some (.ready, true) ∧
    outcome (after (.ryRoundOpen 0 1) (roundOn .ryRoundOpen openRoundFs (inPhase .ready none))) 0 = none ∧
    outcome (after (.ryRoundOpen 0 1) (roundOn .ryRoundOpen openRoundFs (inPhase .data none))) 0 = some (0, 2) ∧
    outcome (after (.ryRoundOpen 0 1) (roundOn .ryRoundOpen openRoundFs (inPhase .aborted none))) 0 =
      some (Status.roundAborted.toNat, 2) := by decide +kernel

theorem runs_ryContribute :
    Runs (roundWith .ryContribute opened2) .ryContribute 0 1 (partOf .ryContribute) ∧
    (let s := roundWith .ryContribute opened2
     let e := partOf .ryContribute
     let bs := s.ryBuffers e opened2.tensors RyTensor.buffer false
     e.clean [(0x10, 0, 5)] = true ∧ (e.field 0x10 1).testBit 4 = false ∧ s.openGroup e = some (4, opened2) ∧
     opened2.primary = none ∧ opened2.given.getLsbD 0 = false ∧ opened2.phase = .ready ∧ opened2.settled = none ∧
     s.bufferWait e (bs.map (fun b => b.head)) = false ∧ s.bufIssues e opened2.d.ports bs = [] ∧
     s.tb.now.toNat < opened2.d.deadline.toNat) := ⟨runs_of _ _ _ (by decide +kernel), by decide +kernel⟩
theorem runs_ryContributeOn : ∀ ph ∈ [RyPhase.ready, .data, .aborted],
    Runs (roundAt .ryContribute (inPhase ph (some 1))) .ryContribute 0 1
      { partOf .ryContribute with working := true } ∧
    (roundAt .ryContribute (inPhase ph (some 1))).openGroup { partOf .ryContribute with working := true } =
      some (4, inPhase ph (some 1)) ∧ (inPhase ph (some 1)).primary = some 1 := by
  intro ph hp
  refine ⟨runs_of _ _ _ ?_, ?_⟩ <;> revert ph <;> decide +kernel
theorem test_ryContribute :
    ((smGet? (after (.ryContribute 0 1) (roundWith .ryContribute opened2)).groups 4).map
      (fun g => (g.settled, g.primary))) = some (some 0, some 1) ∧
    outcome (after (.ryContribute 0 1) (roundAt .ryContribute (inPhase .data (some 0)))) 1 = some (0, 0) ∧
    outcome (after (.ryContribute 0 1) (roundAt .ryContribute (inPhase .data (some 1)))) 1 =
      some (Status.backupTaken.toNat, 1) ∧
    outcome (after (.ryContribute 0 1) (roundAt .ryContribute (inPhase .aborted none))) 1 =
      some (Status.roundAborted.toNat, 2) := by decide +kernel

/-- The same machines once the ports of the round have failed (R373). -/
def noPorts (s : State) : State := { s with caps := { s.caps with seam := 0 } }
theorem witness_portsFail :
    (∀ op ∈ [Op.ryRoundOpen, .ryContribute], (roundAt op (inPhase .ready none)).portGone round2.ports = false ∧
      (noPorts (roundAt op (inPhase .ready none))).portGone round2.ports = true) ∧
    Runs (noPorts (roundOn .ryRoundOpen openRoundFs (inPhase .ready none))) .ryRoundOpen 0 1
      { cmd .ryRoundOpen openRoundFs with working := true } ∧
    Runs (noPorts (roundAt .ryContribute (inPhase .ready none))) .ryContribute 0 1
      { partOf .ryContribute with working := true } ∧ (inPhase .ready none).isOpen = true :=
  ⟨by decide +kernel, runs_of _ _ _ (by decide +kernel), runs_of _ _ _ (by decide +kernel), by decide +kernel⟩
theorem test_portsFail :
    outcome (after (.ryRoundOpen 0 1) (noPorts (roundOn .ryRoundOpen openRoundFs (inPhase .ready none)))) 0 =
      some (Status.unitAbsent.toNat, 0) ∧
    outcome (after (.ryContribute 0 1) (noPorts (roundAt .ryContribute (inPhase .ready none)))) 1 =
      some (Status.unitAbsent.toNat, 0) := by decide +kernel

/-- Its hop and its owner at work: each done, and each not yet. -/
def hopAt (started : Nat) : RyGroup :=
  { inPhase .data (some 0) with hop := some 1, started := started, up := RyIn.mk 1 0 [] [], n := { opened2.n with escHere := 3 } }
def ownAt (k : Nat) : RyGroup :=
  { inPhase .data (some 0) with own := some 1, finals := List.replicate k (false, [5, 6]), ownBackup := true }
/-- Its replay window holds 256 blocks; and the round has been aborted. -/
def hopFull : RyGroup := { hopAt 0 with window := List.replicate 256 (0, 0, []) }
def hopGone : RyGroup := { hopAt 1 with phase := .aborted }
def ownGone : RyGroup := { ownAt 0 with phase := .aborted }
theorem runs_ryHop : ∀ g ∈ [hopAt 1, hopFull, hopGone],
    Runs (roundAt .ryHop g) .ryHop 0 1 { partOf .ryHop with working := true } ∧
    (roundAt .ryHop g).openGroup (partOf .ryHop) = some (4, g) ∧ g.hop = some 1 ∧ g.inbox = [] ∧ g.own = none := by
  intro g hg
  refine ⟨runs_of _ _ _ ?_, ?_⟩ <;> revert g <;> decide +kernel
theorem runs_ryOwn : ∀ g ∈ [ownAt 1, ownAt 0, ownGone],
    Runs (roundAt .ryOwn g) .ryOwn 0 1 { partOf .ryOwn with working := true } ∧
    (roundAt .ryOwn g).openGroup (partOf .ryOwn) = some (4, g) ∧ g.own = some 1 ∧ g.inbox = [] ∧ g.hop = none := by
  intro g hg
  refine ⟨runs_of _ _ _ ?_, ?_⟩ <;> revert g <;> decide +kernel
theorem witness_hopsEnd :
    (hopAt 1).started = (hopAt 1).count (hopAt 1).first ∧ hopFull.started < hopFull.count hopFull.first ∧
    256 ≤ hopFull.window.length ∧
    (match (hopAt 1).up.expects (hopAt 1).incoming with | none => true | some (j, _) => j == (hopAt 1).d.position) = true ∧
    (ownAt 1).finals.length = (ownAt 1).count (ownAt 1).d.position ∧
    (ownAt 0).finals.length ≠ (ownAt 0).count (ownAt 0).d.position ∧ (∀ x ∈ (ownAt 1).tensors, x.norm = 0) := by
  decide +kernel
theorem test_hopsEnd :
    outcome (after (.ryHop 0 1 []) (roundAt .ryHop (hopAt 1))) 1 = some (Status.escalated.toNat, 3) ∧
    outcome (after (.ryHop 0 1 []) (roundAt .ryHop hopFull)) 1 = none ∧
    outcome (after (.ryHop 0 1 []) (noPorts (roundAt .ryHop hopFull))) 1 = some (Status.unitAbsent.toNat, 0) ∧
    outcome (after (.ryOwn 0 1) (noPorts (roundAt .ryOwn (ownAt 0)))) 1 = some (Status.unitAbsent.toNat, 0) ∧
    outcome (after (.ryHop 0 1 []) (roundAt .ryHop hopGone)) 1 = some (Status.roundAborted.toNat, 0) ∧
    outcome (after (.ryOwn 0 1) (roundAt .ryOwn (ownAt 1))) 1 = some (Status.backupTaken.toNat, 0) ∧
    outcome (after (.ryOwn 0 1) (roundAt .ryOwn (ownAt 0))) 1 = none ∧
    outcome (after (.ryOwn 0 1) (roundAt .ryOwn ownGone)) 1 = some (Status.roundAborted.toNat, 0) := by decide +kernel

/-- RY_ROUND_CLOSE in the ready phase, and with all of its sums there. -/
def closing (g : RyGroup) : State := roundWith .ryRoundClose g
def closeDone (g : RyGroup) : Bool :=
  let s := closing g
  let e := partOf .ryRoundClose
  let u := if g.phase = .ready then s.abortRound 4 g 3 else s
  match roundClosePlan (u.viewFor e) e with | .done d => u.commitRoom e d | _ => false
theorem runs_ryRoundClose : ∀ g ∈ [opened2, ownAt 1],
    Runs (closing g) .ryRoundClose 0 1 (partOf .ryRoundClose) ∧
    (closing g).openGroup (partOf .ryRoundClose) = some (4, g) ∧ closeDone g = true := by
  intro g hg
  refine ⟨runs_of _ _ _ ?_, ?_⟩ <;> revert g <;> decide +kernel
theorem test_ryRoundClose :
    outcome (after (.ryRoundClose 0 1) (closing opened2)) 1 = some (Status.roundAborted.toNat, 0) ∧
    outcome (after (.ryRoundClose 0 1) (closing (ownAt 1))) 1 = some (Status.backupTaken.toNat, 0) ∧
    ((smGet? (after (.ryRoundClose 0 1) (closing (ownAt 1))).groups 4).map (fun g => g.isOpen)) = some false := by
  decide +kernel

/-- The parameter lap of the closed round: the header of shard 1 has come with its row and its two forecast bytes. -/
def closed2 : RyGroup := { inPhase .data (some 0) with isOpen := false, closeId := some 0 }
def lap2 : RyGroup :=
  { closed2 with recv := some 1, heads := [RyHead.mk 0 1 7 0 0 4 2 1 [9, 9]] }
def lapS (op : Op) (g : RyGroup) : State := withGroup (round op openRoundFs) g
def recvDone : Bool :=
  match ryParamRecvPlan ((lapS .ryParamRecv lap2).viewFor (cmd .ryParamRecv openRoundFs)) (cmd .ryParamRecv openRoundFs) with
  | .done d => (lapS .ryParamRecv lap2).commitRoom (cmd .ryParamRecv openRoundFs) d
  | _ => false
theorem runs_ryParamRecv : Runs (lapS .ryParamRecv lap2) .ryParamRecv 0 1 (cmd .ryParamRecv openRoundFs) ∧
    ((lapS .ryParamRecv lap2).lapBegin (cmd .ryParamRecv openRoundFs)).isNone = true ∧ recvDone = true :=
  ⟨runs_of _ _ _ (by decide +kernel), by decide +kernel⟩
theorem test_ryParamRecv : outcome (after (.ryParamRecv 0 1) (lapS .ryParamRecv lap2)) 0 = some (0, 0) ∧
    outcome (after (.ryParamRecv 0 1) (lapS .ryParamRecv { lap2 with heads := [] })) 0 = none ∧
    outcome (after (.ryParamRecv 0 1) (lapS .ryParamRecv { lap2 with heads := [RyHead.mk 0 1 7 8 0 4 2 1 [9, 9]] })) 0 =
      some (Status.roundAborted.toNat, 0) := by decide +kernel
theorem runs_ryParamSend : Runs (lapS .ryParamSend closed2) .ryParamSend 0 1 (cmd .ryParamSend openRoundFs) ∧
    (let s := lapS .ryParamSend closed2
     let e := cmd .ryParamSend openRoundFs
     (s.roundDesc e).toOption = some round2 ∧
     (match s.lapGroup e round2 with | some (.ok (4, g)) => decide (g = closed2) | _ => false) = true ∧
     (∀ x ∈ s.entriesOf 0, some x.chain = closed2.ownChain → False) ∧
     s.coreIssues 0 = [] ∧ s.portIssues [closed2.d.down.port] = [] ∧ (s.lapPending e closed2).1 = [] ∧
     (s.lapTensor e closed2 0 tensor2 (s.readRuns (s.lapPending e closed2).2) true).issues = [] ∧
     s.sealIssues 0 [] [] (s.structRuns e) = []) := ⟨runs_of _ _ _ (by decide +kernel), by decide +kernel⟩
theorem test_ryParamSend : outcome (after (.ryParamSend 0 1) (lapS .ryParamSend closed2)) 0 = some (0, 1) := by
  decide +kernel

/-! ## Recovery, firmware, sleeve faults -/

/-- A command that had dispatched and one that had not; the Collar stopped by a watchdog; an ATTEST at work. -/
def busy2 : State :=
  { base with journal := { base.journal with entries := [cmd .nop [], acceptedNop2, attest2], nextId := 3 } }
where
  acceptedNop2 : Entry := { Entry.fresh 1 0 (packet .nop 2 []) [] 0 1 1 none false 0 true with state := .accepted }
  attest2 : Entry := { cmd .attest [] with id := 2, seq := 3 }
def stopped2 : State := after (.collarSoftReset .watchdog) busy2
def committing2 : State := { stopped2 with boot := { stopped2.boot with commitBy := some (0, 1) } }
theorem witness_collarRecovers : Numbered busy2 ∧ busy2.ready.collar = true ∧ stopped2.ready.collar = false ∧
    Numbered stopped2 ∧ stopped2.inReset = false ∧ stopped2.pins.warmResetN = true ∧
    stopped2.boot.stage = .measuring ∧ stopped2.ready.lining = true ∧ stopped2.journalReady = true ∧
    committing2.journalReady = true ∧ committing2.boot.commitBy = some (0, 1) ∧
    (busy2.entryAt 0).map (fun e => (e.state, e.decided, e.dispatchedOnce, e.live)) =
      some (.dispatched, false, true, true) ∧ (busy2.entryAt 2).map (fun e => e.op) = some (some .attest) := by
  unfold Numbered; decide +kernel
theorem test_recovery :
    (stopped2.entryAt 0).map (fun e => e.replayed) = some true ∧
    (stopped2.entryAt 1).map (fun e => e.replayed) = some false ∧
    (after .recovery stopped2).ready.collar = true ∧ outcome (after .recovery stopped2) 0 = none ∧
    outcome (after .recovery stopped2) 2 = some (Status.notReady.toNat, 0) ∧
    outcome (after .recovery committing2) 0 = some (Status.wasReplayed.toNat, 0) := by decide +kernel

/-- FW_COMMIT with and without a staged image, REVERT, and one that has to wait. -/
def commitS (mode : Nat) (staged : Option Bytes) (es : List Entry) : State :=
  { base with
    boot := { base.boot with fwStaged := staged }
    journal := { base.journal with entries := es ++ [{ cmd .fwCommit [(0x10, mode)] with id := 2 }], nextId := 3 } }
theorem runs_fwCommit : ∀ m ∈ [0, 1], ∀ im ∈ [none, some [(7 : BitVec 8)]], ∀ es ∈ [[], [{ cmd .nop [] with seq := 0 }]],
    Runs (commitS m im es) .fwCommit 0 1 { cmd .fwCommit [(0x10, m)] with id := 2 } ∧
    (cmd .fwCommit [(0x10, m)]).clean [(0x10, 0, 1)] = true ∧ ((cmd .fwCommit [(0x10, m)]).field 0x10 1).testBit 0 = (m == 1) ∧
    ∀ x ∈ es, x ∈ (commitS m im es).entriesOf 0 ∧ x.id < 2 ∧ x.live = true := by
  intro m hm im hi es he
  refine ⟨runs_of _ _ _ ?_, ?_⟩ <;> revert es <;> revert im <;> revert m <;> decide +kernel
theorem test_fwCommit :
    outcome (after (.fwCommit 0 1) (commitS 0 none [])) 2 = some (Status.malformed.toNat, 0) ∧
    outcome (after (.fwCommit 0 1) (commitS 1 (some [7]) [])) 2 = some (0, 0) ∧
    (after (.fwCommit 0 1) (commitS 0 (some [7]) [])).boot.fwRunning = [7] ∧
    (after (.fwCommit 0 1) (commitS 0 (some [7]) [])).ready.collar = false := by decide +kernel

/-- A command at work on core 8, in sleeve 1, at its first and at its second fault; placed on sleeve 1 alone. -/
def onSleeve (hit : List (Nat × List Nat)) : State :=
  ({ base with
    ctxs := [(0, { ctxZero with placement := 0x100 })]
    cores := [(8, { CoreUnit.init with queues := [QueueHold.mk 0 1 4 0 0] })]
    journal := { base.journal with entries := [cmd .vecOp []], nextId := 1 } } : State).setSleeve 1
    { base.sleeve 1 with hit := hit }
theorem witness_sleevesFault : ∀ hit ∈ [[], [(0, [])]], (onSleeve hit).shapeOk ∧ Numbered (onSleeve hit) ∧
    (onSleeve hit).ready.collar = true ∧ (onSleeve hit).caps.sleeves.getLsbD 1 = true ∧
    ((onSleeve hit).atWorkOn 1).map (fun e => e.id) = [0] ∧ ((onSleeve hit).sleeve 1).hit = hit ∧
    (∀ c ∈ (onSleeve hit).placed 0, c / 8 = 1) ∧ (onSleeve hit).placed 0 ≠ [] := by
  unfold State.shapeOk Numbered; decide +kernel
/-- The same placed on cores 0 and 8. -/
def halfLeft : State := { onSleeve [(0, [])] with ctxs := [(0, { ctxZero with placement := 0x101 })] }
theorem witness_sleeveLeft : halfLeft.shapeOk ∧ Numbered halfLeft ∧ halfLeft.caps.sleeves.getLsbD 1 = true ∧
    (∃ e ∈ halfLeft.atWorkOn 1, ∃ h ∈ (halfLeft.sleeve 1).hit, h.1 = e.id) ∧
    ∀ e ∈ halfLeft.atWorkOn 1, e.op ≠ some .mmSafe ∧ ∃ c ∈ halfLeft.placed e.ctx, c / 8 ≠ 1 := by
  unfold State.shapeOk Numbered; decide +kernel
theorem test_sleeveFault :
    outcome (after (.sleeveFault 1 .fabricEcc) (onSleeve [])) 0 = none ∧
    ((after (.sleeveFault 1 .fabricEcc) (onSleeve [])).entryAt 0).map (fun e => e.notes) =
      some [Status.faultRetried] ∧
    outcome (after (.sleeveFault 1 .handshakeStall) (onSleeve [(0, [])])) 0 = some (Status.unitAbsent.toNat, 0) ∧
    (after (.sleeveFault 1 .handshakeStall) (onSleeve [(0, [])])).corePresent 15 = false := by decide +kernel

/-! ## Streams, energy -/

/-- A block list of one block of 4,096 bytes at 0x210000, at home on cores 0 and 8 (R276). -/
def blockList : List (Nat × Bytes) :=
  [(0x200000, lay 64 [(0, 1), (0x10, 0x101)]), (0x200040, lay 32 [(0, 0x210000), (8, 4096), (0xC, 1)])]
def twoHomes : State := { base with ctxs := [(0, { ctxZero with placement := 0x101, streamQuota := 1 })] }
def streamS (op : Op) (fs : List (Nat × Nat)) (xs : List Stream) : State :=
  withCmd { twoHomes with
    mem := memOf blockList
    ctxs := [(0, { ctxZero with placement := 0x101, streamQuota := 1, streams := xs })]
    cores := [0, 8].map (fun k => (k, { CoreUnit.init with queues := [QueueHold.mk 0 1 1 0 0] })) } (cmd op fs)
def stream3 : Stream := Stream.mk 3 0x200000 .stream 0 8 1024 0x101 [(0x210000, 4096, 1, 0)] 4096 0 0 3
def defineFs : List (Nat × Nat) := [(0x10, 3), (0x18, 0x200000)]
def releaseFs : List (Nat × Nat) := [(0x10, 3), (0x12, 1)]
theorem runs_streamDefine :
    Runs (streamS .streamDefine defineFs []) .streamDefine 0 1 (cmd .streamDefine defineFs) ∧
    Runs (streamS .streamDefine releaseFs [stream3]) .streamDefine 0 1 (cmd .streamDefine releaseFs) ∧
    (let s := streamS .streamDefine defineFs []
     let e := cmd .streamDefine defineFs
     e.clean [(0x10, 0, 16), (0x12, 0, 1), (0x18, 0, 64)] = true ∧ (e.field 0x12 1).testBit 0 = false ∧
     (s.ctx 0).stream? 3 = none ∧ s.sleeveIssues 0 = [] ∧
     ((s.asRead e).readStream 0 3 0x200000).toOption = some stream3 ∧
     s.sealIssues 0 [] [] (s.structRuns e) = [] ∧ ∀ k ∈ List.range 16,
       (s.ctx 0).streamsOn k < (s.ctx 0).streamQuota ∧ s.streamsOn k < 16384) ∧
    (let s := streamS .streamDefine releaseFs [stream3]
     let e := cmd .streamDefine releaseFs
     (e.field 0x12 1).testBit 0 = true ∧ e.field 0x18 8 = 0 ∧ (s.ctx 0).stream? 3 = some stream3 ∧ s.streamBusy e = false ∧
     s.sleeveIssues 0 = []) :=
  ⟨runs_of _ _ _ (by decide +kernel), runs_of _ _ _ (by decide +kernel), by decide +kernel⟩
/-- A RELEASE behind a PREFETCH of the stream that has not completed. -/
def releaseBehind : State :=
  { streamS .streamDefine releaseFs [stream3] with journal := { base.journal with
      entries := [{ cmd .prefetch [(0x10, 3)] with seq := 0 }, { cmd .streamDefine releaseFs with id := 1 }], nextId := 2 } }
theorem runs_releaseBehind : Runs releaseBehind .streamDefine 0 1 { cmd .streamDefine releaseFs with id := 1 } ∧
    releaseBehind.streamBusy { cmd .streamDefine releaseFs with id := 1 } = true :=
  ⟨runs_of _ _ _ (by decide +kernel), by decide +kernel⟩
theorem test_streamDefine : outcome (after (.streamDefine 0 1) (streamS .streamDefine defineFs [])) 0 = some (0, 3) ∧
    (((after (.streamDefine 0 1) (streamS .streamDefine defineFs [])).ctx 0).stream? 3) = some stream3 ∧
    (((after (.streamDefine 0 1) (streamS .streamDefine releaseFs [stream3])).ctx 0).stream? 3) = none ∧
    outcome (after (.streamDefine 0 1) releaseBehind) 1 = none := by decide +kernel

/-- A PREFETCH of the whole stream into level 0 and into level 1, and a MULTICAST to both cores. -/
def prefetchFs (level : Nat) : List (Nat × Nat) := [(0x10, 3), (0x12, level)]
def castFs : List (Nat × Nat) := [(0x10, 3), (0x18, 0x101)]
theorem runs_prefetch : (∀ k ∈ [0, 1],
      Runs (streamS .prefetch (prefetchFs k) [stream3]) .prefetch 0 1 (cmd .prefetch (prefetchFs k)) ∧
      (streamS .prefetch (prefetchFs k) [stream3]).mayWork .prefetch (cmd .prefetch (prefetchFs k)) = true ∧
      (streamS .prefetch (prefetchFs k) [stream3]).hasStarted .prefetch (cmd .prefetch (prefetchFs k)) = true) ∧
    ((streamS .prefetch (prefetchFs 0) [stream3]).fetchable 0 stream3 1 0).1 = [(0, [(0x210000, 4096)])] ∧
    (∀ k ∈ [0, 1], (streamS .prefetch (prefetchFs 0) [stream3]).inFlight k 0 [(0x210000, 4096)] = false) ∧
    (streamS .prefetch (prefetchFs 0) [stream3]).coreIssues 0 = [] := by
  refine ⟨?_, by decide +kernel⟩
  intro k hk
  refine ⟨runs_of _ _ _ ?_, ?_⟩ <;> revert k <;> decide +kernel
/-- The same with its queues still to be granted, and a VEC_OP so (R272). -/
def ungranted (s : State) : State := { s with cores := [] }
theorem witness_ungranted :
    Runs (ungranted (streamS .prefetch (prefetchFs 1) [stream3])) .prefetch 0 1 (cmd .prefetch (prefetchFs 1)) ∧
    (ungranted (streamS .prefetch (prefetchFs 1) [stream3])).hasStarted .prefetch (cmd .prefetch (prefetchFs 1)) = false ∧
    Runs (ungranted addS) .vecOp 0 1 (cmd .vecOp addFs) ∧ (ungranted addS).mayWork .vecOp (cmd .vecOp addFs) = true ∧
    (ungranted addS).hasStarted .vecOp (cmd .vecOp addFs) = false ∧
    (match vecOpPlan ((ungranted addS).viewFor (cmd .vecOp addFs)) (cmd .vecOp addFs) with | .done _ => true | _ => false) = true :=
  ⟨runs_of _ _ _ (by decide +kernel), by decide +kernel, runs_of _ _ _ (by decide +kernel), by decide +kernel⟩
theorem test_ungranted : outcome (after (.prefetch 0 1) (ungranted (streamS .prefetch (prefetchFs 1) [stream3]))) 0 = none ∧
    outcome (after (.vecOp 0 1 []) (ungranted addS)) 0 = none := by decide +kernel
theorem runs_multicast : Runs (streamS .multicast castFs [stream3]) .multicast 0 1 (cmd .multicast castFs) ∧
    (let s := streamS .multicast castFs [stream3]
     let e := cmd .multicast castFs
     e.clean [(0x10, 0, 16), (0x18, 0, 64), (0x20, 0, 64)] = true ∧ e.receivers = 0x101 ∧
     e.receivers &&& ~~~(s.ctx 0).placement = 0 ∧
     (∀ k ∈ coreList e.receivers, s.corePresent k = true ∧ s.coreReady k = true) ∧ s.mayWork .multicast e = true ∧
     s.hasStarted .multicast e = true) :=
  ⟨runs_of _ _ _ (by decide +kernel), by decide +kernel⟩
/-- One block into two sleeves; a receiver that detaches at block 8 of a stream that ends before it has not. -/
theorem test_fetches :
    outcome (after (.prefetch 0 1) (streamS .prefetch (prefetchFs 0) [stream3])) 0 = some (0, 2) ∧
    ((after (.prefetch 0 1) (streamS .prefetch (prefetchFs 1) [stream3])).ctx 0).streams.map (fun x => x.point1) = [1] ∧
    outcome (after (.multicast 0 1 [(8, 8)]) (streamS .multicast castFs [stream3])) 0 = some (0, 0) := by decide +kernel

/-- ENERGY_MARK: the begin of job 9, its end without and with members that have completed. -/
def job9 (n : Nat) : Job := Job.mk 9 1 none false Energy.zero n 0
def beginFs : List (Nat × Nat) := [(0x10, 9)]
def endFs : List (Nat × Nat) := [(0x10, 9), (0x14, 1)]
def markS (fs : List (Nat × Nat)) (js : List Job) : State :=
  { withCmd base (cmd .energyMark fs) with
    ctxs := [(0, { ctxZero with jobs := js })], belt := { base.belt with lastInterval := 1 } }
theorem runs_energyMark : Runs (markS beginFs []) .energyMark 0 1 (cmd .energyMark beginFs) ∧
    (∀ n ∈ [0, 1], Runs (markS endFs [job9 n]) .energyMark 0 1 (cmd .energyMark endFs)) ∧
    (cmd .energyMark endFs).clean [(0x10, 0, 32), (0x14, 0, 1)] = true ∧
    ((markS endFs [job9 1]).ctx 0).jobs.find? (fun j => j.id == 9) = some (job9 1) ∧
    (∀ x ∈ (markS endFs [job9 1]).entriesOf 0, ({ job9 1 with endSeq := some 1 } : Job).covers x.seq = false) ∧
    (job9 1).lastDone.toNat < (markS endFs [job9 1]).belt.lastInterval := by
  refine ⟨runs_of _ _ _ (by decide +kernel), ?_, by decide +kernel⟩
  intro n hn
  refine runs_of _ _ _ ?_
  revert n; decide +kernel
/-- A BEGIN with a command behind it that has completed already (R241). -/
def beginBehind : State :=
  { base with journal := { base.journal with
      entries := [cmd .energyMark beginFs, { cmd .nop [] with id := 1, seq := 2, state := .completed, decided := true }]
      nextId := 2 } }
theorem runs_beginBehind : Runs beginBehind .energyMark 0 1 (cmd .energyMark beginFs) ∧
    ∃ x ∈ beginBehind.entriesOf 0, (cmd .energyMark beginFs).id < x.id ∧ x.state = .completed :=
  ⟨runs_of _ _ _ (by decide +kernel), by decide +kernel⟩
theorem test_energyMark :
    ((after (.energyMark 0 1) (markS beginFs [])).ctx 0).jobs.map (fun j => j.id) = [9] ∧
    ((after (.energyMark 0 1) beginBehind).ctx 0).jobs.map (fun j => j.members) = [1] ∧
    ((after (.energyMark 0 1) (markS endFs [job9 1])).ctx 0).jobs.map (fun j => j.ended) = [true] := by decide +kernel

/-- POWER_RESERVE at the bound of half of the cap, and RELEASE. -/
def resvFs (w ramp : Nat) : List (Nat × Nat) := [(0x14, ramp), (0x18, w)]
def freeFs : List (Nat × Nat) := [(0x12, 1)]
theorem runs_powerReserve : Runs (withCmd base (cmd .powerReserve (resvFs 10 16))) .powerReserve 0 1 (cmd .powerReserve (resvFs 10 16)) ∧
    Runs (withCmd base (cmd .powerReserve freeFs)) .powerReserve 0 1 (cmd .powerReserve freeFs) ∧
    (cmd .powerReserve (resvFs 10 16)).clean [(0x10, 0, 10), (0x12, 0, 1), (0x14, 0, 7), (0x18, 0, 16)] = true ∧
    (base.ctx 0).state = .opened ∧ bitsOf ((cmd .powerReserve (resvFs 10 96)).field 0x14 1) 0 7 = 96 ∧
    2 * (base.belt.reserved + 10) ≤ base.belt.powerCap.toNat ∧ none ∈ base.belt.resv :=
  ⟨runs_of _ _ _ (by decide +kernel), runs_of _ _ _ (by decide +kernel), by decide +kernel⟩
theorem test_powerReserve :
    outcome (after (.powerReserve 0 1) (withCmd base (cmd .powerReserve (resvFs 10 16)))) 0 = some (0, 1) ∧
    (after (.powerReserve 0 1) (withCmd base (cmd .powerReserve (resvFs 10 16)))).belt.resvOf 0 = some (Reservation.mk 0 16 10) ∧
    (after (.powerReserve 0 1) (withCmd base (cmd .powerReserve (resvFs 10 0)))).belt.resvOf 0 = some (Reservation.mk 0 48 10) ∧
    outcome (after (.powerReserve 0 1) (withCmd base (cmd .powerReserve freeFs))) 0 = some (0, 0) := by decide +kernel

/-- RECEIPT_ISSUE of an ended job, at the end of a page of stack 0. -/
def receiptFs : List (Nat × Nat) := [(0x10, 1), (0x14, 9), (0x18, 0x20FF80), (0x20, 256)]
def receiptS : State :=
  { withCmd base (cmd .receiptIssue receiptFs) with ctxs := [(0, { ctxZero with jobs := [{ job9 1 with ended := true }] })] }
theorem runs_receiptIssue : Runs receiptS .receiptIssue 0 1 (cmd .receiptIssue receiptFs) ∧
    (cmd .receiptIssue receiptFs).clean [(0x10, 0, 1), (0x14, 0, 32), (0x18, 0, 64), (0x20, 0, 32)] = true ∧
    receiptS.ready.lining = true ∧
    (match receiptS.covered (cmd .receiptIssue receiptFs) true 9 with | .account k _ => decide (k = 1) | _ => false) = true ∧
    (receiptS.resolve 0 0x20FF80 256 true).toOption = some [(0x20FF80, 128), (0x210000, 128)] ∧
    receiptS.sealIssues 0 [] [(0x20FF80, 128), (0x210000, 128)] [] = [] ∧ (receiptS.ctx 0).bounce = none ∧ Quiet receiptS :=
  ⟨runs_of _ _ _ (by decide +kernel), by unfold Quiet; decide +kernel⟩

/-! ## Schedules and the governor -/

/-- An image of one slot, OFFSET 0, for SEQ 5, whose period is 0 (R327). -/
def image1 : Bytes := lay 80 [(0, 1), (4, 1), (8, 5), (0xC, 1)]
def loadFs : List (Nat × Nat) := [(0x10, 2), (0x18, 0x20FFC0), (0x20, 80)]
def loadS : State := work .schedLoad loadFs [(0x20FFC0, image1)]
theorem runs_schedLoad : Runs loadS .schedLoad 0 1 (cmd .schedLoad loadFs) ∧
    (cmd .schedLoad loadFs).clean [(0x10, 0, 8), (0x18, 0, 64), (0x20, 0, 64)] = true ∧ (loadS.ctx 0).armed = none ∧
    (loadS.resolve 0 0x20FFC0 80 false).toOption = some [(0x20FFC0, 64), (0x210000, 16)] ∧
    inStacks [(0x20FFC0, 64), (0x210000, 16)] = true ∧
    loadS.readRuns [(0x20FFC0, 64), (0x210000, 16)] = image1 ∧ schedHeadOk image1 0 = true ∧
    imageSlotsOk 1 0 (image1.drop 64) = true ∧ loadS.sealIssues 0 [] [] [(0x20FFC0, 64), (0x210000, 16)] = [] :=
  ⟨runs_of _ _ _ (by decide +kernel), by decide +kernel⟩
theorem test_schedLoad : outcome (after (.schedLoad 0 1) loadS) 0 = some (0, 1) ∧
    ((after (.schedLoad 0 1) loadS).ctx 0).schedules.map (fun x => (x.num, x.firstSeq, x.repeats)) = [(2, 5, 1)] := by
  decide +kernel

/-- That schedule loaded: ARM at the earliest START, and DISARM of one that is armed. -/
def sched2 : Schedule := Schedule.mk 2 0x20FFC0 80 1 5 1 0 0 (digest384 image1)
def armFs (start : Nat) : List (Nat × Nat) := [(0x10, 2), (0x18, start)]
def disarmFs : List (Nat × Nat) := [(0x10, 2), (0x11, 1)]
def armS (fs : List (Nat × Nat)) (a : Option Armed) : State :=
  { work .schedArm fs [(0x20FFC0, image1)] with ctxs := [(0, { ctxZero with schedules := [sched2], armed := a })] }
theorem runs_schedArm : Runs (armS (armFs 10000) none) .schedArm 0 1 (cmd .schedArm (armFs 10000)) ∧
    (∀ a ∈ [none, some (Armed.mk 2 10000 0)], Runs (armS disarmFs a) .schedArm 0 1 (cmd .schedArm disarmFs)) ∧
    (cmd .schedArm (armFs 10000)).clean [(0x10, 0, 8), (0x11, 0, 1), (0x18, 0, 64)] = true ∧
    ((armS (armFs 10000) none).ctx 0).schedules.find? (fun x => x.num == 2) = some sched2 ∧
    (cmd .schedArm (armFs 10000)).tStarted = some 0 ∧ (sched2.firstSeq - 1).toNat = 4 ∧
    ((armS disarmFs (some (Armed.mk 2 10000 0))).ctx 0).armedSched = some (Armed.mk 2 10000 0, sched2) ∧
    (armS disarmFs none).govSettled (cmd .schedArm disarmFs) = true ∧ (armS disarmFs none).pendingRoom 0 = true := by
  refine ⟨runs_of _ _ _ (by decide +kernel), ?_, by decide +kernel⟩
  intro a ha
  refine runs_of _ _ _ ?_
  revert a; decide +kernel
theorem test_schedArm : outcome (after (.schedArm 0 1) (armS (armFs 10000) none)) 0 = some (0, 0) ∧
    outcome (after (.schedArm 0 1) (armS (armFs 9999) none)) 0 = some (Status.malformed.toNat, 0) ∧
    ((after (.schedArm 0 1) (armS disarmFs (some (Armed.mk 2 10000 0)))).ctx 0).armed = none := by decide +kernel

/-- A governed context with a ledger of its own. -/
def governed (ls : List Ladder) : Ctx :=
  { ctxZero with
    lastLadders := ls, gov := some (Region.mk 0 33554432 ((List.range 512).map (fun i => 64 + i)) false 0x400000)
    ledger := some (Region.mk 0 65536 [40] false 0x280000), ledgerBytes := 65536, ladders := ls }
def govS (op : Op) (fs : List (Nat × Nat)) (ls : List Ladder) : State :=
  { withCmd base (cmd op fs) with ctxs := [(0, governed ls)] }
/-- INT8 then INT4 for layer 1, role 0, automatic (R147). -/
def boundsFs : List (Nat × Nat) := [(0x10, 1), (0x12, 0x20), (0x14, 1)]
def ladder1 : Ladder := (cmd .govBounds boundsFs).boundsLadder
theorem runs_govBounds : (∀ ls ∈ [[], [ladder1]], Runs (govS .govBounds boundsFs ls) .govBounds 0 1 (cmd .govBounds boundsFs) ∧
      1 ≤ (govS .govBounds boundsFs ls).ledgerRoom 0 ∧
      (govS .govBounds boundsFs ls).govWait (cmd .govBounds boundsFs) (fun _ => true) = false) ∧
    (cmd .govBounds boundsFs).boundsOk = true ∧ (governed []).gov ≠ none ∧ (governed []).govLost = false ∧
    (governed []).ladder? ladder1.layer ladder1.role = none ∧ (governed [ladder1]).ladder? ladder1.layer ladder1.role ≠ none := by
  refine ⟨?_, by decide +kernel⟩
  intro ls hl
  refine ⟨runs_of _ _ _ ?_, ?_⟩ <;> revert ls <;> decide +kernel
theorem test_govBounds :
    ((after (.govBounds 0 1) (govS .govBounds boundsFs [])).ctx 0).ladders = [ladder1] ∧
    ((after (.govBounds 0 1) (govS .govBounds boundsFs [])).ctx 0).ledgerHead = 1 ∧
    ((after (.govBounds 0 1) (govS .govBounds boundsFs [ladder1])).ctx 0).bounds = [(1, ladder1)] := by decide +kernel

def readFs : List (Nat × Nat) := [(0x10, 1), (0x18, 0x300000)]
theorem runs_govRead : (∀ ls ∈ [[], [ladder1]], Runs (govS .govRead readFs ls) .govRead 0 1 (cmd .govRead readFs)) ∧
    (cmd .govRead readFs).clean [(0x10, 0, 12), (0x12, 0, 2), (0x18, 0, 64)] = true ∧
    ((govS .govRead readFs []).resolve 0 0x300000 704 true).toOption = some [(0x300000, 704)] ∧
    (govS .govRead readFs []).sealIssues 0 [] [(0x300000, 704)] [] = [] ∧
    (govS .govRead readFs []).govWait (cmd .govRead readFs) (fun _ => true) = false ∧
    (governed []).bounce = none ∧ Quiet (govS .govRead readFs []) := by
  refine ⟨?_, by unfold Quiet; decide +kernel⟩
  intro ls hl
  refine runs_of _ _ _ ?_
  revert ls; decide +kernel
theorem test_govRead : outcome (after (.govRead 0 1) (govS .govRead readFs [])) 0 = some (0, 0xFF) ∧
    outcome (after (.govRead 0 1) (govS .govRead readFs [ladder1])) 0 = some (0, 17) := by decide +kernel

/-- GOV_STEP of a step in which nothing was gathered, and one behind a GOV_BOUNDS that is not decided. -/
def stepBehind : State :=
  { govS .govStep [] [ladder1] with journal := { base.journal with
      entries := [{ cmd .govBounds boundsFs with seq := 0 }, { cmd .govStep [] with id := 1 }], nextId := 2 } }
theorem runs_govStep : Runs (govS .govStep [] [ladder1]) .govStep 0 1 (cmd .govStep []) ∧
    Runs stepBehind .govStep 0 1 { cmd .govStep [] with id := 1 } ∧
    (cmd .govStep []).clean [(0x10, 0, 1), (0x18, 0, 64)] = true ∧ (govS .govStep [] [ladder1]).layersDone 0 0 = true ∧
    stepBehind.layersDone 0 1 = false ∧ 1 ≤ (govS .govStep [] [ladder1]).ledgerRoom 0 :=
  ⟨runs_of _ _ _ (by decide +kernel), runs_of _ _ _ (by decide +kernel), by decide +kernel⟩
theorem witness_govRoom : (govS .govStep [] [ladder1]).regionStops (governed [ladder1]).gov = [] ∧
    (govS .govStep [] [ladder1]).regionStops (governed [ladder1]).ledger = [] ∧
    (govS .govBounds boundsFs []).regionStops (governed []).ledger = [] ∧
    (govS .govRead readFs []).regionStops (governed []).gov = [] ∧
    ∀ k ∈ [0, 1], (govS .govStep [] [ladder1]).journalRoom (commitLines ((governed [ladder1]).stepItems (cmd .govStep []) k)) =
      true := by decide +kernel
theorem test_govStep : ((after (.govStep 0 1) (govS .govStep [] [ladder1])).ctx 0).step = 1 ∧
    outcome (after (.govStep 0 1) (govS .govStep [] [ladder1])) 0 = some (0, 0) ∧
    outcome (after (.govStep 0 1) stepBehind) 1 = none := by decide +kernel

/-! ## The Lining's commands -/

/-- ATTEST, whose report the device's own key signs (`Config.rootSecret`), at the end of a page. -/
def attestFs : List (Nat × Nat) := [(0x10, 0x20FF00), (0x18, 7)]
def attestS : State := work .attest attestFs []
theorem runs_attest : Runs attestS .attest 0 1 (cmd .attest attestFs) ∧ attestS.ready.lining = true ∧
    (cmd .attest attestFs).clean [(0x10, 0, 64), (0x18, 0, 256)] = true ∧ attestS.lining.measured = true ∧
    (attestS.resolve 0 0x20FF00 768 true).toOption = some [(0x20FF00, 256), (0x210000, 512)] ∧
    attestS.sealIssues 0 [] [(0x20FF00, 256), (0x210000, 512)] [] = [] ∧ (attestS.ctx 0).bounce = none ∧ Quiet attestS :=
  ⟨runs_of _ _ _ (by decide +kernel), by unfold Quiet; decide +kernel⟩

/-- ROLE_SESSION of the operator: CHALLENGE; RESPOND to it with a signature of zeros, which verifies nothing; CLOSE. -/
def roleFs (action buf : Nat) : List (Nat × Nat) := [(0x10, 2 + 4 * action), (0x18, buf)]
def roleS (action buf : Nat) (cs : List Challenge) : State :=
  let s := work .roleSession (roleFs action buf) []
  { s with lining := { s.lining with
      challenges := cs, opKeys := s.lining.opKeys.set 0 (some keyG)
      sessions := s.lining.sessions.set 3 (some (Session.mk 2 0 1)) } }
def open2 : Challenge := Challenge.mk 2 1 (zeroBytes 128) 0 5
theorem runs_roleSession : Runs (roleS 0 0x200000 []) .roleSession 0 1 (cmd .roleSession (roleFs 0 0x200000)) ∧
    Runs (roleS 1 0x200000 [open2]) .roleSession 0 1 (cmd .roleSession (roleFs 1 0x200000)) ∧
    Runs (roleS 2 0 []) .roleSession 0 1 (cmd .roleSession (roleFs 2 0)) ∧
    (cmd .roleSession (roleFs 1 0x200000)).clean [(0x10, 0, 4), (0x18, 0, 64)] = true ∧
    (roleS 0 0x200000 []).endpointOf 0 = 1 ∧ (roleS 0 0x200000 []).lining.locked 1 0 = false ∧
    ((roleS 0 0x200000 []).resolve 0 0x200000 128 true).toOption = some [(0x200000, 128)] ∧
    (roleS 0 0x200000 []).sealIssues 0 [] [(0x200000, 128)] [] = [] ∧
    (roleS 0 0x200000 []).lining.reserve 2 1 = some 0 ∧
    (roleS 1 0x200000 [open2]).lining.openChallenge 2 1 0 = some open2 ∧
    (roleS 1 0x200000 [open2]).roleKey 2 0 = some keyG ∧
    (roleS 1 0x200000 [open2]).auditRoomFor ((roleS 1 0x200000 [open2]).openEntries 2 1) = true ∧
    ecdsaVerify keyG open2.bytes 0 0 = false ∧ open2.slot < (roleS 1 0x200000 [open2]).lining.sessions.length ∧
    (roleS 2 0 []).auditRoom = true :=
  ⟨runs_of _ _ _ (by decide +kernel), runs_of _ _ _ (by decide +kernel), runs_of _ _ _ (by decide +kernel), by decide +kernel⟩
theorem test_roleSession :
    outcome (after (.roleSession 0 1) (roleS 1 0x200000 [open2])) 0 = some (Status.deniedRole.toNat, 0) ∧
    (after (.roleSession 0 1) (roleS 2 0 [])).lining.sessions.getD 3 none = none := by decide +kernel

/-! SEAL_IMPORT, PROFILE_LOAD and FW_STAGE take what the device's root, the maker's and the root's keys sign
(`Config.deviceRoot`, `Config.profileBound`, `Config.elvomRootKey`), which are open: Lean can evaluate no command that
each of them accepts. What can be shown is that the rest of their hypotheses is met. -/
def importFs : List (Nat × Nat) := [(0x10, 0x200000), (0x18, 0x210000), (0x20, 65536)]
theorem runs_sealImport : Runs (work .sealImport importFs []) .sealImport 0 1 (cmd .sealImport importFs) ∧
    (cmd .sealImport importFs).clean [(0x10, 0, 64), (0x18, 0, 64), (0x20, 0, 64), (0x28, 0, 8)] = true ∧
    ((work .sealImport importFs []).resolve 0 0x210000 65536 true).toOption = some [(0x210000, 65536)] ∧
    (work .sealImport importFs []).lining.freeHandle = some 1 ∧ blobOk (lay 320 [(0, 1), (8, 65536)]) = true :=
  ⟨runs_of _ _ _ (by decide +kernel), by decide +kernel⟩
def imageFs : List (Nat × Nat) := [(0x10, 0x200000), (0x18, 193)]
theorem runs_images : Runs (work .profileLoad imageFs []) .profileLoad 0 1 (cmd .profileLoad imageFs) ∧
    Runs (work .fwStage imageFs []) .fwStage 0 1 (cmd .fwStage imageFs) ∧
    (cmd .fwStage imageFs).clean [(0x10, 0, 64), (0x18, 0, 32)] = true ∧ (work .profileLoad imageFs []).boot.profile = none ∧
    (((work .fwStage imageFs []).asRead (cmd .fwStage imageFs)).readStruct 0 0x200000 193 1).toOption = some (zeroBytes 193) :=
  ⟨runs_of _ _ _ (by decide +kernel), runs_of _ _ _ (by decide +kernel), by decide +kernel⟩

/-! ## Tracing -/

/-- TRACE_CTL that places a ring of two pages and sets mode 3; one that only sets mode 0. -/
def placeFs : List (Nat × Nat) := [(0x10, 7), (0x18, 0x210000), (0x20, 131072), (0x28, 64), (0x30, 2)]
def modeFs : List (Nat × Nat) := [(0x30, 2)]
theorem runs_traceCtl : Runs (withCmd base (cmd .traceCtl placeFs)) .traceCtl 0 1 (cmd .traceCtl placeFs) ∧
    Runs (withCmd base (cmd .traceCtl modeFs)) .traceCtl 0 1 (cmd .traceCtl modeFs) ∧
    (cmd .traceCtl placeFs).clean [(0x10, 0, 3), (0x18, 0, 64), (0x20, 0, 64), (0x28, 0, 32), (0x30, 0, 64)] = true ∧
    sourcesOk 2 = true ∧ base.trace.mode = 0 ∧ traceRangeOk 131072 64 = true ∧ traceRangeOk 65536 32768 = true ∧
    traceRangeOk 65536 32832 = false ∧ inStacks [(0x210000, 65536), (0x220000, 65536)] = true ∧
    base.anySealed [(0x210000, 65536), (0x220000, 65536)] = false :=
  ⟨runs_of _ _ _ (by decide +kernel), runs_of _ _ _ (by decide +kernel), by decide +kernel⟩
/-- A trigger in mode 0, in mode 3, and the second of a window. -/
def tracing (mode : Nat) (triggered : Bool) : State :=
  { withCmd base (cmd .traceTrigger [(0x10, 9)]) with trace := { base.trace with
      placed := true, pages := [33, 34], bytes := 131072, post := 64, mode := mode, triggered := triggered } }
theorem runs_traceTrigger : ∀ m ∈ [0, 3], Runs (tracing m false) .traceTrigger 0 1 (cmd .traceTrigger [(0x10, 9)]) := by
  intro m hm
  refine runs_of _ _ _ ?_
  revert m; decide +kernel
/-- The trigger's record stands before the last 64 bytes of the ring: slot 4,096 - 2. -/
theorem test_trace :
    (after (.traceCtl 0 1) (withCmd base (cmd .traceCtl placeFs))).trace.mode = 3 ∧
    outcome (after (.traceTrigger 0 1) (tracing 0 false)) 0 = some (0, 0) ∧
    outcome (after (.traceTrigger 0 1) (tracing 3 false)) 0 = some (0, 4094) ∧
    (after (.traceTrigger 0 1) (tracing 3 false)).trace.triggered = true := by decide +kernel

/-! ## What no row stores to -/

/-- The row answers a next state. -/
def runsOn (i : Instr) (s : State) : Bool := match exec i s with | .next _ => true | _ => false
theorem next_of (i : Instr) (s : State) (h : runsOn i s = true) : ∃ t, exec i s = .next t := by
  unfold runsOn at h
  split at h
  · rename_i t ht; exact ⟨t, ht⟩
  · cases h
/-- A row that stores nothing, a self-check that leaves the command at work its core, a row that stores a structure. -/
theorem witness_nothingElseStored :
    (∃ t, exec (.nop 0 1) (ctl .nop []) = .next t) ∧ storesNothing (.nop 0 1) = true ∧
    (∃ t, exec (.selfCheck 2 1 false false) (withCmd checking (cmd .vecOp [])) = .next t) ∧
    isSelfCheck (.selfCheck 2 1 false false) = true ∧
    (after (.selfCheck 2 1 false false) (withCmd checking (cmd .vecOp []))).noCoreLeft (cmd .vecOp []) = false ∧
    (∃ t, exec (.govRead 0 1) (govS .govRead readFs []) = .next t) ∧
    storesAt (.govRead 0 1) (cmd .govRead readFs) = some (.govRead, 0, 1, 0x300000, 704) :=
  ⟨next_of _ _ (by decide +kernel), by decide +kernel, next_of _ _ (by decide +kernel), by decide +kernel,
    by decide +kernel, next_of _ _ (by decide +kernel), by decide +kernel⟩

/-- QUERY_CAPS and COUNTER_SNAP above, in their statement's words; a snapshot that waits its 2,000 ticks. -/
theorem witness_observation :
    (cmd .queryCaps capsFs).clean [(0x10, 0, 64), (0x18, 0, 32)] = true ∧
    (((work .queryCaps capsFs []).viewFor (cmd .queryCaps capsFs)).resolve 0 0x200000 64 true).toOption = some [(0x200000, 64)] ∧
    Quiet (work .queryCaps capsFs []) ∧ (cmd .queryCaps capsFs).member = none ∧
    (cmd .counterSnap snapFs).tStarted = some 0 ∧
    (cmd .counterSnap snapFs).clean [(0x10, 0, 64), (0x18, 0, 32), (0x1C, 0, 2), (0x1D, 0, 7), (0x1E, 0, 16)] = true ∧
    (snapGroups 0x800).all (fun g => match groupScope g with | some k => k == 0 | none => true) = true ∧
    snapBytes 0x800 ≤ 4096 ∧ snapS.stamp = 2000 ∧
    ((snapS.viewFor (cmd .counterSnap snapFs)).resolve 0 0x260000 (snapBytes 0x800) true).toOption = some [(0x260000, snapBytes 0x800)] ∧
    snapS.runnable .counterSnap 0 1 = some (cmd .counterSnap snapFs) ∧
    (work .counterSnap snapFs []).runnable .counterSnap 0 1 = some (cmd .counterSnap snapFs) := by
  unfold Quiet; decide +kernel
theorem test_counterSnap : outcome (after (.counterSnap 0 1) (work .counterSnap snapFs [])) 0 = none ∧
    outcome (after (.counterSnap 0 1) snapS) 0 = some (0, snapBytes 0x800) := by decide +kernel
end Sys2Proof.Tests
end

/-!
PROOF. O47, the registers that the installer writes: what an audited write leaves in the audit log, what a write to each
register does when R14 and R15 allow it, and what a retirement by request keeps.
-/
namespace Sys2Proof.Machine

open Sys2Proof.Claims

variable {s t : State} {src : Source} {off : Nat} {v : W32}

/-! ## Audited writes (R15, R398) -/

/-- A register write by a source that may make it adds one entry to the log. -/
theorem State.auditWrite_length (h : t.lining.audit.length < 8192) (role : Nat) :
    (t.auditWrite src role off v).lining.audit.length = t.lining.audit.length + 1 := by
  simp [State.auditWrite, State.audited, State.auditAdd?, Nat.not_le.mpr h]

/-- An entry of the log leaves context 0's endpoint as it is. -/
theorem State.auditWrite_ctx0 (t : State) (src : Source) (role off : Nat) (v : W32) :
    (t.auditWrite src role off v).lining.ctx0Ep = t.lining.ctx0Ep ∧
      (t.auditWrite src role off v).lining.ctx0Latched = t.lining.ctx0Latched := by
  unfold State.auditWrite State.audited State.auditAdd?
  dsimp only
  split <;> exact ⟨rfl, rfl⟩

/-- What the entry of a write leaves alone: everything but the Lining. -/
theorem State.auditWrite_frame (t : State) (src : Source) (role off : Nat) (v : W32) :
    SameBut [.lining] t (t.auditWrite src role off v) :=
  State.auditWrite_same (SameBut.refl _ _) src role off v (by decide)

/-- The log after a write that the installer may make, where its effect leaves the log alone. -/
theorem auditWrite_length_of_may (hm : InstallerMay s src) (ha : t.lining.audit = s.lining.audit) :
    (t.auditWrite src 1 off v).lining.audit.length = s.lining.audit.length + 1 := by
  have hroom : s.lining.audit.length < 8192 := by simpa [State.auditRoom] using hm.2
  rw [State.auditWrite_length (ha ▸ hroom), ha]

/-- A write that the installer may make takes effect with its audit entry. -/
theorem roleWrite_of_may (hm : InstallerMay s src) :
    s.roleWrite src 1 off v t = some (t.auditWrite src 1 off v) := by
  simp [State.roleWrite, hm.1, hm.2]

/-- COL_FAULT and the status bits need the role alone, not an encrypted channel (log 70). -/
theorem srcHolds_of_may (hm : InstallerMay s src) : s.srcHolds src 1 = true := by
  have h := hm.1
  cases src with
  | seam p ep enc => simp_all [State.srcRole, State.srcHolds]
  | i3c => simp [State.srcRole] at h

theorem State.regWrite_of_some (h : s.tryWrite src off v = some t) : (s.regWrite src off v).2 = t := by
  simp [State.regWrite, h]

theorem State.regWrite_of_none (h : s.tryWrite src off v = none) :
    (s.regWrite src off v).2 = s.count (.control 0) 1 := by
  simp [State.regWrite, h]

/-- An audited write to a register of the installer, whatever its block. -/
theorem regWrite_of_may (hm : InstallerMay s src) (h : s.tryWrite src off v = s.roleWrite src 1 off v t) :
    (s.regWrite src off v).2 = t.auditWrite src 1 off v :=
  State.regWrite_of_some (h.trans (roleWrite_of_may hm))

/-! ## The time base and the Lining (R322, R392) -/

theorem tryWrite_tb (h : 0x2000 ≤ off) (g : off < 0x2020) (h4 : off % 4 = 0) :
    s.tryWrite src off v = s.tbWrite src off v := by
  unfold State.tryWrite
  rw [if_neg (by omega), if_pos ⟨h, g⟩]

theorem tbLoadHiWrite_next (hm : InstallerMay s src) : exec (.tbLoadHiWrite src v) s =
    .next (State.auditWrite { s with tb := { s.tb with loadHi := v, loadPending := true } } src 1 0x200C v) :=
  congrArg Host.Outcome.next (regWrite_of_may hm (tryWrite_tb (by omega) (by omega) (by omega)))

theorem tbLoadLoWrite_next (hm : InstallerMay s src) : exec (.registerWrite src 0x2008 v) s =
    .next (State.auditWrite { s with tb := { s.tb with loadLo := v } } src 1 0x2008 v) :=
  congrArg Host.Outcome.next (regWrite_of_may hm (tryWrite_tb (by omega) (by omega) (by omega)))

theorem linCtx0EpWrite_next (hm : InstallerMay s src) : exec (.linCtx0EpWrite src v) s =
    .next (State.auditWrite { s with lining := { s.lining with ctx0Ep := v.setWidth 16, ctx0Latched := true } }
      src 1 0x300004 v) :=
  congrArg Host.Outcome.next (regWrite_of_may hm (tryWrite_lining (by omega) (by omega) (by omega)))

/-! ## The Belt (R346, R350, R351) -/

/-- Where a write out of its range leaves the engine: its register as it was, CFG_ERR set. -/
def State.withCfgErr (s : State) : State := { s with belt := { s.belt with cfgErr := true } }

/-- The gain and the offset of a calibration word lie within the bounds in force (R337, R351). -/
abbrev State.CalInRange (s : State) (v : W32) : Prop :=
  let f := s.belt.inForce (s.stamp.toNat / 10000 * 10000)
  f.gainMin.toNat ≤ (v.setWidth 16).toNat ∧ (v.setWidth 16).toNat ≤ f.gainMax.toNat ∧
    ((v >>> 16).setWidth 16 : BitVec 16).toInt.natAbs ≤ f.offsMax.toNat

theorem beltWrite_coolant_of_inRange
    (h : 0 ≤ (v.setWidth 16 : BitVec 16).toInt ∧ (v.setWidth 16 : BitVec 16).toInt ≤ 1280) :
    s.beltWrite src 0x20001C v =
      s.roleWrite src 1 0x20001C v { s with belt := { s.belt with coolant := v.setWidth 16 } } :=
  if_pos h

theorem beltWrite_coolant_of_outOfRange (hm : InstallerMay s src)
    (h : ¬(0 ≤ (v.setWidth 16 : BitVec 16).toInt ∧ (v.setWidth 16 : BitVec 16).toInt ≤ 1280)) :
    s.beltWrite src 0x20001C v = some s.withCfgErr :=
  (if_neg h).trans (if_pos hm.1)

/-- The calibration register of a domain, by whether its unit is there (R350, R14). -/
theorem beltWrite_cal {d : Nat} (hd : d < 27) : s.beltWrite src (0x200100 + 4 * d) v =
    if s.domainPresent d = true then
      if s.CalInRange v then s.roleWrite src 1 (0x200100 + 4 * d) v
        { s with belt := { s.belt with calNext := s.belt.calNext ++ [(d, v)] } }
      else if s.srcRole src 1 then some s.withCfgErr else none
    else none := by
  have hr : 0x200100 + 4 * d - 0x200000 = 0x100 + 4 * d := by omega
  have hidx : (0x100 + 4 * d - 0x100) / 4 = d := by omega
  unfold State.beltWrite
  dsimp only
  rw [hr, hidx, if_neg (by omega), if_neg (by omega), if_neg (by omega)]
  by_cases hp : s.domainPresent d = true
  · rw [if_pos ⟨by omega, by omega, hp⟩, if_pos hp]
    rfl
  · rw [if_neg (fun h => hp h.2.2), if_neg hp]

theorem coolantWrite_next (hm : InstallerMay s src)
    (h : 0 ≤ (v.setWidth 16 : BitVec 16).toInt ∧ (v.setWidth 16 : BitVec 16).toInt ≤ 1280) :
    exec (.beltCoolantInWrite src v) s =
      .next (State.auditWrite { s with belt := { s.belt with coolant := v.setWidth 16 } } src 1 0x20001C v) :=
  congrArg Host.Outcome.next (regWrite_of_may hm
    ((tryWrite_belt (by omega) (by omega) (by omega)).trans (beltWrite_coolant_of_inRange h)))

theorem coolantWrite_outOfRange (hm : InstallerMay s src)
    (h : ¬(0 ≤ (v.setWidth 16 : BitVec 16).toInt ∧ (v.setWidth 16 : BitVec 16).toInt ≤ 1280)) :
    exec (.beltCoolantInWrite src v) s = .next s.withCfgErr :=
  congrArg Host.Outcome.next (State.regWrite_of_some
    ((tryWrite_belt (by omega) (by omega) (by omega)).trans (beltWrite_coolant_of_outOfRange hm h)))

theorem beltCalWrite_next {d : Nat} (hm : InstallerMay s src) (hd : d < 27) (hp : s.domainPresent d = true)
    (hok : s.CalInRange v) : exec (.beltCalWrite src d v) s =
      .next (State.auditWrite { s with belt := { s.belt with calNext := s.belt.calNext ++ [(d, v)] } }
        src 1 (0x200100 + 4 * d) v) := by
  refine congrArg Host.Outcome.next (regWrite_of_may hm ?_)
  rw [tryWrite_belt (by omega) (by omega) (by omega), beltWrite_cal hd, if_pos hp, if_pos hok]

theorem beltCalWrite_outOfRange {d : Nat} (hm : InstallerMay s src) (hd : d < 27) (hp : s.domainPresent d = true)
    (hok : ¬s.CalInRange v) : exec (.beltCalWrite src d v) s = .next s.withCfgErr := by
  refine congrArg Host.Outcome.next (State.regWrite_of_some ?_)
  rw [tryWrite_belt (by omega) (by omega) (by omega), beltWrite_cal hd, if_pos hp, if_neg hok, if_pos hm.1]

theorem beltCalWrite_absent {d : Nat} (hd : d < 27) (hp : s.domainPresent d = false) :
    exec (.beltCalWrite src d v) s = .next (s.count (.control 0) 1) := by
  refine congrArg Host.Outcome.next (State.regWrite_of_none ?_)
  rw [tryWrite_belt (by omega) (by omega) (by omega), beltWrite_cal hd, hp]
  rfl

/-- The calibration register of a domain whose unit is not there reads 0 (R14, R350). -/
theorem regRead_cal_absent {d : Nat} (hd : d < 27) (hp : s.domainPresent d = false) :
    s.regRead (0x200100 + 4 * d) = 0 := by
  have hpair : s.pairAt (0x200100 + 4 * d - (0x200100 + 4 * d) % 8) = none := by
    unfold State.pairAt
    rw [if_neg (by omega), if_neg (by omega), if_neg (by omega), if_neg (by omega), if_neg (by omega)]
  have hbelt : s.beltRead (0x100 + 4 * d) = 0 := by
    have hidx : (0x100 + 4 * d - 0x100) / 4 = d := by omega
    unfold State.beltRead
    dsimp only
    -- the 26 registers and ranges before the calibration registers
    iterate 26 rw [if_neg (by omega)]
    rw [if_pos (by omega), hidx, hp]
    rfl
  have hoff : 0x200100 + 4 * d - 0x200000 = 0x100 + 4 * d := by omega
  unfold State.regRead
  rw [if_neg (by omega), hpair]
  dsimp only
  rw [if_neg (by omega), if_neg (by omega), if_neg (by omega), if_neg (by omega), if_neg (by omega),
    if_pos (by omega), hoff, hbelt]

/-! ## COL_FAULT and the journal (R374, R389) -/

theorem colFaultWrite_next (hm : InstallerMay s src) : exec (.registerWrite src 0x020118 v) s =
    .next (State.ibi { s with collar := { s.collar with fault := s.collar.fault &&& ~~~(v.setWidth 11) } }) :=
  congrArg Host.Outcome.next (State.regWrite_of_some
    ((tryWrite_journal (by omega) (by omega) (by omega)).trans (if_pos (srcHolds_of_may hm))))

theorem jrnlEnable_next (hm : InstallerMay s src) (he : s.journal.enable = false) (hv : v.getLsbD 0 = true) :
    exec (.colJrnlCtlEnable src v) s = .next (s.enableJournal.auditWrite src 1 0x020110 v) := by
  refine congrArg Host.Outcome.next (regWrite_of_may hm ?_)
  rw [tryWrite_journal (by omega) (by omega) (by omega)]
  exact if_neg (by rw [he, hv]; decide)

/-- The journal once both its regions are in use: stacks 0 and 3 hold it. -/
theorem enableJournal_of_places (h0 : s.journalPlace s.journal.base.toNat 0 = true)
    (h3 : s.journalPlace s.journal.mirror.toNat 3 = true) : s.enableJournal =
      (State.setStack { s with journal := { s.journal with enable := true, state := 1 } } 0
        { s.stack 0 with journal := true }).setStack 3 { s.stack 3 with journal := true } := by
  simp [State.enableJournal, h0, h3, State.stack, State.setStack]

theorem enableJournal_of_noPlace (h : s.journalPlace s.journal.base.toNat 0 = false ∨
    s.journalPlace s.journal.mirror.toNat 3 = false) : s.enableJournal = s.setFault .jrnlCfg := by
  unfold State.enableJournal
  rw [if_neg]
  rcases h with h | h <;> simp [h]

/-- Enabling the journal marks the two stacks that hold it. -/
theorem enableJournal_stack_journal (hs : s.shapeOk) (h0 : s.journalPlace s.journal.base.toNat 0 = true)
    (h3 : s.journalPlace s.journal.mirror.toNat 3 = true) :
    (s.enableJournal.stack 0).journal = true ∧ (s.enableJournal.stack 3).journal = true := by
  have hlen : s.stks.length = 6 := hs.1
  rw [enableJournal_of_places h0 h3]
  constructor <;> simp [State.stack, State.setStack, hlen]

/-- Enabling the journal adds nothing to the audit log by itself. -/
theorem enableJournal_lining (s : State) : s.enableJournal.lining = s.lining :=
  (State.enableJournal_same (SameBut.refl [.stks, .journal, .collar, .i3c] s) (by decide)).lining (by decide)

theorem setFault_getLsbD (s : State) (b : FaultBit) : (s.setFault b).collar.fault.getLsbD b.pos = true := by
  cases b <;> simp [State.setFault, FaultBit.pos]

/-- R374: COL_JRNL_CTL.ENABLE with both regions in place, and with one that is not. -/
theorem jrnlEnable_effect (hm : InstallerMay s src) (he : s.journal.enable = false) (hv : v.getLsbD 0 = true)
    (hs : s.shapeOk) : ∃ t, exec (.colJrnlCtlEnable src v) s = .next t ∧
      t.lining.audit.length = s.lining.audit.length + 1 ∧
      (s.journalPlace s.journal.base.toNat 0 = true → s.journalPlace s.journal.mirror.toNat 3 = true →
        SameBut [.journal, .stks, .lining] s t ∧ t.journal = { s.journal with enable := true, state := 1 } ∧
        (t.stack 0).journal = true ∧ (t.stack 3).journal = true) ∧
      (s.journalPlace s.journal.base.toNat 0 = false ∨ s.journalPlace s.journal.mirror.toNat 3 = false →
        SameBut [.collar, .i3c, .lining] s t ∧ t.journal = s.journal ∧
        t.collar.fault.getLsbD FaultBit.jrnlCfg.pos = true) := by
  have hf := State.auditWrite_frame s.enableJournal src 1 0x020110 v
  refine ⟨_, jrnlEnable_next hm he hv, auditWrite_length_of_may hm (by rw [enableJournal_lining]), ?_, ?_⟩
  · intro h0 h3
    obtain ⟨hstack0, hstack3⟩ := enableJournal_stack_journal hs h0 h3
    refine ⟨State.auditWrite_same ?_ src 1 _ v (by decide), ?_, ?_, ?_⟩
    · rw [enableJournal_of_places h0 h3]
      exact State.setStack_same (State.setStack_same (same_mk (SameBut.refl _ _)) _ _ (by decide)) _ _ (by decide)
    · rw [hf.journal (by decide), enableJournal_of_places h0 h3]
      rfl
    · unfold State.stack at hstack0 ⊢
      rwa [hf.stks (by decide)]
    · unfold State.stack at hstack3 ⊢
      rwa [hf.stks (by decide)]
  · intro h
    rw [enableJournal_of_noPlace h] at hf ⊢
    refine ⟨State.auditWrite_same (State.setFault_same (SameBut.refl _ _) _ (by decide)) src 1 _ v (by decide),
      hf.journal (by decide), ?_⟩
    rw [hf.collar (by decide)]
    exact setFault_getLsbD s .jrnlCfg

/-! ## Packets that are sent leave the audit log alone -/

theorem sendOne_audit {p : Nat} {k : Packet} {rest : List Packet} (h : s.sendOne p k rest = some t) :
    t.lining.audit = s.lining.audit := by
  unfold State.sendOne at h
  extract_lets _ ch key _ _ _ u at h
  have hu : u.lining.audit = s.lining.audit := rfl
  clear_value u key ch
  obtain ⟨-, h⟩ := Option.ite_none_left_eq_some.mp h
  obtain ⟨-, h⟩ := Option.ite_none_left_eq_some.mp h
  obtain ⟨-, h⟩ := Option.ite_none_left_eq_some.mp h
  split at h <;> cases h <;> exact hu

theorem pumpAux_audit (p n : Nat) (done todo : List Packet) (s : State) :
    (State.pumpAux p n done todo s).lining.audit = s.lining.audit := by
  induction n generalizing done todo s with
  | zero => rfl
  | succ n ih =>
    cases todo with
    | nil => rfl
    | cons k ks =>
      unfold State.pumpAux
      split
      · exact ih _ _ _
      · split
        · next u hu => exact (ih _ _ u).trans (sendOne_audit hu)
        · exact ih _ _ _

theorem send_audit (s : State) (p : Nat) (k : Packet) (who : Option (Nat × W32)) :
    (s.send p k who).lining.audit = s.lining.audit := by
  have hmoved : (s.moved p k who).lining = s.lining := by
    unfold State.moved
    split <;> rfl
  unfold State.send State.pump
  rw [pumpAux_audit]
  exact congrArg Lining.audit hmoved

/-- A capability change tells context 0's endpoint, and writes nothing in the audit log. -/
theorem capChange_audit (s : State) : s.capChange.lining.audit = s.lining.audit := by
  unfold State.capChange State.notice
  split
  · rfl
  · exact send_audit _ _ _ _

/-! ## Retirement by request (R369) -/

section Retirement

variable {c : Nat}

/-- What one command's entry gets from a retirement of the core `c` on which `on` are at work. -/
def State.noteRetired (c : Nat) (on : List QueueHold) (s : State) (e : Entry) : State :=
  if e.live && !e.decided && on.any (fun q => q.ctx == e.ctx && q.seq == e.seq) then
    s.setEntry { e with
      notes := e.notes ++ [Status.coreRetired], retiredFlag := true, shares := s.replaceCore e c }
  else s

theorem retireByRequest_of_present (hc : s.corePresent c = true) : s.retireByRequest c =
    (s.journal.entries.foldl (State.noteRetired c (s.core c).queues) s).retireCore c := by
  simp only [State.retireByRequest, hc, Bool.not_true, Bool.false_eq_true, if_false]
  rfl

theorem noteRetired_frame (on : List QueueHold) (s : State) (es : List Entry) :
    SameBut [.mem, .journal, .fabric] s (es.foldl (State.noteRetired c on) s) :=
  same_foldl (fun u e hu => same_ite' (State.setEntry_same hu _ (by decide)) hu) (SameBut.refl _ _)

/-- Every entry with a number carries CORE_RETIRED. -/
def State.NotedRetired (id : Nat) (s : State) : Prop :=
  ∀ x ∈ s.journal.entries, x.id = id → Status.coreRetired ∈ x.notes

theorem setEntry_notedRetired {e : Entry} {id : Nat} (he : Status.coreRetired ∈ e.notes)
    (h : e.id = id ∨ s.NotedRetired id) : (s.setEntry e).NotedRetired id := by
  intro x hx hid
  rw [State.setEntry_entries, List.mem_map] at hx
  obtain ⟨y, hy, rfl⟩ := hx
  by_cases hy' : y.id = e.id
  · simpa [hy'] using he
  · simp only [hy', if_false] at hid ⊢
    rcases h with h | h
    · exact absurd (hid.trans h.symm) hy'
    · exact h y hy hid

theorem noteRetired_keeps {on : List QueueHold} {id : Nat} (e : Entry) (h : s.NotedRetired id) :
    (s.noteRetired c on e).NotedRetired id := by
  unfold State.noteRetired
  split
  · exact setEntry_notedRetired (by simp) (.inr h)
  · exact h

theorem noteRetired_sets {on : List QueueHold} {e : Entry} (hl : e.live = true) (hd : e.decided = false)
    (hq : ∃ q ∈ on, q.ctx = e.ctx ∧ q.seq = e.seq) : (s.noteRetired c on e).NotedRetired e.id := by
  obtain ⟨q, hq, hctx, hseq⟩ := hq
  have hany : on.any (fun q => q.ctx == e.ctx && q.seq == e.seq) = true :=
    List.any_eq_true.mpr ⟨q, hq, by simp [hctx, hseq]⟩
  unfold State.noteRetired
  rw [if_pos (by simp [hl, hd, hany])]
  exact setEntry_notedRetired (by simp) (.inl rfl)

/-- Every undecided command at work on the core is noted, whatever comes before and after it in the journal. -/
theorem foldl_noteRetired {on : List QueueHold} {e : Entry} (hl : e.live = true) (hd : e.decided = false)
    (hq : ∃ q ∈ on, q.ctx = e.ctx ∧ q.seq = e.seq) (es : List Entry) (he : e ∈ es) (s : State) :
    (es.foldl (State.noteRetired c on) s).NotedRetired e.id := by
  induction es generalizing s with
  | nil => cases he
  | cons a es ih =>
    rcases List.mem_cons.mp he with rfl | he
    · exact List.foldlRecOn es _ (noteRetired_sets hl hd hq) (fun u hu a _ => noteRetired_keeps a hu)
    · exact ih he _

/-- The core goes, and its bit in COL_RETIRED is set; the journal and the audit log stay. -/
theorem retireCore_effect (hc : s.corePresent c = true) :
    (s.retireCore c).caps = { s.caps with cores := s.caps.cores &&& ~~~(1#128 <<< c) } ∧
      (s.retireCore c).collar.retired = s.collar.retired ||| (1#128 <<< c) ∧
      (s.retireCore c).journal = s.journal ∧ (s.retireCore c).lining.audit = s.lining.audit := by
  let u : State := State.setFault { s with
    caps := { s.caps with cores := s.caps.cores &&& ~~~(1#128 <<< c) }
    collar := { s.collar with retired := s.collar.retired ||| (1#128 <<< c) }
    cores := smDel s.cores c } .coreRetired
  have hu : s.retireCore c = (u.traceRec 16 (.core c) 0 0 (TraceUnit.core c).code).capChange := if_pos hc
  have htrace := State.traceRec_same (SameBut.refl [.mem, .fabric, .trace, .counters, .seams] u) 16 (.core c) 0 0
    (TraceUnit.core c).code (by decide)
  have hall := State.capChange_same (State.traceRec_same
    (SameBut.refl [.mem, .fabric, .trace, .counters, .seams, .lining, .i3c] u) 16 (.core c) 0 0
    (TraceUnit.core c).code (by decide)) (by decide)
  rw [hu]
  refine ⟨hall.caps (by decide), ?_, hall.journal (by decide), ?_⟩
  · rw [hall.collar (by decide)]; rfl
  · rw [capChange_audit, htrace.lining (by decide)]; rfl

theorem retireByRequest_effect (hc : s.corePresent c = true) :
    (s.retireByRequest c).caps = { s.caps with cores := s.caps.cores &&& ~~~(1#128 <<< c) } ∧
      (s.retireByRequest c).collar.retired = s.collar.retired ||| (1#128 <<< c) ∧
      (s.retireByRequest c).lining.audit = s.lining.audit := by
  have hf := noteRetired_frame (c := c) (s.core c).queues s s.journal.entries
  have hcaps := hf.caps (by decide)
  rw [retireByRequest_of_present hc]
  obtain ⟨h1, h2, -, h4⟩ := retireCore_effect
    (s := s.journal.entries.foldl (State.noteRetired c (s.core c).queues) s) (c := c)
    (by unfold State.corePresent; rw [hcaps]; exact hc)
  exact ⟨by rw [h1, hcaps], by rw [h2, hf.collar (by decide)], by rw [h4, hf.lining (by decide)]⟩

/-- The undecided commands at work on a core that retires by request carry CORE_RETIRED. -/
theorem retireByRequest_notes (hc : s.corePresent c = true) {e : Entry} (he : e ∈ s.journal.entries)
    (hl : e.live = true) (hd : e.decided = false)
    (hq : ∃ q ∈ (s.core c).queues, q.ctx = e.ctx ∧ q.seq = e.seq) : (s.retireByRequest c).NotedRetired e.id := by
  have hcaps := (noteRetired_frame (c := c) (s.core c).queues s s.journal.entries).caps (by decide)
  rw [retireByRequest_of_present hc]
  unfold State.NotedRetired
  rw [(retireCore_effect (by unfold State.corePresent; rw [hcaps]; exact hc)).2.2.1]
  exact foldl_noteRetired hl hd hq _ he s

theorem retireReq_next (hm : InstallerMay s src) (hv : v.getLsbD 31 = true) : exec (.colRetireReq src v) s =
    .next ((State.retireByRequest { s with collar := { s.collar with retireReq := v.setWidth 7 } }
      (v.toNat % 128)).auditWrite src 1 0x020130 v) := by
  refine congrArg Host.Outcome.next (regWrite_of_may hm ?_)
  rw [tryWrite_journal (by omega) (by omega) (by omega)]
  exact congrArg (s.roleWrite src 1 0x020130 v) (if_pos hv)

/-- R369: COL_RETIRE_REQ takes a core that is present out of service; the undecided commands at work on it are noted. -/
theorem retireReq_effect (hm : InstallerMay s src) (hv : v.getLsbD 31 = true)
    (hc : s.corePresent (v.toNat % 128) = true) : ∃ t, exec (.colRetireReq src v) s = .next t ∧
      t.lining.audit.length = s.lining.audit.length + 1 ∧
      t.caps = { s.caps with cores := s.caps.cores &&& ~~~(1#128 <<< (v.toNat % 128)) } ∧
      t.collar.retired.getLsbD (v.toNat % 128) = true ∧
      ∀ e ∈ s.journal.entries, e.live = true → e.decided = false →
        (∃ b ∈ (s.core (v.toNat % 128)).queues, b.ctx = e.ctx ∧ b.seq = e.seq) → t.NotedRetired e.id := by
  let u : State := { s with collar := { s.collar with retireReq := v.setWidth 7 } }
  obtain ⟨hcaps, hretired, haudit⟩ := retireByRequest_effect (s := u) hc
  have hf := State.auditWrite_frame (u.retireByRequest (v.toNat % 128)) src 1 0x020130 v
  have hbit : v.toNat % 128 < 128 := Nat.mod_lt _ (by decide)
  refine ⟨_, retireReq_next hm hv, auditWrite_length_of_may hm haudit, (hf.caps (by decide)).trans hcaps, ?_, ?_⟩
  · rw [hf.collar (by decide), hretired]
    simp [hbit]
  · intro e he hl hd hq
    unfold State.NotedRetired
    rw [hf.journal (by decide)]
    exact retireByRequest_notes (s := u) hc he hl hd hq

end Retirement

/-! ## The obligation -/

/-- Settles O47: each register by the lemma above that says what its write does; the audit entry touches the Lining alone. -/
theorem installerWrites : Obligations.InstallerWrites := by
  unfold Obligations.InstallerWrites
  intro src d v s hm hd
  have hframe := fun (t : State) (off : Nat) => State.auditWrite_frame t src 1 off v
  refine ⟨⟨_, tbLoadHiWrite_next hm, ?_, auditWrite_length_of_may hm rfl, (hframe _ _).tb (by decide)⟩,
    ⟨_, tbLoadLoWrite_next hm, ?_, auditWrite_length_of_may hm rfl, (hframe _ _).tb (by decide)⟩,
    ⟨_, colFaultWrite_next hm, State.ibi_same (same_mk (SameBut.refl _ _)) (by decide), rfl⟩,
    fun h => ⟨_, coolantWrite_next hm h, ?_, auditWrite_length_of_may hm rfl, (hframe _ _).belt (by decide)⟩,
    fun h => coolantWrite_outOfRange hm (by omega),
    fun hp h => ⟨_, beltCalWrite_next hm hd hp h, ?_, auditWrite_length_of_may hm rfl, (hframe _ _).belt (by decide)⟩,
    fun hp h => beltCalWrite_outOfRange hm hd hp h,
    fun hp => ⟨regRead_cal_absent hd hp, beltCalWrite_absent hd hp⟩,
    ⟨_, linCtx0EpWrite_next hm, ?_, auditWrite_length_of_may hm rfl, State.auditWrite_ctx0 _ _ _ _ _⟩,
    fun he hv hs => jrnlEnable_effect hm he hv hs,
    fun hv hc => retireReq_effect hm hv hc⟩
  -- what is left is the frame of each audited write: its own part and the Lining
  all_goals exact State.auditWrite_same (same_mk (SameBut.refl _ _)) src 1 _ v (by decide)

end Sys2Proof.Machine

/-!
PROOF. O43 and O44, the number formats: products by slices and integer totals, the magnitudes that the codes of a format
count through, and rounding to the nearest of them.
-/
namespace Sys2Proof.Machine

open Sys2Proof.Claims

/-! ## Products by slices (R31, R32) -/

theorem sliceRow_eq (a b i j : Nat) : sliceRow a b i j = slice a i * 16 ^ i * (b % 16 ^ j) := by
  induction j with
  | zero => simp [sliceRow, Nat.mod_one]
  | succ j ih =>
    rw [sliceRow, ih, Nat.mod_pow_succ, Nat.mul_add, Nat.pow_add, Nat.mul_mul_mul_comm, slice, slice,
      Nat.mul_comm (b / 16 ^ j % 16)]

theorem sliceSum_eq (a b p i : Nat) : sliceSum a b p i = a % 16 ^ i * (b % 16 ^ p) := by
  induction i with
  | zero => simp [sliceSum, Nat.mod_one]
  | succ i ih =>
    rw [sliceSum, ih, sliceRow_eq, Nat.mod_pow_succ, Nat.add_mul, slice, Nat.mul_comm (16 ^ i)]

/-- The cells of a fused group form the whole product of two significands that fit its slices. -/
theorem sliceProduct_eq_mul {p a b : Nat} (ha : a < 16 ^ p) (hb : b < 16 ^ p) : sliceProduct p a b = a * b := by
  rw [sliceProduct, sliceSum_eq, Nat.mod_eq_of_lt ha, Nat.mod_eq_of_lt hb]

/-! ## Totals of integer products (R46, R86) -/

theorem sumInt_eq_sum (zs : List Int) : sumInt zs = zs.sum := List.sum_eq_foldl.symm

/-- The corrections of R47 for two zero points, term by term. -/
theorem sum_sub_mul_sub (zx zw : Int) : ∀ xs ys : List Val, xs.length = ys.length →
    (List.zipWith (fun x y => intOf x * intOf y) xs ys).sum - zw * (xs.map intOf).sum - zx * (ys.map intOf).sum +
        xs.length * zx * zw =
      (List.zipWith (fun x y => (intOf x - zx) * (intOf y - zw)) xs ys).sum
  | [], [], _ => by simp
  | x :: xs, y :: ys, h => by
    have ih := sum_sub_mul_sub zx zw xs ys (by simpa using h)
    simp only [List.zipWith_cons_cons, List.map_cons, List.sum_cons, List.length_cons, Int.natCast_add,
      Int.cast_ofNat_Int, ← ih]
    grind

theorem Red.total_of_isInt {r : Red} (hr : r.isInt = true) (zx zw : Int) {xs ys : List Val}
    (h : xs.length = ys.length) : r.total zx zw xs ys =
      valOfInt (sumInt (List.zipWith (fun x y => (intOf x - zx) * (intOf y - zw)) xs ys)) := by
  simp only [Red.total, hr, if_true, sumInt_eq_sum, sum_sub_mul_sub zx zw xs ys h]

/-! ## Signs and units -/

theorem Val.exists_num_of_finite {v : Val} (h : v.finite = true) : ∃ s m e, v = .num s m e := by
  cases v with
  | num s m e => exact ⟨s, m, e, rfl⟩
  | inf s => cases h
  | nan => cases h

/-- The integer of a sign and a magnitude. -/
def signed (neg : Bool) (n : Nat) : Int := if neg then -n else n

theorem Val.at_eq_signed (k : Int) (neg : Bool) (m : Nat) (e : Int) :
    Val.at k neg m e = signed neg (m * 2 ^ (e - k).toNat) := rfl

theorem signed_mul (neg : Bool) (n u : Nat) : signed neg (n * u) = signed neg n * u := by
  cases neg
  · exact Int.natCast_mul n u
  · exact (congrArg Neg.neg (Int.natCast_mul n u)).trans (Int.neg_mul _ _).symm

theorem signed_natAbs (z : Int) : signed (decide (z < 0)) z.natAbs = z := by
  unfold signed
  simp only [decide_eq_true_eq]
  split <;> omega

theorem two_pow_toNat_split {k q e : Int} (hk : k ≤ q) (hq : q ≤ e) :
    2 ^ (e - k).toNat = 2 ^ (e - q).toNat * 2 ^ (q - k).toNat := by
  rw [← Nat.pow_add]
  congr 1
  omega

theorem Val.at_rescale {k e0 e : Int} (hk : k ≤ e0) (he : e0 ≤ e) (neg : Bool) (m : Nat) :
    Val.at k neg m e = Val.at e0 neg m e * (2 ^ (e0 - k).toNat : Nat) := by
  rw [Val.at_eq_signed, Val.at_eq_signed, ← signed_mul, two_pow_toNat_split hk he, Nat.mul_assoc]

/-- Two finite values that are equal in units fine enough for both are equal. -/
theorem Val.eq_of_at_eq {k ea eb : Int} {sa sb : Bool} {ma mb : Nat} (ha : k ≤ ea) (hb : k ≤ eb)
    (h : Val.at k sa ma ea = Val.at k sb mb eb) : (Val.num sa ma ea).eq (.num sb mb eb) = true := by
  have hk : k ≤ min ea eb := by omega
  have hpos : ((2 ^ (min ea eb - k).toNat : Nat) : Int) ≠ 0 := by
    have := Nat.two_pow_pos (min ea eb - k).toNat
    omega
  have heq : Val.at (min ea eb) sa ma ea = Val.at (min ea eb) sb mb eb := by
    rw [Val.at_rescale hk (Int.min_le_left ea eb), Val.at_rescale hk (Int.min_le_right ea eb)] at h
    exact Int.eq_of_mul_eq_mul_right hpos h
  have hcomm : min eb ea = min ea eb := Int.min_comm eb ea
  have hirrefl : decide (Val.at (min ea eb) sb mb eb < Val.at (min ea eb) sb mb eb) = false :=
    decide_eq_false (Int.lt_irrefl _)
  simp only [Val.eq, Val.lt, Val.isNaN, hcomm, heq, hirrefl, Bool.not_false, Bool.and_self]

/-! ## Rounding to the nearest term of a sequence -/

/-- `x / d` rounded to the nearest integer, halves up. -/
def roundDiv (x d : Nat) : Nat := x / d + if d ≤ 2 * (x % d) then 1 else 0

theorem roundDiv_mul_self (n : Nat) {d : Nat} (hd : 0 < d) : roundDiv (n * d) d = n := by
  rw [roundDiv, Nat.mul_div_cancel n hd, Nat.mul_mod_left, if_neg (by omega), Nat.add_zero]

theorem roundDiv_mul_right (x d : Nat) {j : Nat} (hj : 0 < j) : roundDiv (x * j) (d * j) = roundDiv x d := by
  have hle : d * j ≤ 2 * (x % d * j) ↔ d ≤ 2 * (x % d) := by
    rw [← Nat.mul_assoc]
    exact Nat.mul_le_mul_right_iff hj
  rw [roundDiv, Nat.mul_div_mul_right _ _ hj, Nat.mul_mod_mul_right, roundDiv]
  simp only [hle]

theorem shiftRound_away (m sh : Nat) (sticky : Bool) : shiftRound .away m sh sticky = roundDiv m (2 ^ sh) := by
  cases sh with
  | zero =>
    have hsame : shiftRound .away m 0 sticky = m := rfl
    rw [hsame, roundDiv, Nat.pow_zero, Nat.div_one, Nat.mod_one, if_neg (by omega), Nat.add_zero]
  | succ sh =>
    have hhalf : 2 ^ (sh + 1) ≤ 2 * (m % 2 ^ (sh + 1)) ↔ 2 ^ sh ≤ m % 2 ^ (sh + 1) := by
      generalize m % 2 ^ (sh + 1) = r
      omega
    have hne : (sh + 1 == 0) = false := rfl
    simp only [shiftRound, roundDiv, hhalf, hne, Bool.false_eq_true, if_false, Nat.add_sub_cancel, decide_eq_true_eq]
    split
    case isTrue => rfl
    case isFalse => exact (Nat.add_zero _).symm

/-- `m * 2 ^ e` on the grid of `2 ^ q`, ties away from zero (R50), in units of `2 ^ k`. -/
theorem shift_eq_roundDiv {k q e : Int} (hq : k ≤ q) (he : k ≤ e) (m : Nat) (sticky : Bool) :
    (if q ≤ e then m * 2 ^ (e - q).toNat else shiftRound .away m (q - e).toNat sticky) =
      roundDiv (m * 2 ^ (e - k).toNat) (2 ^ (q - k).toNat) := by
  split
  case isTrue h => rw [two_pow_toNat_split hq h, ← Nat.mul_assoc, roundDiv_mul_self _ (Nat.two_pow_pos _)]
  case isFalse h =>
    rw [two_pow_toNat_split he (by omega : e ≤ q), roundDiv_mul_right _ _ (Nat.two_pow_pos _), shiftRound_away]

/-- Each term is above the one before it. -/
def Rising (a : Nat → Nat) : Prop := ∀ n, a n < a (n + 1)

theorem Rising.le {a : Nat → Nat} (ha : Rising a) {i j : Nat} (h : i ≤ j) : a i ≤ a j := by
  induction h with
  | refl => exact Nat.le_refl _
  | step _ ih => exact Nat.le_trans ih (Nat.le_of_lt (ha _))

theorem Rising.le_of_le {a : Nat → Nat} (ha : Rising a) {i j : Nat} (h : a i ≤ a j) : i ≤ j := by
  rcases Nat.lt_or_ge j i with hlt | hge
  · exact absurd h (Nat.not_le.mpr (Nat.lt_of_lt_of_le (ha j) (ha.le hlt)))
  · exact hge

/-- Coarser units keep the order. -/
theorem Rising.mul {a : Nat → Nat} (ha : Rising a) {u : Nat} (hu : 0 < u) : Rising (fun n => a n * u) :=
  fun n => Nat.mul_lt_mul_of_pos_right (ha n) hu

/-- `c` is the place in the increasing sequence `a` of the term nearest to `x`, the higher one from the midpoint on. -/
def RoundsTo (a : Nat → Nat) (x c : Nat) : Prop :=
  ∃ c0, a c0 ≤ x ∧ x < a (c0 + 1) ∧ c = if a c0 + a (c0 + 1) ≤ 2 * x then c0 + 1 else c0

theorem roundsTo_zero {a : Nat → Nat} (ha : Rising a) (h0 : a 0 = 0) : RoundsTo a 0 0 := by
  have h1 : a 0 < a (0 + 1) := ha 0
  exact ⟨0, Nat.le_of_eq h0, by omega, by rw [if_neg (by omega)]⟩

/-- A sequence that runs in steps of `d` about `x` is rounded to by dividing by `d`. -/
theorem roundsTo_of_step {a : Nat → Nat} {x b d : Nat} (hd : 0 < d) (h0 : a (b + x / d) = x / d * d)
    (h1 : a (b + x / d + 1) = (x / d + 1) * d) : RoundsTo a x (b + roundDiv x d) := by
  have hx : x / d * d + x % d = x := Nat.div_add_mod' x d
  have hlt : x % d < d := Nat.mod_lt x hd
  rw [Nat.add_mul, Nat.one_mul] at h1
  refine ⟨b + x / d, by omega, by omega, ?_⟩
  unfold roundDiv
  split <;> split <;> omega

/-- `r` is as near to `v` as `x` is, and where they are equally near it is as far from 0. -/
def AtLeastAsNear (v r x : Int) : Prop :=
  (r - v).natAbs ≤ (x - v).natAbs ∧ ((r - v).natAbs = (x - v).natAbs → x.natAbs ≤ r.natAbs)

/-- Among the terms up to `M`, the one that saturating leaves is the nearest. -/
theorem RoundsTo.nearest {a : Nat → Nat} (ha : Rising a) {x c M c' : Nat} (h : RoundsTo a x c) (hc : c' ≤ M) :
    AtLeastAsNear x (a (min c M)) (a c') := by
  obtain ⟨c0, hlo, hhi, rfl⟩ := h
  have hM : a c' ≤ a M := ha.le hc
  unfold AtLeastAsNear
  rcases Nat.lt_or_ge c0 M with hlt | hge
  case inr =>
    -- x lies at or above the last term
    have : a M ≤ a c0 := ha.le hge
    rw [Nat.min_eq_right (by split <;> omega)]
    omega
  case inl =>
    rw [Nat.min_eq_left (by split <;> omega)]
    rcases Nat.lt_or_ge c0 c' with hup | hdown
    · have : a (c0 + 1) ≤ a c' := ha.le hup
      split <;> omega
    · have : a c' ≤ a c0 := ha.le hdown
      split <;> omega

/-- The same of signed values: a term of the other sign is no nearer than 0. -/
theorem RoundsTo.signed_nearest {a : Nat → Nat} (ha : Rising a) (h0 : a 0 = 0) {x c M c' : Nat} {neg neg' : Bool}
    (h : RoundsTo a x c) (hc : neg' = neg → c' ≤ M) :
    AtLeastAsNear (signed neg x) (signed neg (a (min c M))) (signed neg' (a c')) := by
  by_cases hs : neg' = neg
  · have hnear := h.nearest ha (hc hs)
    subst hs
    unfold AtLeastAsNear at hnear ⊢
    cases neg' <;> simp only [signed, if_true, Bool.false_eq_true, if_false] <;> omega
  · have hnear := h.nearest ha (Nat.zero_le M)
    rw [h0] at hnear
    unfold AtLeastAsNear at hnear ⊢
    have hflip : neg' = !neg := Bool.eq_not.mpr hs
    subst hflip
    cases neg <;> simp only [signed, Bool.not_false, Bool.not_true, if_true, Bool.false_eq_true, if_false] <;> omega

/-! ## The magnitudes of floating codes (R28) -/

/-- The exponent of the smallest subnormal. -/
def FloatFmt.emin (f : FloatFmt) : Int := 1 - (f.bias : Int) - f.mbits

/-- The magnitude of a finite code without its sign bit, in units of the smallest subnormal. -/
def FloatFmt.units (f : FloatFmt) (c : Nat) : Nat :=
  if c / 2 ^ f.mbits = 0 then c % 2 ^ f.mbits
  else (2 ^ f.mbits + c % 2 ^ f.mbits) * 2 ^ (c / 2 ^ f.mbits - 1)

section Units

variable {f : FloatFmt}

theorem FloatFmt.units_zero : f.units 0 = 0 := by
  rw [FloatFmt.units, Nat.zero_div, if_pos rfl, Nat.zero_mod]

theorem FloatFmt.units_field {E M : Nat} (hM : M < 2 ^ f.mbits) :
    f.units (2 ^ f.mbits * E + M) = if E = 0 then M else (2 ^ f.mbits + M) * 2 ^ (E - 1) := by
  have hdiv : (2 ^ f.mbits * E + M) / 2 ^ f.mbits = E := by
    rw [Nat.mul_add_div (Nat.two_pow_pos _), Nat.div_eq_of_lt hM, Nat.add_zero]
  rw [FloatFmt.units, hdiv, Nat.mul_add_mod, Nat.mod_eq_of_lt hM]

/-- Neighbouring codes lie one unit in the last place apart, across binades too. -/
theorem FloatFmt.units_succ (c : Nat) : f.units (c + 1) = f.units c + 2 ^ (c / 2 ^ f.mbits - 1) := by
  have hc : 2 ^ f.mbits * (c / 2 ^ f.mbits) + c % 2 ^ f.mbits = c := Nat.div_add_mod c _
  have hM : c % 2 ^ f.mbits < 2 ^ f.mbits := Nat.mod_lt c (Nat.two_pow_pos _)
  generalize c / 2 ^ f.mbits = E at *
  generalize c % 2 ^ f.mbits = M at *
  subst hc
  rw [FloatFmt.units_field hM]
  by_cases hlast : M + 1 < 2 ^ f.mbits
  · rw [Nat.add_assoc, FloatFmt.units_field hlast]
    split
    case isTrue h => rw [h, Nat.zero_sub, Nat.pow_zero]
    case isFalse => rw [← Nat.add_assoc, Nat.add_mul _ 1, Nat.one_mul]
  · have hcarry : 2 ^ f.mbits * E + M + 1 = 2 ^ f.mbits * (E + 1) + 0 := by rw [Nat.mul_succ]; omega
    have hfull : 2 ^ f.mbits = M + 1 := by omega
    rw [hcarry, FloatFmt.units_field (Nat.two_pow_pos _), if_neg (Nat.succ_ne_zero E), hfull, Nat.add_sub_cancel,
      Nat.add_zero]
    cases E with
    | zero => rw [if_pos rfl, Nat.pow_zero, Nat.mul_one]
    | succ E =>
      rw [if_neg (Nat.succ_ne_zero E), Nat.add_sub_cancel, Nat.pow_succ, Nat.mul_comm (2 ^ E), ← Nat.mul_assoc,
        ← Nat.succ_mul]
      congr 1
      omega

theorem FloatFmt.units_rising : Rising f.units := fun c => by
  rw [FloatFmt.units_succ]
  exact Nat.lt_add_of_pos_right (Nat.two_pow_pos _)

/-- The exponent field that a significand of `mbits + 1` bits `t` places above the subnormals has. -/
theorem FloatFmt.exponent_of_significand {t n : Nat} (hlo : t = 0 ∨ 2 ^ f.mbits ≤ n) (hhi : n < 2 ^ (f.mbits + 1)) :
    (t * 2 ^ f.mbits + n) / 2 ^ f.mbits - 1 = t := by
  rw [Nat.pow_succ] at hhi
  rw [Nat.mul_comm t, Nat.mul_add_div (Nat.two_pow_pos _)]
  rcases Nat.lt_or_ge n (2 ^ f.mbits) with hn | hn
  · rw [Nat.div_eq_of_lt hn]
    omega
  · rw [Nat.div_eq_of_lt_le (k := 1) (by omega) (by omega), Nat.add_sub_cancel]

theorem FloatFmt.units_of_significand {t n : Nat} (hlo : t = 0 ∨ 2 ^ f.mbits ≤ n) (hhi : n < 2 ^ (f.mbits + 1)) :
    f.units (t * 2 ^ f.mbits + n) = n * 2 ^ t := by
  rw [Nat.pow_succ] at hhi
  rcases Nat.lt_or_ge n (2 ^ f.mbits) with hn | hn
  · obtain rfl : t = 0 := by omega
    rw [Nat.mul_comm, FloatFmt.units_field hn, if_pos rfl, Nat.pow_zero, Nat.mul_one]
  · have hsplit : t * 2 ^ f.mbits + n = 2 ^ f.mbits * (t + 1) + (n - 2 ^ f.mbits) := by
      rw [Nat.mul_succ, Nat.mul_comm]
      omega
    rw [hsplit, FloatFmt.units_field (by omega), if_neg (Nat.succ_ne_zero t), Nat.add_sub_cancel,
      Nat.add_sub_cancel' hn]

/-- The code after the one of a significand is that of the significand's successor. -/
theorem FloatFmt.units_of_significand_succ {t n : Nat} (hlo : t = 0 ∨ 2 ^ f.mbits ≤ n)
    (hhi : n < 2 ^ (f.mbits + 1)) : f.units (t * 2 ^ f.mbits + n + 1) = (n + 1) * 2 ^ t := by
  rw [FloatFmt.units_succ, FloatFmt.exponent_of_significand hlo hhi, FloatFmt.units_of_significand hlo hhi,
    Nat.add_mul, Nat.one_mul]

end Units

/-! ## The values of floating codes -/

section FloatValues

variable {f : FloatFmt} {k : Int}

/-- A finite code's value is its sign with its magnitude. -/
theorem floatVal_of_mag_le {code : Nat} (hk : k ≤ f.emin) (h : code % 2 ^ (f.width - 1) ≤ f.maxCode) :
    (floatVal f code).finite = true ∧ inUnits k (floatVal f code) =
      signed (code / 2 ^ (f.width - 1) % 2 == 1) (f.units (code % 2 ^ (f.width - 1)) * 2 ^ (f.emin - k).toNat) := by
  unfold floatVal
  generalize code % 2 ^ (f.width - 1) = mag at *
  simp only [Nat.not_lt.mpr h, if_false, beq_iff_eq, FloatFmt.units]
  split
  case isTrue => exact ⟨rfl, rfl⟩
  case isFalse hE =>
    refine ⟨rfl, ?_⟩
    have hexp : ((mag / 2 ^ f.mbits : Nat) - (f.bias : Int) - f.mbits - k).toNat =
        mag / 2 ^ f.mbits - 1 + (f.emin - k).toNat := by
      generalize mag / 2 ^ f.mbits = E at *
      unfold FloatFmt.emin at *
      omega
    rw [inUnits, Val.at_eq_signed, hexp, Nat.pow_add, Nat.mul_assoc]

theorem mag_le_of_finite {code : Nat} (h : (floatVal f code).finite = true) :
    code % 2 ^ (f.width - 1) ≤ f.maxCode := by
  rcases Nat.lt_or_ge f.maxCode (code % 2 ^ (f.width - 1)) with hgt | hle
  · simp only [floatVal, hgt, if_true] at h
    split at h <;> exact absurd h Bool.false_ne_true
  · exact hle

/-- The significand and the exponent of a finite code (R31). -/
theorem floatVal_num_bounds {code m : Nat} {s : Bool} {e : Int} (h : floatVal f code = .num s m e) :
    m < 2 ^ (f.mbits + 1) ∧ f.emin ≤ e ∧ e ≤ f.emin + (f.maxCode / 2 ^ f.mbits : Nat) := by
  have hmag := mag_le_of_finite (f := f) (code := code) (by rw [h]; rfl)
  unfold floatVal at h
  generalize code % 2 ^ (f.width - 1) = mag at *
  have hE : mag / 2 ^ f.mbits ≤ f.maxCode / 2 ^ f.mbits := Nat.div_le_div_right hmag
  have hM : mag % 2 ^ f.mbits < 2 ^ f.mbits := Nat.mod_lt mag (Nat.two_pow_pos _)
  simp only [Nat.not_lt.mpr hmag, if_false, beq_iff_eq] at h
  generalize mag / 2 ^ f.mbits = E at *
  generalize f.maxCode / 2 ^ f.mbits = Emax at *
  rw [Nat.pow_succ, FloatFmt.emin]
  split at h <;> obtain ⟨-, rfl, rfl⟩ := Val.num.inj h <;> omega

/-- The code of a sign and a magnitude code has that magnitude with that sign. -/
theorem floatVal_signBit_add {c : Nat} (hk : k ≤ f.emin) (hw : f.maxCode < 2 ^ (f.width - 1)) (hc : c ≤ f.maxCode)
    (neg : Bool) : (floatVal f (signBit f neg + c)).finite = true ∧
      inUnits k (floatVal f (signBit f neg + c)) = signed neg (f.units c * 2 ^ (f.emin - k).toNat) := by
  have hlt : c < 2 ^ (f.width - 1) := by omega
  have hmod : (signBit f neg + c) % 2 ^ (f.width - 1) = c := by
    cases neg
    · exact (congrArg (· % _) (Nat.zero_add c)).trans (Nat.mod_eq_of_lt hlt)
    · exact (Nat.add_mod_left _ c).trans (Nat.mod_eq_of_lt hlt)
  have hdiv : ((signBit f neg + c) / 2 ^ (f.width - 1) % 2 == 1) = neg := by
    cases neg
    · simp only [signBit, Bool.false_eq_true, if_false, Nat.zero_add, Nat.div_eq_of_lt hlt]; rfl
    · simp only [signBit, if_true, Nat.add_div_left _ (Nat.two_pow_pos _), Nat.div_eq_of_lt hlt]; rfl
  have hval := floatVal_of_mag_le (code := signBit f neg + c) hk (by rw [hmod]; exact hc)
  rwa [hmod, hdiv] at hval

end FloatValues

/-! ## Rounding to a floating format (R50) -/

section RoundMag

variable {f : FloatFmt} {m : Nat} {e k : Int}

/-- The exponent of the grid that a value is rounded on: that of its last significand bit, at least that
of a subnormal. -/
def gridExp (f : FloatFmt) (m : Nat) (e : Int) : Int := max ((Nat.log2 m : Int) - f.mbits + e) f.emin

theorem emin_le_gridExp : f.emin ≤ gridExp f m e := Int.le_max_right _ _

theorem roundMag_eq (r : Rounding) (hm : m ≠ 0) (sticky : Bool) :
    roundMag r f m e sticky = (gridExp f m e - f.emin).toNat * 2 ^ f.mbits +
      if gridExp f m e ≤ e then m * 2 ^ (e - gridExp f m e).toNat
      else shiftRound r m (gridExp f m e - e).toNat sticky := by
  have hgrid : gridExp f m e - e ≤ 0 ↔ gridExp f m e ≤ e := by omega
  have hite : ∀ a b : Nat, (if gridExp f m e - e ≤ 0 then a else b) = if gridExp f m e ≤ e then a else b :=
    fun a b => by simp only [hgrid]
  have hzero : (m == 0) = false := beq_eq_false_iff_ne.mpr hm
  rw [← hite, ← Int.neg_sub (gridExp f m e) e, roundMag, hzero]
  rfl

/-- On its grid a value has at most the bits of a significand, and all of them above the subnormals. -/
theorem significand_bounds (hm : m ≠ 0) (hk : k ≤ f.emin) (he : k ≤ e) :
    let n := m * 2 ^ (e - k).toNat / 2 ^ (gridExp f m e - k).toNat
    ((gridExp f m e - f.emin).toNat = 0 ∨ 2 ^ f.mbits ≤ n) ∧ n < 2 ^ (f.mbits + 1) := by
  have hq : f.emin ≤ gridExp f m e := emin_le_gridExp
  have hlo : 2 ^ Nat.log2 m ≤ m := Nat.log2_self_le hm
  have hhi : m < 2 ^ (Nat.log2 m + 1) := Nat.lt_log2_self
  have hpos : 0 < 2 ^ (gridExp f m e - k).toNat := Nat.two_pow_pos _
  constructor
  · rw [Nat.le_div_iff_mul_le hpos, ← Nat.pow_add, Decidable.or_iff_not_imp_left]
    intro ht
    calc 2 ^ (f.mbits + (gridExp f m e - k).toNat) = 2 ^ (Nat.log2 m + (e - k).toNat) := by
          congr 1
          unfold gridExp at *
          omega
      _ = 2 ^ Nat.log2 m * 2 ^ (e - k).toNat := Nat.pow_add _ _ _
      _ ≤ _ := Nat.mul_le_mul_right _ hlo
  · rw [Nat.div_lt_iff_lt_mul hpos, ← Nat.pow_add]
    calc m * 2 ^ (e - k).toNat < 2 ^ (Nat.log2 m + 1) * 2 ^ (e - k).toNat :=
          Nat.mul_lt_mul_of_pos_right hhi (Nat.two_pow_pos _)
      _ = 2 ^ (Nat.log2 m + 1 + (e - k).toNat) := (Nat.pow_add _ _ _).symm
      _ ≤ _ := Nat.pow_le_pow_right (by omega) (by unfold gridExp at *; omega)

/-- Rounding a magnitude gives the code of the nearest one, ties away from zero, with unbounded exponent. -/
theorem roundMag_away_roundsTo (hk : k ≤ f.emin) (he : k ≤ e) (sticky : Bool) :
    RoundsTo (fun c => f.units c * 2 ^ (f.emin - k).toNat) (m * 2 ^ (e - k).toNat) (roundMag .away f m e sticky) := by
  by_cases hm : m = 0
  case pos =>
    subst hm
    have hcode : roundMag .away f 0 e sticky = 0 := rfl
    rw [hcode, Nat.zero_mul]
    exact roundsTo_zero (FloatFmt.units_rising.mul (Nat.two_pow_pos _)) (by rw [FloatFmt.units_zero, Nat.zero_mul])
  case neg =>
    have hq : f.emin ≤ gridExp f m e := emin_le_gridExp
    obtain ⟨hlo, hhi⟩ := significand_bounds hm hk he
    rw [roundMag_eq .away hm, shift_eq_roundDiv (Int.le_trans hk hq) he]
    have hstep := two_pow_toNat_split hk hq
    apply roundsTo_of_step (Nat.two_pow_pos _)
    · rw [FloatFmt.units_of_significand hlo hhi, hstep, Nat.mul_assoc]
    · rw [FloatFmt.units_of_significand_succ hlo hhi, hstep, Nat.mul_assoc]

/-- A magnitude that fits a significand, on or above the subnormal grid, is not rounded, whatever the rounding. -/
theorem units_roundMag_of_fits (r : Rounding) (hbits : Nat.log2 m ≤ f.mbits) (he : f.emin ≤ e) (sticky : Bool) :
    f.units (roundMag r f m e sticky) = m * 2 ^ (e - f.emin).toNat := by
  by_cases hm : m = 0
  case pos =>
    subst hm
    rw [Nat.zero_mul]
    exact FloatFmt.units_zero
  case neg =>
    have hq : f.emin ≤ gridExp f m e := emin_le_gridExp
    have hqe : gridExp f m e ≤ e := by unfold gridExp; omega
    have hsplit := two_pow_toNat_split hq hqe
    have hn : m * 2 ^ (e - f.emin).toNat / 2 ^ (gridExp f m e - f.emin).toNat = m * 2 ^ (e - gridExp f m e).toNat := by
      rw [hsplit, ← Nat.mul_assoc, Nat.mul_div_cancel _ (Nat.two_pow_pos _)]
    obtain ⟨hlo, hhi⟩ := significand_bounds (f := f) hm (Int.le_refl _) he
    rw [hn] at hlo hhi
    rw [roundMag_eq r hm, if_pos hqe, FloatFmt.units_of_significand hlo hhi, hsplit, Nat.mul_assoc]

end RoundMag

/-! ## Conversions to the floating formats (R51) -/

/-- The code that a conversion leaves: the rounded magnitude cut at the largest finite one, with the value's sign. -/
theorem convert_float {f : Format} {ff : FloatFmt} (hf : floatFmt f = some ff) (neg : Bool) (m : Nat) (e : Int) :
    (convert f (.num neg m e)).code = signBit ff neg + min (roundMag .away ff m e false) ff.maxCode := by
  simp only [convert, convertZ, hf]
  split
  case isTrue h => rw [Nat.min_eq_right (Nat.le_of_lt h)]
  case isFalse h => rw [Nat.min_eq_left (Nat.not_lt.mp h)]

theorem fmtVal_float {f : Format} {ff : FloatFmt} (hf : floatFmt f = some ff) (code : Nat) :
    fmtVal f code = floatVal ff code := by
  simp only [fmtVal, hf]

/-- The largest magnitude code leaves the sign bit free, and no format is finer than binary64. -/
theorem floatFmt_shape {f : Format} {ff : FloatFmt} (hf : floatFmt f = some ff) :
    ff.maxCode < 2 ^ (ff.width - 1) ∧ -1074 ≤ ff.emin := by
  cases f <;> cases hf <;> decide

theorem convert_float_nearest {f : Format} {ff : FloatFmt} (hf : floatFmt f = some ff) (neg : Bool) (m : Nat)
    {e k : Int} (hk : k ≤ -1074) (he : k ≤ e) {c : Nat} (hc : (fmtVal f c).finite = true) :
    (fmtVal f (convert f (.num neg m e)).code).finite = true ∧
      AtLeastAsNear (Val.at k neg m e) (inUnits k (fmtVal f (convert f (.num neg m e)).code))
        (inUnits k (fmtVal f c)) := by
  obtain ⟨hw, hemin⟩ := floatFmt_shape hf
  rw [fmtVal_float hf] at hc
  rw [fmtVal_float hf, fmtVal_float hf, convert_float hf]
  have hmag := mag_le_of_finite hc
  have hke : k ≤ ff.emin := Int.le_trans hk hemin
  obtain ⟨hfin, hval⟩ := floatVal_signBit_add hke hw (Nat.min_le_right (roundMag .away ff m e false) ff.maxCode) neg
  obtain ⟨-, hother⟩ := floatVal_of_mag_le hke hmag
  refine ⟨hfin, ?_⟩
  rw [hval, hother, Val.at_eq_signed]
  exact (roundMag_away_roundsTo hke he false).signed_nearest
    (FloatFmt.units_rising.mul (Nat.two_pow_pos _)) (by rw [FloatFmt.units_zero, Nat.zero_mul]) (fun _ => hmag)

/-! ## Conversions to the integer formats -/

/-- The largest magnitude of a `w`-bit integer code with the sign given. -/
def intLimit (w : Nat) (neg : Bool) : Nat := if neg then 2 ^ (w - 1) else 2 ^ (w - 1) - 1

theorem natAbs_signedCode_le {w : Nat} (hw : 0 < w) (c : Nat) :
    (signedCode w c).natAbs ≤ intLimit w (decide (signedCode w c < 0)) := by
  have hc : c % 2 ^ w < 2 ^ w := Nat.mod_lt c (Nat.two_pow_pos _)
  unfold signedCode intLimit
  generalize c % 2 ^ w = r at *
  simp only [← Nat.two_pow_pred_mul_two hw, decide_eq_true_eq] at *
  generalize 2 ^ (w - 1) = half at *
  split <;> split <;> omega

/-- A code holds every integer of its range. -/
theorem signedCode_intCode {w : Nat} (hw : 0 < w) {z : Int} (hlo : -(2 ^ (w - 1) : Nat) ≤ z)
    (hhi : z < (2 ^ (w - 1) : Nat)) : signedCode w (intCode w z) = z := by
  unfold signedCode intCode
  rw [← Nat.two_pow_pred_mul_two hw]
  generalize 2 ^ (w - 1) = half at *
  have hlt : (z % (half * 2 : Nat)).toNat < half * 2 := by
    have := Int.emod_lt_of_pos z (b := (half * 2 : Nat)) (by omega)
    omega
  dsimp only
  rw [Nat.mod_eq_of_lt hlt]
  rcases Int.lt_or_le z 0 with hneg | hpos
  · rw [← Int.add_emod_right, Int.emod_eq_of_lt (by omega) (by omega), if_neg (by omega)]
    omega
  · rw [Int.emod_eq_of_lt hpos (by omega), if_pos (by omega)]
    omega

theorem roundInt_eq_signed {k e : Int} (hk : k ≤ 0) (he : k ≤ e) (neg : Bool) (m : Nat) :
    roundInt neg m e = signed neg (roundDiv (m * 2 ^ (e - k).toNat) (2 ^ (0 - k).toNat)) := by
  rw [← shift_eq_roundDiv hk he m false, roundInt, signed, Int.sub_zero, Int.zero_sub, apply_ite Nat.cast]

section IntFormats

variable {f : Format}

theorem fmtWidth_pos (f : Format) : 0 < fmtWidth f := by cases f <;> decide

theorem fmtVal_int (hf : floatFmt f = none) (code : Nat) : fmtVal f code = valOfInt (signedCode (fmtWidth f) code) := by
  simp only [fmtVal, hf, valOfInt]

theorem inUnits_valOfInt (k z : Int) :
    inUnits k (valOfInt z) = signed (decide (z < 0)) (z.natAbs * 2 ^ (0 - k).toNat) := rfl

/-- The integer that a conversion leaves: the magnitude cut at the end of its side of the range (R51). -/
theorem convert_int (hf : floatFmt f = none) {neg : Bool} {m n : Nat} {e : Int} (hn : roundInt neg m e = signed neg n) :
    (convert f (.num neg m e)).code = intCode (fmtWidth f) (signed neg (min n (intLimit (fmtWidth f) neg))) := by
  simp only [convert, convertZ, hf, hn, Int.add_zero]
  have hpos : 0 < 2 ^ (fmtWidth f - 1) := Nat.two_pow_pos _
  unfold intMax intMin intLimit
  generalize 2 ^ (fmtWidth f - 1) = half at *
  cases neg <;> simp only [signed, if_true, Bool.false_eq_true, if_false]
  · split
    case isTrue h => rw [Nat.min_eq_right (by omega), Int.natCast_sub hpos]; rfl
    case isFalse h => rw [if_neg (by omega), Nat.min_eq_left (by omega)]
  · rw [if_neg (by omega)]
    split
    case isTrue h => rw [Nat.min_eq_right (by omega)]
    case isFalse h => rw [Nat.min_eq_left (by omega)]

theorem fmtVal_convert_int (hf : floatFmt f = none) {neg : Bool} {m n : Nat} {e : Int}
    (hn : roundInt neg m e = signed neg n) :
    fmtVal f (convert f (.num neg m e)).code = valOfInt (signed neg (min n (intLimit (fmtWidth f) neg))) := by
  have hpos : 0 < 2 ^ (fmtWidth f - 1) := Nat.two_pow_pos _
  rw [fmtVal_int hf, convert_int hf hn, signedCode_intCode (fmtWidth_pos f)]
  all_goals
    unfold signed intLimit
    generalize 2 ^ (fmtWidth f - 1) = half at *
    cases neg <;> simp only [if_true, Bool.false_eq_true, if_false] <;> omega

theorem convert_int_nearest (hf : floatFmt f = none) (neg : Bool) (m : Nat) {e k : Int} (hk : k ≤ 0)
    (he : k ≤ e) (c : Nat) :
    (fmtVal f (convert f (.num neg m e)).code).finite = true ∧
      AtLeastAsNear (Val.at k neg m e) (inUnits k (fmtVal f (convert f (.num neg m e)).code))
        (inUnits k (fmtVal f c)) := by
  have hpos : 0 < 2 ^ (0 - k).toNat := Nat.two_pow_pos _
  have hrising : Rising (fun n => n * 2 ^ (0 - k).toNat) := fun n => Nat.mul_lt_mul_of_pos_right n.lt_succ_self hpos
  have hround := roundsTo_of_step (a := fun n => n * 2 ^ (0 - k).toNat) (x := m * 2 ^ (e - k).toNat) (b := 0) hpos
    (by rw [Nat.zero_add]) (by rw [Nat.zero_add])
  rw [Nat.zero_add] at hround
  rw [fmtVal_convert_int hf (roundInt_eq_signed hk he neg m), fmtVal_int hf]
  refine ⟨rfl, ?_⟩
  have hval (z : Int) : inUnits k (valOfInt z) = z * (2 ^ (0 - k).toNat : Nat) := by
    rw [inUnits_valOfInt, signed_mul, signed_natAbs]
  rw [hval, ← signed_mul, inUnits_valOfInt, Val.at_eq_signed]
  refine hround.signed_nearest hrising (Nat.zero_mul _) fun hs => ?_
  rw [← hs]
  exact natAbs_signedCode_le (fmtWidth_pos f) c

end IntFormats

/-! ## The terms of narrow products (R35) -/

section Exact

variable {f : FloatFmt} {m : Nat} {e : Int}

/-- An arithmetic result that the format holds is not rounded (R119). -/
theorem arith_exact (hw : f.maxCode < 2 ^ (f.width - 1)) (hbits : Nat.log2 m ≤ f.mbits) (he : f.emin ≤ e)
    (hmax : m * 2 ^ (e - f.emin).toNat ≤ f.units f.maxCode) (neg sticky : Bool) :
    (floatVal f (arith f sticky (.num neg m e))).eq (.num neg m e) = true := by
  have hunits := units_roundMag_of_fits .even hbits he sticky
  have hle : roundMag .even f m e sticky ≤ f.maxCode := by
    apply FloatFmt.units_rising.le_of_le
    rwa [hunits]
  obtain ⟨hfin, hval⟩ := floatVal_signBit_add (Int.le_refl _) hw hle neg
  simp only [arith, Nat.not_lt.mpr hle, if_false]
  rw [hunits, Int.sub_self, Int.toNat_zero, Nat.pow_zero, Nat.mul_one, ← Val.at_eq_signed] at hval
  obtain ⟨s, m', e', hv⟩ := Val.exists_num_of_finite hfin
  obtain ⟨-, hexp, -⟩ := floatVal_num_bounds hv
  rw [hv] at hval ⊢
  exact Val.eq_of_at_eq hexp he hval

end Exact

/-- The elements that one cell multiplies have significands of one slice and small exponents (R26, R31). -/
theorem fmtVal_narrow {f : Format} {x m : Nat} {s : Bool} {e : Int} (hp : fmtPleat f = 1)
    (h : fmtVal f x = .num s m e) : m < 16 ∧ -16 ≤ e ∧ e ≤ 14 := by
  cases hf : floatFmt f with
  | none =>
    obtain rfl : f = .int4 := by
      cases f with
      | int4 => rfl
      | int8 => cases hp
      | _ => cases hf
    rw [fmtVal_int hf] at h
    have hm := natAbs_signedCode_le (fmtWidth_pos .int4) x
    obtain ⟨-, rfl, rfl⟩ := Val.num.inj h
    have hlimit : ∀ neg, intLimit (fmtWidth .int4) neg < 16 := by decide
    exact ⟨Nat.lt_of_le_of_lt hm (hlimit _), by omega, by omega⟩
  | some ff =>
    rw [fmtVal_float hf] at h
    obtain ⟨hm, hlo, hhi⟩ := floatVal_num_bounds h
    have hff : 2 ^ (ff.mbits + 1) ≤ 16 ∧ -16 ≤ ff.emin ∧ ff.emin + (ff.maxCode / 2 ^ ff.mbits : Nat) ≤ 14 := by
      cases f <;> cases hp <;> cases hf <;> decide
    omega

/-- The product of two narrow elements is one term, and binary32 holds it. -/
theorem productTerms_narrow {f g : Format} {x y : Nat} (hf : fmtPleat f = 1) (hg : fmtPleat g = 1)
    (hx : (fmtVal f x).finite = true) (hy : (fmtVal g y).finite = true) (hx0 : (fmtVal f x).isZero = false)
    (hy0 : (fmtVal g y).isZero = false) :
    ∃ c, productTerms 1 (fmtVal f x) (fmtVal g y) = [c] ∧ (val32 c).eq ((fmtVal f x).mul (fmtVal g y)) = true := by
  obtain ⟨sa, ma, ea, ha⟩ := Val.exists_num_of_finite hx
  obtain ⟨sb, mb, eb, hb⟩ := Val.exists_num_of_finite hy
  obtain ⟨hma, hea, hea'⟩ := fmtVal_narrow hf ha
  obtain ⟨hmb, heb, heb'⟩ := fmtVal_narrow hg hb
  have hm : sliceProduct 1 ma mb = ma * mb := sliceProduct_eq_mul hma hmb
  simp only [ha, hb, Val.isZero, beq_eq_false_iff_ne] at hx0 hy0 ⊢
  have hne : ma * mb ≠ 0 := Nat.mul_ne_zero hx0 hy0
  have hlt : ma * mb < 16 * 16 := Nat.mul_lt_mul'' hma hmb
  refine ⟨arith binary32 false (.num (sa != sb) (ma * mb) (ea + eb)), ?_, ?_⟩
  · have hmul : (ma * mb == 0) = false := beq_eq_false_iff_ne.mpr hne
    simp only [productTerms, Val.isZero, beq_eq_false_iff_ne.mpr hx0, beq_eq_false_iff_ne.mpr hy0, Bool.or_self, hm]
    rw [termsOf, hmul]
    rfl
  · have hemin : binary32.emin = -149 := by decide
    apply arith_exact (f := binary32) (by decide)
    · have hlog : Nat.log2 (ma * mb) < 8 := (Nat.log2_lt hne).mpr hlt
      exact Nat.le_trans (Nat.le_of_lt hlog) (by decide)
    · omega
    · calc ma * mb * 2 ^ (ea + eb - binary32.emin).toNat ≤ 16 * 16 * 2 ^ 177 :=
            Nat.mul_le_mul (Nat.le_of_lt hlt) (Nat.pow_le_pow_right (by omega) (by omega))
        _ ≤ binary32.units binary32.maxCode := by decide

/-! ## The obligations -/

/-- Settles O43: the codes of a format count through increasing magnitudes, by units in the last place or by 1; rounding
picks the place nearest to the value's magnitude, and a value of the other sign is no nearer than 0. -/
theorem conversionsAreNearest : Obligations.ConversionsAreNearest := by
  unfold Obligations.ConversionsAreNearest
  intro f neg m e k c _ hfin hk he
  cases hf : floatFmt f with
  | some ff => exact convert_float_nearest hf neg m hk he hfin
  | none => exact convert_int_nearest hf neg m (by omega) he c

/-- Settles O44: the slices are the base-16 digits of a significand, a product of two one-slice significands fits 24 bits,
and the corrections of the zero points expand the product of the corrected elements. -/
theorem productsAreExact : Obligations.ProductsAreExact := by
  unfold Obligations.ProductsAreExact
  exact ⟨fun _ _ _ => sliceProduct_eq_mul, fun _ _ _ _ => productTerms_narrow,
    fun _ zx zw _ _ hr h => Red.total_of_isInt hr zx zw h⟩

end Sys2Proof.Machine

/-!
PROOF. O42, a fault in the work of a data command: what the engine's own records can write, what one charged fault leaves of
the engine and of the command, and how a command ends whose work cannot go on.
-/
namespace Sys2Proof.Machine

open Sys2Proof.Claims

variable {s t u : State} {e : Entry} {d : Delta} {x : Nat}

/-! ## What the engine writes of its own accord (R375, R449) -/

/-- Memory has changed in the regions of the journal and of the trace at most, and these lie where they lay. -/
structure LogsOnly (s t : State) : Prop where
  base : t.journal.base = s.journal.base
  mirror : t.journal.mirror = s.journal.mirror
  bytes : t.trace.bytes = s.trace.bytes
  offset : t.trace.offset = s.trace.offset
  pages : t.trace.pages = s.trace.pages
  mem : ∀ a, ¬Logged s a → memGet t.mem a = memGet s.mem a

theorem LogsOnly.refl (s : State) : LogsOnly s s := ⟨rfl, rfl, rfl, rfl, rfl, fun _ _ => rfl⟩

theorem LogsOnly.logged_iff (h : LogsOnly s t) (a : Nat) : Logged t a ↔ Logged s a := by
  simp only [Logged, Trace.byteAddr, h.base, h.mirror, h.bytes, h.offset, h.pages]

theorem LogsOnly.trans (h : LogsOnly s t) (g : LogsOnly t u) : LogsOnly s u where
  base := g.base.trans h.base
  mirror := g.mirror.trans h.mirror
  bytes := g.bytes.trans h.bytes
  offset := g.offset.trans h.offset
  pages := g.pages.trans h.pages
  mem a ha := (g.mem a (fun hl => ha ((h.logged_iff a).mp hl))).trans (h.mem a ha)

theorem LogsOnly.of_same {l : List Part} (h : SameBut l s t) (hm : .mem ∉ l) (hj : .journal ∉ l) (ht : .trace ∉ l) :
    LogsOnly s t where
  base := by rw [h.journal hj]
  mirror := by rw [h.journal hj]
  bytes := by rw [h.trace ht]
  offset := by rw [h.trace ht]
  pages := by rw [h.trace ht]
  mem _ _ := by rw [h.mem hm]

/-- The trace unit may count on as long as its region stays where it is. -/
theorem LogsOnly.withTrace (h : LogsOnly s t) {v : Trace} (hb : v.bytes = s.trace.bytes) (ho : v.offset = s.trace.offset)
    (hp : v.pages = s.trace.pages) : LogsOnly s { t with trace := v } :=
  ⟨h.base, h.mirror, hb, ho, hp, h.mem⟩

theorem LogsOnly.count (h : LogsOnly s t) (c : Counter) (n : Nat) : LogsOnly s (t.count c n) :=
  ⟨h.base, h.mirror, h.bytes, h.offset, h.pages, h.mem⟩

theorem put_logsOnly {a : Nat} {bs : Bytes} (h : ∀ j < bs.length, Logged s (a + j)) : LogsOnly s (s.put a bs) := by
  refine ⟨by simp, by simp, by simp, by simp, by simp, fun b hb => ?_⟩
  rw [State.put_mem]
  refine memGet_memPut_outside (Decidable.byContradiction fun hin => hb ?_)
  have hj := h (b - a) (by omega)
  rwa [Nat.add_sub_cancel' (by omega)] at hj

theorem journalPut_logsOnly (s : State) (off : Nat) (bs : Bytes) : LogsOnly s (s.journalPut off bs) := by
  unfold State.journalPut
  split
  · exact .refl s
  · have hbase : LogsOnly s (s.put (s.journal.base.toNat + off) bs) :=
      put_logsOnly fun j _ => .inl ⟨by omega, by omega⟩
    have hmirror : ∀ j < bs.length, Logged s (s.journal.mirror.toNat + off + j) :=
      fun j _ => .inr (.inl ⟨by omega, by omega⟩)
    split
    · exact hbase.trans (put_logsOnly fun j hj => (hbase.logged_iff _).mpr (hmirror j hj))
    · exact hbase
    · exact put_logsOnly hmirror
    · exact .refl s

/-- An entry is written to its own line of the journal. -/
theorem setEntry_logsOnly (s : State) (e : Entry) : LogsOnly s (s.setEntry e) := by
  unfold State.setEntry
  extract_lets _ u
  have hu : LogsOnly s u := ⟨rfl, rfl, rfl, rfl, rfl, fun _ _ => rfl⟩
  split
  · exact hu.trans (journalPut_logsOnly u _ _)
  · exact hu

/-- The bytes of the region that one page holds lie one after the other. -/
theorem Trace.byteAddr_add (t : Trace) {i j : Nat} (h : (t.offset + i) % 65536 + j < 65536) :
    t.byteAddr (i + j) = t.byteAddr i + j := by
  have hdiv : (t.offset + (i + j)) / 65536 = (t.offset + i) / 65536 := by omega
  have hmod : (t.offset + (i + j)) % 65536 = (t.offset + i) % 65536 + j := by omega
  simp only [Trace.byteAddr, hdiv, hmod, Nat.add_assoc]

theorem TraceRec.bytes_length (r : TraceRec) : r.bytes.length = 32 := by
  simp [TraceRec.bytes, leBytes]

/-- A record is written to the bytes of its slot, in one page or in two. -/
theorem traceSlot_logsOnly (s : State) (slot : Nat) (r : TraceRec) : LogsOnly s (s.traceSlot slot r) := by
  unfold State.traceSlot
  split
  · exact .refl s
  · extract_lets k u
    have hlen := r.bytes_length
    have hlogged : ∀ i j, i + j < s.trace.bytes → (s.trace.offset + i) % 65536 + j < 65536 →
        Logged s (s.trace.byteAddr i + j) :=
      fun i j hi hj => .inr (.inr ⟨i + j, hi, s.trace.byteAddr_add hj⟩)
    have hu : LogsOnly s u := by
      refine put_logsOnly fun j hj => ?_
      rw [List.length_take] at hj
      exact hlogged _ _ (by omega) (by omega)
    split
    · exact hu
    · refine hu.trans (put_logsOnly fun j hj => (hu.logged_iff _).mpr ?_)
      rw [List.length_drop] at hj
      have hk : u.trace = s.trace := State.put_trace _ _ _
      rw [hk]
      exact hlogged _ _ (by omega) (by omega)

theorem traceWrite_logsOnly (s : State) (slot : Nat) (r : TraceRec) : LogsOnly s (s.traceWrite slot r) :=
  (traceSlot_logsOnly s slot r).count _ _

theorem traceDrop_logsOnly (s : State) (w : W64) : LogsOnly s (s.traceDrop w) := by
  unfold State.traceDrop
  extract_lets _ _ u _
  have hu : LogsOnly s u := (LogsOnly.refl s).withTrace rfl rfl rfl
  exact (hu.trans (traceSlot_logsOnly u _ _)).count _ _

theorem traceTrip_logsOnly (s : State) (data : W64) (ctx : Nat) (seq : W32) : LogsOnly s (s.traceTrip data ctx seq) := by
  unfold State.traceTrip
  extract_lets _ _ _ u _
  have hu : LogsOnly s u := (LogsOnly.refl s).withTrace rfl rfl rfl
  exact (hu.trans (traceWrite_logsOnly u _ _)).count _ _

theorem traceArrive_logsOnly (s : State) (r : TraceRec) : LogsOnly s (s.traceArrive r) := by
  unfold State.traceArrive
  extract_lets _ n v _ _ _ w
  have hv : LogsOnly s v := traceWrite_logsOnly s n r
  have hnext : LogsOnly s { v with trace := { s.trace with next := n + 1 } } := hv.withTrace rfl rfl rfl
  have hw : LogsOnly s w := by
    unfold w
    split <;> exact hv.withTrace hv.bytes hv.offset hv.pages
  split
  · split <;> exact hv.withTrace hv.bytes hv.offset hv.pages
  · split
    · exact hnext
    · exact traceDrop_logsOnly s r.t
  · split
    · split
      · exact hnext
      · exact traceDrop_logsOnly s r.t
    · split
      · exact hw.trans (traceTrip_logsOnly w _ _ _)
      · exact hw
  · exact .refl s

theorem traceFault_logsOnly (s : State) (k : FaultKind) (action : Nat) (unit : TraceUnit) (ctx : Nat) (seq : W32) :
    LogsOnly s (s.traceFault k action unit ctx seq) := by
  unfold State.traceFault State.traceRec
  split
  · refine ((LogsOnly.refl s).withTrace ?_ ?_ ?_).trans (traceArrive_logsOnly _ _)
    all_goals
      unfold Trace.resume
      split <;> rfl
  · exact .refl s

theorem resetCore_logsOnly (s : State) (x : Nat) : LogsOnly s (s.resetCore x) :=
  ⟨rfl, rfl, rfl, rfl, rfl, fun _ _ => rfl⟩

/-! ## The entries of the journal -/

/-- What the row of an opcode finds: an entry of that context, SEQ and opcode, undecided. -/
theorem runnable_eq_some {op : Op} {n : Nat} {q : W32} (h : s.runnable op n q = some e) :
    e ∈ s.journal.entries ∧ e.ctx = n ∧ e.op = some op ∧ e.decided = false := by
  unfold State.runnable at h
  split at h
  · cases h
  · next y hy =>
    split at h
    · next hif =>
      cases h
      have hfound := List.find?_some hy
      simp only [Bool.and_eq_true, beq_iff_eq] at hfound
      exact ⟨List.mem_of_find?_eq_some hy, hfound.1.1, hif.1, hif.2.2.1⟩
    · cases h

end Sys2Proof.Machine

namespace Sys2Proof.Claims

open Sys2Proof.Machine

variable {s t u : State} {e : Entry} {d : Delta}

theorem Numbered.eq_of_id (h : Numbered s) {y : Entry} (hy : y ∈ s.journal.entries) (he : e ∈ s.journal.entries)
    (hid : y.id = e.id) : y = e := by
  have hrising := List.pairwise_iff_getElem.mp (List.pairwise_map.mp h.1)
  obtain ⟨j, hj, rfl⟩ := List.getElem_of_mem hy
  obtain ⟨k, hk, rfl⟩ := List.getElem_of_mem he
  rcases Nat.lt_trichotomy j k with hjk | rfl | hkj
  · exact absurd hid (Nat.ne_of_lt (hrising j k hj hk hjk))
  · rfl
  · exact absurd hid (Nat.ne_of_gt (hrising k j hk hj hkj))

theorem OthersIdsKept.of_journal (h : t.journal = s.journal) : OthersIdsKept s t := by
  unfold OthersIdsKept; rw [h]

theorem OthersIdsKept.trans (h : OthersIdsKept s t) (g : OthersIdsKept t u) : OthersIdsKept s u := Eq.trans g h

/-- A command that is in the journal is still there. -/
theorem OthersIdsKept.exists_entryAt (h : OthersIdsKept s t) (he : e ∈ s.journal.entries) :
    ∃ y, t.entryAt e.id = some y := by
  have hmem : (e.id, e.packet, e.decided, e.status) ∈
      t.journal.entries.map (fun y => (y.id, y.packet, y.decided, y.status)) := by
    rw [show _ = _ from h]
    exact List.mem_map_of_mem he
  obtain ⟨y, hy, heq⟩ := List.mem_map.mp hmem
  have hid : y.id = e.id := congrArg Prod.fst heq
  exact Option.isSome_iff_exists.mp (List.find?_isSome.mpr ⟨y, hy, by simp [hid]⟩)

/-- An entry that carries the packet and the outcome so far of the entry whose place it takes. -/
theorem OthersIdsKept.setEntry (h : OthersIdsKept s t) (hn : Numbered s) (he : e ∈ s.journal.entries) {y : Entry}
    (hid : y.id = e.id) (hp : y.packet = e.packet) (hd : y.decided = e.decided) (hs : y.status = e.status) :
    OthersIdsKept s (t.setEntry y) := by
  refine Eq.trans ?_ h
  rw [State.setEntry_entries, List.map_map]
  refine List.map_congr_left fun z hz => ?_
  by_cases hzy : z.id = y.id
  · have hmem : (z.id, z.packet, z.decided, z.status) ∈
        s.journal.entries.map (fun w => (w.id, w.packet, w.decided, w.status)) := by
      rw [← show _ = _ from h]
      exact List.mem_map_of_mem hz
    obtain ⟨w, hw, heq⟩ := List.mem_map.mp hmem
    obtain rfl : w = e := hn.eq_of_id hw he ((congrArg Prod.fst heq).trans (hzy.trans hid))
    simp only [Prod.mk.injEq] at heq
    obtain ⟨-, hpacket, hdecided, hstatus⟩ := heq
    simp [hzy, hid, hp, hd, hs, hpacket, hdecided, hstatus]
  · simp [hzy]

theorem Works.entry {i : Instr} (hw : Works s i e d) :
    Numbered s ∧ e ∈ s.journal.entries ∧ e.decided = false := by
  obtain ⟨op, n, q, plan, -, ⟨hrun, hn, -, -⟩, -⟩ := hw
  obtain ⟨he, -, -, hd⟩ := runnable_eq_some hrun
  exact ⟨hn, he, hd⟩

end Sys2Proof.Claims

namespace Sys2Proof.Machine

open Sys2Proof.Claims

variable {s t u : State} {e : Entry} {d : Delta} {x : Nat}

/-- A core's reset marks the work that it discards, and no outcome. -/
theorem resetCore_idsKept (s : State) (x : Nat) : OthersIdsKept s (s.resetCore x) := by
  unfold OthersIdsKept State.resetCore
  simp only [State.setCore_journal, List.map_map]
  refine List.map_congr_left fun y _ => ?_
  simp only [Function.comp_apply]
  split <;> rfl

theorem entryAt_congr (h : t.journal = s.journal) (id : Nat) : t.entryAt id = s.entryAt id := by
  unfold State.entryAt; rw [h]

theorem stamp_congr (h : t.tb = s.tb) : t.stamp = s.stamp := by
  unfold State.stamp; rw [h]

/-! ## The end of work that cannot go on (R229) -/

/-- The entry of a command that has failed with a status. -/
def Entry.failedWith (e : Entry) (st : Status) (lost : List Run) (now : W64) : Entry :=
  { e with
    taken := [], wrote := e.wrote ++ stackRuns lost, decided := true, status := e.finalStatus st, result := 0
    sumSat := false, tFinished := now }

theorem failWork_entryAt {st : Status} (lost : List Run) (h : ∃ y, s.entryAt e.id = some y) :
    (s.failWork e [st] lost).entryAt e.id = some (e.failedWith st lost s.stamp) := by
  obtain ⟨y, hy⟩ := h
  let v := ((s.walkNamed e).emptyTaken e).scramble lost
  have hv : SameBut [.mem, .cores, .fabric, .counters, .free] s v :=
    State.scramble_same (State.emptyTaken_same (State.walkNamed_same (SameBut.refl _ _) _ (by decide)) _ (by decide)) _
      (by decide)
  let w := v.setEntry (e.failedWith st lost v.stamp)
  have hw : w.entryAt e.id = some (e.failedWith st lost v.stamp) :=
    State.setEntry_entryAt v (e.failedWith st lost v.stamp) y ((entryAt_congr (hv.journal (by decide)) _).trans hy)
  have hconclude : v.conclude { e with taken := [], wrote := e.wrote ++ stackRuns lost } st 0 false = w := by
    unfold State.conclude
    rw [ite_self]
    rfl
  have hend : SameBut [.cores, .fabric, .chains, .counters, .belt] w (s.failWork e [st] lost) := by
    rw [← hconclude]
    exact State.endWork_same (State.memberEnd_same (SameBut.refl _ _) _ _ (by decide)) _ (by decide)
  rw [entryAt_congr (hend.journal (by decide)), hw, stamp_congr (hv.tb (by decide))]

/-! ## The step of a data row whose work is charged a fault -/

/-- Where charged faults leave the engine (R366, R372): the command has failed, or its work is discarded and runs again. -/
def Charged.next (c : Charged) (d : Delta) : State :=
  if c.stop then (c.s.markSlot d.slot 0).failWork c.e [Status.unitAbsent] d.overwrites else c.s.setEntry c.e

theorem Charged.next_same (c : Charged) (d : Delta) :
    SameBut [.mem, .journal, .cores, .fabric, .chains, .counters, .belt, .free] c.s (c.next d) :=
  same_ite' (State.failWork_same (State.markSlot_same (SameBut.refl _ _) _ _ (by decide)) _ _ _ (by decide))
    (State.setEntry_same (SameBut.refl _ _) _ (by decide))

/-- The entry of the command then. -/
theorem Charged.next_entryAt (c : Charged) (d : Delta) (h : ∃ y, c.s.entryAt c.e.id = some y) :
    (c.next d).entryAt c.e.id =
      some (if c.stop then c.e.failedWith Status.unitAbsent d.overwrites c.s.stamp else c.e) := by
  obtain ⟨y, hy⟩ := h
  have hmark := State.markSlot_same (SameBut.refl [.mem, .cores, .fabric, .counters] c.s) d.slot 0 (by decide)
  unfold Charged.next
  split
  · rw [failWork_entryAt _ ⟨y, (entryAt_congr (hmark.journal (by decide)) _).trans hy⟩,
      stamp_congr (hmark.tb (by decide))]
  · exact State.setEntry_entryAt _ _ _ hy

section Rows

variable {op : Op} {n : Nat} {q : W32} {plan : State → Entry → Plan} {i : Instr}

theorem runWork_charged {faults : List CoreFault} (hr : Runs s op n q e) (hm : s.mayWork op e = true)
    (hs : s.hasStarted op e = true) (hp : plan (s.viewFor e) e = .done d) (hc : s.commitRoom e d = true)
    (hne : ((s.bitErrors faults).charge e (d.charged faults)).e ≠ e) :
    s.runWork op n q faults plan = .next (((s.bitErrors faults).charge e (d.charged faults)).next d) := by
  obtain ⟨hrun, -, hbroken, hproducer⟩ := hr
  unfold State.runWork Charged.next
  simp only [hrun, hbroken, hproducer, hm, hp, hs, hc, Bool.not_true, Bool.or_self, Bool.false_eq_true, if_false,
    bne_iff_ne, ne_eq, hne, not_false_eq_true, if_true]
  split <;> rfl

theorem runGusset_charged {faults : List CoreFault} {gussets : List GussetFault} (hr : Runs s op n q e)
    (hm : s.mayWork op e = true) (hs : s.hasStarted op e = true) (hp : plan (s.viewFor e) e = .done d)
    (hc : s.commitRoom e d = true) (hg : s.gussetFails n d gussets ≠ []) :
    s.runGusset op n q faults gussets plan =
      .next (((s.bitErrors faults).chargeGussets e (s.gussetFails n d gussets)).next d) := by
  obtain ⟨hrun, -, hbroken, hproducer⟩ := hr
  unfold State.runGusset Charged.next
  simp only [hrun, hbroken, hproducer, hm, hp, hs, hc, Bool.not_true, Bool.or_self, Bool.false_eq_true, if_false,
    Option.isSome_none, List.isEmpty_eq_false_iff.mpr hg]
  split <;> rfl

/-- Where no Gusset sees a wrong sum, Gusset work is work like any other. -/
theorem runGusset_nil (faults : List CoreFault) :
    s.runGusset op n q faults [] plan = s.runWork op n q faults plan := by
  unfold State.runGusset
  split
  · next h => unfold State.runWork; rw [h]
  · split
    · rfl
    · split
      · exact if_pos rfl
      · rfl

theorem exec_dataRow (h : dataRow i = some (op, n, q, plan)) (hg : gussetFaults i = []) :
    exec i s = s.runWork op n q (coreFaults i) plan := by
  unfold dataRow at h
  split at h
  all_goals cases h
  case h_20 | h_22 => -- the rows with Gusset work
    cases hg
    exact runGusset_nil _
  all_goals rfl

theorem exec_gussetRow (h : dataRow i = some (op, n, q, plan)) (hg : gussetFaults i ≠ []) :
    exec i s = s.runGusset op n q (coreFaults i) (gussetFaults i) plan := by
  unfold dataRow at h
  split at h
  all_goals cases h
  case h_20 | h_22 => -- the rows with Gusset work
    rfl
  all_goals exact absurd rfl hg

end Rows

/-! ## One fault charged to a core (R366, R367, R368) -/

/-- A command whose work a fault discards. -/
def Entry.discarded (e : Entry) : Entry :=
  { e with faulted := true, asked := [], energy := { e.energy with reexecuted := true } }

/-- A command after its first fault on a core. -/
def Entry.retriedOn (e : Entry) (x : Nat) : Entry :=
  { e.discarded with faultCore := some x, faults := 1, notes := e.notes ++ [Status.faultRetried] }

/-- A command after its second fault on a core, which retires; its slices run on `shares`. -/
def Entry.retiredFrom (e : Entry) (shares : List Nat) : Entry :=
  { e.discarded with
    faults := 2, retirements := e.retirements + 1, retiredFlag := true, shares := shares
    notes := e.notes ++ [Status.coreRetired] }

/-- The engine with a fault of a core counted and the core reset. -/
def State.faultedOn (s : State) (kind : FaultKind) (x : Nat) : State :=
  (s.count (.fault x (if kind = .adder then 4 else if kind = .ecc then 3 else 0)) 1).resetCore x

section Charge

variable {kind : FaultKind}

theorem chargeOne_first (hp : s.corePresent x = true) (hx : x ∈ s.queueCores e) (hf : e.faultCore = none) :
    chargeOne ⟨s, e, false⟩ (kind, x) =
      ⟨((s.faultedOn kind x).count (.fault x 1) 1).traceFault kind 0 (.core x) e.ctx e.seq, e.retriedOn x, false⟩ := by
  simp [chargeOne, hp, hx, hf, State.faultedOn, Entry.retriedOn, Entry.discarded]

theorem chargeOne_retires (hp : s.corePresent x = true) (hx : x ∈ s.queueCores e) (hf : e.faultCore = some x)
    (hn : e.faults = 1) (hr : e.retirements < 2) :
    let w := ((s.faultedOn kind x).traceFault kind 1 (.core x) e.ctx e.seq).retireCore x
    chargeOne ⟨s, e, false⟩ (kind, x) =
      ⟨w, e.retiredFrom (s.replaceCore e.discarded x), w.noCoreLeft e.discarded⟩ := by
  simp [chargeOne, hp, hx, hf, hn, Nat.not_le.mpr hr, State.faultedOn, Entry.retiredFrom, Entry.discarded]

theorem chargeOne_limit (hp : s.corePresent x = true) (hx : x ∈ s.queueCores e) (hf : e.faultCore = some x)
    (hn : e.faults = 1) (hr : 2 ≤ e.retirements) :
    chargeOne ⟨s, e, false⟩ (kind, x) =
      ⟨(s.faultedOn kind x).setFault .retireLimit, { e.discarded with faults := 2 }, true⟩ := by
  simp [chargeOne, hp, hx, hf, hn, hr, State.faultedOn, Entry.discarded]

end Charge

theorem faultedOn_same (s : State) (kind : FaultKind) (x : Nat) :
    SameBut [.journal, .cores, .counters] s (s.faultedOn kind x) :=
  State.resetCore_same (State.count_same (SameBut.refl _ _) _ _ (by decide)) _ (by decide)

theorem faultedOn_logsOnly (s : State) (kind : FaultKind) (x : Nat) : LogsOnly s (s.faultedOn kind x) :=
  ((LogsOnly.refl s).count _ _).trans (resetCore_logsOnly _ x)

theorem faultedOn_idsKept (s : State) (kind : FaultKind) (x : Nat) : OthersIdsKept s (s.faultedOn kind x) :=
  resetCore_idsKept _ x

/-- A core that has been reset holds no queues and no half of the Hem. -/
theorem faultedOn_core (s : State) (kind : FaultKind) (x : Nat) :
    ((s.faultedOn kind x).core x).queues = [] ∧ ((s.faultedOn kind x).core x).hem = [] := by
  simp [State.faultedOn, State.resetCore, State.core, State.setCore, smGet_smSet]

/-- The cores of a command hang on the contexts, the units there and the units ready. -/
theorem queueCores_congr (hc : t.ctxs = s.ctxs) (hu : t.caps = s.caps) (hr : t.ready = s.ready) :
    t.queueCores e = s.queueCores e := by
  have hctx : t.ctx = s.ctx := by funext k; simp only [State.ctx, hc]
  have hpresent : t.corePresent = s.corePresent := by funext c; simp only [State.corePresent, hu]
  have hready : t.coreReady = s.coreReady := by funext c; simp only [State.coreReady, hu, hr]
  simp only [State.queueCores, State.shareCores, State.usable, hctx, hpresent, hready]

/-- The cores there once one has retired. -/
theorem corePresent_of_retired (hcaps : t.caps = { s.caps with cores := s.caps.cores &&& ~~~(1#128 <<< x) }) (c : Nat) :
    t.corePresent c = (s.corePresent c && decide (c ≠ x)) := by
  by_cases hc : c < 128
  · by_cases hcx : c = x
    · simp [State.corePresent, hcaps, hcx ▸ hc, hcx]
    · simp [State.corePresent, hcaps, hc, hcx]
      omega
  · simp [State.corePresent, BitVec.getLsbD_of_ge _ c (Nat.le_of_not_lt hc)]

/-- R5, R81, R367: whether the retirement of one of its cores leaves a command none to run on. -/
theorem noCoreLeft_iff (hcaps : t.caps = { s.caps with cores := s.caps.cores &&& ~~~(1#128 <<< x) })
    (hctxs : t.ctxs = s.ctxs) (hx : x ∈ s.queueCores e) :
    t.noCoreLeft e = true ↔ ¬(e.op ≠ some .mmSafe ∧ ∃ c ∈ s.placed e.ctx, c ≠ x) := by
  unfold State.noCoreLeft
  by_cases hsafe : e.op = some .mmSafe
  · have htarget : x = e.field 0x27 1 % 128 := by
      simp only [State.queueCores, hsafe, List.mem_filter, List.mem_singleton] at hx
      exact hx.1
    simp [hsafe, ← htarget, corePresent_of_retired hcaps]
  · have hplaced : t.placed e.ctx = (s.placed e.ctx).filter (fun c => decide (c ≠ x)) := by
      have hctx : t.ctx e.ctx = s.ctx e.ctx := by simp only [State.ctx, hctxs]
      have hpresent : t.corePresent = fun c => s.corePresent c && decide (c ≠ x) :=
        funext (corePresent_of_retired hcaps)
      rw [State.placed, State.placed, hctx, hpresent, List.filter_filter]
      simp only [Bool.and_comm]
    simp [hsafe, hplaced, List.filter_eq_nil_iff]

/-- Notes that say nothing of an aborted round leave the status of a failure as it is (R229). -/
theorem finalStatus_append {y : Entry} {st note : Status} (hst : st.failed = true) (hnote : note ≠ Status.roundAborted)
    (h : y.notes = e.notes ++ [note]) : y.finalStatus st = e.finalStatus st := by
  simp [Entry.finalStatus, h, hst, hnote.symm]

section CoreFaults

variable {i : Instr} {kind : FaultKind}

/-- R361, R370: the errors that no core is charged for leave the charged core and the cores of the command as they were; the
core is reset, and the step is what the one charged fault makes of it. -/
theorem exec_coreFault (hw : Works s i e d) (hg : gussetFaults i = []) (hf : d.charged (coreFaults i) = [(kind, x)])
    (hp : s.corePresent x = true) (hx : x ∈ s.queueCores e) :
    ∃ u, u.corePresent x = true ∧ x ∈ u.queueCores e ∧
      SameBut [.journal, .cores, .counters, .fabric] s (u.faultedOn kind x) ∧
      OthersIdsKept s (u.faultedOn kind x) ∧ LogsOnly s (u.faultedOn kind x) ∧
      ∀ c, chargeOne ⟨u, e, false⟩ (kind, x) = c → c.e ≠ e → exec i s = .next (c.next d) := by
  have hu : SameBut [.fabric, .counters] s (s.bitErrors (coreFaults i)) :=
    State.bitErrors_same (SameBut.refl _ _) _ (by decide)
  refine ⟨_, ?_, ?_, (faultedOn_same _ kind x).step (hu.step (SameBut.refl _ _) (by decide)) (by decide),
    (OthersIdsKept.of_journal (hu.journal (by decide))).trans (faultedOn_idsKept _ kind x),
    (LogsOnly.of_same hu (by decide) (by decide) (by decide)).trans (faultedOn_logsOnly _ kind x), fun c hc hne => ?_⟩
  · unfold State.corePresent
    rwa [hu.caps (by decide)]
  · rwa [queueCores_congr (hu.ctxs (by decide)) (hu.caps (by decide)) (hu.ready (by decide))]
  · obtain ⟨op, n, q, plan, hrow, hr, hm, hs, hplan, hroom⟩ := hw
    have hcharge : (s.bitErrors (coreFaults i)).charge e (d.charged (coreFaults i)) = c := by rw [hf, ← hc]; rfl
    rw [exec_dataRow hrow hg, runWork_charged hr hm hs hplan hroom (hcharge ▸ hne), hcharge]

/-- R366: the first fault of a command on a core. -/
theorem coreFault_first (hw : Works s i e d) (hg : gussetFaults i = []) (hf : d.charged (coreFaults i) = [(kind, x)])
    (hp : s.corePresent x = true) (hx : x ∈ s.queueCores e) (hfc : e.faultCore = none) :
    ∃ t, exec i s = .next t ∧ OthersIdsKept s t ∧ t.entryAt e.id = some (e.retriedOn x) ∧ t.caps = s.caps ∧
      t.collar = s.collar ∧ (t.core x).queues = [] ∧ (t.core x).hem = [] ∧ LogsOnly s t := by
  obtain ⟨hn, he, -⟩ := hw.entry
  obtain ⟨u, hpu, hxu, hv, hids, hlogs, hexec⟩ := exec_coreFault hw hg hf hp hx
  let v := u.faultedOn kind x
  let w := (v.count (.fault x 1) 1).traceFault kind 0 (.core x) e.ctx e.seq
  have hw : SameBut [.mem, .fabric, .counters, .trace] v w :=
    State.traceFault_same (State.count_same (SameBut.refl _ _) _ _ (by decide)) _ _ _ _ _ (by decide)
  have hset : SameBut [.mem, .fabric, .counters, .trace, .journal] v (w.setEntry (e.retriedOn x)) :=
    State.setEntry_same (hw.step (SameBut.refl _ _) (by decide)) _ (by decide)
  have hidsw : OthersIdsKept s w := hids.trans (.of_journal (hw.journal (by decide)))
  have hlogsw : LogsOnly s w := (hlogs.count _ _).trans (traceFault_logsOnly _ _ _ _ _ _)
  have hcore : (w.setEntry (e.retriedOn x)).core x = v.core x := by
    unfold State.core; rw [hset.cores (by decide)]
  obtain ⟨hqueues, hhem⟩ := faultedOn_core u kind x
  obtain ⟨y, hy⟩ := hidsw.exists_entryAt he
  refine ⟨w.setEntry (e.retriedOn x), hexec _ (chargeOne_first hpu hxu hfc) fun h => ?_,
    hidsw.setEntry hn he rfl rfl rfl rfl, w.setEntry_entryAt (e.retriedOn x) y hy,
    (hset.caps (by decide)).trans (hv.caps (by decide)), (hset.collar (by decide)).trans (hv.collar (by decide)),
    by rw [hcore, hqueues], by rw [hcore, hhem], hlogsw.trans (setEntry_logsOnly _ _)⟩
  have hcharged : some x = e.faultCore := congrArg Entry.faultCore h
  rw [hfc] at hcharged
  cases hcharged

/-- The Collar's fault bit of a core that has retired (R389). -/
theorem retireCore_fault (hp : s.corePresent x = true) :
    (s.retireCore x).collar.fault.getLsbD FaultBit.coreRetired.pos = true := by
  let v : State := { s with
    caps := { s.caps with cores := s.caps.cores &&& ~~~(1#128 <<< x) }
    collar := { s.collar with retired := s.collar.retired ||| (1#128 <<< x) }
    cores := smDel s.cores x }
  have hv : s.retireCore x =
      ((v.setFault .coreRetired).traceRec 16 (.core x) 0 0 (TraceUnit.core x).code).capChange := if_pos hp
  have hsame := State.capChange_same (State.traceRec_same
    (SameBut.refl [.mem, .fabric, .trace, .counters, .seams, .lining, .i3c] (v.setFault .coreRetired)) 16 (.core x) 0 0
    (TraceUnit.core x).code (by decide)) (by decide)
  rw [hv, hsame.collar (by decide)]
  exact setFault_getLsbD v .coreRetired

/-- R367: the second fault of a command on a core retires the core. -/
theorem coreFault_second (hw : Works s i e d) (hg : gussetFaults i = []) (hf : d.charged (coreFaults i) = [(kind, x)])
    (hp : s.corePresent x = true) (hx : x ∈ s.queueCores e) (hfc : e.faultCore = some x) (hn : e.faults = 1)
    (hr : e.retirements < 2) :
    ∃ t stop shares now, exec i s = .next t ∧
      (stop = true ↔ ¬(e.op ≠ some .mmSafe ∧ ∃ c ∈ s.placed e.ctx, c ≠ x)) ∧
      t.caps = { s.caps with cores := s.caps.cores &&& ~~~(1#128 <<< x) } ∧ t.collar.retired.getLsbD x = true ∧
      t.collar.fault.getLsbD FaultBit.coreRetired.pos = true ∧
      t.entryAt e.id = some (if stop = true then (e.retiredFrom shares).failedWith Status.unitAbsent d.overwrites now
        else e.retiredFrom shares) := by
  obtain ⟨-, he, -⟩ := hw.entry
  obtain ⟨u, hpu, hxu, hreset, hids, -, hexec⟩ := exec_coreFault hw hg hf hp hx
  let v := (u.faultedOn kind x).traceFault kind 1 (.core x) e.ctx e.seq
  have htrace : SameBut [.mem, .fabric, .counters, .trace] (u.faultedOn kind x) v :=
    State.traceFault_same (SameBut.refl _ _) _ _ _ _ _ (by decide)
  have hv : SameBut [.mem, .journal, .cores, .fabric, .counters, .trace] s v :=
    htrace.step (hreset.step (SameBut.refl _ _) (by decide)) (by decide)
  have hpv : v.corePresent x = true := by
    unfold State.corePresent
    rwa [hv.caps (by decide)]
  obtain ⟨hcaps, hretired, hjournal, -⟩ := retireCore_effect hpv
  rw [hv.caps (by decide)] at hcaps
  have hretire : SameBut [.caps, .seams, .mem, .collar, .cores, .fabric, .counters, .trace, .lining, .i3c] v
      (v.retireCore x) := State.retireCore_same (SameBut.refl _ _) x (by decide)
  have hctxs : (v.retireCore x).ctxs = s.ctxs := (hretire.ctxs (by decide)).trans (hv.ctxs (by decide))
  have hthere := (hids.trans (.of_journal (hjournal.trans (htrace.journal (by decide))))).exists_entryAt he
  let c : Charged :=
    ⟨v.retireCore x, e.retiredFrom (u.replaceCore e.discarded x), (v.retireCore x).noCoreLeft e.discarded⟩
  have hnext := c.next_same d
  refine ⟨c.next d, c.stop, u.replaceCore e.discarded x, c.s.stamp,
    hexec c (chargeOne_retires hpu hxu hfc hn hr) fun h => ?_, noCoreLeft_iff hcaps hctxs hx,
    (hnext.caps (by decide)).trans hcaps, ?_, ?_, c.next_entryAt d hthere⟩
  · have hfaults : 2 = e.faults := congrArg Entry.faults h
    omega
  · rw [hnext.collar (by decide), hretired]
    simp [BitVec.lt_of_getLsbD hp]
  · rw [hnext.collar (by decide)]
    exact retireCore_fault hpv

/-- R368: the fault that would retire a third core retires none. -/
theorem coreFault_limit (hw : Works s i e d) (hg : gussetFaults i = []) (hf : d.charged (coreFaults i) = [(kind, x)])
    (hp : s.corePresent x = true) (hx : x ∈ s.queueCores e) (hfc : e.faultCore = some x) (hn : e.faults = 1)
    (hr : 2 ≤ e.retirements) :
    ∃ t now, exec i s = .next t ∧ t.caps = s.caps ∧ t.collar.fault.getLsbD FaultBit.retireLimit.pos = true ∧
      t.entryAt e.id = some (Entry.failedWith { e.discarded with faults := 2 } Status.unitAbsent d.overwrites now) := by
  obtain ⟨-, he, -⟩ := hw.entry
  obtain ⟨u, hpu, hxu, hv, hids, -, hexec⟩ := exec_coreFault hw hg hf hp hx
  let v := u.faultedOn kind x
  have hthere := hids.exists_entryAt he
  let c : Charged := ⟨v.setFault .retireLimit, { e.discarded with faults := 2 }, true⟩
  have hnext := c.next_same d
  refine ⟨c.next d, c.s.stamp, hexec c (chargeOne_limit hpu hxu hfc hn hr) fun h => ?_,
    (hnext.caps (by decide)).trans (hv.caps (by decide)), ?_, c.next_entryAt d hthere⟩
  · have hfaults : 2 = e.faults := congrArg Entry.faults h
    omega
  · rw [hnext.collar (by decide)]
    exact setFault_getLsbD v .retireLimit

end CoreFaults

/-! ## One fault charged to a Gusset (R372) -/

section GussetFaults

variable {i : Instr} {k : Nat}

/-- A command after the first fault of a Gusset in its work. -/
def Entry.retriedGusset (e : Entry) : Entry :=
  { e with
    faulted := true, notes := e.notes ++ [Status.faultRetried], energy := { e.energy with reexecuted := true } }

/-- The engine with a fault of a Gusset counted and traced. -/
def State.gussetFaulted (s : State) (e : Entry) (k action : Nat) : State :=
  (s.count (.cache k 9) 1).traceFault .gusset action (.sleeve k) e.ctx e.seq

theorem chargeGusset_first (hk : s.caps.gusset.getLsbD k = true) (hc : (s.sleeve k).gussetCharge = none) :
    let v := s.gussetFaulted e k 0
    chargeGusset ⟨s, e, false⟩ k =
      ⟨v.setSleeve k { v.sleeve k with gussetCharge := some (e.ctx, e.seq, 1) }, e.retriedGusset, false⟩ := by
  simp [chargeGusset, hk, hc, State.gussetFaulted, Entry.retriedGusset]

theorem chargeGusset_second (hk : s.caps.gusset.getLsbD k = true)
    (hc : (s.sleeve k).gussetCharge = some (e.ctx, e.seq, 1)) :
    let v := (s.gussetFaulted e k 1).retireGusset k
    chargeGusset ⟨s, e, false⟩ k = ⟨v.setSleeve k { v.sleeve k with gussetCharge := none },
      { e with faulted := true, energy := { e.energy with reexecuted := true } }, true⟩ := by
  simp [chargeGusset, hk, hc, State.gussetFaulted]

theorem gussetFaulted_same (s : State) (e : Entry) (k action : Nat) :
    SameBut [.mem, .fabric, .counters, .trace] s (s.gussetFaulted e k action) :=
  State.traceFault_same (State.count_same (SameBut.refl _ _) _ _ (by decide)) _ _ _ _ _ (by decide)

theorem retireGusset_caps (hk : s.caps.gusset.getLsbD k = true) :
    (s.retireGusset k).caps = { s.caps with gusset := s.caps.gusset &&& ~~~(1#16 <<< k) } := by
  let v : State := { s with caps := { s.caps with gusset := s.caps.gusset &&& ~~~(1#16 <<< k) } }
  let w := (v.setSleeve k { v.sleeve k with gussetRetired := true }).setFault .gussetRetired
  have hw : s.retireGusset k = (w.traceRec 16 (.sleeve k) 0 0 (TraceUnit.sleeve k).code).capChange := if_pos hk
  have hsame := State.capChange_same (State.traceRec_same
    (SameBut.refl [.mem, .fabric, .trace, .counters, .seams, .lining, .i3c] w) 16 (.sleeve k) 0 0
    (TraceUnit.sleeve k).code (by decide)) (by decide)
  rw [hw, hsame.caps (by decide)]
  rfl

theorem exec_gussetFault (hw : Works s i e d) (hf : coreFaults i = [])
    (hk : s.gussetFails e.ctx d (gussetFaults i) = [k]) :
    exec i s = .next ((chargeGusset ⟨s, e, false⟩ k).next d) := by
  obtain ⟨op, n, q, plan, hrow, hr, hm, hs, hp, hc⟩ := hw
  obtain ⟨-, rfl, -, -⟩ := runnable_eq_some hr.1
  have hg : gussetFaults i ≠ [] := fun h => by rw [h] at hk; cases hk
  rw [exec_gussetRow hrow hg, runGusset_charged hr hm hs hp hc (by rw [hk]; exact List.cons_ne_nil _ _), hk, hf]
  rfl

/-- The first checksum that fails at a Gusset discards the work. -/
theorem gussetFault_first (hw : Works s i e d) (hf : coreFaults i = [])
    (hg : s.gussetFails e.ctx d (gussetFaults i) = [k]) (hk : s.caps.gusset.getLsbD k = true)
    (hlen : s.sleeves.length = 16) (hc : (s.sleeve k).gussetCharge = none) :
    ∃ t, exec i s = .next t ∧ t.entryAt e.id = some e.retriedGusset ∧ t.caps = s.caps ∧
      (t.sleeve k).gussetCharge = some (e.ctx, e.seq, 1) ∧ LogsOnly s t := by
  obtain ⟨-, he, -⟩ := hw.entry
  let v := s.gussetFaulted e k 0
  have hv : SameBut [.mem, .fabric, .counters, .trace] s v := gussetFaulted_same s e k 0
  let w := v.setSleeve k { v.sleeve k with gussetCharge := some (e.ctx, e.seq, 1) }
  have hset : SameBut [.mem, .journal, .fabric] w (w.setEntry e.retriedGusset) :=
    State.setEntry_same (SameBut.refl _ _) _ (by decide)
  have hlogs : LogsOnly s w := (((LogsOnly.refl s).count _ _).trans (traceFault_logsOnly _ _ _ _ _ _)).trans
    (.of_same (State.setSleeve_same (SameBut.refl [.sleeves] v) _ _ (by decide)) (by decide) (by decide) (by decide))
  obtain ⟨y, hy⟩ := (OthersIdsKept.of_journal (hv.journal (by decide)) : OthersIdsKept s w).exists_entryAt he
  have hk16 : k < v.sleeves.length := by
    rw [hv.sleeves (by decide), hlen]
    exact BitVec.lt_of_getLsbD hk
  refine ⟨w.setEntry e.retriedGusset, ?_, w.setEntry_entryAt e.retriedGusset y hy,
    (hset.caps (by decide)).trans (hv.caps (by decide)), ?_, hlogs.trans (setEntry_logsOnly _ _)⟩
  · rw [exec_gussetFault hw hf hg, chargeGusset_first hk hc]
    rfl
  · unfold State.sleeve
    rw [hset.sleeves (by decide)]
    simp [w, State.setSleeve, hk16]

/-- The second takes the Gusset out of service, and the command fails (log 40). -/
theorem gussetFault_second (hw : Works s i e d) (hf : coreFaults i = [])
    (hg : s.gussetFails e.ctx d (gussetFaults i) = [k]) (hk : s.caps.gusset.getLsbD k = true)
    (hc : (s.sleeve k).gussetCharge = some (e.ctx, e.seq, 1)) :
    ∃ t, exec i s = .next t ∧ t.caps = { s.caps with gusset := s.caps.gusset &&& ~~~(1#16 <<< k) } ∧
      Ended t e Status.unitAbsent 0 := by
  obtain ⟨-, he, -⟩ := hw.entry
  let v := s.gussetFaulted e k 1
  have hv : SameBut [.mem, .fabric, .counters, .trace] s v := gussetFaulted_same s e k 1
  have hkv : v.caps.gusset.getLsbD k = true := by rwa [hv.caps (by decide)]
  let r := v.retireGusset k
  have hr : SameBut [.caps, .seams, .mem, .collar, .sleeves, .fabric, .counters, .trace, .lining, .i3c] v r :=
    State.retireGusset_same (SameBut.refl _ _) k (by decide)
  let c : Charged := ⟨r.setSleeve k { r.sleeve k with gussetCharge := none },
    { e with faulted := true, energy := { e.energy with reexecuted := true } }, true⟩
  have hnext := c.next_same d
  have hids : OthersIdsKept s c.s := .of_journal ((hr.journal (by decide)).trans (hv.journal (by decide)))
  have hthere := hids.exists_entryAt he
  refine ⟨c.next d, ?_, ?_, _, c.next_entryAt d hthere, rfl, rfl, rfl,
    (stamp_congr (hnext.tb (by decide))).symm, rfl⟩
  · rw [exec_gussetFault hw hf hg, chargeGusset_second hk hc]
  · rw [hnext.caps (by decide), ← hv.caps (by decide)]
    exact retireGusset_caps hkv

end GussetFaults

/-! ## The obligation -/

/-- Settles O42: one step, split by whether a core or a Gusset is charged and by the faults charged to it before; the entry
that each case leaves says what becomes of the command. -/
theorem faultsRetryThenRetire : Obligations.FaultsRetryThenRetire := by
  unfold Obligations.FaultsRetryThenRetire
  refine ⟨fun i s e d kind x hw hg hf hp hx => ⟨fun hfc _ => ?_, fun hfc hn => ?_⟩,
    fun i s e d k hw hf hg hk hshape => ⟨fun hc => ?_, fun hc => gussetFault_second hw hf hg hk hc⟩⟩
  · obtain ⟨t, hexec, hids, hentry, hcaps, hcollar, hqueues, hhem, hlogs⟩ := coreFault_first hw hg hf hp hx hfc
    exact ⟨t, _, hexec, hids, hentry, hw.entry.2.2, rfl, rfl, rfl, rfl, by simp [Entry.retriedOn], hcaps, hcollar,
      hqueues, hhem, hlogs.mem⟩
  · intro left
    rcases Nat.lt_or_ge e.retirements 2 with hr | hr
    · obtain ⟨t, stop, shares, now, hexec, hstop, hcaps, hretired, hfault, hentry⟩ :=
        coreFault_second hw hg hf hp hx hfc hn hr
      have hstatus : (e.retiredFrom shares).finalStatus Status.unitAbsent = e.finalStatus Status.unitAbsent :=
        finalStatus_append rfl (by decide) rfl
      refine ⟨t, _, hexec, hentry, ?_, fun _ => ?_, fun h => absurd h (by omega)⟩
      · split <;> rfl
      · refine ⟨by rw [hcaps], by rw [hcaps], hretired, hfault, ?_, ?_, fun hl => ?_, fun hl => ?_⟩
        · split <;> rfl
        · split <;> simp [Entry.failedWith, Entry.retiredFrom]
        · rw [if_neg (fun h => hstop.mp h hl)]
          exact hw.entry.2.2
        · rw [if_pos (hstop.mpr hl)]
          exact ⟨rfl, hstatus, rfl⟩
    · obtain ⟨t, now, hexec, hcaps, hfault, hentry⟩ := coreFault_limit hw hg hf hp hx hfc hn hr
      exact ⟨t, _, hexec, hentry, rfl, fun h => absurd h (by omega), fun _ => ⟨hcaps, rfl, rfl, rfl, rfl, hfault⟩⟩
  · obtain ⟨t, hexec, hentry, hcaps, hcharge, hlogs⟩ := gussetFault_first hw hf hg hk hshape.2.2 hc
    exact ⟨t, _, hexec, hentry, hw.entry.2.2, by simp [Entry.retriedGusset], hcaps, hcharge, hlogs.mem⟩

end Sys2Proof.Machine

/-!
PROOF. O33, queues granted on a core: what a grant leaves on each core, and what the queues that it starts leave of the
journal.
-/
namespace Sys2Proof.Machine

open Sys2Proof.Claims

variable {s t u : State} {e : Entry} {c k : Nat}

/-! ## The cores -/

theorem State.setCore_core (s : State) (c j : Nat) (x : CoreUnit) :
    (s.setCore c x).core j = if c = j then x else s.core j := by
  simp only [State.core, State.setCore, smGet_smSet]

theorem core_congr (h : t.cores = s.cores) (j : Nat) : t.core j = s.core j := by
  unfold State.core; rw [h]

/-- The cores are as they were, the stage of one apart. -/
def StageOnly (c : Nat) (s t : State) : Prop :=
  ∃ st, ∀ j, t.core j = if c = j then { s.core c with stage := st } else s.core j

theorem StageOnly.of_cores (h : t.cores = s.cores) : StageOnly c s t :=
  ⟨(s.core c).stage, fun j => by
    rw [core_congr h]
    split
    · next hj => rw [hj]
    · rfl⟩

theorem StageOnly.trans (h : StageOnly c s t) (g : StageOnly c t u) : StageOnly c s u := by
  obtain ⟨x, hx⟩ := h
  obtain ⟨y, hy⟩ := g
  refine ⟨y, fun j => ?_⟩
  rw [hy, hx, hx, if_pos rfl]
  split <;> rfl

theorem setCore_stageOnly (s : State) (c : Nat) (st : List Staged) :
    StageOnly c s (s.setCore c { s.core c with stage := st }) :=
  ⟨st, fun j => s.setCore_core c j _⟩

theorem fitStage_stageOnly (s : State) (c : Nat) : StageOnly c s (s.fitStage c) := by
  unfold State.fitStage
  extract_lets _ kept
  exact (setCore_stageOnly s c kept).trans
    (.of_cores ((State.countIf_same (SameBut.refl [.counters] _) _ _ (by decide)).cores (by decide)))

theorem takeStaged_stageOnly (s : State) (e : Entry) (c : Nat) (fs : List Feed) :
    StageOnly c s (s.takeStaged e c fs) := by
  unfold State.takeStaged
  extract_lets u
  split
  · exact .of_cores rfl
  · split
    · exact .of_cores rfl
    · exact (setCore_stageOnly s c _).trans (.of_cores rfl)

/-! ## What a core's queues borrow (R273) -/

/-- What is lent is what there is to lend, at most. -/
theorem lendBlocks_sum_le (fs : List Feed) (n : Nat) : ((lendBlocks n fs).map (fun q => q.2)).sum ≤ n := by
  induction fs generalizing n with
  | nil => exact Nat.zero_le n
  | cons f fs ih =>
    have := ih (n - f.wants)
    simp only [lendBlocks, List.map_cons, List.sum_cons]
    omega

/-- The queues of a command with the shared blocks that they borrow. -/
def Entry.lend (e : Entry) (n : Nat) (qs : List QueueHold) : List QueueHold :=
  qs.map (fun q => if q.ctx = e.ctx ∧ q.seq = e.seq then { q with blocks := n } else q)

/-- Queues that start on a core borrow within what it can lend; no other core is touched. -/
theorem startQueues_core (s : State) (e : Entry) (c : Nat) :
    ∃ st n, n ≤ (s.core c).lendable s.die ∧ ∀ j, (s.startQueues e c).core j =
      if c = j then { s.core c with queues := e.lend n (s.core c).queues, stage := st } else s.core j := by
  unfold State.startQueues
  extract_lets fs _ lent n v
  have hn : n ≤ (s.core c).lendable s.die := by
    have := lendBlocks_sum_le fs ((s.core c).lendable s.die)
    rwa [List.sum_eq_foldl] at this
  obtain ⟨st, hst⟩ := (fitStage_stageOnly v c).trans (takeStaged_stageOnly (v.fitStage c) e c fs)
  have hrun := same_foldl (l := [.mem, .journal, .fabric, .counters, .trace]) (f := State.runQueue e c) (xs := lent)
    (fun _ q h => State.runQueue_same h e c q (by decide)) (SameBut.refl _ ((v.fitStage c).takeStaged e c fs))
  have hv : ∀ j, v.core j = if c = j then { s.core c with queues := e.lend n (s.core c).queues } else s.core j :=
    fun j => s.setCore_core c j _
  refine ⟨st, n, hn, fun j => ?_⟩
  rw [core_congr (hrun.cores (by decide)), hst, hv, hv, if_pos rfl]
  split <;> rfl

/-- The blocks go to the command's own new queue and to none that the core has given before. -/
theorem lend_append {qs : List QueueHold} (h : ∀ q ∈ qs, ¬(q.ctx = e.ctx ∧ q.seq = e.seq)) (n need b began : Nat) :
    e.lend b (qs ++ [QueueHold.mk e.ctx e.seq need n began]) = qs ++ [QueueHold.mk e.ctx e.seq need b began] := by
  have hqs : e.lend b qs = qs := (List.map_congr_left fun q hq => if_neg (h q hq)).trans (List.map_id _)
  calc e.lend b (qs ++ [QueueHold.mk e.ctx e.seq need n began])
      = e.lend b qs ++ e.lend b [QueueHold.mk e.ctx e.seq need n began] := List.map_append
    _ = qs ++ [QueueHold.mk e.ctx e.seq need b began] := by rw [hqs]; simp [Entry.lend]

/-- A command takes its queues and halves of the Hem behind those that the core has given already. -/
theorem takeQueues_core (hne : s.holdsQueues e c = false) :
    ∃ st b, (s.core c).borrowed + b ≤
        max (s.core c).borrowed (sharedBlocks s.die - (s.core c).promisedBlocks) ∧
      ∀ j, (s.takeQueues e c).core j = if c = j then { s.core c with
        queues := (s.core c).queues ++ [QueueHold.mk e.ctx e.seq (s.queueNeed e) b s.stamp.toNat]
        hem := (s.core c).hem ++ (s.hemNeed e c).map (HemHalf.mk e.ctx e.seq), stage := st } else s.core j := by
  unfold State.takeQueues
  extract_lets u v
  have hset := State.setEntry_same (SameBut.refl [.mem, .journal, .fabric] s) { e with working := true } (by decide)
  have hv : ∀ j, v.core j = if c = j then { s.core c with
      queues := (s.core c).queues ++ [QueueHold.mk e.ctx e.seq (s.queueNeed e) 0 s.stamp.toNat]
      hem := (s.core c).hem ++ (s.hemNeed e c).map (HemHalf.mk e.ctx e.seq) } else s.core j := fun j => by
    rw [← core_congr (hset.cores (by decide)) j]
    exact State.setCore_core _ c j _
  have hdie : v.die = s.die := hset.die (by decide)
  obtain ⟨st, b, hb, hcore⟩ := startQueues_core v e c
  rw [hv, if_pos rfl, hdie] at hb
  refine ⟨st, b, ?_, fun j => ?_⟩
  · simp only [CoreUnit.lendable, CoreUnit.spare, CoreUnit.promisedBlocks, CoreUnit.borrowed, CoreUnit.owned,
      List.map_append, List.map_cons, List.map_nil, List.foldl_append, List.foldl_cons, List.foldl_nil,
      Nat.add_zero] at hb ⊢
    omega
  · have hold : ∀ q ∈ (s.core c).queues, ¬(q.ctx = e.ctx ∧ q.seq = e.seq) := by
      simpa [State.holdsQueues] using hne
    rw [hcore, hv, hv, if_pos rfl, lend_append hold]
    split <;> rfl

/-- A core has so many free queues fewer. -/
theorem CoreUnit.free_append (u : CoreUnit) {q : QueueHold} {hem : List HemHalf} {st : List Staged} (h : q.n ≤ u.free) :
    ({ u with queues := u.queues ++ [q], hem := hem, stage := st } : CoreUnit).free + q.n = u.free := by
  simp only [CoreUnit.free, List.map_append, List.map_cons, List.map_nil, List.foldl_append, List.foldl_cons,
    List.foldl_nil] at h ⊢
  omega

/-! ## The journal -/

/-- Where each entry of the journal has changed, but not its number, so has what is found under a number. -/
theorem entryAt_map {g : Entry → Entry} (hg : ∀ y, (g y).id = y.id)
    (h : u.journal.entries = s.journal.entries.map g) (i : Nat) : u.entryAt i = (s.entryAt i).map g := by
  unfold State.entryAt
  rw [h, List.find?_map]
  simp only [Function.comp_def, hg]

/-- The journal's entry of a number is at work. -/
def AtWork (s : State) (id : Nat) : Prop := ∃ y, s.entryAt id = some y ∧ y.working = true

theorem AtWork.congr {id : Nat} (h : AtWork s id) (hj : t.journal = s.journal) : AtWork t id := by
  obtain ⟨y, hy, hw⟩ := h
  exact ⟨y, (entryAt_congr hj id).trans hy, hw⟩

theorem AtWork.noteAsked {id : Nat} (h : AtWork s id) (i k : Nat) (lines : List Nat) :
    AtWork (s.noteAsked i k lines) id := by
  obtain ⟨y, hy, hw⟩ := h
  unfold AtWork
  rw [entryAt_map (s := s) (fun y => ?_) rfl, hy]
  · refine ⟨_, rfl, ?_⟩
    dsimp only
    split <;> exact hw
  · split <;> rfl

/-- A queue that runs ahead notes in its command's entry what it has looked up, and no more. -/
theorem AtWork.runQueue {id : Nat} (h : AtWork s id) (e : Entry) (c : Nat) (q : Feed × Nat) :
    AtWork (State.runQueue e c s q) id := by
  unfold State.runQueue
  extract_lets k f _ v lines miss w bytes
  have hv : SameBut [.fabric, .counters] s v := State.xlate_same (SameBut.refl _ _) _ _ _ (by decide)
  have hlook := State.lookLines_same (SameBut.refl [.fabric, .counters] v) k lines true (by decide)
  have hw : AtWork w id :=
    (((h.congr (hv.journal (by decide))).congr (hlook.journal (by decide))).noteAsked e.id k lines).congr
      ((State.offerAll_same (SameBut.refl [.fabric] _) _ _ (by decide)).journal (by decide))
  split
  · exact hw
  · exact hw.congr ((State.traceRec_same (State.count_same (SameBut.refl [.mem, .fabric, .counters, .trace] w)
      _ _ (by decide)) _ _ _ _ _ (by decide)).journal (by decide))

theorem AtWork.startQueues {id : Nat} (h : AtWork s id) (e : Entry) (c : Nat) : AtWork (s.startQueues e c) id := by
  unfold State.startQueues
  extract_lets fs _ lent n v
  have hsame : SameBut [.cores, .counters, .stamps] s ((v.fitStage c).takeStaged e c fs) :=
    State.takeStaged_same (State.fitStage_same (State.setCore_same (SameBut.refl _ _) _ _ (by decide)) _ (by decide))
      _ _ _ (by decide)
  have hstart := h.congr (hsame.journal (by decide))
  generalize (v.fitStage c).takeStaged e c fs = w at hstart
  induction lent generalizing w with
  | nil => exact hstart
  | cons q qs ih => exact ih _ (hstart.runQueue e c q)

theorem exists_entryAt (h : e ∈ s.journal.entries) : ∃ y, s.entryAt e.id = some y :=
  (OthersIdsKept.of_journal (s := s) rfl).exists_entryAt h

/-- A command that takes its queues is at work. -/
theorem takeQueues_atWork (h : e ∈ s.journal.entries) (c : Nat) : AtWork (s.takeQueues e c) e.id := by
  unfold State.takeQueues
  extract_lets u v
  obtain ⟨y, hy⟩ := exists_entryAt h
  have hv : AtWork v e.id := ⟨_, State.setEntry_entryAt s { e with working := true } y hy, rfl⟩
  exact hv.startQueues e c

/-! ## The obligation -/

theorem mem_of_earliest {es : List Entry} (h : earliest es = some e) : e ∈ es := by
  induction es generalizing e with
  | nil => cases h
  | cons x xs ih =>
    unfold earliest at h
    split at h
    · cases h
      exact List.mem_cons_self
    · next y hy =>
      split at h <;> cases h
      · exact List.mem_cons_self
      · exact List.mem_cons_of_mem _ (ih hy)

theorem coreTakes_singleton (s : State) (k : Nat) (e : Entry) : s.coreTakes k [e] = true ↔
    s.queueNeed e ≤ (s.core k).free ∧ (s.hemNeed e k).length + (s.core k).hem.length ≤ 2 := by
  simp [State.coreTakes]

theorem exec_queueGrant (hr : s.ready.collar = true) (hk : s.coreReady k = true)
    (he : earliest (s.queueWaiters k) = some e) : exec (.queueGrant k) s =
      if s.coreTakes k [e] then .next ((s.takeQueues e k).beginSteps e k) else .next s := by
  show execQueueGrant k s = _
  simp [execQueueGrant, hr, hk, he]

/-- Settles O33: the row grants exactly where the core takes the command; what it then holds is what `takeQueues` leaves
there, for the steps that begin touch the Belt alone. -/
theorem queuesGranted : Obligations.QueuesGranted := by
  unfold Obligations.QueuesGranted
  intro k s e hr hk he fits
  have hexec := exec_queueGrant hr hk he
  have hwaits := List.mem_filter.mp (mem_of_earliest he)
  refine ⟨fun hfits => ?_, fun hno => ?_⟩
  · have hne : s.holdsQueues e k = false := by
      obtain ⟨-, hcond⟩ := hwaits
      simp only [Bool.and_eq_true, Bool.not_eq_true'] at hcond
      exact hcond.2
    rw [if_pos ((coreTakes_singleton s k e).mpr hfits)] at hexec
    obtain ⟨st, b, hb, hcore⟩ := takeQueues_core hne
    have hbegin := State.beginSteps_same (SameBut.refl [.belt] (s.takeQueues e k)) e k (by decide)
    have hcores := core_congr (hbegin.cores (by decide))
    refine ⟨_, hexec, sameX_of hexec (execQueueGrant_same (SameBut.refl _ s) k rfl), ⟨b, ?_, hb⟩, ?_, ?_, ?_,
      (takeQueues_atWork hwaits.1 k).congr (hbegin.journal (by decide))⟩
    · rw [hcores, hcore, if_pos rfl]
    · rw [hcores, hcore, if_pos rfl]
    · rw [hcores, hcore, if_pos rfl]
      exact CoreUnit.free_append _ hfits.1
    · exact fun j hj => by rw [hcores, hcore, if_neg (Ne.symm hj)]
  · rw [hexec, if_neg (mt (coreTakes_singleton s k e).mp hno)]

end Sys2Proof.Machine

/-!
PROOF. O39, PREEMPT: what a STOP makes of each command of its target, what it leaves of the target's context, and how the
PREEMPT ends.
-/
namespace Sys2Proof.Machine

open Sys2Proof.Claims

variable {s t u : State} {e x y : Entry} {m n : Nat} {named : List (Nat × Nat × Nat)}

/-! ## The entries of the journal -/

theorem entryAt_of_mem (h : Numbered s) (he : e ∈ s.journal.entries) : s.entryAt e.id = some e := by
  obtain ⟨y, hy⟩ := exists_entryAt he
  have hid : y.id = e.id := by simpa using List.find?_some hy
  rw [hy, h.eq_of_id (List.mem_of_find?_eq_some hy) he hid]

theorem entriesOf_congr (h : t.journal = s.journal) (n : Nat) : t.entriesOf n = s.entriesOf n := by
  unfold State.entriesOf; rw [h]

/-- Commands of different contexts have different numbers. -/
theorem id_ne_of_ctx_ne (h : Numbered s) (hx : x ∈ s.journal.entries) (hy : y ∈ s.journal.entries)
    (hne : x.ctx ≠ y.ctx) : x.id ≠ y.id := fun hid => hne (congrArg Entry.ctx (h.eq_of_id hx hy hid))

theorem setEntry_entryAt_ne {i : Nat} (h : y.id ≠ i) : (s.setEntry y).entryAt i = s.entryAt i := by
  rw [entryAt_map (fun z => by split <;> simp_all) (State.setEntry_entries s y)]
  cases hz : s.entryAt i with
  | none => rfl
  | some z =>
    have hid : z.id = i := by simpa using List.find?_some hz
    simp [hid, Ne.symm h]

/-! ## Contexts whose stores count on (R413) -/

/-- The contexts are as they were, but for the counters of their bounce windows. -/
def BounceOnly (s t : State) : Prop := ∀ n, ∃ b, t.ctx n = { s.ctx n with bounce := b }

theorem ctx_congr (h : t.ctxs = s.ctxs) (n : Nat) : t.ctx n = s.ctx n := by
  unfold State.ctx; rw [h]

theorem BounceOnly.of_ctxs (h : t.ctxs = s.ctxs) : BounceOnly s t := fun n => ⟨(s.ctx n).bounce, ctx_congr h n⟩

theorem BounceOnly.trans (h : BounceOnly s t) (g : BounceOnly t u) : BounceOnly s u := fun n => by
  obtain ⟨a, ha⟩ := h n
  obtain ⟨b, hb⟩ := g n
  exact ⟨b, by rw [hb, ha]⟩

theorem BounceOnly.state (h : BounceOnly s t) (n : Nat) : (t.ctx n).state = (s.ctx n).state := by
  obtain ⟨b, hb⟩ := h n
  rw [hb]

theorem BounceOnly.saveUsed (h : BounceOnly s t) (n : Nat) : (t.ctx n).saveUsed = (s.ctx n).saveUsed := by
  obtain ⟨b, hb⟩ := h n
  rw [hb]

theorem BounceOnly.foldl {α : Type} {f : State → α → State} (hf : ∀ t x, BounceOnly t (f t x)) (xs : List α)
    (s : State) : BounceOnly s (xs.foldl f s) := by
  induction xs generalizing s with
  | nil => exact .of_ctxs rfl
  | cons x xs ih => exact (hf s x).trans (ih (f s x))

theorem setCtx_bounceOnly (s : State) (n : Nat) (b : Option Bounce) :
    BounceOnly s (s.setCtx n { s.ctx n with bounce := b }) := fun k => by
  rw [State.setCtx_ctx]
  split
  · next h => subst h; exact ⟨b, rfl⟩
  · exact ⟨(s.ctx k).bounce, rfl⟩

theorem storeAs_ctxs (s : State) (pocket : Bool) (ctx a : Nat) (bs : Bytes) : (s.storeAs pocket ctx a bs).ctxs = s.ctxs :=
  (State.storeAs_same (SameBut.refl [.seams, .mem, .fabric, .counters, .lining] s) pocket ctx a bs (by decide)).ctxs
    (by decide)

theorem bounceStore_bounceOnly (s : State) (ctx a : Nat) (bs : Bytes) (pocket : Bool) :
    BounceOnly s (s.bounceStore ctx a bs pocket) := by
  unfold State.bounceStore
  split
  · exact .of_ctxs (storeAs_ctxs ..)
  · split
    · exact .of_ctxs (storeAs_ctxs ..)
    · split
      · extract_lets _ _ _ v
        have hv : BounceOnly s v := .of_ctxs ((storeAs_ctxs ..).trans (storeAs_ctxs ..))
        exact hv.trans (setCtx_bounceOnly v ctx _)
      · exact .of_ctxs rfl

theorem viewStore_bounceOnly (s : State) (e : Entry) (w : Nat × Bytes) : BounceOnly s (s.viewStore e w) := by
  unfold State.viewStore
  split
  · split
    · exact .of_ctxs rfl
    · extract_lets _ _ _ _ _ v
      split
      · exact .of_ctxs ((State.ringStore_same (SameBut.refl [.seams, .mem, .cores, .fabric, .chains, .counters, .lining] v)
          _ _ _ _ (by decide)).ctxs (by decide))
      · exact .of_ctxs rfl
  · exact bounceStore_bounceOnly s e.ctx w.1 w.2 e.isPocket

/-- The journal is as it was, and so are the contexts, the counters of their bounce windows apart. -/
structure Stands (s t : State) : Prop where
  journal : t.journal = s.journal
  ctxs : BounceOnly s t

theorem Stands.of_same {l : List Part} (h : SameBut l s t) (hj : .journal ∉ l) (hc : .ctxs ∉ l) : Stands s t :=
  ⟨h.journal hj, .of_ctxs (h.ctxs hc)⟩

theorem Stands.trans (h : Stands s t) (g : Stands t u) : Stands s u :=
  ⟨g.journal.trans h.journal, h.ctxs.trans g.ctxs⟩

theorem rowSteps_stands (s : State) (e : Entry) (rows : List (Nat × List (Nat × Bytes))) :
    Stands s (s.rowSteps e rows) where
  journal := (State.rowSteps_same (SameBut.refl
    [.seams, .mem, .ctxs, .cores, .fabric, .chains, .starved, .counters, .lining] s) e rows (by decide)).journal (by decide)
  ctxs := by
    unfold State.rowSteps
    refine BounceOnly.foldl (fun t r => ?_) rows s
    exact BounceOnly.foldl (fun t w => viewStore_bounceOnly t e w) r.2 t

theorem freeSave_ctx_state (s : State) (e : Entry) (n : Nat) : ((s.freeSave e).ctx n).state = (s.ctx n).state := by
  unfold State.freeSave
  split
  · rfl
  · rw [State.setCtx_ctx]
    split
    · next h => rw [h]
    · rfl

/-! ## A command that stops (R231) -/

/-- The entry of a command that stops as it stands. -/
def Entry.halted (e : Entry) : Entry := { e with state := .stopped, preempted := true, working := false, asked := [] }

/-- The entry of a command that stops at some cursors, with what it has taken of a version slot (R99). -/
def Entry.haltedAt (v : Saved) (taken : List (Nat × BitVec 8)) (e : Entry) : Entry :=
  { e.halted with
    saved := some v, taken := taken
    tileCursor := BitVec.ofNat 32 (v.cursors.headD (0, 0)).1, rowCursor := BitVec.ofNat 32 (v.cursors.headD (0, 0)).2 }

theorem haltOf_of_not_inWork (h : x.inWork = false) : s.haltOf named x = .runs := by
  simp [State.haltOf, h]

theorem haltOf_of_exempt (h : x.exempt = true) : s.haltOf named x = .runs := by
  simp [State.haltOf, h]

theorem haltOf_of_not_working (hi : x.inWork = true) (he : x.exempt = false) (hw : x.working = false) :
    s.haltOf named x = .waits := by
  simp [State.haltOf, State.started, hi, he, hw]

theorem halt_of_runs (h : s.haltOf named x = .runs) : s.halt named x = (s, 0) := by
  simp [State.halt, h]

theorem halt_of_waits (h : s.haltOf named x = .waits) : s.halt named x = (s.stopWaiting x, 1) := by
  simp [State.halt, h]

theorem halt_of_stops {cs d v} (h : s.haltOf named x = .stops cs d v) : s.halt named x = (s.stopStarted x d v, 1) := by
  simp [State.halt, h]

theorem stopWaiting_of_not_working (h : x.working = false) : s.stopWaiting x = s.setEntry x.halted := by
  simp [State.stopWaiting, h, Entry.halted]

/-- A started command that stops: its entry is set in a machine whose journal and contexts are as they were, but for the
part of the save area that its resume state takes and the bounce windows. -/
theorem stopStarted_eq (s : State) (e : Entry) (d : Delta) (v : Saved) :
    ∃ (u : State) (taken : List (Nat × BitVec 8)), s.stopStarted e d v = u.setEntry (e.haltedAt v taken) ∧
      u.journal = s.journal ∧
      (u.ctx e.ctx).saveUsed = ((s.freeSave e).ctx e.ctx).saveUsed + v.bytes ∧
      ∀ n, (u.ctx n).state = (s.ctx n).state := by
  unfold State.stopStarted
  extract_lets _ _ _ s1 taken s2 s3 s4 _ s5 s6 _
  have hrows : Stands (s.freeSave e) s2 :=
    (Stands.of_same (State.markSlot_same (State.countIf_same (SameBut.refl [.mem, .cores, .fabric, .counters] _) _ _
      (by decide)) d.slot 2 (by decide)) (by decide) (by decide)).trans (rowSteps_stands _ _ _)
  have hgone : SameBut [.mem, .cores, .fabric, .counters, .free] s2 s3 :=
    State.dropCopies_same (State.scramble_same (SameBut.refl _ _) _ (by decide)) _ (by decide)
  have hsave : SameBut [.mem, .cores, .fabric, .counters, .free] s2 s4 := by
    unfold s4
    split
    · exact State.scramble_same hgone _ (by decide)
    · exact hgone
  have hstands : Stands (s.freeSave e) s4 := hrows.trans (.of_same hsave (by decide) (by decide))
  have hend : SameBut [.mem, .cores, .fabric, .counters, .trace, .belt] s5 (s6.endWork e) :=
    State.endWork_same (same_foldl (fun _ _ h => State.traceRec_same h _ _ _ _ _ (by decide)) (SameBut.refl _ _)) _
      (by decide)
  have hctx : ∀ n, (s6.endWork e).ctx n =
      if e.ctx = n then { s4.ctx e.ctx with saveUsed := (s4.ctx e.ctx).saveUsed + v.bytes } else s4.ctx n := fun n =>
    (ctx_congr (hend.ctxs (by decide)) n).trans (State.setCtx_ctx s4 e.ctx n _)
  have hfree := State.freeSave_same (SameBut.refl [.ctxs] s) e (by decide)
  refine ⟨s6.endWork e, taken, rfl, ?_, ?_, fun n => ?_⟩
  · exact (hend.journal (by decide)).trans (hstands.journal.trans (hfree.journal (by decide)))
  · rw [hctx, if_pos rfl, hstands.ctxs.saveUsed]
  · rw [hctx, ← freeSave_ctx_state s e, ← hstands.ctxs.state n]
    split
    · next h => rw [h]
    · rfl

/-- A STOP that reaches a command leaves all as it is, or sets the command's entry in a machine whose journal and
contexts are otherwise as they were, what they hold of their save areas apart. -/
theorem halt_cases (s : State) (named : List (Nat × Nat × Nat)) (x : Entry) : s.halt named x = (s, 0) ∨
    ∃ (u : State) (y : Entry), s.halt named x = (u.setEntry y, 1) ∧ y.id = x.id ∧ u.journal = s.journal ∧
      ∀ n, (u.ctx n).state = (s.ctx n).state := by
  cases h : s.haltOf named x with
  | runs => exact .inl (halt_of_runs h)
  | waits =>
    refine .inr ⟨_, x.halted, halt_of_waits h, rfl, ?_⟩
    have hsame : SameBut [.cores, .fabric, .counters, .belt] s (if x.working then s.endWork x else s) :=
      same_ite' (State.endWork_same (SameBut.refl _ _) _ (by decide)) (SameBut.refl _ _)
    exact ⟨hsame.journal (by decide), (BounceOnly.of_ctxs (hsame.ctxs (by decide))).state⟩
  | stops cs d v =>
    obtain ⟨u, taken, hu, hjournal, -, hstate⟩ := stopStarted_eq s x d v
    exact .inr ⟨u, x.haltedAt v taken, by rw [halt_of_stops h, hu], rfl, hjournal, hstate⟩

theorem halt_entryAt_ne {i : Nat} (h : x.id ≠ i) : (s.halt named x).1.entryAt i = s.entryAt i := by
  obtain hsame | ⟨u, y, heq, hid, hjournal, -⟩ := halt_cases s named x
  · rw [hsame]
  · rw [heq, setEntry_entryAt_ne (hid ▸ h), entryAt_congr hjournal]

theorem halt_ctx_state (n : Nat) : ((s.halt named x).1.ctx n).state = (s.ctx n).state := by
  obtain hsame | ⟨u, y, heq, -, -, hstate⟩ := halt_cases s named x
  · rw [hsame]
  · have hset := State.setEntry_same (SameBut.refl [.mem, .journal, .fabric] u) y (by decide)
    rw [heq, (BounceOnly.of_ctxs (hset.ctxs (by decide))).state, hstate]

/-! ## The commands of a context -/

/-- A STOP reaches some commands in turn: the engine, and how many have stopped. -/
def State.haltAll (s : State) (named : List (Nat × Nat × Nat)) (xs : List Entry) : State × Nat :=
  xs.foldl (fun r x => ((r.1.halt named x).1, r.2 + (r.1.halt named x).2)) (s, 0)

/-- Only the commands in work matter. -/
theorem haltAll_filter (s : State) (xs : List Entry) :
    s.haltAll named (xs.filter Entry.inWork) = s.haltAll named xs := by
  unfold State.haltAll
  rw [List.foldl_filter]
  congr 1
  funext r x
  split
  · rfl
  · next h => rw [halt_of_runs (haltOf_of_not_inWork (by simpa using h))]; rfl

theorem haltAll_keeps {P : State → Prop} {xs : List Entry} (h : P s)
    (hstep : ∀ t, ∀ x ∈ xs, P t → P (t.halt named x).1) : P (s.haltAll named xs).1 := by
  unfold State.haltAll
  generalize 0 = k
  induction xs generalizing s k with
  | nil => exact h
  | cons x xs ih =>
    exact ih (hstep s x List.mem_cons_self h) (fun t y hy => hstep t y (List.mem_cons_of_mem _ hy)) _

/-- Commands that have not begun their work all stop as they stand. -/
theorem haltAll_waiting {xs : List Entry} (h : ∀ x ∈ xs, x.inWork = true ∧ x.exempt = false ∧ x.working = false) :
    s.haltAll named xs = (xs.foldl (fun t x => t.setEntry x.halted) s, xs.length) := by
  unfold State.haltAll
  rw [show xs.length = 0 + xs.length from (Nat.zero_add _).symm]
  generalize 0 = k
  induction xs generalizing s k with
  | nil => rfl
  | cons x xs ih =>
    obtain ⟨hi, he, hw⟩ := h x List.mem_cons_self
    have hx : s.halt named x = (s.setEntry x.halted, 1) := by
      rw [halt_of_waits (haltOf_of_not_working hi he hw), stopWaiting_of_not_working hw]
    rw [List.foldl_cons, List.foldl_cons, hx, ih (fun y hy => h y (List.mem_cons_of_mem _ hy)), List.length_cons,
      Nat.add_assoc, Nat.add_comm 1]

/-- One more command that takes its form under `f`, after those whose numbers are listed. -/
theorem setEntry_entries_formed {f : Entry → Entry} (hf : ∀ y, (f y).id = y.id) (hn : Numbered s)
    (hx : x ∈ s.journal.entries) {ids : List Nat}
    (ht : t.journal.entries = s.journal.entries.map (fun y => if y.id ∈ ids then f y else y)) :
    (t.setEntry (f x)).journal.entries =
      s.journal.entries.map (fun y => if y.id ∈ ids ++ [x.id] then f y else y) := by
  rw [State.setEntry_entries, ht, List.map_map]
  refine List.map_congr_left fun y hy => ?_
  have hid : (if y.id ∈ ids then f y else y).id = y.id := by
    split
    · exact hf y
    · rfl
  simp only [Function.comp_apply, hid, hf, List.mem_append, List.mem_singleton]
  by_cases hyx : y.id = x.id
  · rw [hn.eq_of_id hy hx hyx, if_pos rfl, if_pos (.inr rfl)]
  · simp only [hyx, if_false, or_false]

theorem foldl_setEntry_entries {f : Entry → Entry} (hf : ∀ y, (f y).id = y.id) (hn : Numbered s) {xs : List Entry}
    (hxs : ∀ x ∈ xs, x ∈ s.journal.entries) {ids : List Nat}
    (ht : t.journal.entries = s.journal.entries.map (fun y => if y.id ∈ ids then f y else y)) :
    (xs.foldl (fun t x => t.setEntry (f x)) t).journal.entries =
      s.journal.entries.map (fun y => if y.id ∈ ids ++ xs.map Entry.id then f y else y) := by
  induction xs generalizing t ids with
  | nil => rw [List.foldl_nil, List.map_nil, List.append_nil, ht]
  | cons x xs ih =>
    have hstep := ih (fun y hy => hxs y (List.mem_cons_of_mem x hy))
      (setEntry_entries_formed hf hn (hxs x List.mem_cons_self) ht)
    rwa [List.append_assoc] at hstep

/-- Where no command has stopped yet, each entry is as it is. -/
theorem entries_unformed (s : State) (f : Entry → Entry) :
    s.journal.entries = s.journal.entries.map (fun y => if y.id ∈ [] then f y else y) := by
  simp only [List.not_mem_nil, if_false, List.map_id']

theorem foldl_setEntry_logsOnly (f : Entry → Entry) (xs : List Entry) (s : State) :
    LogsOnly s (xs.foldl (fun t x => t.setEntry (f x)) s) := by
  induction xs generalizing s with
  | nil => exact .refl s
  | cons x xs ih => exact (setEntry_logsOnly s (f x)).trans (ih _)

/-- The journal after some commands have stopped, each in the form that `f` gives it. -/
structure Halted (f : Entry → Entry) (held : List Entry) (s u : State) : Prop where
  id_eq : ∀ y, (f y).id = y.id
  stopped : ∀ y, (f y).state = .stopped
  entries : u.journal.entries = s.journal.entries.map (fun y => if y.id ∈ held.map Entry.id then f y else y)

namespace Halted

variable {f : Entry → Entry} {held : List Entry}

theorem entryAt (h : Halted f held s u) (hn : Numbered s) (hx : x ∈ s.journal.entries) :
    u.entryAt x.id = some (if x.id ∈ held.map Entry.id then f x else x) := by
  rw [entryAt_map (fun y => ?_) h.entries, entryAt_of_mem hn hx]
  · rfl
  · split
    · exact h.id_eq y
    · rfl

/-- None of a context's commands is at work once all that were have stopped. -/
theorem none_inWork (h : Halted f ((s.entriesOf n).filter Entry.inWork) s u) : (u.entriesOf n).any Entry.inWork = false := by
  rw [List.any_eq_false]
  intro z hz
  obtain ⟨hz, hctx⟩ := List.mem_filter.mp hz
  rw [h.entries] at hz
  obtain ⟨y, hy, rfl⟩ := List.mem_map.mp hz
  by_cases hin : y.id ∈ ((s.entriesOf n).filter Entry.inWork).map Entry.id
  · simp [hin, Entry.inWork, h.stopped]
  · rw [if_neg hin] at hctx ⊢
    intro hwork
    exact hin (List.mem_map_of_mem (List.mem_filter.mpr ⟨List.mem_filter.mpr ⟨hy, hctx⟩, hwork⟩))

end Halted

/-- The commands of a context, all of which have yet to begin their work, stop as they stand. -/
theorem halted_of_waiting (hn : Numbered s)
    (h : ∀ x ∈ (s.entriesOf n).filter Entry.inWork, x.exempt = false ∧ x.working = false) :
    ∃ u, s.haltAll named (s.entriesOf n) = (u, ((s.entriesOf n).filter Entry.inWork).length) ∧
      Halted Entry.halted ((s.entriesOf n).filter Entry.inWork) s u ∧ u.ctxs = s.ctxs ∧ LogsOnly s u := by
  refine ⟨((s.entriesOf n).filter Entry.inWork).foldl (fun t x => t.setEntry x.halted) s, ?_,
    ⟨fun _ => rfl, fun _ => rfl, ?_⟩, ?_, foldl_setEntry_logsOnly Entry.halted _ s⟩
  · rw [← haltAll_filter]
    exact haltAll_waiting fun x hx => ⟨(List.mem_filter.mp hx).2, h x hx⟩
  · exact foldl_setEntry_entries (f := Entry.halted) (fun _ => rfl) hn
      (fun x hx => (List.mem_filter.mp (List.mem_filter.mp hx).1).1) (entries_unformed s Entry.halted)
  · exact (same_foldl (fun _ x hs => State.setEntry_same hs x.halted (by decide))
      (SameBut.refl [.mem, .journal, .fabric] s)).ctxs (by decide)

/-- The only command in work of a context stops at some cursors. -/
theorem halted_of_stops {cs d v} (hn : Numbered s) (hheld : (s.entriesOf n).filter Entry.inWork = [x])
    (h : s.haltOf named x = .stops cs d v) :
    ∃ u taken, s.haltAll named (s.entriesOf n) = (u, 1) ∧
      Halted (Entry.haltedAt v taken) ((s.entriesOf n).filter Entry.inWork) s u ∧
      (u.ctx n).saveUsed = ((s.freeSave x).ctx n).saveUsed + v.bytes ∧ (u.ctx n).state = (s.ctx n).state := by
  have hx : x ∈ (s.entriesOf n).filter Entry.inWork := hheld ▸ List.mem_singleton_self x
  obtain ⟨hmem, hctx⟩ := List.mem_filter.mp (List.mem_filter.mp hx).1
  have hctx : x.ctx = n := by simpa using hctx
  obtain ⟨w, taken, hw, hjournal, hsave, hstate⟩ := stopStarted_eq s x d v
  have hset := State.setEntry_same (SameBut.refl [.mem, .journal, .fabric] w) (x.haltedAt v taken) (by decide)
  refine ⟨w.setEntry (x.haltedAt v taken), taken, ?_, ⟨fun _ => rfl, fun _ => rfl, ?_⟩, ?_, ?_⟩
  · rw [← haltAll_filter, hheld, ← hw]
    simp [State.haltAll, halt_of_stops h]
  · rw [hheld]
    exact setEntry_entries_formed (f := Entry.haltedAt v taken) (ids := []) (fun _ => rfl) hn hmem
      (by rw [hjournal]; exact entries_unformed s (Entry.haltedAt v taken))
  · rw [ctx_congr (hset.ctxs (by decide)), ← hctx, hsave]
  · rw [ctx_congr (hset.ctxs (by decide)), hstate]

/-- A command that a STOP exempts stays in work, and the PREEMPT and the target's state stay as they are. -/
theorem haltAll_of_exempt (hn : Numbered s) (he : e ∈ s.journal.entries) (hctx : e.ctx ≠ n)
    (hx : x ∈ s.entriesOf n) (hexempt : x.exempt = true) :
    let u := (s.haltAll named (s.entriesOf n)).1
    u.entryAt x.id = some x ∧ u.entryAt e.id = some e ∧ (u.ctx n).state = (s.ctx n).state := by
  obtain ⟨hxmem, hxctx⟩ := List.mem_filter.mp hx
  refine haltAll_keeps (P := fun u => u.entryAt x.id = some x ∧ u.entryAt e.id = some e ∧
    (u.ctx n).state = (s.ctx n).state) ⟨entryAt_of_mem hn hxmem, entryAt_of_mem hn he, rfl⟩ fun t y hy h => ?_
  obtain ⟨htx, hte, hstate⟩ := h
  obtain ⟨hymem, hyctx⟩ := List.mem_filter.mp hy
  have hyctx : y.ctx = n := by simpa using hyctx
  refine ⟨?_, ?_, (halt_ctx_state n).trans hstate⟩
  · by_cases hyx : y.id = x.id
    · obtain rfl := hn.eq_of_id hymem hxmem hyx
      rw [halt_of_runs (haltOf_of_exempt hexempt)]
      exact htx
    · rw [halt_entryAt_ne hyx]
      exact htx
  · rw [halt_entryAt_ne (id_ne_of_ctx_ne hn hymem he (hyctx ▸ hctx.symm))]
    exact hte

/-! ## How a PREEMPT ends -/

/-- The PREEMPT is recorded in the audit log and has its outcome. -/
def State.preemptDone (s : State) (e : Entry) (r : W32) : State := (s.auditCommand e none).conclude e Status.ok r false

/-- The entry of a command that has its outcome. -/
def Entry.concluded (e : Entry) (st : Status) (r : W32) (now : W64) : Entry :=
  { e with
    decided := true, status := e.finalStatus st, result := if st.failed then 0 else r, sumSat := false, tFinished := now }

theorem preemptDone_eq (s : State) (e : Entry) (r : W32) : s.preemptDone e r =
    (s.auditCommand e none).setEntry (e.concluded Status.ok r (s.auditCommand e none).stamp) := rfl

theorem preemptDone_same (s : State) (e : Entry) (r : W32) :
    SameBut [.mem, .journal, .fabric, .lining] s (s.preemptDone e r) :=
  State.conclude_same (State.auditCommand_same (SameBut.refl _ _) _ _ (by decide)) _ _ _ _ (by decide)

theorem preemptDone_ctx (s : State) (e : Entry) (r : W32) (n : Nat) : (s.preemptDone e r).ctx n = s.ctx n :=
  ctx_congr ((preemptDone_same s e r).ctxs (by decide)) n

theorem preemptDone_logsOnly (s : State) (e : Entry) (r : W32) : LogsOnly s (s.preemptDone e r) :=
  (LogsOnly.of_same (State.auditCommand_same (SameBut.refl [.lining] s) e none (by decide)) (by decide) (by decide)
    (by decide)).trans (setEntry_logsOnly _ _)

theorem preemptDone_entryAt_ne {i : Nat} (r : W32) (h : e.id ≠ i) : (s.preemptDone e r).entryAt i = s.entryAt i := by
  have haudit := State.auditCommand_same (SameBut.refl [.lining] s) e none (by decide)
  rw [preemptDone_eq, setEntry_entryAt_ne (y := e.concluded _ _ _) h, entryAt_congr (haudit.journal (by decide))]

theorem preemptDone_ended (r : W32) (h : s.entryAt e.id = some y) : Ended (s.preemptDone e r) e Status.ok r := by
  have haudit := State.auditCommand_same (SameBut.refl [.lining] s) e none (by decide)
  have hentry : (s.preemptDone e r).entryAt e.id = some (e.concluded Status.ok r (s.auditCommand e none).stamp) :=
    State.setEntry_entryAt _ (e.concluded Status.ok r (s.auditCommand e none).stamp) y
      ((entryAt_congr (haudit.journal (by decide)) _).trans h)
  exact ⟨_, hentry, rfl, rfl, rfl,
    (stamp_congr (haudit.tb (by decide))).trans (stamp_congr ((preemptDone_same s e r).tb (by decide))).symm, rfl⟩

section Stop

variable {j : Nat}

/-- Where no command of the target is left in work, it is PREEMPTED and the PREEMPT completes. -/
theorem stopMore_of_none (h : s.haltAll named (s.entriesOf n) = (u, j)) (hopen : (u.ctx n).state = .opened)
    (hnone : (u.entriesOf n).any Entry.inWork = false) : s.stopMore e n 0 named =
      ((u.countIf (.context n 4) j).setCtx n { u.ctx n with state := .preempted, stopping := none }).preemptDone e
        (BitVec.ofNat 32 j) := by
  have hcount := State.countIf_same (SameBut.refl [.counters] u) (.context n 4) j (by decide)
  unfold State.stopMore
  rw [show List.foldl _ _ _ = (u, j) from h]
  dsimp only
  rw [entriesOf_congr (hcount.journal (by decide)), hnone, ctx_congr (hcount.ctxs (by decide))]
  simp [hopen, State.preemptDone]

/-- Where one is left, the target is PREEMPTING. -/
theorem stopMore_of_some (h : s.haltAll named (s.entriesOf n) = (u, j)) (hopen : (u.ctx n).state = .opened)
    (hsome : (u.entriesOf n).any Entry.inWork = true) : s.stopMore e n 0 named =
      (u.countIf (.context n 4) j).setCtx n { u.ctx n with state := .preempting, stopping := some (e.seq, j) } := by
  have hcount := State.countIf_same (SameBut.refl [.counters] u) (.context n 4) j (by decide)
  unfold State.stopMore
  rw [show List.foldl _ _ _ = (u, j) from h]
  dsimp only
  rw [entriesOf_congr (hcount.journal (by decide)), hsome, ctx_congr (hcount.ctxs (by decide))]
  simp [hopen]

/-- A STOP after which each command in work has the form that `f` gives it. -/
theorem stopMore_preempts {f : Entry → Entry} (hn : Numbered s) (he : e ∈ s.journal.entries) (hctx : e.ctx ≠ n)
    (h : s.haltAll named (s.entriesOf n) = (u, j)) (hopen : (u.ctx n).state = .opened)
    (hh : Halted f ((s.entriesOf n).filter Entry.inWork) s u) :
    let t := s.stopMore e n 0 named
    t.ctx n = { u.ctx n with state := .preempted, stopping := none } ∧ LogsOnly u t ∧
      Ended t e Status.ok (BitVec.ofNat 32 j) ∧
      ∀ x ∈ (s.entriesOf n).filter Entry.inWork, t.entryAt x.id = some (f x) := by
  have hv : SameBut [.ctxs, .counters] u ((u.countIf (.context n 4) j).setCtx n
      { u.ctx n with state := .preempted, stopping := none }) :=
    State.setCtx_same (State.countIf_same (SameBut.refl _ _) _ _ (by decide)) _ _ (by decide)
  have hentry : ∀ x ∈ s.journal.entries, _ := fun x hx =>
    (entryAt_congr (hv.journal (by decide)) x.id).trans (hh.entryAt hn hx)
  rw [stopMore_of_none h hopen hh.none_inWork]
  refine ⟨?_, ?_, preemptDone_ended _ (hentry e he), fun x hx => ?_⟩
  · rw [preemptDone_ctx, State.setCtx_ctx, if_pos rfl]
  · exact (LogsOnly.of_same hv (by decide) (by decide) (by decide)).trans (preemptDone_logsOnly _ _ _)
  · obtain ⟨hmem, -⟩ := List.mem_filter.mp hx
    obtain ⟨hmem, hxctx⟩ := List.mem_filter.mp hmem
    have hxctx : x.ctx = n := by simpa using hxctx
    rw [preemptDone_entryAt_ne _ (id_ne_of_ctx_ne hn he hmem (hxctx ▸ hctx)), hentry x hmem,
      if_pos (List.mem_map_of_mem hx)]

end Stop

/-! ## The row -/

theorem exec_preempt {q : W32} (h : Runs s .preempt n q e) :
    exec (.preempt n q named) s = .next (s.preemptWork e named) := by
  obtain ⟨hrun, -⟩ := h
  show execPreempt n q named s = _
  simp [execPreempt, hrun]

section Operands

variable (hclean : e.clean [(0x10, 0, 10), (0x12, 0, 1)] = true) (hm : e.field 0x10 2 ≠ 0)
  (hfree : (s.ctx (e.field 0x10 2)).stopping = none)
include hclean hm hfree

theorem preemptWork_stop (hstop : (e.field 0x12 1).testBit 0 = false)
    (hopen : (s.ctx (e.field 0x10 2)).state = .opened) :
    s.preemptWork e named = s.stopMore e (e.field 0x10 2) 0 named := by
  simp [State.preemptWork, hclean, hm, hfree, hstop, hopen]

theorem preemptWork_resume (hresume : (e.field 0x12 1).testBit 0 = true) :
    s.preemptWork e named = (if (s.ctx (e.field 0x10 2)).state = .preempted
      then s.setCtx (e.field 0x10 2) { s.ctx (e.field 0x10 2) with state := .opened } else s).preemptDone e 0 := by
  by_cases hstate : (s.ctx (e.field 0x10 2)).state = .preempted
  · simp [State.preemptWork, State.preemptDone, hclean, hm, hfree, hresume, hstate]
  · simp [State.preemptWork, State.preemptDone, hclean, hm, hfree, hresume, hstate]

end Operands

/-! ## The obligation -/

/-- Settles O39: a STOP by what it makes of the commands in work, all of which wait, or one of which stops at cursors, or one
of which is exempt; a RESUME by the state of its target. -/
theorem preemptStopsAndResumes : Obligations.PreemptStopsAndResumes := by
  unfold Obligations.PreemptStopsAndResumes
  intro n q cur s e hruns m c held hclean hm hctx hfree
  obtain ⟨hrun, hn, -, -⟩ := id hruns
  obtain ⟨he, -, -, hundecided⟩ := runnable_eq_some hrun
  have hexec := exec_preempt (named := cur) hruns
  have hframe : SameBut (frameOf (.preempt n q cur)) s (s.preemptWork e cur) :=
    sameX_of hexec (execPreempt_same (SameBut.refl _ s) n q cur rfl)
  refine ⟨fun hstop hopen hwaits => ?_, fun hstop hopen x cs d v hheld hhalt => ?_, fun hstop hopen hexempt => ?_,
    fun hresume => ?_⟩
  · obtain ⟨u, hall, hhalted, hctxs, hlogs⟩ := halted_of_waiting (named := cur) hn hwaits
    rw [preemptWork_stop hclean hm hfree hstop hopen] at hexec hframe
    obtain ⟨htarget, hends, hended, hentries⟩ :=
      stopMore_preempts hn he hctx.symm hall (by rw [ctx_congr hctxs]; exact hopen) hhalted
    refine ⟨_, hexec, hframe, ?_, (hlogs.trans hends).mem, hended, fun x hx => ?_⟩
    · rw [htarget, ctx_congr hctxs, ← hfree]
    · exact ⟨_, List.mem_of_find?_eq_some (hentries x hx), rfl, rfl, rfl, rfl, rfl, rfl, rfl⟩
  · obtain ⟨u, taken, hall, hhalted, hsave, hstate⟩ := halted_of_stops hn hheld hhalt
    rw [preemptWork_stop hclean hm hfree hstop hopen] at hexec hframe
    obtain ⟨htarget, -, hended, hentries⟩ :=
      stopMore_preempts hn he hctx.symm hall (hstate.trans hopen) hhalted
    refine ⟨_, hexec, hframe, by rw [htarget], hended, by rw [htarget]; exact hsave, ?_⟩
    have hx : x ∈ held := hheld ▸ List.mem_singleton_self x
    exact ⟨_, List.mem_of_find?_eq_some (hentries x hx), rfl, rfl, rfl, rfl, rfl, rfl⟩
  · obtain ⟨x, hx, hexempt⟩ := hexempt
    obtain ⟨hx, hwork⟩ := List.mem_filter.mp hx
    obtain ⟨hux, hue, hstate⟩ := haltAll_of_exempt (named := cur) hn he hctx.symm hx hexempt
    have hsome : ((s.haltAll cur (s.entriesOf m)).1.entriesOf m).any Entry.inWork = true :=
      List.any_eq_true.mpr
        ⟨x, List.mem_filter.mpr ⟨List.mem_of_find?_eq_some hux, (List.mem_filter.mp hx).2⟩, hwork⟩
    rw [preemptWork_stop hclean hm hfree hstop hopen, stopMore_of_some rfl (hstate.trans hopen) hsome] at hexec hframe
    have hcount := State.countIf_same (SameBut.refl [.counters] (s.haltAll cur (s.entriesOf m)).1) (.context m 4)
      (s.haltAll cur (s.entriesOf m)).2 (by decide)
    refine ⟨_, hexec, hframe, ?_, e, (entryAt_congr (hcount.journal (by decide)) e.id).trans hue, hundecided⟩
    rw [State.setCtx_ctx, if_pos rfl]
  · rw [preemptWork_resume hclean hm hfree hresume] at hexec
    have hset : SameBut [.ctxs] s (if c.state = .preempted then s.setCtx m { c with state := .opened } else s) :=
      same_ite' (State.setCtx_same (SameBut.refl _ _) _ _ (by decide)) (SameBut.refl _ _)
    refine ⟨_, hexec, (preemptDone_same _ _ _).step (hset.step (SameBut.refl _ s) (by decide)) (by decide),
      preemptDone_ended _ ((entryAt_congr (hset.journal (by decide)) e.id).trans (entryAt_of_mem hn he)),
      ((LogsOnly.of_same hset (by decide) (by decide) (by decide)).trans (preemptDone_logsOnly _ _ _)).mem,
      fun k hk => ?_, ?_⟩
    · rw [preemptDone_ctx]
      split
      · rw [State.setCtx_ctx, if_neg hk.symm]
      · rfl
    · rw [preemptDone_ctx]
      split
      · rw [State.setCtx_ctx, if_pos rfl]
      · rfl

end Sys2Proof.Machine

/-!
PROOF. O58, schedules and the governor: how a command that takes no queue completes, what each of the five commands
leaves of its context, and what GOV_READ leaves in memory.
-/
namespace Sys2Proof.Machine

open Sys2Proof.Claims

variable {s t u : State} {e y : Entry} {n : Nat} {q r : W32} {op : Op} {st : Status} {sat : Bool}
  {eff : State → Entry → Verdict}

/-! ## How a command that takes no queue completes (R225) -/

/-- The machine in which a command that takes no queue has completed, `u` the machine with its effect. -/
def State.completeOp (s : State) (op : Op) (e : Entry) (st : Status) (r : W32) (sat : Bool) (u : State) : State :=
  let t := (u.conclude ((u.entryAt e.id).getD e) st r sat).memberEnd e st
  if op.namesNone then t else s.metered t e.ctx e.seq

/-- The row of a command whose effect is at hand. -/
theorem runOp_of_done (h : Runs s op n q e) (hq : op.usesQueues = false) (hd : eff s e = .done st r sat u) :
    s.runOp op n q eff = .next (s.completeOp op e st r sat u) := by
  obtain ⟨hrun, -, hbroken, hproducer⟩ := h
  simp [State.runOp, State.completeOp, State.settle, State.hasStarted, hrun, hbroken, hproducer, hd, hq]

theorem runOp_of_wait (h : Runs s op n q e) (hw : eff s e = .wait) : s.runOp op n q eff = .next s := by
  obtain ⟨hrun, -, hbroken, hproducer⟩ := h
  simp [State.runOp, hrun, hbroken, hproducer, hw]

theorem completeOp_same (hq : op.usesQueues = false) (s u : State) (e : Entry) (st : Status) (r : W32) (sat : Bool) :
    SameBut (doneParts op) u (s.completeOp op e st r sat u) := by
  unfold State.completeOp doneParts
  rw [hq]
  cases op.namesNone
  · exact State.metered_same (State.memberEnd_same (State.conclude_same (SameBut.refl _ u) _ _ _ _ (by decide)) _ _
      (by decide)) _ _ _ (by decide)
  · exact State.memberEnd_same (State.conclude_same (SameBut.refl _ u) _ _ _ _ (by decide)) _ _ (by decide)

/-- With no journal in memory an entry is written to none. -/
theorem setEntry_mem_of_quiet (h : s.journal.state = 0) (y : Entry) : (s.setEntry y).mem = s.mem := by
  unfold State.setEntry State.linePut State.journalPut
  dsimp only
  rw [h]
  split
  · split <;> rfl
  · rfl

theorem setEntry_journal_state (s : State) (y : Entry) : (s.setEntry y).journal.state = s.journal.state := by
  unfold State.setEntry
  dsimp only
  split
  · rw [State.linePut_journal]
  · rfl

theorem completeOp_mem_of_quiet (h : u.journal.state = 0) : (s.completeOp op e st r sat u).mem = u.mem := by
  have hend := State.memberEnd_same (SameBut.refl [.chains] (u.conclude ((u.entryAt e.id).getD e) st r sat)) e st
    (by decide)
  have hmem := (hend.mem (by decide)).trans (setEntry_mem_of_quiet h _)
  unfold State.completeOp
  split
  · exact hmem
  · exact ((State.metered_same (SameBut.refl [.seams, .fabric] _) _ _ _ (by decide)).mem (by decide)).trans hmem

/-- The journal has a command's entry with what its outcome is made of: its packet, and the codes that go into its
STATUS (R229). -/
def EntryKept (s : State) (e : Entry) : Prop :=
  ∃ x, s.entryAt e.id = some x ∧ x.packet = e.packet ∧ x.notes = e.notes ∧ x.replayed = e.replayed

theorem EntryKept.of_runs (h : Runs s op n q e) : EntryKept s e := by
  obtain ⟨hrun, hn, -, -⟩ := h
  exact ⟨e, entryAt_of_mem hn (runnable_eq_some hrun).1, rfl, rfl, rfl⟩

theorem EntryKept.of_entries (h : EntryKept s e) (hj : t.journal.entries = s.journal.entries) : EntryKept t e := by
  unfold EntryKept State.entryAt at *
  rwa [hj]

theorem EntryKept.of_same {l : List Part} (h : EntryKept s e) (hs : SameBut l s t) (hj : .journal ∉ l) :
    EntryKept t e :=
  h.of_entries (congrArg Journal.entries (hs.journal hj))

theorem EntryKept.setEntry (h : EntryKept s e) (hid : y.id = e.id) (hp : y.packet = e.packet) (hn : y.notes = e.notes)
    (hr : y.replayed = e.replayed) : EntryKept (s.setEntry y) e := by
  obtain ⟨x, hx, -⟩ := h
  rw [← hid] at hx
  exact ⟨y, hid ▸ State.setEntry_entryAt s y x hx, hp, hn, hr⟩

theorem completeOp_ended (h : EntryKept u e) : Ended (s.completeOp op e st r sat u) e st r := by
  obtain ⟨x, hx, hpacket, hnotes, hreplayed⟩ := h
  have hid : x.id = e.id := by simpa using List.find?_some hx
  have hconclude : (u.conclude x st r sat).entryAt e.id = some { x.concluded st r u.stamp with sumSat := sat } :=
    hid ▸ State.setEntry_entryAt u { x.concluded st r u.stamp with sumSat := sat } x (hid ▸ hx)
  have hend : SameBut [.seams, .fabric, .chains] (u.conclude x st r sat) (s.completeOp op e st r sat u) := by
    unfold State.completeOp
    rw [hx]
    exact same_ite' (State.memberEnd_same (SameBut.refl _ _) _ _ (by decide))
      (State.metered_same (State.memberEnd_same (SameBut.refl _ _) _ _ (by decide)) _ _ _ (by decide))
  refine ⟨_, (entryAt_congr (hend.journal (by decide)) _).trans hconclude, rfl, ?_, rfl, ?_, hpacket⟩
  · simp only [Entry.concluded, Entry.finalStatus, hnotes, hreplayed]
  · refine (stamp_congr (hend.tb (by decide)) |>.trans (stamp_congr ?_)).symm
    exact (State.conclude_same (SameBut.refl [.mem, .journal, .fabric] u) x st r sat (by decide)).tb (by decide)

section Completes

variable {i : Instr} {l parts : List Part} {P : State → Prop} (hexec : exec i s = s.runOp op n q eff)
  (hruns : Runs s op n q e) (hq : op.usesQueues = false) (hdone : eff s e = .done Status.ok r sat u)
  (hsame : SameBut l s u) (hl : Within l parts) (hop : Within (doneParts op) parts)
include hexec hruns hq hdone hsame hl hop

/-- A row whose command completes: within the parts of its effect and those that every completed command touches, in a
machine that has the contexts of the effect. -/
theorem completes_of_done (hkept : EntryKept u e)
    (hP : ∀ t, t.ctxs = u.ctxs → (u.journal.state = 0 → t.mem = u.mem) → P t) : Completes i parts s e r P := by
  have hout := completeOp_same hq s u e Status.ok r sat
  refine ⟨_, hexec.trans (runOp_of_done hruns hq hdone), hout.step (hsame.step (SameBut.refl _ s) hl) hop,
    completeOp_ended hkept, hP _ ?_ completeOp_mem_of_quiet⟩
  refine hout.ctxs ?_
  unfold doneParts
  rw [hq]
  cases op.namesNone <;> decide

/-- The same where the effect leaves the journal alone. -/
theorem completes_of_effect (hj : .journal ∉ l) (hP : ∀ t, t.ctxs = u.ctxs → P t) : Completes i parts s e r P :=
  completes_of_done hexec hruns hq hdone hsame hl hop (.of_same (.of_runs hruns) hsame hj) fun t h _ => hP t h

end Completes

/-! ## Operations on one context -/

/-- Every context but one is as it was. -/
def OneCtx (n : Nat) (s t : State) : Prop := ∀ k, k ≠ n → t.ctx k = s.ctx k

theorem OneCtx.of_ctxs (h : t.ctxs = s.ctxs) : OneCtx n s t := fun k _ => ctx_congr h k

theorem OneCtx.trans (h : OneCtx n s t) (g : OneCtx n t u) : OneCtx n s u := fun k hk => (g k hk).trans (h k hk)

theorem OneCtx.foldl {α : Type} {f : State → α → State} (hf : ∀ t x, OneCtx n t (f t x)) (xs : List α) (s : State) :
    OneCtx n s (xs.foldl f s) := by
  induction xs generalizing s with
  | nil => exact .of_ctxs rfl
  | cons x xs ih => exact (hf s x).trans (ih (f s x))

theorem setCtx_oneCtx (s : State) (n : Nat) (c : Ctx) : OneCtx n s (s.setCtx n c) := fun k hk => by
  rw [State.setCtx_ctx, if_neg (Ne.symm hk)]

theorem setCtx_ctx_self (s : State) (n : Nat) (c : Ctx) : (s.setCtx n c).ctx n = c := by
  rw [State.setCtx_ctx, if_pos rfl]

theorem traceRec_ctxs (s : State) (type : Nat) (unit : TraceUnit) (n : Nat) (q : W32) (data : Nat) :
    (s.traceRec type unit n q data).ctxs = s.ctxs :=
  (State.traceRec_same (SameBut.refl [.mem, .fabric, .counters, .trace] s) _ _ _ _ _ (by decide)).ctxs (by decide)

/-- A ledger record advances HEAD in its context (R155). -/
theorem ledgerPut_ctx {g : Region} (h : (s.ctx n).ledger = some g) (x : LedgerRec) (traced : Bool) :
    OneCtx n s (s.ledgerPut n x traced) ∧
      (s.ledgerPut n x traced).ctx n = { s.ctx n with ledgerHead := ((s.ctx n).ledgerHead + 1) % 2 ^ 64 } := by
  unfold State.ledgerPut
  extract_lets _ m
  split
  · next hnone => exact absurd (hnone.symm.trans h) nofun
  next g _ =>
  extract_lets v c w
  have hv : v.ctxs = s.ctxs := (State.putRegion_same (State.ledgerLine_same
    (SameBut.refl [.mem, .cores, .fabric, .counters] s) n m x (by decide)) g 8 _ (by decide)).ctxs (by decide)
  have hw : OneCtx n s w := (OneCtx.of_ctxs hv).trans (setCtx_oneCtx v n _)
  have hself : w.ctx n = { s.ctx n with ledgerHead := (m + 1) % 2 ^ 64 } := by
    have hc : c = s.ctx n := ctx_congr hv n
    rw [setCtx_ctx_self, hc]
  have htrace := (State.ledgerTrace_same (SameBut.refl [.mem, .fabric, .counters, .trace] w) n x (by decide)).ctxs
    (by decide)
  split
  · exact ⟨hw.trans (.of_ctxs htrace), (ctx_congr htrace n).trans hself⟩
  · exact ⟨hw, hself⟩

theorem ledgerPut_oneCtx (s : State) (n : Nat) (x : LedgerRec) (traced : Bool) :
    OneCtx n s (s.ledgerPut n x traced) := by
  cases h : (s.ctx n).ledger with
  | none =>
    have hsame : s.ledgerPut n x traced = s := by simp [State.ledgerPut, h]
    exact .of_ctxs (by rw [hsame])
  | some g => exact (ledgerPut_ctx h x traced).1

theorem applyPending_oneCtx (s : State) (n from_ : Nat) : OneCtx n s (s.applyPending n from_) :=
  OneCtx.foldl (fun t _ => (ledgerPut_oneCtx t n _ _).trans (setCtx_oneCtx _ n _)) _ s

/-- A DISARM of the schedule that is armed. -/
theorem disarm_ctx {a : Armed × Schedule} (h : (s.ctx n).armedSched = some a) (from_ : Nat) :
    OneCtx n s (s.disarm n from_ q) ∧ ((s.disarm n from_ q).ctx n).armed = none := by
  unfold State.disarm
  split
  · next hnone => exact absurd (hnone.symm.trans h) nofun
  next y _ =>
  extract_lets v _ w
  have hw : OneCtx n s w := (applyPending_oneCtx s n from_).trans (setCtx_oneCtx v n _)
  refine ⟨hw.trans (.of_ctxs (traceRec_ctxs w ..)), ?_⟩
  rw [ctx_congr (traceRec_ctxs w ..), setCtx_ctx_self]

theorem ledger_of_ledgerRoom (h : 1 ≤ s.ledgerRoom n) : ∃ g, (s.ctx n).ledger = some g := by
  cases hl : (s.ctx n).ledger with
  | none => simp [State.ledgerRoom, hl] at h
  | some g => exact ⟨g, rfl⟩

/-- A machine with the contexts of one in which a context has been set. -/
theorem ctxs_eq_setCtx {c : Ctx} (h : t.ctxs = (s.setCtx n c).ctxs) : OneCtx n s t ∧ t.ctx n = c :=
  ⟨(setCtx_oneCtx s n c).trans (.of_ctxs h), (ctx_congr h n).trans (setCtx_ctx_self s n c)⟩

/-- The parts that the effects of SCHED_ARM and GOV_BOUNDS touch. -/
def govParts : List Part := [.mem, .ctxs, .cores, .fabric, .counters, .trace]

/-! ## SCHED_LOAD and SCHED_ARM (R328, R329) -/

/-- The schedule of an image, as SCHED_LOAD keeps it. -/
def scheduleOf (num image bytes : Nat) (b : Bytes) : Schedule :=
  Schedule.mk num image bytes (fieldOf b 4 4) (BitVec.ofNat 32 (fieldOf b 8 4)) (fieldOf b 0xC 4) (fieldOf b 0x10 8)
    (BitVec.ofNat 64 (fieldOf b 0x18 8)) (digest384 b)

/-- A SCHED_LOAD of a whole image in range. -/
theorem schedLoadWork_of_image {rs : List Run} {b : Bytes} (hb : (s.asRead e).readRuns rs = b)
    (hclean : e.clean [(0x10, 0, 8), (0x18, 0, 64), (0x20, 0, 64)] = true)
    (harmed : ∀ a, (s.ctx e.ctx).armed = some a → a.num ≠ e.field 0x10 1) (hat : e.field 0x18 8 ≠ 0)
    (hline : e.field 0x18 8 % 64 = 0) (hmin : 80 ≤ e.field 0x20 8) (hmax : e.field 0x20 8 ≤ 2 ^ 48)
    (hrs : s.resolve e.ctx (e.field 0x18 8) (e.field 0x20 8) false = .ok rs) (hstacks : inStacks rs = true)
    (hfits : 64 + 16 * fieldOf b 4 4 ≤ e.field 0x20 8)
    (hhead : schedHeadOk b (fieldOf b (64 + 16 * (fieldOf b 4 4 - 1)) 6) = true)
    (hslots : imageSlotsOk (fieldOf b 4 4) 0 (b.drop 64) = true) (hseals : s.sealIssues e.ctx [] [] rs = []) :
    schedLoadWork s e = .done Status.ok (BitVec.ofNat 32 (fieldOf b 4 4)) false
      (s.setCtx e.ctx { s.ctx e.ctx with
        schedules := (s.ctx e.ctx).schedules.filter (fun y => y.num != e.field 0x10 1) ++
          [scheduleOf (e.field 0x10 1) (e.field 0x18 8) (e.field 0x20 8) b] }) := by
  have hrange : 64 ≤ e.field 0x20 8 ∧ e.field 0x20 8 ≤ 281474976710656 := by omega
  have hseen : min (fieldOf b 4 4) ((e.field 0x20 8 - 64) / 16) = fieldOf b 4 4 := by omega
  unfold schedLoadWork
  extract_lets c num image bytes armed pre
  have hpre : pre = [] := by
    have hfree : armed = false := by
      unfold armed
      split
      · next a ha => exact decide_eq_false (harmed a ha)
      · rfl
    simp [pre, need, hclean, hfree, image, hat, hline]
  rw [hpre]
  simp [bytes, image, num, c, hrange, hrs, hb, hfits, hseen, hhead, hslots, hstacks, hseals, need, scheduleOf]

/-- An ARM of a loaded schedule whose image has not changed, from a START that leaves 10,000 ticks. -/
theorem schedArmWork_arm {v : Schedule} {rs : List Run}
    (hclean : e.clean [(0x10, 0, 8), (0x11, 0, 1), (0x18, 0, 64)] = true) (hoff : (e.field 0x11 1).testBit 0 = false)
    (hloaded : (s.ctx e.ctx).schedules.find? (fun x => x.num == e.field 0x10 1) = some v)
    (hnone : (s.ctx e.ctx).armed = none) (hstart : (e.tStarted.getD 0).toNat + 10000 ≤ e.field 0x18 8)
    (hlo : 1 ≤ (v.firstSeq - e.seq).toNat) (hhi : (v.firstSeq - e.seq).toNat ≤ 2 ^ 31)
    (hrs : s.resolve e.ctx v.image v.bytes false = .ok rs) (hsame : digest384 (s.readRuns rs) = v.digest) :
    schedArmWork s e = .done Status.ok 0 false
      ((s.setCtx e.ctx { s.ctx e.ctx with armed := some (Armed.mk (e.field 0x10 1) (e.field 0x18 8) 0) }).traceRec 11
        .collar e.ctx e.seq v.compileId.toNat) := by
  have hnum : v.num = e.field 0x10 1 := by simpa using List.find?_some hloaded
  have harm : schedArmWork s e = s.armSched e v (e.field 0x18 8) := by
    simp [schedArmWork, hclean, hoff, hloaded]
  rw [harm]
  unfold State.armSched
  extract_lets c d ok u
  have hok : ok = true := by
    unfold ok c
    rw [hnone, decide_eq_true hstart, decide_eq_true ⟨hlo, hhi⟩]
    rfl
  simp [hok, hrs, hsame, hnum, u, c]

section Disarm

variable (hclean : e.clean [(0x10, 0, 8), (0x11, 0, 1)] = true) (hoff : (e.field 0x11 1).testBit 0 = true)
include hclean hoff

theorem schedArmWork_disarm_none (hnone : (s.ctx e.ctx).armed = none) :
    schedArmWork s e = .done Status.ok 0 false s := by
  simp [schedArmWork, hclean, hoff, hnone]

theorem schedArmWork_disarm {a : Armed × Schedule} (harmed : (s.ctx e.ctx).armedSched = some a)
    (hsettled : s.govSettled e = true) (hroom : s.pendingRoom e.ctx = true) :
    schedArmWork s e = .done Status.ok 0 false (s.disarm e.ctx e.id e.seq) := by
  have hsome : (s.ctx e.ctx).armed ≠ none := fun h => by simp [Ctx.armedSched, h] at harmed
  simp [schedArmWork, hclean, hoff, hsome, hsettled, hroom]

end Disarm

/-! ## GOV_BOUNDS (R148) -/

section Bounds

variable (hgov : (s.ctx e.ctx).gov ≠ none) (hok : e.boundsOk = true) (hlost : (s.ctx e.ctx).govLost = false)
  (hwait : s.govWait e (fun x => x.op == some .govStep || x.op == some .govBounds ||
    s.resolvesRole x e.boundsLadder.layer e.boundsLadder.role) = false)
include hgov hok hlost hwait

/-- The first ladder of a role takes effect at once, with its BOUNDS record. -/
theorem govBoundsWork_first (hnew : (s.ctx e.ctx).ladder? e.boundsLadder.layer e.boundsLadder.role = none)
    (hstops : s.regionStops (s.ctx e.ctx).ledger = []) (hroom : 1 ≤ s.ledgerRoom e.ctx) :
    govBoundsWork s e = .done Status.ok 0 false
      ((s.setCtx e.ctx { s.ctx e.ctx with ladders := setLadder (s.ctx e.ctx).ladders e.boundsLadder }).ledgerPut e.ctx
        (e.boundsLadder.boundsRec (s.ctx e.ctx).step
          ((s.ctx e.ctx).sealedRole e.boundsLadder.layer e.boundsLadder.role) e.seq) false) := by
  have hfits : s.ledgerRoom e.ctx ≠ 0 := by omega
  simp [govBoundsWork, hgov, hok, hlost, hwait, hnew, hstops, hfits]

/-- A ladder of a role that has one waits for the step to close. -/
theorem govBoundsWork_later (hold : (s.ctx e.ctx).ladder? e.boundsLadder.layer e.boundsLadder.role ≠ none) :
    govBoundsWork s e = .done Status.ok 0 false
      (s.setCtx e.ctx { s.ctx e.ctx with bounds := (s.ctx e.ctx).bounds ++ [(e.seq, e.boundsLadder)] }) := by
  obtain ⟨l, hl⟩ := Option.ne_none_iff_exists'.mp hold
  simp [govBoundsWork, hgov, hok, hlost, hwait, hl]

end Bounds

/-! ## GOV_READ (R263) -/

/-- RESULT of a GOV_READ: the formats in use and advised, 0xFF of a role without a ladder. -/
def govReadResult : Option Ladder → W32
  | some l => BitVec.ofNat 32 (l.code l.rung + 16 * l.code l.advised)
  | none => 0xFF

/-- The bytes that a GOV_READ writes for a (layer, role). -/
def Ctx.govReadBytes (c : Ctx) (layer role : Nat) : Bytes :=
  let x := (c.lastRecs.find? (fun r => r.layer == layer && r.role == role)).getD (StatRec.empty layer role)
  (if x.sealedBy then zeroBytes 640 else x.bytes) ++
    govTail (c.lastLadders.find? (fun l => l.layer == layer && l.role == role)) x.sealedBy
      (if c.step = 0 then 0 else c.step - 1)

/-- Bytes written into the windows and the memory of a context. -/
def State.bounceStores (s : State) (n : Nat) (ws : List (Nat × Bytes)) : State :=
  ws.foldl (fun t w => t.bounceStore n w.1 w.2) s

theorem bounceStores_same (s : State) (n : Nat) (ws : List (Nat × Bytes)) :
    SameBut [.seams, .mem, .ctxs, .fabric, .counters, .lining] s (s.bounceStores n ws) :=
  same_foldl (fun _ _ h => State.bounceStore_same h _ _ _ _ (by decide)) (SameBut.refl _ s)

theorem storeFor_mem (s : State) (n a : Nat) (bs : Bytes) : (s.storeFor n a bs).mem = memPut s.mem a bs := by
  have hsend := State.mwrs_same (SameBut.refl [.seams, .counters, .lining] (s.putFor n a bs)) (some (1025, 0))
    (s.endpointOf n) a bs (by decide)
  exact (hsend.mem (by decide)).trans (State.putFor_mem s n a bs)

/-- Without a bounce window the bytes stand in memory as they are. -/
theorem bounceStores_mem (ws : List (Nat × Bytes)) (h : (s.ctx n).bounce = none) :
    (s.bounceStores n ws).mem = ws.foldl (fun m w => memPut m w.1 w.2) s.mem := by
  induction ws generalizing s with
  | nil => rfl
  | cons w ws ih =>
    have hstore : s.bounceStore n w.1 w.2 = s.storeFor n w.1 w.2 := by simp [State.bounceStore, State.storeAs, h]
    have hctx : (s.storeFor n w.1 w.2).ctx n = s.ctx n := ctx_congr (storeAs_ctxs s false n w.1 w.2) n
    calc (s.bounceStores n (w :: ws)).mem = ((s.storeFor n w.1 w.2).bounceStores n ws).mem := by
          rw [← hstore]; rfl
      _ = ws.foldl (fun m w => memPut m w.1 w.2) (s.storeFor n w.1 w.2).mem := ih (by rw [hctx, h])
      _ = (w :: ws).foldl (fun m w => memPut m w.1 w.2) s.mem := by rw [storeFor_mem]; rfl

/-- The machine with the effect of a GOV_READ that writes bytes to runs. -/
def State.govReadTo (s : State) (e : Entry) (rs : List Run) (bs : Bytes) : State :=
  (((s.bounceStores e.ctx (splitRuns rs bs)).dropCopies rs).l2Invalidate rs).setEntry { e with wrote := rs }

/-- What comes before the entry is written. -/
theorem govReadTo_copies_same (s : State) (e : Entry) (rs : List Run) (bs : Bytes) :
    SameBut [.cores, .fabric, .counters] (s.bounceStores e.ctx (splitRuns rs bs))
      (((s.bounceStores e.ctx (splitRuns rs bs)).dropCopies rs).l2Invalidate rs) :=
  State.l2Invalidate_same (State.dropCopies_same (SameBut.refl _ _) rs (by decide)) rs (by decide)

theorem govReadTo_entryKept (h : EntryKept s e) (rs : List Run) (bs : Bytes) : EntryKept (s.govReadTo e rs bs) e :=
  EntryKept.setEntry (.of_same (.of_same h (bounceStores_same s _ _) (by decide)) (govReadTo_copies_same s e rs bs)
    (by decide)) rfl rfl rfl rfl

/-- With no journal in memory and no bounce window the bytes stand at the runs, and nothing else has changed. -/
theorem govReadTo_stored (hquiet : s.journal.state = 0) (hbounce : (s.ctx e.ctx).bounce = none) (rs : List Run)
    (bs : Bytes) : (s.govReadTo e rs bs).journal.state = 0 ∧ Stored s (s.govReadTo e rs bs) rs bs := by
  have hcopies := govReadTo_copies_same s e rs bs
  have hstate : (((s.bounceStores e.ctx (splitRuns rs bs)).dropCopies rs).l2Invalidate rs).journal.state = 0 := by
    rw [hcopies.journal (by decide), (bounceStores_same s e.ctx _).journal (by decide), hquiet]
  refine ⟨(setEntry_journal_state _ _).trans hstate, ?_⟩
  calc (s.govReadTo e rs bs).mem
      = (((s.bounceStores e.ctx (splitRuns rs bs)).dropCopies rs).l2Invalidate rs).mem := setEntry_mem_of_quiet hstate _
    _ = (s.bounceStores e.ctx (splitRuns rs bs)).mem := hcopies.mem (by decide)
    _ = (splitRuns rs bs).foldl (fun m w => memPut m w.1 w.2) s.mem := bounceStores_mem _ hbounce

theorem govReadWork_of_dest {rs : List Run} (hgov : (s.ctx e.ctx).gov ≠ none) (hlost : (s.ctx e.ctx).govLost = false)
    (hwait : s.govWait e (fun x => x.op == some .govStep) = false)
    (hclean : e.clean [(0x10, 0, 12), (0x12, 0, 2), (0x18, 0, 64)] = true)
    (hlayer : bitsOf (e.field 0x10 2) 0 12 ≠ 0) (hrole : bitsOf (e.field 0x12 1) 0 2 ≠ 3) (hat : e.field 0x18 8 ≠ 0)
    (hrs : s.resolve e.ctx (e.field 0x18 8) 704 true = .ok rs) (hseals : s.sealIssues e.ctx [] rs [] = [])
    (hstops : s.regionStops (s.ctx e.ctx).gov = []) :
    govReadWork s e = .done Status.ok
      (govReadResult ((s.ctx e.ctx).lastLadders.find?
        (fun l => l.layer == bitsOf (e.field 0x10 2) 0 12 && l.role == bitsOf (e.field 0x12 1) 0 2)))
      false (s.govReadTo e rs
        ((s.ctx e.ctx).govReadBytes (bitsOf (e.field 0x10 2) 0 12) (bitsOf (e.field 0x12 1) 0 2))) := by
  simp [govReadWork, hgov, hlost, hwait, hclean, hlayer, hrole, hat, hrs, hseals, hstops]
  exact ⟨rfl, rfl⟩

/-! ## GOV_STEP (R143) -/

theorem writeCommit_entries (s : State) (n : Nat) (q : W32) (j : Bool) (items : List CommitItem) :
    (s.writeCommit n q j items).journal.entries = s.journal.entries := by
  unfold State.writeCommit
  split
  · rfl
  · extract_lets pos bodies v hdr w
    have hv : v.journal = s.journal := (State.itemLines_same (SameBut.refl [.mem, .fabric] s) _ _ (by decide)).journal
      (by decide)
    show w.journal.entries = s.journal.entries
    rw [State.linePut_journal, hv]

theorem govCommit_entries (s : State) (n : Nat) (q : W32) (j : Bool) (items : List CommitItem) :
    (s.govCommit n q j items).journal.entries = s.journal.entries := by
  have happly := fun rs => State.l2Invalidate_same (State.dropCopies_same (State.applyItems_same
    (SameBut.refl [.mem, .cores, .fabric, .counters] (s.writeCommit n q j items)) items (by decide)) rs (by decide)) rs
    (by decide)
  exact (congrArg Journal.entries ((happly _).journal (by decide))).trans (writeCommit_entries s n q j items)

/-- What a GOV_STEP with `k` ledger records leaves of its context and of its entry. -/
structure StepClosed (s : State) (e : Entry) (k : Nat) (u : State) : Prop where
  others : OneCtx e.ctx s u
  step : (u.ctx e.ctx).step = (s.ctx e.ctx).step + 1
  area : (u.ctx e.ctx).area = []
  bounds : (u.ctx e.ctx).bounds = []
  ladders : (u.ctx e.ctx).ladders.length = (s.ctx e.ctx).ladders.length
  lines : k ≤ (s.ctx e.ctx).ladders.length
  ledgerHead : (u.ctx e.ctx).ledgerHead = ((s.ctx e.ctx).ledgerHead + k) % 2 ^ 64
  govEpoch : (u.ctx e.ctx).govEpoch = !(s.ctx e.ctx).govEpoch
  waiting : (u.ctx e.ctx).waiting = (s.ctx e.ctx).waiting.filter (fun w => decide (e.id < w.id))
  entry : EntryKept s e → EntryKept u e

/-- A GOV_STEP whose regions can be written, and whose commit and ledger records find room. -/
theorem closeStep_of_room (recs : List StatRec) (merged : Bool) (hgov : s.regionStops (s.ctx e.ctx).gov = [])
    (hledger : s.regionStops (s.ctx e.ctx).ledger = []) (hroom : (s.ctx e.ctx).ladders.length ≤ s.ledgerRoom e.ctx)
    (hjournal : ∀ k, k ≤ (s.ctx e.ctx).ladders.length →
      s.journalRoom (commitLines ((s.ctx e.ctx).stepItems e k)) = true) :
    ∃ k u, s.closeStep e recs merged = .done Status.ok (BitVec.ofNat 32 k) false u ∧ StepClosed s e k u := by
  unfold State.closeStep
  extract_lets c stops outs lines items ladders s1 s2 s3 c3 s4 s5
  have hlines : lines.length ≤ c.ladders.length :=
    Nat.le_trans (List.length_filterMap_le _ outs) (Nat.le_of_eq (List.length_map _))
  have hstops : stops = [] := by
    unfold stops c
    rw [hgov, hledger]
    rfl
  have hfits : ¬(0 < lines.length ∧ s.ledgerRoom e.ctx < lines.length) := fun h =>
    absurd h.2 (Nat.not_lt.mpr (Nat.le_trans hlines hroom))
  have hcommit : s.journalRoom (commitLines items) = true := hjournal _ hlines
  rw [hstops, if_neg (by simp), if_neg hfits, if_neg (by simp [hcommit])]
  refine ⟨_, _, rfl, ?_⟩
  have hepoch : SameBut [.mem, .cores, .fabric, .counters] s s1 := by
    unfold s1
    split
    · exact State.putEpoch_same (SameBut.refl _ s) _ _ _ (by decide)
    · exact SameBut.refl _ s
  have hwritten : SameBut [.mem, .cores, .fabric, .counters] s s2 :=
    same_foldl (fun _ _ h => State.ledgerLine_same h _ _ _ (by decide)) hepoch
  have hcommitted : s3.ctxs = s.ctxs :=
    ((State.govCommit_same (SameBut.refl [.mem, .journal, .cores, .fabric, .counters] s2) _ _ _ items (by decide)).ctxs
      (by decide)).trans (hwritten.ctxs (by decide))
  have htraced : SameBut [.mem, .fabric, .counters, .trace] s4 s5 :=
    same_foldl (fun _ _ h => State.ledgerTrace_same h _ _ (by decide)) (SameBut.refl _ s4)
  have hentries : s5.journal.entries = s.journal.entries :=
    (congrArg Journal.entries (htraced.journal (by decide))).trans
      ((govCommit_entries s2 _ _ _ items).trans (congrArg Journal.entries (hwritten.journal (by decide))))
  have hctxs := fun y => ((State.setEntry_same (SameBut.refl [.mem, .journal, .fabric] s5) y (by decide)).ctxs
    (by decide)).trans (htraced.ctxs (by decide))
  have hself := fun y => (ctx_congr (hctxs y) e.ctx).trans (setCtx_ctx_self s3 e.ctx _)
  exact {
    others := ((OneCtx.of_ctxs hcommitted).trans (setCtx_oneCtx s3 e.ctx _)).trans (.of_ctxs (hctxs _))
    step := by rw [hself]
    area := by rw [hself]
    bounds := by rw [hself]
    ladders := by rw [hself]; simp [ladders, outs, c]
    lines := hlines
    ledgerHead := by rw [hself]
    govEpoch := by rw [hself]
    waiting := by rw [hself]
    entry := fun h => (h.of_entries hentries).setEntry rfl rfl rfl rfl }

/-- The step area with the records that waited from before a GOV_STEP (R145). -/
def Ctx.stepArea (c : Ctx) (e : Entry) : List StatRec :=
  (c.waiting.filter (fun w => decide (w.id < e.id))).foldl (fun a w => w.recs.foldl mergeRec a) c.area

section Step

variable (hgov : (s.ctx e.ctx).gov ≠ none) (hclean : e.clean [(0x10, 0, 1), (0x18, 0, 64)] = true)
  (hmerge : (e.field 0x10 1).testBit 0 = false) (htensor : e.field 0x18 8 = 0) (hlost : (s.ctx e.ctx).govLost = false)
include hgov hclean hmerge htensor hlost

theorem govStepWork_wait (h : s.layersDone e.ctx e.id = false) : govStepWork s e = .wait := by
  simp [govStepWork, hgov, hclean, hmerge, htensor, hlost, h]

theorem govStepWork_close (h : s.layersDone e.ctx e.id = true) :
    govStepWork s e = s.closeStep e ((s.ctx e.ctx).stepArea e) false := by
  simp [govStepWork, Ctx.stepArea, hgov, hclean, hmerge, htensor, hlost, h]

end Step

/-! ## The obligation -/

/-- Settles O58: each row by what its effect is where the statement's conditions hold, and by the contexts and the
memory that the effect leaves. -/
theorem schedulesAndLadders : Obligations.SchedulesAndLadders := by
  unfold Obligations.SchedulesAndLadders
  intro n q s e c num parts others
  refine ⟨?_, fun hruns => ⟨?_, fun hclean hoff => ⟨fun hnone => ?_, fun a harmed hsettled hroom => ?_⟩⟩, ?_, ?_, ?_⟩
  · intro rs hruns hclean harmed bytes b slots hat hline hmin hmax hrs hstacks hfits hhead hslots hseals
    have hdone := schedLoadWork_of_image rfl hclean harmed hat hline hmin hmax hrs hstacks hfits hhead hslots hseals
    have heffect := sameV_of hdone (schedLoadWork_same (SameBut.refl [.ctxs] s) e rfl)
    refine completes_of_effect rfl hruns rfl hdone heffect rfl rfl (by decide) fun t hctxs => ?_
    obtain ⟨hothers, hself⟩ := ctxs_eq_setCtx hctxs
    exact ⟨hothers, _, hself, rfl, rfl, rfl, rfl, rfl, rfl, rfl⟩
  · intro v rs hclean hoff hloaded hnone hstart hlo hhi hrs hsame
    have hdone := schedArmWork_arm hclean hoff hloaded hnone hstart hlo hhi hrs hsame
    have heffect := sameV_of hdone (schedArmWork_same (SameBut.refl govParts s) e rfl)
    exact completes_of_effect rfl hruns rfl hdone heffect rfl rfl (by decide)
      fun t hctxs => ctxs_eq_setCtx (hctxs.trans (traceRec_ctxs _ ..))
  · exact completes_of_effect rfl hruns rfl (schedArmWork_disarm_none hclean hoff hnone) (SameBut.refl [] s) rfl rfl
      (by decide) fun _ _ => trivial
  · have hdone := schedArmWork_disarm hclean hoff harmed hsettled hroom
    have heffect := sameV_of hdone (schedArmWork_same (SameBut.refl govParts s) e rfl)
    obtain ⟨hothers, hself⟩ := disarm_ctx (q := e.seq) harmed e.id
    refine completes_of_effect rfl hruns rfl hdone heffect rfl rfl (by decide)
      fun t hctxs => ⟨hothers.trans (.of_ctxs hctxs), ?_⟩
    rw [ctx_congr hctxs, hself]
  · intro hruns hgov hok hlost l hwait
    refine ⟨fun hnew hstops hroom => ?_, fun hold => ?_⟩
    · have hdone := govBoundsWork_first hgov hok hlost hwait hnew hstops hroom
      have heffect := sameV_of hdone (govBoundsWork_same (SameBut.refl govParts s) e rfl)
      obtain ⟨g, hg⟩ := ledger_of_ledgerRoom hroom
      refine completes_of_effect rfl hruns rfl hdone heffect rfl rfl (by decide) fun t hctxs => ?_
      have hset := setCtx_ctx_self s e.ctx { c with ladders := setLadder c.ladders l }
      obtain ⟨hothers, hself⟩ := ledgerPut_ctx ((congrArg Ctx.ledger hset).trans hg) _ false
      refine ⟨((setCtx_oneCtx s _ _).trans hothers).trans (.of_ctxs hctxs), ?_⟩
      rw [ctx_congr hctxs, hself, hset]
      exact ⟨rfl, rfl⟩
    · have hdone := govBoundsWork_later hgov hok hlost hwait hold
      have heffect := State.setCtx_same (SameBut.refl [.ctxs] s) e.ctx { c with bounds := c.bounds ++ [(e.seq, l)] } rfl
      exact completes_of_effect rfl hruns rfl hdone heffect rfl rfl (by decide)
        fun t hctxs => ctxs_eq_setCtx hctxs
  · intro rs hruns hgov hlost hwait hclean layer role hlayer hrole hat hrs hseals hstops hbounce hquiet x ladder
    have hdone := govReadWork_of_dest hgov hlost hwait hclean hlayer hrole hat hrs hseals hstops
    have heffect := sameV_of hdone (govReadWork_same (SameBut.refl
      [.seams, .mem, .ctxs, .journal, .cores, .fabric, .counters, .lining] s) e rfl)
    refine completes_of_done rfl hruns rfl hdone heffect rfl rfl (govReadTo_entryKept (.of_runs hruns) rs _)
      fun t _ hmem => ?_
    obtain ⟨hstate, hstored⟩ := govReadTo_stored hquiet.1 hbounce rs (c.govReadBytes layer role)
    exact (hmem hstate).trans hstored
  · intro hruns hgov hclean hmerge htensor hlost
    refine ⟨fun hlayers => ?_, fun hlayers hstops hledger hroom hjournal => ?_⟩
    · exact runOp_of_wait hruns (govStepWork_wait hgov hclean hmerge htensor hlost hlayers)
    · obtain ⟨k, u, hclose, hu⟩ := closeStep_of_room (c.stepArea e) false hstops hledger hroom hjournal
      have hdone := (govStepWork_close hgov hclean hmerge htensor hlost hlayers).trans hclose
      have heffect := sameV_of hdone (govStepWork_same (SameBut.refl
        [.mem, .ctxs, .journal, .cores, .fabric, .counters, .trace] s) e rfl)
      refine ⟨k, completes_of_done rfl hruns rfl hdone heffect rfl rfl (hu.entry (.of_runs hruns)) fun t hctxs _ => ?_⟩
      refine ⟨hu.others.trans (.of_ctxs hctxs), ?_⟩
      rw [ctx_congr hctxs]
      exact ⟨hu.step, hu.area, hu.bounds, hu.ladders, hu.lines, hu.ledgerHead, hu.govEpoch, hu.waiting⟩

end Sys2Proof.Machine

/-!
PROOF. O37, NOP to CHAIN and VERSION_RELEASE: what a command that takes no queue leaves of the entries of the others, of
memory and of the chains, and what each of the six makes of its operands.
-/
namespace Sys2Proof.Machine

open Sys2Proof.Claims

variable {s t u : State} {e x y : Entry} {i n : Nat} {q r : W32} {op : Op} {st : Status} {sat : Bool}
  {eff : State → Entry → Verdict}

/-! ## The entries of a number -/

/-- The entries of one number are as they were. -/
def EntryStands (i : Nat) (s t : State) : Prop :=
  t.journal.entries.filter (fun y => y.id == i) = s.journal.entries.filter (fun y => y.id == i)

theorem EntryStands.of_entries (h : t.journal.entries = s.journal.entries) : EntryStands i s t :=
  congrArg (List.filter _) h

theorem EntryStands.of_same {l : List Part} (h : SameBut l s t) (hj : .journal ∉ l) : EntryStands i s t :=
  .of_entries (congrArg Journal.entries (h.journal hj))

theorem EntryStands.trans (h : EntryStands i s t) (g : EntryStands i t u) : EntryStands i s u := Eq.trans g h

theorem EntryStands.foldl {α : Type} {f : State → α → State} {xs : List α} (s : State)
    (hf : ∀ t, ∀ x ∈ xs, EntryStands i t (f t x)) : EntryStands i s (xs.foldl f s) := by
  induction xs generalizing s with
  | nil => exact .of_entries rfl
  | cons x xs ih => exact (hf s x List.mem_cons_self).trans (ih _ fun t y hy => hf t y (List.mem_cons_of_mem x hy))

theorem EntryStands.mem_iff (h : EntryStands x.id s t) : x ∈ t.journal.entries ↔ x ∈ s.journal.entries := by
  simpa [List.mem_filter] using congrArg (x ∈ ·) h

theorem EntryStands.entryAt (h : EntryStands i s t) : t.entryAt i = s.entryAt i := by
  unfold State.entryAt
  rw [← List.head?_filter, ← List.head?_filter, h]

theorem setEntry_entryStands (s : State) (h : y.id ≠ i) : EntryStands i s (s.setEntry y) := by
  unfold EntryStands
  rw [State.setEntry_entries]
  induction s.journal.entries with
  | nil => rfl
  | cons z zs ih =>
    by_cases hz : z.id = y.id
    · simp [hz, h, ih]
    · simp [hz, List.filter_cons, ih]

/-- An entry that has been set is the only one of its number. -/
theorem eq_of_mem_setEntry (hx : x ∈ (s.setEntry y).journal.entries) (hid : x.id = y.id) : x = y := by
  rw [State.setEntry_entries] at hx
  obtain ⟨z, -, rfl⟩ := List.mem_map.mp hx
  by_cases hz : z.id = y.id
  · exact if_pos hz
  · rw [if_neg hz] at hid
    exact absurd hid hz

theorem conclude_entryStands (s : State) (st : Status) (r : W32) (sat : Bool) (h : y.id ≠ i) :
    EntryStands i s (s.conclude y st r sat) := setEntry_entryStands s h

theorem ctx_of_mem_conclude (hx : x ∈ (s.conclude y st r sat).journal.entries) (hid : x.id = y.id) :
    x.ctx = y.ctx := by
  have hown : x = { y.concluded st r s.stamp with sumSat := sat } := eq_of_mem_setEntry hx hid
  rw [hown]
  rfl

/-! ## How a command that takes no queue ends (R225) -/

/-- Every chain of the later machine is of a context that has one in the earlier. -/
def ChainsFrom (s t : State) : Prop := ∀ c ∈ t.chains, ∃ d ∈ s.chains, d.ctx = c.ctx

theorem ChainsFrom.of_chains (h : t.chains = s.chains) : ChainsFrom s t := fun c hc => ⟨c, h ▸ hc, rfl⟩

theorem setChain_chainsFrom (s : State) (c : ChainState) : ChainsFrom s (s.setChain c) := fun d hd => by
  obtain ⟨x, hx, rfl⟩ := List.mem_map.mp hd
  refine ⟨x, hx, ?_⟩
  split
  · next h => exact h.1
  · rfl

theorem memberEnd_chainsFrom (s : State) (e : Entry) (st : Status) : ChainsFrom s (s.memberEnd e st) := by
  unfold State.memberEnd
  split
  · extract_lets
    split
    · exact .of_chains rfl
    · split
      · split
        · exact .of_chains rfl
        · exact setChain_chainsFrom s _
      · exact setChain_chainsFrom s _
  · exact .of_chains rfl

/-- After its outcome a command's chain and its traffic follow. -/
theorem completeOp_conclude_same (s u : State) (op : Op) (e : Entry) (st : Status) (r : W32) (sat : Bool) :
    SameBut [.seams, .fabric, .chains] (u.conclude ((u.entryAt e.id).getD e) st r sat)
      (s.completeOp op e st r sat u) := by
  unfold State.completeOp
  exact same_ite' (State.memberEnd_same (SameBut.refl _ _) _ _ (by decide))
    (State.metered_same (State.memberEnd_same (SameBut.refl _ _) _ _ (by decide)) _ _ _ (by decide))

/-- What the completion of a command changes in the machine `u` that has its effect. -/
structure Finishes (op : Op) (e : Entry) (r : W32) (u t : State) : Prop where
  same : SameBut (doneParts op) u t
  mem : u.journal.state = 0 → t.mem = u.mem
  stands : ∀ i, e.id ≠ i → EntryStands i u t
  own : ∀ x ∈ t.journal.entries, x.id = e.id → x.ctx = ((u.entryAt e.id).getD e).ctx
  chains : ChainsFrom u t
  ended : Ended t e Status.ok r

theorem Finishes.othersKept (h : Finishes op e r u t) : OthersKept u t e := fun _ hx hid =>
  (h.stands _ (Ne.symm hid)).mem_iff.mpr hx

theorem completeOp_chainsFrom (s u : State) (op : Op) (e : Entry) (st : Status) (r : W32) (sat : Bool) :
    ChainsFrom u (s.completeOp op e st r sat u) := by
  let v := u.conclude ((u.entryAt e.id).getD e) st r sat
  have hv : v.chains = u.chains :=
    (State.conclude_same (SameBut.refl [.mem, .journal, .fabric] u) _ _ _ _ (by decide)).chains (by decide)
  have hend : (s.completeOp op e st r sat u).chains = (v.memberEnd e st).chains := by
    unfold State.completeOp
    split
    · rfl
    · exact (State.metered_same (SameBut.refl [.seams, .fabric] _) _ _ _ (by decide)).chains (by decide)
  intro c hc
  rw [← hv]
  exact memberEnd_chainsFrom v e st c (hend ▸ hc)

theorem entryAt_getD_id (s : State) (e : Entry) : ((s.entryAt e.id).getD e).id = e.id := by
  cases hx : s.entryAt e.id with
  | none => rfl
  | some x => simpa using List.find?_some hx

theorem completeOp_entryStands (s u : State) (op : Op) (st : Status) (r : W32) (sat : Bool) (h : e.id ≠ i) :
    EntryStands i u (s.completeOp op e st r sat u) :=
  (conclude_entryStands u st r sat ((entryAt_getD_id u e).symm ▸ h)).trans
    (.of_same (completeOp_conclude_same s u op e st r sat) (by decide))

theorem completeOp_own (s u : State) (op : Op) (e : Entry) (st : Status) (r : W32) (sat : Bool) :
    ∀ x ∈ (s.completeOp op e st r sat u).journal.entries, x.id = e.id → x.ctx = ((u.entryAt e.id).getD e).ctx := by
  intro x hx hid
  rw [(completeOp_conclude_same s u op e st r sat).journal (by decide)] at hx
  exact ctx_of_mem_conclude hx (hid.trans (entryAt_getD_id u e).symm)

/-- The row of a command that takes no queue and whose effect is at hand. -/
theorem runOp_finishes (hruns : Runs s op n q e) (hq : op.usesQueues = false)
    (hdone : eff s e = .done Status.ok r sat u) (hkept : EntryKept u e) :
    ∃ t, s.runOp op n q eff = .next t ∧ Finishes op e r u t :=
  ⟨_, runOp_of_done hruns hq hdone, {
    same := completeOp_same hq s u e _ r sat
    mem := completeOp_mem_of_quiet
    stands := fun _ h => completeOp_entryStands s u op _ r sat h
    own := completeOp_own s u op e _ r sat
    chains := completeOp_chainsFrom s u op e _ r sat
    ended := completeOp_ended hkept }⟩

/-- A row whose command changes nothing but its own entry and what follows it. -/
theorem runOp_alone (hruns : Runs s op n q e) (hq : op.usesQueues = false) (hnone : op.namesNone = true)
    (hdone : eff s e = .done Status.ok r sat s) :
    ∃ t, s.runOp op n q eff = .next t ∧ SameBut [.mem, .journal, .fabric, .chains] s t ∧
      (Quiet s → t.mem = s.mem) ∧ OthersKept s t e ∧ Ended t e Status.ok r := by
  obtain ⟨t, hexec, ht⟩ := runOp_finishes hruns hq hdone (.of_runs hruns)
  have hsame := ht.same
  unfold doneParts at hsame
  rw [hq, hnone] at hsame
  exact ⟨t, hexec, hsame, fun h => ht.mem h.1, ht.othersKept, ht.ended⟩

/-! ## NOP to CHAIN (R222, R239, R240) -/

theorem nopWork_done (h : e.clean [] = true) : nopWork s e = .done Status.ok 0 false s := by
  simp [nopWork, h]

section Fence

variable (hclean : e.clean [] = true)
include hclean

theorem fenceWork_wait (h : ∃ x ∈ s.entriesOf e.ctx, x.id < e.id ∧ x.live = true) : fenceWork s e = .wait := by
  have hany : (s.entriesOf e.ctx).any (fun x => decide (x.id < e.id) && x.live) = true := by
    simpa [List.any_eq_true] using h
  simp [fenceWork, hclean, hany]

theorem fenceWork_done (h : ∀ x ∈ s.entriesOf e.ctx, x.id < e.id → x.live = false) :
    fenceWork s e = .done Status.ok 0 false s := by
  have hany : (s.entriesOf e.ctx).any (fun x => decide (x.id < e.id) && x.live) = false := by
    simpa [List.any_eq_false] using h
  simp [fenceWork, hclean, hany]

end Fence

theorem signalWork_done (hclean : e.clean [(0x10, 0, 16), (0x14, 0, 32)] = true)
    (hfence : (s.ctx e.ctx).hasFence (e.field 0x10 2) = true) :
    signalWork s e = .done Status.ok ((s.fence (e.field 0x10 2) + BitVec.ofNat 64 (e.field 0x14 4)).setWidth 32) false
      (s.setFence (e.field 0x10 2) (s.fence (e.field 0x10 2) + BitVec.ofNat 64 (e.field 0x14 4))) := by
  simp [signalWork, hclean, hfence]

section Wait

variable (hclean : e.clean [(0x10, 0, 16), (0x18, 0, 64)] = true)
  (hfence : (s.ctx e.ctx).hasFence (e.field 0x10 2) = true)
include hclean hfence

theorem waitWork_wait (h : (s.fence (e.field 0x10 2)).toNat < e.field 0x18 8) : waitWork s e = .wait := by
  simp [waitWork, hclean, hfence, h]

theorem waitWork_done (h : e.field 0x18 8 ≤ (s.fence (e.field 0x10 2)).toNat) :
    waitWork s e = .done Status.ok ((s.fence (e.field 0x10 2)).setWidth 32) false s := by
  simp [waitWork, hclean, hfence, Nat.not_lt.mpr h]

end Wait

/-- The members of the chain of a CHAIN packet, those that have ended among them. -/
def State.chainMembers (s : State) (e : Entry) : List Entry :=
  (s.entriesOf e.ctx).filter (fun m => m.member.isSome && m.chain == e.seq && decide (e.id < m.id))

theorem mem_chainMembers : x ∈ s.chainMembers e ↔
    x ∈ s.entriesOf e.ctx ∧ x.member ≠ none ∧ x.chain = e.seq ∧ e.id < x.id := by
  simp [State.chainMembers, Option.isSome_iff_ne_none, and_assoc]

theorem chainWork_eq (s : State) (e : Entry) : chainWork s e =
    if (s.chainMembers e).any Entry.live then .wait else
      .done Status.ok (BitVec.ofNat 32 ((s.chainMembers e).filter (fun x => x.status != Status.ok)).length) false s :=
  rfl

theorem chainWork_wait (h : ∃ x ∈ s.chainMembers e, x.live = true) : chainWork s e = .wait := by
  rw [chainWork_eq, if_pos (List.any_eq_true.mpr h)]

theorem chainWork_done (h : ∀ x ∈ s.chainMembers e, x.live = false ∧ x.status = Status.ok) :
    chainWork s e = .done Status.ok 0 false s := by
  have hlive : ¬(s.chainMembers e).any Entry.live = true := by
    simpa [List.any_eq_true] using fun x hx => (h x hx).1
  have hbad : (s.chainMembers e).filter (fun x => x.status != Status.ok) = [] :=
    List.filter_eq_nil_iff.mpr fun x hx => by simp [(h x hx).2]
  rw [chainWork_eq, if_neg hlive, hbad]
  rfl

/-! ## VERSION_RELEASE (R176, R179) -/

theorem setRetained_retainedOf (s : State) (v w : VRef) (k : Nat) :
    (s.setRetained v k).retainedOf w = if w = v then k else s.retainedOf w := by
  have hgone : (s.retained.filter (fun r => r.1 != v)).find? (fun r => r.1 == w) =
      if w = v then none else s.retained.find? (fun r => r.1 == w) := by
    rw [List.find?_filter]
    split
    · next h => subst h; simp
    · next h =>
      congr 1
      funext r
      by_cases hr : r.1 = w <;> simp [hr, h]
  unfold State.retainedOf State.setRetained
  dsimp only
  by_cases hk : k = 0
  · rw [if_pos hk, hgone]
    by_cases hw : w = v <;> simp [hw, hk]
  · rw [if_neg hk, List.find?_append, hgone]
    by_cases hw : w = v
    · simp [hw]
    · simp [hw, Ne.symm hw]

theorem versionReleaseEff_done {d : TDesc} {v : VRef}
    (hclean : e.clean [(0x10, 0, 64), (0x18, 0, 64), (0x20, 0, 16)] = true)
    (hv : s.readVersion e (e.field 0x10 8) (BitVec.ofNat 64 (e.field 0x18 8)) = .slot d v)
    (hseals : s.sealIssues e.ctx [] [] (s.structRuns e) = []) {left : Nat}
    (hleft : left = if e.field 0x20 2 = 0 then 0 else s.retainedOf v - e.field 0x20 2) :
    versionReleaseEff s e = .done Status.ok (BitVec.ofNat 32 left) false (s.setRetained v left) := by
  have hmin : s.retainedOf v - min (e.field 0x20 2) (s.retainedOf v) = s.retainedOf v - e.field 0x20 2 := by omega
  simp [versionReleaseEff, hclean, hv, hseals, hmin, hleft]

/-! ## The obligation -/

/-- Settles O37: each row by what its effect is where the statement's conditions hold; SIGNAL and VERSION_RELEASE change one
fence counter and one count of references, the others nothing. -/
theorem controlCommands : Obligations.ControlCommands := by
  unfold Obligations.ControlCommands
  refine ⟨?_, ?_⟩
  · intro n q s e k alone
    refine ⟨?_, ?_, ?_, ?_, ?_⟩
    · intro hruns hclean
      exact runOp_alone (eff := nopWork) hruns rfl rfl (nopWork_done hclean)
    · intro hruns hclean
      exact ⟨fun h => runOp_of_wait hruns (fenceWork_wait hclean h),
        fun h => runOp_alone (eff := fenceWork) hruns rfl rfl (fenceWork_done hclean h)⟩
    · intro hruns hclean hfence
      let v := s.fence k + BitVec.ofNat 64 (e.field 0x14 4)
      have heffect : SameBut [.fences] s (s.setFence k v) := State.setFence_same (SameBut.refl _ s) k v (by decide)
      obtain ⟨t, hexec, ht⟩ := runOp_finishes (eff := signalWork) hruns rfl (signalWork_done hclean hfence)
        (.of_same (.of_runs hruns) heffect (by decide))
      have hfences : ∀ j, t.fence j = if k = j then v else s.fence j := fun j => by
        rw [← State.setFence_fence s k j v]
        exact congrArg (smGet · j 0) (ht.same.fences (by decide))
      refine ⟨t, hexec, ht.same.step (heffect.step (SameBut.refl _ s) (by decide)) (by decide), fun h => ht.mem h.1,
        ht.othersKept, ?_, fun j hj => ?_, ?_⟩
      · rw [hfences, if_pos rfl]
      · rw [hfences, if_neg (Ne.symm hj)]
      · rw [hfences, if_pos rfl]
        exact ht.ended
    · intro hruns hclean hfence
      exact ⟨fun h => runOp_of_wait hruns (waitWork_wait hclean hfence h),
        fun h => runOp_alone (eff := waitWork) hruns rfl rfl (waitWork_done hclean hfence h)⟩
    · intro hruns mine
      refine ⟨fun ⟨x, hx, hlive⟩ => runOp_of_wait hruns (chainWork_wait ⟨x, mem_chainMembers.mpr hx, hlive⟩),
        fun h => runOp_alone (eff := chainWork) hruns rfl rfl (chainWork_done fun x hx => h x (mem_chainMembers.mp hx))⟩
  · intro n q s e d v hruns hclean hv hseals count left
    have heffect := State.setRetained_same (SameBut.refl [.retained] s) v left (by decide)
    obtain ⟨t, hexec, ht⟩ := runOp_finishes (eff := versionReleaseEff) hruns rfl
      (versionReleaseEff_done hclean hv hseals (left := left) rfl) (.of_same (.of_runs hruns) heffect (by decide))
    have hretained : ∀ w, t.retainedOf w = if w = v then left else s.retainedOf w := fun w => by
      rw [← setRetained_retainedOf s v w left]
      unfold State.retainedOf
      rw [ht.same.retained (by decide)]
    refine ⟨t, hexec, ht.same.step (heffect.step (SameBut.refl _ s) (by decide)) (by decide), ht.ended, ?_,
      fun w hw => ?_⟩
    · rw [hretained, if_pos rfl]
    · rw [hretained, if_neg hw]

end Sys2Proof.Machine

/-!
PROOF. O38, CONTEXT_OPEN and CONTEXT_CLOSE: what the journal keeps of the entries as commands are cancelled, released and
reclaimed, what an opened context is, and what is left of a closed one.
-/
namespace Sys2Proof.Machine

open Sys2Proof.Claims

variable {s t u : State} {e x y : Entry} {i k m n : Nat} {q : W32} {op : Op}

/-! ## Entries that stay -/

theorem runnable_dispatched (h : s.runnable op n q = some e) : e.seq = q ∧ e.state = .dispatched := by
  unfold State.runnable at h
  split at h
  · cases h
  · next y hy =>
    split at h
    · next hif =>
      cases h
      have hfound := List.find?_some hy
      simp only [Bool.and_eq_true, beq_iff_eq] at hfound
      exact ⟨hfound.1.2, hif.2.1⟩
    · cases h

theorem EntryStands.entryKept (h : EntryStands e.id s t) (hk : EntryKept s e) : EntryKept t e := by
  unfold EntryKept at *
  rwa [h.entryAt]

/-- Every entry of a number is dispatched. -/
def DispatchedAt (i : Nat) (s : State) : Prop := ∀ y ∈ s.journal.entries, y.id = i → y.state = .dispatched

theorem DispatchedAt.of_runs (h : Runs s op n q e) : DispatchedAt e.id s := fun y hy hid => by
  obtain ⟨hrun, hn, -, -⟩ := h
  rw [hn.eq_of_id hy (runnable_eq_some hrun).1 hid]
  exact (runnable_dispatched hrun).2

theorem DispatchedAt.stands (h : DispatchedAt i s) (hs : EntryStands i s t) : DispatchedAt i t := fun y hy hid => by
  subst hid
  exact h y (hs.mem_iff.mp hy) rfl

/-! ## Memory where no journal lies in it (R374) -/

/-- With no journal in memory there is none later, and memory is as it was. -/
def QuietMem (s t : State) : Prop := s.journal.state = 0 → t.journal.state = 0 ∧ t.mem = s.mem

theorem QuietMem.of_eq (hj : t.journal.state = s.journal.state) (hm : t.mem = s.mem) : QuietMem s t :=
  fun h => ⟨hj.trans h, hm⟩

theorem QuietMem.of_same {l : List Part} (h : SameBut l s t) (hj : .journal ∉ l) (hm : .mem ∉ l) : QuietMem s t :=
  .of_eq (congrArg Journal.state (h.journal hj)) (h.mem hm)

theorem QuietMem.trans (h : QuietMem s t) (g : QuietMem t u) : QuietMem s u := fun hs =>
  ⟨(g (h hs).1).1, (g (h hs).1).2.trans (h hs).2⟩

theorem journalPut_quietMem (s : State) (off : Nat) (bs : Bytes) : QuietMem s (s.journalPut off bs) := fun h => by
  have hput : s.journalPut off bs = s := by simp [State.journalPut, h]
  rw [hput]
  exact ⟨h, rfl⟩

/-! ## Reclaiming (R378) -/

/-- What reclaiming some entries leaves: the dispatched ones, nothing new, and memory where no journal lies in it. -/
structure Reclaims (es : List Entry) (s t : State) : Prop where
  stands : ∀ i, (∀ y ∈ es, y.id = i → y.state = .dispatched) → EntryStands i s t
  mem : ∀ y ∈ t.journal.entries, y ∈ s.journal.entries
  quiet : QuietMem s t

/-- Entries of other numbers stay where those of one number are taken out. -/
theorem removeEntries_entryStands (h : i ≠ k)
    (ht : t.journal.entries = s.journal.entries.filter (fun y => y.id != k)) : EntryStands i s t := by
  unfold EntryStands
  rw [ht, List.filter_filter]
  refine List.filter_congr fun y _ => ?_
  by_cases hy : y.id = i <;> simp [hy, h]

theorem reclaimAux_reclaims (es : List Entry) (s : State) : Reclaims es s (State.reclaimAux es s) := by
  induction es generalizing s with
  | nil => exact ⟨fun _ _ => .of_entries rfl, fun _ h => h, .of_eq rfl rfl⟩
  | cons x xs ih =>
    have hrest : Reclaims (x :: xs) s (State.reclaimAux xs s) :=
      ⟨fun i h => (ih s).stands i fun y hy => h y (List.mem_cons_of_mem x hy), (ih s).mem, (ih s).quiet⟩
    unfold State.reclaimAux
    split
    · next hx =>
      extract_lets _ v
      generalize hw : (if x.journalled = true then v.journalPut (256 * x.ctx) x.tableRecord else v) = w
      have hentries : w.journal.entries = s.journal.entries.filter (fun y => y.id != x.id) := by
        rw [← hw]
        split
        · rw [State.journalPut_journal]
        · rfl
      have hquiet : QuietMem s w := by
        rw [← hw]
        split
        · exact QuietMem.trans (t := v) (.of_eq rfl rfl) (journalPut_quietMem v _ _)
        · exact .of_eq rfl rfl
      refine ⟨fun i h => ?_, fun y hy => ?_, hquiet.trans (ih w).quiet⟩
      · have hne : i ≠ x.id := fun hid => by
          have := h x List.mem_cons_self hid.symm
          simp [this] at hx
        exact (removeEntries_entryStands hne hentries).trans
          ((ih w).stands i fun y hy => h y (List.mem_cons_of_mem x hy))
      · have hmem := (ih w).mem y hy
        rw [hentries] at hmem
        exact (List.mem_filter.mp hmem).1
    · split
      · exact ⟨fun _ _ => .of_entries rfl, fun _ h => h, .of_eq rfl rfl⟩
      · exact hrest

theorem reclaim_reclaims (s : State) : Reclaims s.journal.entries s s.reclaim :=
  have h := reclaimAux_reclaims s.journal.entries s
  ⟨h.stands, h.mem, h.quiet⟩

/-- The records that a context's earlier life still holds are released; a dispatched command is not among them. -/
theorem releaseAll_entryStands (n : Nat) (h : DispatchedAt i s) : EntryStands i s (s.releaseAll n) := by
  unfold State.releaseAll
  have hreleased := EntryStands.foldl (i := i) (xs := (s.entriesOf n).filter (fun e => e.state == .completed))
    (f := fun t e => t.setEntry { e with state := .released }) s fun t x hx => by
      obtain ⟨hmem, hcompleted⟩ := List.mem_filter.mp hx
      refine setEntry_entryStands t (y := { x with state := .released }) fun hid => ?_
      simp [h x (List.mem_filter.mp hmem).1 hid] at hcompleted
  exact hreleased.trans ((reclaim_reclaims _).stands i (h.stands hreleased))

/-! ## CONTEXT_OPEN (R208) -/

/-- The governor region and the ledger are written after the context has been set. -/
theorem openContext_regions_same (s : State) (n : Nat) (c : Ctx) :
    SameBut [.mem, .cores, .fabric, .counters] ((s.releaseAll n).setCtx n c) (s.openContext n c) := by
  unfold State.openContext
  extract_lets v w
  have hw : SameBut [.mem, .cores, .fabric, .counters] v w := by
    unfold w
    split
    · exact SameBut.refl _ v
    · exact State.putRegion_same (State.zeroRegion_same (SameBut.refl _ v) _ _ _ (by decide)) _ _ _ (by decide)
  split
  · exact hw
  · exact State.putRegion_same hw _ _ _ (by decide)

theorem openContext_ctx (s : State) (n : Nat) (c : Ctx) :
    OneCtx n s (s.openContext n c) ∧ (s.openContext n c).ctx n = c := by
  have hreleased := (State.releaseAll_same (SameBut.refl [.mem, .journal, .fabric] s) n (by decide)).ctxs (by decide)
  refine ctxs_eq_setCtx (((openContext_regions_same s n c).ctxs (by decide)).trans ?_)
  exact congrArg (smSet · n c) hreleased

theorem openContext_entryStands (n : Nat) (c : Ctx) (h : DispatchedAt i s) : EntryStands i s (s.openContext n c) :=
  EntryStands.trans (t := (s.releaseAll n).setCtx n c) (releaseAll_entryStands n h)
    (.of_same (openContext_regions_same s n c) (by decide))

theorem contextOpenWork_done {b : Bytes} (hclean : e.clean [(0x10, 0, 10), (0x18, 0, 64)] = true)
    (hm : e.field 0x10 2 ≠ 0) (hclosed : (s.ctx (e.field 0x10 2)).state = .closed) (henable : s.journal.enable = true)
    (hb : (s.asRead e).readStruct 0 (e.field 0x18 8) 128 64 = .ok b) (hok : attrOk b = true)
    (hregions : (s.openedCtx (e.field 0x10 2) b).1 = []) :
    contextOpenWork s e = .done Status.ok (BitVec.ofNat 32 (e.field 0x10 2)) false
      ((s.openContext (e.field 0x10 2) (s.openedCtx (e.field 0x10 2) b).2).auditCommand e (some b)) := by
  simp [contextOpenWork, need, hclean, hm, hclosed, henable, hb, hok, hregions]

/-! ## Commands that are cancelled (R232, R377) -/

/-- What a cancellation of the command of a number and a context leaves: its entry is no longer live, and its context
remembers it. -/
structure Cancels (i n : Nat) (s t : State) : Prop where
  entries : ∃ y : Entry, y.id = i ∧ y.live = false ∧
    t.journal.entries = s.journal.entries.map (fun z => if z.id = i then y else z)
  ctxs : ∃ l, t.ctxs = (s.setCtx n { s.ctx n with cancelled := l }).ctxs
  journalState : t.journal.state = s.journal.state
  lining : t.lining = s.lining

theorem Cancels.after_same {l : List Part} (h : SameBut l s t) (hj : .journal ∉ l) (hc : .ctxs ∉ l) (hl : .lining ∉ l)
    (g : Cancels i n t u) : Cancels i n s u where
  entries := by rw [← h.journal hj]; exact g.entries
  ctxs := by
    obtain ⟨w, hw⟩ := g.ctxs
    exact ⟨w, by rw [hw, ctx_congr (h.ctxs hc)]; exact congrArg (smSet · n _) (h.ctxs hc)⟩
  journalState := by rw [g.journalState, h.journal hj]
  lining := g.lining.trans (h.lining hl)

/-- The entry of a cancelled command. -/
def Entry.cancelledForm (e : Entry) : Entry :=
  { e with
    state := .cancelled, working := false, refs := [], commit := [], stats := [], snap := [], saved := none, taken := [] }

theorem setEntry_cancels (s : State) (e : Entry) (l : List W32) : Cancels e.id n s
    ((s.setEntry e.cancelledForm).setCtx n { (s.setEntry e.cancelledForm).ctx n with cancelled := l }) := by
  have hset := State.setEntry_same (SameBut.refl [.mem, .journal, .fabric] s) e.cancelledForm (by decide)
  have hctxs : (s.setEntry e.cancelledForm).ctxs = s.ctxs := hset.ctxs (by decide)
  exact {
    entries := ⟨e.cancelledForm, rfl, rfl, State.setEntry_entries s e.cancelledForm⟩
    ctxs := ⟨l, by rw [ctx_congr hctxs]; exact congrArg (smSet · n _) hctxs⟩
    journalState := setEntry_journal_state s e.cancelledForm
    lining := hset.lining (by decide) }

theorem cancelEntry_cancels (s : State) (e : Entry) : Cancels e.id e.ctx s (s.cancelEntry e) :=
  .after_same (State.slotsBack_same (State.scramble_same (SameBut.refl [.mem, .cores, .fabric, .counters, .free] s)
    (s.begunRuns e) (by decide)) e.taken (by decide)) (by decide) (by decide) (by decide) (setEntry_cancels _ e _)

/-- What the cancellation of some commands of a context leaves. -/
structure CancelsAll (n : Nat) (xs : List Entry) (s t : State) : Prop where
  stands : ∀ i, (∀ x ∈ xs, x.id ≠ i) → EntryStands i s t
  live : ∀ y ∈ t.journal.entries, y.live = true → y ∈ s.journal.entries ∧ ∀ x ∈ xs, x.id ≠ y.id
  others : OneCtx n s t
  self : ∃ l, t.ctx n = { s.ctx n with cancelled := l }
  journalState : t.journal.state = s.journal.state
  lining : t.lining = s.lining

theorem CancelsAll.cons {xs : List Entry} (h : Cancels x.id n s t) (g : CancelsAll n xs t u) :
    CancelsAll n (x :: xs) s u := by
  obtain ⟨y, hid, hdead, hentries⟩ := h.entries
  obtain ⟨l, hctxs⟩ := h.ctxs
  obtain ⟨hothers, hself⟩ := ctxs_eq_setCtx hctxs
  obtain ⟨l', hself'⟩ := g.self
  refine ⟨fun i hi => ?_, fun z hz hlive => ?_, hothers.trans g.others, ⟨l', by rw [hself', hself]⟩,
    g.journalState.trans h.journalState, g.lining.trans h.lining⟩
  · refine EntryStands.trans (t := s.setEntry y) ?_ (.trans (.of_entries ?_) (g.stands i fun z hz => hi z (.tail x hz)))
    · exact setEntry_entryStands s (hid ▸ hi x (.head xs))
    · rw [hentries, State.setEntry_entries, hid]
  · obtain ⟨hmem, hother⟩ := g.live z hz hlive
    rw [hentries] at hmem
    obtain ⟨w, hw, rfl⟩ := List.mem_map.mp hmem
    by_cases hwx : w.id = x.id
    · rw [if_pos hwx, hdead] at hlive
      cases hlive
    · rw [if_neg hwx] at hother ⊢
      exact ⟨hw, List.forall_mem_cons.mpr ⟨Ne.symm hwx, hother⟩⟩

theorem cancelsAll_foldl {f : State → Entry → State} (hf : ∀ t x, Cancels x.id x.ctx t (f t x)) {xs : List Entry}
    (hxs : ∀ x ∈ xs, x.ctx = n) (s : State) : CancelsAll n xs s (xs.foldl f s) := by
  induction xs generalizing s with
  | nil =>
    exact ⟨fun _ _ => .of_entries rfl, fun y hy _ => ⟨hy, List.forall_mem_nil _⟩, .of_ctxs rfl,
      ⟨(s.ctx n).cancelled, rfl⟩, rfl, rfl⟩
  | cons x xs ih => exact .cons (hxs x (.head xs) ▸ hf s x) (ih (fun y hy => hxs y (.tail x hy)) _)

theorem ctx_of_mem_entriesOf (h : x ∈ s.entriesOf n) : x.ctx = n := by
  simpa using (List.mem_filter.mp h).2

/-- The commands of one context are not those of another. -/
theorem id_ne_of_mem_entriesOf (hn : Numbered s) (hx : x ∈ s.entriesOf n) (hy : y ∈ s.journal.entries)
    (hctx : y.ctx ≠ n) : x.id ≠ y.id :=
  id_ne_of_ctx_ne hn (List.mem_filter.mp hx).1 hy (ctx_of_mem_entriesOf hx ▸ hctx.symm)

/-! ## The first step of a CONTEXT_CLOSE (R232) -/

theorem disarm_oneCtx (s : State) (n from_ : Nat) (q : W32) : OneCtx n s (s.disarm n from_ q) := by
  cases h : (s.ctx n).armedSched with
  | none =>
    have hsame : s.disarm n from_ q = s := by simp [State.disarm, h]
    exact .of_ctxs (by rw [hsame])
  | some a => exact (disarm_ctx h from_).1

/-- The commands of a context whose outcome is not decided. -/
def State.undecided (s : State) (n : Nat) : List Entry := (s.entriesOf n).filter (fun x => x.live && !x.decided)

/-- The close has begun: the target's schedule has ended and it is CLOSING, before its commands are cancelled. -/
theorem beginClose_cancelsAll (s : State) (n : Nat) (q : W32) :
    ∃ w, CancelsAll n (s.undecided n) w (s.beginClose n q) ∧ w.journal = s.journal ∧ OneCtx n s w ∧
      (w.ctx n).state = .closing ∧ (w.ctx n).closing = some (q, (s.undecided n).length) := by
  unfold State.beginClose
  extract_lets lastId v es _ w
  have hv : OneCtx n s v ∧ v.journal = s.journal := by
    unfold v
    split
    · exact ⟨disarm_oneCtx s n lastId 0, (State.disarm_same (SameBut.refl
        [.mem, .ctxs, .cores, .fabric, .counters, .trace] s) _ _ _ (by decide)).journal (by decide)⟩
    · split
      · exact ⟨.of_ctxs (traceRec_ctxs s ..), (State.traceRec_same (SameBut.refl
          [.mem, .fabric, .counters, .trace] s) _ _ _ _ _ (by decide)).journal (by decide)⟩
      · exact ⟨.of_ctxs rfl, rfl⟩
  obtain ⟨hothers, hjournal⟩ := hv
  have hes : es = s.undecided n := by
    unfold es State.undecided
    rw [entriesOf_congr hjournal]
  have hcancels : ∀ t (x : Entry), Cancels x.id x.ctx t ((t.endWork x).cancelEntry x) := fun t x =>
    .after_same (State.endWork_same (SameBut.refl [.cores, .fabric, .counters, .belt] t) x (by decide)) (by decide)
      (by decide) (by decide) (cancelEntry_cancels _ x)
  refine ⟨w, ?_, hjournal, hothers.trans (setCtx_oneCtx v n _), ?_, ?_⟩
  · rw [hes]
    exact cancelsAll_foldl hcancels (fun x hx => ctx_of_mem_entriesOf (List.mem_filter.mp hx).1) w
  · exact congrArg Ctx.state (setCtx_ctx_self v n _)
  · rw [← hes]
    exact congrArg Ctx.closing (setCtx_ctx_self v n _)

theorem exec_contextClose_begin (h : Runs s .contextClose 0 q e) (hclean : e.clean [(0x10, 0, 10)] = true)
    (hm : e.field 0x10 2 ≠ 0) (hclosed : (s.ctx (e.field 0x10 2)).state ≠ .closed)
    (hclosing : (s.ctx (e.field 0x10 2)).state ≠ .closing) :
    exec (.contextClose 0 q) s = .next (s.beginClose (e.field 0x10 2) q) := by
  have hstarts : s.startsClose q = some (e.field 0x10 2) := by
    simp [State.startsClose, h.1, hclean, hm, hclosed, hclosing]
  show execContextClose 0 q s = _
  simp [execContextClose, hstarts]

/-! ## The later steps of a CONTEXT_CLOSE -/

theorem exec_contextClose_later (h : Runs s .contextClose 0 q e)
    (hstate : (s.ctx (e.field 0x10 2)).state = .closed ∨ (s.ctx (e.field 0x10 2)).state = .closing) :
    exec (.contextClose 0 q) s = s.runOp .contextClose 0 q contextCloseWork := by
  have hstarts : s.startsClose q = none := by
    rcases hstate with hstate | hstate <;> simp [State.startsClose, h.1, hstate]
  show execContextClose 0 q s = _
  simp [execContextClose, hstarts]

section Close

variable (hclean : e.clean [(0x10, 0, 10)] = true) (hm : e.field 0x10 2 ≠ 0)
include hclean hm

theorem contextCloseWork_closed (hclosed : (s.ctx (e.field 0x10 2)).state = .closed) :
    contextCloseWork s e = .done Status.ok 0 false (s.auditCommand e none) := by
  simp [contextCloseWork, hclean, hm, hclosed]

theorem contextCloseWork_wait {p : W32} (hclosing : (s.ctx (e.field 0x10 2)).state = .closing)
    (hfirst : (s.ctx (e.field 0x10 2)).closing = some (p, k))
    (h : p ≠ e.seq ∨ s.stillEnding (e.field 0x10 2) = true) : contextCloseWork s e = .wait := by
  simp [contextCloseWork, hclean, hm, hclosing, hfirst, h]

theorem contextCloseWork_end (hclosing : (s.ctx (e.field 0x10 2)).state = .closing)
    (hfirst : (s.ctx (e.field 0x10 2)).closing = some (e.seq, k)) (h : s.stillEnding (e.field 0x10 2) = false) :
    contextCloseWork s e = .done Status.ok
      (BitVec.ofNat 32 (k + ((s.entriesOf (e.field 0x10 2)).filter Entry.live).length)) false
      ((s.closeContext (e.field 0x10 2)).auditCommand e none) := by
  simp [contextCloseWork, hclean, hm, hclosing, hfirst, h]

end Close

/-! ## Sealed pages (R408) -/

theorem memGet_memZero_of_zero {c : List Host.Cell} {a b z : Nat} (h : memGet c z = 0) :
    memGet (memZero c a b) z = 0 := by
  by_cases hin : a ≤ z ∧ z < a + b
  · exact memGet_memZero_inside hin
  · rw [memGet_memZero_outside (by omega), h]

/-- Pages over which zeros have been written in turn all read as zeros. -/
theorem memGet_foldl_memZero {pages : List Nat} {p : Nat} (hp : p ∈ pages) (hk : k < 65536) (c : List Host.Cell) :
    memGet (pages.foldl (fun c p => memZero c (65536 * p) 65536) c) (65536 * p + k) = 0 := by
  have hkeep : ∀ (ps : List Nat) (c : List Host.Cell), memGet c (65536 * p + k) = 0 →
      memGet (ps.foldl (fun c p => memZero c (65536 * p) 65536) c) (65536 * p + k) = 0 := fun ps => by
    induction ps with
    | nil => exact fun _ h => h
    | cons r rs ih => exact fun c h => ih _ (memGet_memZero_of_zero h)
  induction pages generalizing c with
  | nil => cases hp
  | cons r rs ih =>
    rcases List.mem_cons.mp hp with rfl | hp
    · exact hkeep rs _ (memGet_memZero_inside (by omega))
    · exact ih hp _

/-- The pages that seals of a context cover. -/
def State.sealedPages (s : State) (n : Nat) : List Nat :=
  (s.lining.seals.filter (fun z => z.ctx == n)).flatMap Seal.pages

theorem dropSeals_mem_seals (s : State) (n : Nat) :
    (s.dropSeals n).mem = (s.sealedPages n).foldl (fun c p => memZero c (65536 * p) 65536) s.mem ∧
      (s.dropSeals n).lining.seals = s.lining.seals.filter (fun z => z.ctx != n) := by
  unfold State.dropSeals
  extract_lets _ _ rs _ v
  have hcopies : SameBut [.cores, .fabric, .counters] v ((v.dropCopies rs).l2Invalidate rs) :=
    State.l2Invalidate_same (State.dropCopies_same (SameBut.refl _ v) rs (by decide)) rs (by decide)
  exact ⟨hcopies.mem (by decide), congrArg Lining.seals (hcopies.lining (by decide))⟩

theorem dropSeals_zero {z : Seal} {p : Nat} (hz : z ∈ s.lining.seals) (hctx : z.ctx = n) (hp : p ∈ z.pages)
    (hk : k < 65536) : memGet (s.dropSeals n).mem (65536 * p + k) = 0 := by
  rw [(dropSeals_mem_seals s n).1]
  exact memGet_foldl_memZero
    (List.mem_flatMap.mpr ⟨z, List.mem_filter.mpr ⟨hz, by simp [hctx]⟩, hp⟩) hk _

theorem auditCommand_seals (s : State) (e : Entry) (what : Option Bytes) :
    (s.auditCommand e what).lining.seals = s.lining.seals := by
  unfold State.auditCommand State.audited State.auditAdd?
  split
  · rfl
  · extract_lets
    split <;> rfl

/-! ## Loss records (R388) -/

theorem dropLosses_kept (s : State) (n : Nat) :
    (s.dropLosses n).journal.entries = s.journal.entries ∧ QuietMem s (s.dropLosses n) := by
  unfold State.dropLosses
  extract_lets gone
  induction gone generalizing s with
  | nil => exact ⟨rfl, .of_eq rfl rfl⟩
  | cons j js ih =>
    rw [List.foldl_cons]
    extract_lets _ v
    obtain ⟨hentries, hquiet⟩ := ih (v.journalPut (4096 * 64 + 32 * j) (zeroBytes 32))
    refine ⟨hentries.trans (by rw [State.journalPut_journal]), QuietMem.trans ?_ hquiet⟩
    exact QuietMem.trans (t := v) (.of_eq rfl rfl) (journalPut_quietMem v _ _)

/-! ## The queues and the reservations of a context (R272, R341) -/

/-- No core has a queue of the context. -/
def NoQueues (n : Nat) (s : State) : Prop := ∀ u ∈ s.cores, ∀ b ∈ u.2.queues, b.ctx ≠ n

theorem mem_of_smGet? {α : Type} {c : SMap α} {v : α} (h : smGet? c k = some v) : (k, v) ∈ c := by
  induction c with
  | nil => cases h
  | cons p ps ih =>
    obtain ⟨j, w⟩ := p
    by_cases hj : j = k
    · simp only [smGet?, hj, if_true, Option.some.injEq] at h
      simp [hj, h]
    · simp only [smGet?, hj, if_false] at h
      exact .tail _ (ih h)

theorem mem_smSet {α : Type} {c : SMap α} {v : α} {p : Nat × α} (h : p ∈ smSet c k v) : p = (k, v) ∨ p ∈ c := by
  simp only [smSet, List.mem_append, List.mem_filter, List.mem_singleton] at h
  obtain (⟨hmem, -⟩ | hnew) | ⟨hmem, -⟩ := h
  · exact .inr hmem
  · exact .inl hnew
  · exact .inr hmem

theorem NoQueues.core (h : NoQueues n s) (j : Nat) : ∀ b ∈ (s.core j).queues, b.ctx ≠ n := by
  unfold State.core smGet
  cases hj : smGet? s.cores j with
  | none => exact nofun
  | some v => exact h (j, v) (mem_of_smGet? hj)

theorem NoQueues.slewCycles (h : NoQueues n s) (j units : Nat) : NoQueues n (s.slewCycles j units) := by
  unfold State.slewCycles
  split
  · exact h
  · intro u hu
    rcases mem_smSet (c := s.cores) hu with rfl | hu
    · exact h.core j
    · exact h u hu

theorem NoQueues.endSteps (h : NoQueues n s) (who : Option (Nat × W32)) : NoQueues n (s.endSteps who) := by
  unfold State.endSteps
  extract_lets _ ends _ _ v
  have hv : NoQueues n v := h
  generalize v = w at hv
  clear h
  induction ends generalizing w with
  | nil => exact hv
  | cons a as ih => exact ih _ (hv.slewCycles _ _)

theorem endSteps_resv (s : State) (who : Option (Nat × W32)) : (s.endSteps who).belt.resv = s.belt.resv := by
  unfold State.endSteps
  extract_lets _ ends _ _ v
  have hslew := same_foldl (f := fun t (r : Activity) => t.slewCycles r.core (rampUnits r.ramp)) (xs := ends)
    (fun _ _ h => State.slewCycles_same h _ _ (by decide)) (SameBut.refl [.cores, .counters] v)
  rw [hslew.belt (by decide)]

/-- A context has no chain, no round, no retained version, no reservation and no queue. -/
structure HoldsNothing (n : Nat) (s : State) : Prop where
  chains : ∀ c ∈ s.chains, c.ctx ≠ n
  groups : ∀ g ∈ s.groups, g.2.ctx ≠ n
  retained : ∀ r ∈ s.retained, r.1.ctx ≠ n
  resv : ∀ r ∈ s.belt.resv, ∀ v, r = some v → v.ctx ≠ n
  queues : NoQueues n s

theorem HoldsNothing.of_same {l : List Part} (h : HoldsNothing n s) (g : SameBut l s t) (hc : .chains ∉ l)
    (hg : .groups ∉ l) (hr : .retained ∉ l) (hb : .belt ∉ l) (hq : .cores ∉ l) : HoldsNothing n t where
  chains := g.chains hc ▸ h.chains
  groups := g.groups hg ▸ h.groups
  retained := g.retained hr ▸ h.retained
  resv := g.belt hb ▸ h.resv
  queues := by unfold NoQueues; exact g.cores hq ▸ h.queues

theorem HoldsNothing.endSteps (h : HoldsNothing n s) (who : Option (Nat × W32)) : HoldsNothing n (s.endSteps who) :=
  have g := State.endSteps_same (SameBut.refl [.cores, .counters, .belt] s) who (by decide)
  { chains := g.chains (by decide) ▸ h.chains
    groups := g.groups (by decide) ▸ h.groups
    retained := g.retained (by decide) ▸ h.retained
    resv := endSteps_resv s who ▸ h.resv
    queues := h.queues.endSteps who }

/-- The machine without what a context holds beside its memory and its commands. -/
def State.dropHeld (s : State) (n : Nat) : State :=
  { s with
    fabric := s.fabric.dropRequests (fun r => r.ctx == n)
    retained := s.retained.filter (fun r => r.1.ctx != n)
    chains := s.chains.filter (fun c => c.ctx != n)
    groups := s.groups.filter (fun g => g.2.ctx != n)
    cores := s.cores.map (fun u => (u.1, u.2.dropCtx n))
    belt := { s.belt with
      resv := s.belt.resv.map (fun r => match r with | some v => if v.ctx = n then none else some v | none => none)
      requests := s.belt.requests.filter (fun r => r.ctx != n) } }

theorem dropHeld_same (s : State) (n : Nat) :
    SameBut [.retained, .cores, .fabric, .chains, .groups, .belt] s (s.dropHeld n) := same_mk (SameBut.refl _ s)

theorem dropHeld_holdsNothing (s : State) (n : Nat) : HoldsNothing n (s.dropHeld n) where
  chains c hc := by simpa using (List.mem_filter.mp hc).2
  groups g hg := by simpa using (List.mem_filter.mp hg).2
  retained r hr := by simpa using (List.mem_filter.mp hr).2
  resv r hr v hv := by
    obtain ⟨o, -, rfl⟩ := List.mem_map.mp hr
    split at hv
    · split at hv
      · cases hv
      · next hne => cases hv; exact hne
    · cases hv
  queues u hu b hb := by
    obtain ⟨c, -, rfl⟩ := List.mem_map.mp hu
    simpa using (List.mem_filter.mp hb).2

/-! ## The end of a close -/

/-- The machine in which the live commands of a context are cancelled, their effects standing (R473). -/
def State.cancelLive (s : State) (n : Nat) : State :=
  ((s.entriesOf n).filter Entry.live).foldl (fun t e => t.cancelEntry { e with commit := [], wrote := [] }) s

theorem cancelLive_cancelsAll (s : State) (n : Nat) :
    CancelsAll n ((s.entriesOf n).filter Entry.live) s (s.cancelLive n) :=
  cancelsAll_foldl (fun t x => cancelEntry_cancels t { x with commit := [], wrote := [] })
    (fun _ hx => ctx_of_mem_entriesOf (List.mem_filter.mp hx).1) s

/-- The machine without the pins and the loss records of a context, and without what it holds. -/
def State.dropAll (s : State) (n : Nat) : State := ((s.unpin (fun o => o.1 == n)).dropLosses n).dropHeld n

theorem dropAll_same (s : State) (n : Nat) :
    SameBut [.mem, .journal, .retained, .cores, .fabric, .chains, .groups, .belt] s (s.dropAll n) :=
  (dropHeld_same _ n).step (State.dropLosses_same (State.unpin_same (SameBut.refl _ s) _ (by decide)) n (by decide))
    (by decide)

theorem dropAll_entries (s : State) (n : Nat) : (s.dropAll n).journal.entries = s.journal.entries :=
  (dropLosses_kept (s.unpin (fun o => o.1 == n)) n).1

theorem dropAll_quietMem (s : State) (n : Nat) : QuietMem s (s.dropAll n) :=
  (dropLosses_kept (s.unpin (fun o => o.1 == n)) n).2

/-- The steps of a context's work have ended and its page is that of a closed one; what can be reclaimed is. -/
def State.closeCtx (s : State) (n : Nat) : State := (s.endSteps.setCtx n (s.ctx n).closed).reclaim

theorem closeCtx_same (s : State) (n : Nat) :
    SameBut [.mem, .ctxs, .journal, .cores, .fabric, .counters, .belt] s (s.closeCtx n) :=
  State.reclaim_same (State.setCtx_same (State.endSteps_same (SameBut.refl _ s) none (by decide)) n _ (by decide))
    (by decide)

theorem closeCtx_ctx (s : State) (n : Nat) : OneCtx n s (s.closeCtx n) ∧ (s.closeCtx n).ctx n = (s.ctx n).closed := by
  have hsteps := State.endSteps_same (SameBut.refl [.cores, .counters, .belt] s) none (by decide)
  have hreclaim := State.reclaim_same
    (SameBut.refl [.mem, .journal, .fabric] (s.endSteps.setCtx n (s.ctx n).closed)) (by decide)
  refine ctxs_eq_setCtx ((hreclaim.ctxs (by decide)).trans ?_)
  exact congrArg (smSet · n _) (hsteps.ctxs (by decide))

theorem closeCtx_reclaims (s : State) (n : Nat) : Reclaims s.journal.entries s (s.closeCtx n) := by
  have hsteps := State.endSteps_same (SameBut.refl [.cores, .counters, .belt] s) none (by decide)
  have hset := State.setCtx_same (SameBut.refl [.ctxs] s.endSteps) n (s.ctx n).closed (by decide)
  have hjournal : (s.endSteps.setCtx n (s.ctx n).closed).journal = s.journal :=
    (hset.journal (by decide)).trans (hsteps.journal (by decide))
  have h := reclaim_reclaims (s.endSteps.setCtx n (s.ctx n).closed)
  rw [hjournal] at h
  exact {
    stands := fun i hi => (EntryStands.of_entries (congrArg Journal.entries hjournal)).trans (h.stands i hi)
    mem := fun y hy => congrArg Journal.entries hjournal ▸ h.mem y hy
    quiet := ((QuietMem.of_same hsteps (by decide) (by decide)).trans (.of_same hset (by decide) (by decide))).trans
      h.quiet }

theorem closeCtx_holdsNothing (h : HoldsNothing n s) : HoldsNothing n (s.closeCtx n) :=
  (h.endSteps none).of_same (State.reclaim_same (State.setCtx_same (SameBut.refl [.mem, .ctxs, .journal, .fabric]
    s.endSteps) n (s.ctx n).closed (by decide)) (by decide)) (by decide) (by decide) (by decide) (by decide) (by decide)

/-- The stages of the end of a close. -/
theorem closeContext_eq (s : State) (n : Nat) :
    s.closeContext n = (((s.cancelLive n).dropSeals n).dropAll n).closeCtx n := rfl

/-- A context has no live command, no seal, and nothing else that a close takes away. -/
structure Gone (n : Nat) (s : State) : Prop where
  live : ∀ x ∈ s.journal.entries, x.ctx = n → x.live = false
  seals : ∀ z ∈ s.lining.seals, z.ctx ≠ n
  held : HoldsNothing n s

theorem Gone.auditCommand (h : Gone n s) (e : Entry) (what : Option Bytes) : Gone n (s.auditCommand e what) :=
  have haudit := State.auditCommand_same (SameBut.refl [.lining] s) e what (by decide)
  { live := haudit.journal (by decide) ▸ h.live
    seals := auditCommand_seals s e what ▸ h.seals
    held := h.held.of_same haudit (by decide) (by decide) (by decide) (by decide) (by decide) }

/-- The outcome of a command of another context brings nothing back. -/
theorem Gone.finishes {r : W32} (h : Gone n u) (ht : Finishes .contextClose e r u t) (he : u.entryAt e.id = some e)
    (hctx : e.ctx ≠ n) : Gone n t where
  live x hx hxn := by
    by_cases hid : e.id = x.id
    · have hown := ht.own x hx hid.symm
      rw [he] at hown
      exact absurd (hown.symm.trans hxn) hctx
    · exact h.live x ((ht.stands x.id hid).mem_iff.mp hx) hxn
  seals := ht.same.lining (by decide) ▸ h.seals
  held :=
    { chains := fun c hc => by
        obtain ⟨d, hd, hdc⟩ := ht.chains c hc
        exact hdc ▸ h.held.chains d hd
      groups := ht.same.groups (by decide) ▸ h.held.groups
      retained := ht.same.retained (by decide) ▸ h.held.retained
      resv := ht.same.belt (by decide) ▸ h.held.resv
      queues := by unfold NoQueues; exact ht.same.cores (by decide) ▸ h.held.queues }

/-- What the end of a close leaves of the machine. -/
structure CloseEnds (n : Nat) (s u : State) : Prop where
  stands : ∀ i, DispatchedAt i s → (∀ x ∈ s.entriesOf n, x.id ≠ i) → EntryStands i s u
  gone : Gone n u
  others : OneCtx n s u
  self : ∃ l, u.ctx n = Ctx.closed { s.ctx n with cancelled := l }
  journalState : s.journal.state = 0 → u.journal.state = 0
  zero : s.journal.state = 0 → ∀ z ∈ s.lining.seals, z.ctx = n → ∀ p ∈ z.pages, ∀ k, k < 65536 →
    memGet u.mem (65536 * p + k) = 0

theorem closeContext_closeEnds (s : State) (n : Nat) : CloseEnds n s (s.closeContext n) := by
  rw [closeContext_eq]
  have hcancels := cancelLive_cancelsAll s n
  generalize s.cancelLive n = v at hcancels ⊢
  obtain ⟨l, hself⟩ := hcancels.self
  have hseals := State.dropSeals_same (SameBut.refl [.mem, .cores, .fabric, .counters, .lining] v) n (by decide)
  have hdrop := dropAll_same (v.dropSeals n) n
  have hclose := closeCtx_same ((v.dropSeals n).dropAll n) n
  have hreclaims := closeCtx_reclaims ((v.dropSeals n).dropAll n) n
  have hctxs : ((v.dropSeals n).dropAll n).ctxs = v.ctxs := (hdrop.ctxs (by decide)).trans (hseals.ctxs (by decide))
  have hentries : ((v.dropSeals n).dropAll n).journal.entries = v.journal.entries :=
    (dropAll_entries _ n).trans (congrArg Journal.entries (hseals.journal (by decide)))
  have hquiet := (dropAll_quietMem (v.dropSeals n) n).trans hreclaims.quiet
  have hstate : s.journal.state = 0 → (v.dropSeals n).journal.state = 0 := fun h => by
    rw [hseals.journal (by decide), hcancels.journalState, h]
  obtain ⟨hothers, hclosed⟩ := closeCtx_ctx ((v.dropSeals n).dropAll n) n
  exact {
    stands := fun i hi hother => by
      have hw := (hcancels.stands i fun x hx => hother x (List.mem_filter.mp hx).1).trans (.of_entries hentries)
      exact hw.trans (hreclaims.stands i (hi.stands hw))
    gone :=
      { live := fun x hx hctx => by
          refine Bool.eq_false_iff.mpr fun hlive => ?_
          obtain ⟨hmem, hother⟩ := hcancels.live x (hentries ▸ hreclaims.mem x hx) hlive
          exact hother x (List.mem_filter.mpr ⟨List.mem_filter.mpr ⟨hmem, by simp [hctx]⟩, hlive⟩) rfl
        seals := fun z hz => by
          rw [hclose.lining (by decide), hdrop.lining (by decide), (dropSeals_mem_seals v n).2] at hz
          simpa using (List.mem_filter.mp hz).2
        held := closeCtx_holdsNothing (dropHeld_holdsNothing _ n) }
    others := (hcancels.others.trans (.of_ctxs hctxs)).trans hothers
    self := ⟨l, by rw [hclosed, ctx_congr hctxs, hself]⟩
    journalState := fun h => (hquiet (hstate h)).1
    zero := fun h z hz hctx p hp k hk => by
      rw [(hquiet (hstate h)).2]
      exact dropSeals_zero (hcancels.lining ▸ hz) hctx hp hk }

/-! ## The obligation -/

/-- Settles O38: CONTEXT_OPEN by its effect, whose region writes leave every context alone; CONTEXT_CLOSE by its first step,
which cancels the undecided commands of its target, and by what the stages of its last step leave. -/
theorem contextsOpenAndClose : Obligations.ContextsOpenAndClose := by
  unfold Obligations.ContextsOpenAndClose
  refine ⟨?_, ?_⟩
  · intro n q s e b hruns m hclean hm hclosed henable hb hok hregions
    let c := (s.openedCtx m b).2
    let u := (s.openContext m c).auditCommand e (some b)
    have haudit : SameBut [.lining] (s.openContext m c) u := State.auditCommand_same (SameBut.refl _ _) _ _ (by decide)
    have hstands : EntryStands e.id s u :=
      (openContext_entryStands m c (.of_runs hruns)).trans (.of_same haudit (by decide))
    obtain ⟨t, hexec, ht⟩ := runOp_finishes (eff := contextOpenWork) hruns rfl
      (contextOpenWork_done hclean hm hclosed henable hb hok hregions) (hstands.entryKept (.of_runs hruns))
    have hctxs : t.ctxs = (s.openContext m c).ctxs := (ht.same.ctxs (by decide)).trans (haudit.ctxs (by decide))
    obtain ⟨hothers, hself⟩ := openContext_ctx s m c
    refine ⟨t, hexec, sameX_of hexec (execContextOpen_same (SameBut.refl _ s) n q rfl), ht.ended,
      hothers.trans (.of_ctxs hctxs), ?_⟩
    rw [ctx_congr hctxs, hself]
    and_intros <;> rfl
  · intro q s e hruns m hclean hm
    obtain ⟨hrun, hn, -, -⟩ := id hruns
    obtain ⟨he, hctx, -, -⟩ := runnable_eq_some hrun
    have hseq : e.seq = q := (runnable_dispatched hrun).1
    refine ⟨fun hclosed => ?_, fun hclosed hclosing => ?_, fun hclosing p k hfirst hwait => ?_,
      fun k hclosing hfirst hended => ?_⟩
    · have haudit : SameBut [.lining] s (s.auditCommand e none) :=
        State.auditCommand_same (SameBut.refl _ s) _ _ (by decide)
      obtain ⟨t, hexec, ht⟩ := runOp_finishes (eff := contextCloseWork) hruns rfl
        (contextCloseWork_closed hclean hm hclosed) (.of_same (.of_runs hruns) haudit (by decide))
      exact ⟨t, (exec_contextClose_later hruns (.inl hclosed)).trans hexec,
        ht.same.step (haudit.step (SameBut.refl _ s) (by decide)) (by decide), ht.ended⟩
    · have hexec := exec_contextClose_begin hruns hclean hm hclosed hclosing
      obtain ⟨w, hcancels, hjournal, hothers, hstate, hfirst⟩ := beginClose_cancelsAll s m q
      obtain ⟨l, hself⟩ := hcancels.self
      refine ⟨_, hexec, sameX_of hexec (execContextClose_same (SameBut.refl _ s) 0 q rfl), by rw [hself, hstate],
        by rw [hself, hfirst]; rfl, hothers.trans hcancels.others, fun x hx hne => ?_, fun x hx hxm hlive => ?_⟩
      · exact (hcancels.stands x.id fun y hy => id_ne_of_mem_entriesOf hn (List.mem_filter.mp hy).1 hx hne).mem_iff.mpr
          (hjournal ▸ hx)
      · obtain ⟨hmem, hother⟩ := hcancels.live x hx hlive
        rw [hjournal] at hmem
        refine Decidable.byContradiction fun hundecided => ?_
        exact hother x (List.mem_filter.mpr ⟨List.mem_filter.mpr ⟨hmem, by simp [hxm]⟩, by simp [hlive, hundecided]⟩) rfl
    · exact (exec_contextClose_later hruns (.inr hclosing)).trans
        (runOp_of_wait hruns (contextCloseWork_wait hclean hm hclosing hfirst (hseq ▸ hwait)))
    · have hends := closeContext_closeEnds s m
      let u := (s.closeContext m).auditCommand e none
      have haudit : SameBut [.lining] (s.closeContext m) u := State.auditCommand_same (SameBut.refl _ _) _ _ (by decide)
      have hne : e.ctx ≠ m := hctx ▸ hm.symm
      have hstands : EntryStands e.id s u :=
        (hends.stands e.id (.of_runs hruns) fun x hx => id_ne_of_mem_entriesOf hn hx he hne).trans
          (.of_same haudit (by decide))
      obtain ⟨t, hwork, ht⟩ := runOp_finishes (eff := contextCloseWork) hruns rfl
        (contextCloseWork_end hclean hm hclosing (hseq ▸ hfirst) hended) (hstands.entryKept (.of_runs hruns))
      have hexec := (exec_contextClose_later hruns (.inr hclosing)).trans hwork
      have hctxs : t.ctxs = (s.closeContext m).ctxs := (ht.same.ctxs (by decide)).trans (haudit.ctxs (by decide))
      obtain ⟨l, hself⟩ := hends.self
      have hself := (ctx_congr hctxs m).trans hself
      obtain ⟨hlive, hsealed, hheld⟩ :=
        (hends.gone.auditCommand e none).finishes ht (hstands.entryAt.trans (entryAt_of_mem hn he)) hne
      refine ⟨t, hexec, sameX_of hexec (execContextClose_same (SameBut.refl _ s) 0 q rfl), ht.ended,
        hends.others.trans (.of_ctxs hctxs), congrArg Ctx.state hself, (congrArg Ctx.endpoint hself).trans rfl,
        congrArg Ctx.streams hself, congrArg Ctx.schedules hself, congrArg Ctx.ladders hself, congrArg Ctx.jobs hself,
        hlive, hheld.chains, hheld.groups, hheld.retained, hheld.resv, hheld.queues, hsealed, fun hquiet => ?_⟩
      have hstate : u.journal.state = 0 := by
        rw [haudit.journal (by decide)]
        exact hends.journalState hquiet.1
      rw [ht.mem hstate, haudit.mem (by decide)]
      exact hends.zero hquiet.1

end Sys2Proof.Machine
